-- ==== Sys2Proof/Word.lean ====
section
/-! DEFINITION. The word types of the block and their plainest arithmetic. -/

namespace Sys2Proof

/-- One byte of a transport, a slot or an image. -/
abbrev Byte := BitVec 8

/-- The value of one object (00_scope "Objects": a 32-bit object at class:instance:item). -/
abbrev Word := BitVec 32

/-- The largest value of a 32-bit saturating counter (R296). -/
def maxWord : Nat := 4294967295

/-- 2^48, the modulus of the frame index (R29) and of record numbers (R281). -/
def two48 : Nat := 281474976710656

end Sys2Proof
end

