-- ==== Sys2Proof/Syntax.lean ====
section
/-! DEFINITION. The commands of the block: one constructor of Instr for each row of the opcode table, and the
operands they carry. A mailbox command names the slot that holds it and carries its payload's fields. -/

namespace Sys2Proof

abbrev RailIx := Fin 16
abbrev PhaseIx := Fin 48
abbrev PortIx := Fin 32
abbrev DomainIx := Fin 8
abbrev CmpIx := Fin 32
abbrev TempIx := Fin 28
abbrev SlotIx := Fin 4
abbrev EngineIx := Fin 4
abbrev PointIx := Fin 16

/-- Feed A or feed B (09). -/
inductive FeedId where
  | a | b
deriving DecidableEq, Repr

/-- An object address class:instance:item, each part one byte (00_scope "Objects"). -/
structure Obj where
  cls : Nat
  inst : Nat
  item : Nat
deriving DecidableEq, Repr

/-- One member of a SET_GROUP, and the whole of a SET (R315). -/
structure ObjWrite where
  obj : Obj
  value : Word
deriving DecidableEq, Repr

/-- One entry of RAIL_TARGET (R315). -/
structure TargetMember where
  rail : Nat
  slew : Nat
  wait : Bool
  tag : Nat
  mv : Nat
deriving DecidableEq, Repr

/-- One entry of PHASE_FORCE (R315). -/
structure ForceMember where
  phase : Nat
  force : Nat
  duty : Nat
deriving DecidableEq, Repr

/-- A mailbox request with its payload taken apart (R315). -/
inductive Req where
  | hello (major minor hostId : Nat)
  | identify
  | get (o : Obj)
  | set (w : ObjWrite)
  | getBlock (o : Obj) (count : Nat)
  | setGroup (ms : List ObjWrite)
  | domainOn (mask : BitVec 8)
  | domainOff (mask : BitVec 8)
  | railTarget (ms : List TargetMember)
  | railClearLatch (rail : Nat) (override : Bool)
  | phaseForce (ms : List ForceMember)
  | tuneStart (rail : Nat)
  | tuneRead (what first count : Nat)
  | autotune (rail : Nat)
  | recRead (s : Nat)
  | recFreeze
  | recThaw
  | recClear (s : Nat)
  | snapRead (slot offset len : Nat)
  | cntClear (cls inst : Nat)
  | authChallenge (key : Nat)
  | cfgStage (offset : Nat) (data : List Byte)
  | cfgCommit (length : Nat)
  | cfgRead (copy offset len : Nat)
  | fwStage (offset : Nat) (data : List Byte)
  | fwActivate (slot : Nat)
  | twinHandover
  | twinArm
  | meterRead (what first index count : Nat)
  | meterIntervals (number max : Nat)
  | meterOpen
  | meterStage (param point : Nat) (value : Word)
  | meterCommit
  | meterAbandon
  | meterFwChunk (offset : Nat) (data : List Byte)
  | meterKeyLoad (key : List Byte)
  | meterBadOp (op : Nat)
  | timeSet (mode sec ns : Nat)
  | timeGet
  | sleep (wakeMs : Nat)
  | reset
deriving DecidableEq, Repr

/-- An accepted effect that waits for the next frame edge (R310, R317). A slot is named where its response becomes
READY at that edge. -/
inductive EdgeAction where
  | write (slot : Option SlotIx) (w : ObjWrite)
  | group (slot : Option SlotIx) (ms : List ObjWrite)
  | force (slot : Option SlotIx) (ms : List ForceMember)
  | domainReq (slot : Option SlotIx) (mask : BitVec 8) (on : Bool)
  | targets (slot : Option SlotIx) (ms : List TargetMember)
  | clearLatch (slot : Option SlotIx) (rail : RailIx) (override : Bool) (key : Nat)
  | tuneStart (slot : Option SlotIx) (rail : RailIx) (auto : Bool)
  | freeze (slot : Option SlotIx)
  | cntClear (slot : Option SlotIx) (cls inst key : Nat)
  | commit (slot : Option SlotIx) (generation : Nat)
  | coefs (rail : RailIx) (b0 b1 b2 a1 a2 : Word)
  | ffCmd (slot : Option SlotIx) (rail : RailIx) (cmd : Nat)
deriving DecidableEq, Repr

/-- A gate voltage, a bus and two feed voltages, in mV, as the frame's sampling left them (R189 … R192). -/
structure FeedIn where
  vinA : Nat
  vinB : Nat
  vbus : Nat
  gateA : Int
  gateB : Int
deriving DecidableEq, Repr

/-- What one rail's converters gave in the frame that ends: eight fine codes of set-point minus sensed
voltage, the coarse code, FSRC in mV and the FTMP voltage in µV (R105, R106, R198, R200). -/
structure RailIn where
  fine : List Int
  coarse : Nat
  fsrcMv : Nat
  ftmpUv : Int
  late : Bool
deriving DecidableEq, Repr

/-- Everything sampled in the frame that ends at a frame edge. A rail or phase the lists do not reach gave zero. -/
structure FrameIn where
  elapsedNs : Nat
  rails : List RailIn
  convs : List Int
  feeds : FeedIn
  en : BitVec 4
  gpio : BitVec 16
  actN : Bool
  sealN : Bool
  syncErr : Int
  cycles : List Nat
  heartbeat : Bool
  twFs : Bool
deriving DecidableEq, Repr

/-- A pulse on SYNC_IN: time since the previous valid edge and distance from the predicted position in ps, and its
width in ns (R41, R44). -/
structure SyncPulse where
  sincePs : Nat
  errPs : Int
  widthNs : Nat
deriving DecidableEq, Repr

/-- A character received on a port: its byte, whether its stop bit read 0, and the idle before it in ns (R163). -/
structure RxChar where
  byte : Byte
  framing : Bool
  idleNs : Nat
deriving DecidableEq, Repr

/-- A HELLO frame's payload (R168). -/
structure HelloMsg where
  seq : Nat
  major : Nat
  minor : Nat
  reply : Bool
  senderId : Nat
  caps : Nat
deriving DecidableEq, Repr

/-- A VREQ frame (R168): slew class, withdraw and tag are read only on a WL2 port. -/
structure VreqMsg where
  seq : Nat
  mv : Nat
  slew : Nat
  withdraw : Bool
  tag : Nat
deriving DecidableEq, Repr

/-- A STROKE frame (R168). -/
structure StrokeMsg where
  seq : Nat
  kind : Nat
  id : Nat
  expectedMs : Nat
deriving DecidableEq, Repr

/-- What raised a command to write one of an object's fields in a slot of its own row. -/
inductive ForceField where
  | force | duty
deriving DecidableEq, Repr

/-- Which low object of a latching pair is read (R299, R279). -/
inductive RecLow where
  | first | last
deriving DecidableEq, Repr

/-- Import or export energy counter (R279). -/
inductive EnergyDir where
  | imp | exp
deriving DecidableEq, Repr

/-- The link objects with the row LINK_CTRL_WRITE (R178). -/
inductive LinkField where
  | ctrl | auth
deriving DecidableEq, Repr

/-- GET or SET of TBL_DATA (R143). -/
inductive TblAccess where
  | read | write (v : Word)
deriving DecidableEq, Repr

/-- The four voltage levels of a rail (R216). -/
inductive Level where
  | uvWarn | ovWarn | uvFault | ovFault
deriving DecidableEq, Repr

/-- Why a rail enters hiccup (R223). -/
inductive HicCause where
  | current | uvFault | cmp
deriving DecidableEq, Repr

/-- A received Wairel frame that carries a STATUS (R168), as bytes. -/
structure StatusMsg where
  seq : Nat
  data : List Byte
deriving DecidableEq, Repr

/-- A heartbeat of the partner (R253): its frame index, role code, arming state, handover edge and started frame counts. -/
structure Heartbeat where
  frame : Nat
  role : Nat
  armed : Bool
  handoverEdge : Option Nat
  started : List Nat
  valid : Bool
deriving DecidableEq, Repr

/-- The law and profile part of an alignment record for one rail (R257), scaled integers of the twin link's own format:
duties in 2^-32 of the period, voltages in µV, velocities in µV/ms, accelerations in mV/ms². -/
structure RailAlign where
  sV : Int
  sI : Int
  sP : Int
  sT : Int
  e1 : Int
  e2 : Int
  f1 : Int
  f2 : Int
  eI1 : Int
  eP1 : Int
  eT1 : Int
  kLt : Int
  p : Int
  v : Int
  a : Int
  reqMv : Nat
  slew : Nat
  tag : Nat
  regime : Nat
  armed : Bool
  slamFrames : Nat
  hicRun : Nat
  hicLeft : Option Nat
  fuseState : Nat
  fuseRetry : Nat
  rseq : Nat
deriving DecidableEq, Repr

/-- The phase part of an alignment record (R257). -/
structure PhaseAlign where
  shed : Bool
  trim : Int
  carry : Nat
deriving DecidableEq, Repr

/-- An alignment record of the active (R257); rails and phases beyond the lists keep their own values. -/
structure AlignRec where
  edge : Nat
  rails : List RailAlign
  phases : List PhaseAlign
  selState : Nat
  episode : Nat
  domains : List Nat
deriving DecidableEq, Repr

/-- A record relayed by the twin (R293). -/
structure RelayRec where
  code : Nat
  srcClass : Nat
  srcInst : Nat
  sub : Nat
  seq : Nat
  data : List Byte
deriving DecidableEq, Repr

/-- The commands of the block, one for each row of spec/opcode_table.json, in the table's order. -/
inductive Instr where
  | hello (slot : SlotIx) (major minor hostId : Nat)
  | identify (slot : SlotIx)
  | get (slot : SlotIx) (o : Obj)
  | set (slot : SlotIx) (o : Obj) (v : Word)
  | getBlock (slot : SlotIx) (o : Obj) (count : Nat)
  | setGroup (slot : SlotIx) (ms : List ObjWrite)
  | domainOn (slot : SlotIx) (mask : BitVec 8)
  | domainOff (slot : SlotIx) (mask : BitVec 8)
  | railTarget (slot : SlotIx) (ms : List TargetMember)
  | railClearLatch (slot : SlotIx) (rail : Nat) (override : Bool)
  | phaseForce (slot : SlotIx) (ms : List ForceMember)
  | tuneStart (slot : SlotIx) (rail : Nat)
  | tuneRead (slot : SlotIx) (what first count : Nat)
  | autotune (slot : SlotIx) (rail : Nat)
  | recRead (slot : SlotIx) (s : Nat)
  | recFreeze (slot : SlotIx)
  | recThaw (slot : SlotIx)
  | recClear (slot : SlotIx) (s : Nat)
  | snapRead (slot : SlotIx) (snap offset len : Nat)
  | cntClear (slot : SlotIx) (cls inst : Nat)
  | authChallenge (slot : SlotIx) (key : Nat)
  | cfgStage (slot : SlotIx) (offset : Nat) (data : List Byte)
  | cfgCommit (slot : SlotIx) (length : Nat)
  | cfgRead (slot : SlotIx) (copy offset len : Nat)
  | fwStage (slot : SlotIx) (offset : Nat) (data : List Byte)
  | fwActivate (slot : SlotIx) (fwSlot : Nat)
  | twinHandover (slot : SlotIx)
  | twinArm (slot : SlotIx)
  | meterRead (slot : SlotIx) (what first index count : Nat)
  | meterIntervals (slot : SlotIx) (number max : Nat)
  | meterSessionOpen (slot : SlotIx)
  | meterSessionStage (slot : SlotIx) (param point : Nat) (value : Word)
  | meterSessionCommit (slot : SlotIx)
  | meterSessionAbandon (slot : SlotIx)
  | meterSessionFwChunk (slot : SlotIx) (offset : Nat) (data : List Byte)
  | meterSessionKeyLoad (slot : SlotIx) (key : List Byte)
  | timeSetAtPps (slot : SlotIx) (sec : Nat)
  | timeSetNow (slot : SlotIx) (sec ns : Nat)
  | timeGet (slot : SlotIx)
  | sleep (slot : SlotIx) (wakeMs : Nat)
  | reset (slot : SlotIx)
  | spiTransaction (mosi : List Byte)
  | i2cTransaction (addr : Nat) (written : List Byte) (readLen : Nat)
  | alertResponse (won : Bool)
  | windowRegisterWrite (off : Nat) (data : List Byte)
  | istatClear (v : Word)
  | doorbell (v : Word)
  | release (v : Word)
  | headerRead (slot : SlotIx)
  | requestSlotWrite (slot : SlotIx) (off : Nat) (data : List Byte)
  | slotTaken (slot : SlotIx)
  | responseReady (slot : SlotIx)
  | frameLoRead (slot : SlotIx)
  | secLoRead (slot : SlotIx)
  | recFirstLastLoRead (slot : SlotIx) (which : RecLow)
  | meterLoRead (slot : SlotIx) (point : PointIx) (dir : EnergyDir)
  | cebudRead (slot : SlotIx) (e : EngineIx)
  | meterStatRead (slot : SlotIx) (point : PointIx)
  | tblDataAccess (slot : SlotIx) (r : RailIx) (acc : TblAccess)
  | align (slot : SlotIx) (v : Word)
  | coefApply (slot : SlotIx) (r : RailIx) (v : Word)
  | tuneStop (slot : SlotIx) (v : Word)
  | cmpClr (slot : SlotIx) (c : CmpIx) (v : Word)
  | hsunlock (slot : SlotIx) (n : PhaseIx) (v : Word)
  | ltReset (slot : SlotIx) (r : RailIx) (v : Word)
  | keyApply (slot : SlotIx) (v : Word)
  | ffCmdClear (slot : SlotIx) (r : RailIx)
  | ffCmdSave (slot : SlotIx) (r : RailIx)
  | ffCmdRestore (slot : SlotIx) (r : RailIx)
  | targetWrite (slot : SlotIx) (r : RailIx) (v : Word)
  | forceWrite (slot : SlotIx) (n : PhaseIx) (field : ForceField) (v : Word)
  | busModeWrite (slot : SlotIx) (v : Word)
  | portEnable (slot : SlotIx) (p : PortIx) (v : Word)
  | portDisable (slot : SlotIx) (p : PortIx) (v : Word)
  | linkCtrlWrite (slot : SlotIx) (r : RailIx) (field : LinkField) (v : Word)
  | slamDisable (slot : SlotIx) (r : RailIx) (v : Word)
  | syncDisable (slot : SlotIx) (v : Word)
  | frameEdge (inp : FrameIn)
  | overrun (r : RailIx)
  | slamTimeout (r : RailIx)
  | periodStart (n : PhaseIx) (mid : Bool)
  | cleanRunLeak (n : PhaseIx)
  | cmpAssert (c : CmpIx) (pinUv : Int) (tick : Nat)
  | tripLatch (n : PhaseIx)
  | cmpFirstDecision (c : CmpIx) (pinUv : Int)
  | clockFault (unlocked : Bool)
  | dlcal (n : PhaseIx) (spans : Bool) (tap : Nat)
  | syncInEdge (pulse : Option SyncPulse)
  | syncAcquire
  | syncLock
  | syncLoss
  | holdoverExpiry
  | returnComplete
  | alignComplete
  | ppsEdge (falling : Bool)
  | ppsLoss
  | timeSetTimeout
  | periodicTimeAnchor
  | supervisorWatchdog
  | housekeepingWatchdog
  | linkEngineWatchdog
  | debugHalt (e : EngineIx)
  | debugResume (e : EngineIx)
  | skimStart (r : RailIx)
  | skimMeasureStart (n : PhaseIx)
  | skimEnd (n : PhaseIx)
  | passiveSkimStart (r : RailIx)
  | gcalWindowEnd (r : RailIx)
  | phaseLagging (n : PhaseIx)
  | laggingClear (n : PhaseIx)
  | qaccSave
  | commandDone (r : RailIx)
  | softstartEnd (r : RailIx)
  | ffFadeEnd (r : RailIx)
  | strokeTimeout (r : RailIx)
  | posStale (r : RailIx)
  | tuneSettleEnd
  | tuneDone
  | autotuneDesignEnd
  | ltWindowEnd (r : RailIx)
  | ltResume (r : RailIx)
  | wairelHello (p : PortIx) (m : HelloMsg)
  | vreq (p : PortIx) (m : VreqMsg)
  | vackDone (p : PortIx)
  | pos (p : PortIx) (seq position : Nat)
  | stroke (p : PortIx) (m : StrokeMsg)
  | loadStatus (p : PortIx) (m : StatusMsg)
  | ping (p : PortIx) (seq : Nat) (reply : Bool) (cookie : Nat)
  | linkFrameDiscarded (p : PortIx) (chars : List RxChar)
  | frameGapTimeout (p : PortIx) (chars : List RxChar)
  | linkFrameTransmit (p : PortIx)
  | helloRetry (p : PortIx)
  | portLost (p : PortIx)
  | pingTimer (p : PortIx)
  | statusTimer (p : PortIx)
  | warnRepeat (p : PortIx)
  | feedReturn
  | breakConfirm
  | breakFail
  | deadEnd
  | feedOn
  | makeFail
  | ewarnClear
  | fuseRampDone (r : RailIx)
  | fuseInsertTimeout (r : RailIx)
  | fuseRetry (r : RailIx)
  | passShort (r : RailIx)
  | passShortArm (r : RailIx)
  | loadDetectChange (r : RailIx) (fsrcMv : Nat)
  | uvWarnCrossing (r : RailIx)
  | ovWarnCrossing (r : RailIx)
  | uvFaultCrossing (r : RailIx)
  | ovFaultCrossing (r : RailIx)
  | levelCrossingEnd (r : RailIx) (l : Level)
  | hiccup (r : RailIx)
  | hiccupRestart (r : RailIx)
  | hicRunReset (r : RailIx)
  | inputUv (r : RailIx)
  | inputOv (r : RailIx)
  | inputHoldEnd (r : RailIx)
  | tempUpdate (i : TempIx) (reading : Option Int)
  | tempStopClear (r : RailIx)
  | tempDeviceClear
  | enPinChange (pin : Fin 4)
  | domainUnblocked (d : DomainIx)
  | railUpStep (r : RailIx)
  | railQualified (r : RailIx)
  | startFail (r : RailIx)
  | railDownStep (r : RailIx)
  | dischargeDone (r : RailIx)
  | dischargeTimeout (r : RailIx)
  | domainRetry (d : DomainIx)
  | twinHeartbeat (hb : Heartbeat)
  | twinAlignmentRecord (ar : AlignRec)
  | twinTakeover
  | twinSplit
  | twinFrameSyncLoss
  | twinLinkUp (major minor digest : Nat) (sameSeat : Bool)
  | listenJoin
  | listenClaim
  | twinPartnerLost
  | twinResyncComplete (frame : Nat) (ar : AlignRec)
  | handoverEdge
  | rejoinHoldoffEnd
  | partnerRecord (rr : RelayRec)
  | meterSample (point : PointIx) (shuntNv dividerUv : Int)
  | meterSave (ok : Bool)
  | powerFailWarning
  | intervalBoundary
  | meterFwCheck (crc : Word)
  | mirrorPublish
  | sessionTimeout
  | sealRelease
  | freezeExpiry
  | recorderMediaRetry (ringOk spareOk : Bool)
  | snapshotStore (ok : Bool)
  | snapshotRetry (ok : Bool)
  | counterSave
  | windowOpen
  | deferArmedClear
  | nvmRefresh (rewritten remapped : Nat)
  | eccScrub (corrected : Nat) (lost : List Nat)
  | trialEnd
  | authLockEnd
  | nonceExpiry
  | hsunlockExpiry (n : PhaseIx)
  | uvloRelease
  | uvloReset
  | resetN
  | boot
  | commandResetExecute
  | sleepEntry
  | wake (source : Nat) (elapsedFrames : Nat)
  | wakeTimer
  | meterCoreWatchdog
  | twinLinkDown
  | twinReplicatedCommand (edge : Nat) (act : EdgeAction)
  | sweepStepEnd
  | slowTick (elapsedFrames : Nat)
  | cmpDeassert (c : CmpIx) (pinUv : Int)
  | actLineFault
deriving DecidableEq, Repr

end Sys2Proof
end

