-- ==== Sys2Proof/Config.lean ====
section
/-! DEFINITION. What the manual leaves free: constants without a body, one for each open value.
Every one is named in a log entry; no proof can see a value of any of them. -/

namespace Sys2Proof.Config

/-- R313: the n-th nonce byte sequence of the device (log entry 2). -/
opaque nonce : Nat → List Byte

/-- R325: does this staged firmware image carry a valid signature under Otathel's key in ROM (log entry 6). -/
opaque firmwareVerifies : List Byte → Bool

/-- R273: does this meter image carry a valid signature under Otathel's meter key (log entry 6). -/
opaque meterImageVerifies : List Byte → Bool

/-- R345: the unique device number, 64 bits (log entry 7). -/
opaque uniqueDeviceNumber : BitVec 64

/-- R345 BOOT_US: how long the n-th boot took, in µs (log entry 7). -/
opaque bootMicros : Nat → Word

/-- R324: frames from the PLL's lock to the records of step 5, and from there to READY, in the n-th boot (log entry 7). -/
opaque bootFrames : Nat → Nat
opaque bootTail : Nat → Nat

/-- R279 PART.FW_VER and PART.FW_CRC of the meter firmware as delivered (log entry 4). -/
opaque meterFwVersion : BitVec 16
/-- R273: the CRC-32 over the meter image as delivered (log entry 4). -/
opaque meterFwCrc : Word

/-- R276: the version that a meter image carries; the manual gives no layout for it (log entry 4). -/
opaque meterImageVersion : List Byte → BitVec 16

/-- R330 step 6: does the armed standby's own check of the n-th commit agree (log entry 22)? -/
opaque standbyAgrees : Nat → Bool

/-- R46: the n-th value of the 15-bit linear-feedback sequence, whose taps the manual does not give (log entry 12). -/
opaque lfsr15 : Nat → BitVec 15

/-- R149: a sine, sweep step or chirp of a session: signal code, lowest and highest frequency in Hz, frame of the session, as a
fraction of the amplitude (log entry 13). -/
opaque injection : Nat → Nat → Nat → Nat → Rat

/-- R149: the k-th chip of the pseudo-random sequence of an order, whose polynomial the manual does not give (log entry 13). -/
opaque prbs : Nat → Nat → Bool

/-- R154: the device's sine in the first half of its cycle, by a phase in 2 000 000 parts of a cycle (log entry 13). -/
opaque halfSine : Nat → Rat

/-- R151: the single-bin transform of two records at one frequency: magnitude in 0.001 dB, argument in 0.01 degree,
quality in UQ0.16 (log entry 13). -/
opaque correlate : List Int → List Int → Nat → Bool → Int × Int × Nat

/-- R149: the i-th of n frequencies spaced by equal ratios from lo to hi, in Hz (log entry 13). -/
opaque logSpaced : Nat → Nat → Nat → Nat → Nat

/-- R154: the live-tuning transform of one window: |L| and its argument in 0.01 degree and the quality (log entry 13). -/
opaque liveTransform : List Rat → List Rat → Nat → Rat × Int × Nat

/-- R152: the AUTOTUNE design from the measured plant at the crossover and phase margin asked for: the boost in 0.01 degree,
fp in Hz, the five coefficients as words, and the predicted crossover, phase margin and gain margin (log entry 13). -/
opaque autotuneDesign : List Int → List Int → Nat → Nat → Int × Nat × (Word × Word × Word × Word × Word) × (Nat × Nat × Int)

/-- R95: the recursive-least-squares fit of one phase's gain correction after a window, in 0.001 % (log entry 14). -/
opaque gainFit : Nat → Nat → Int

/-- R112, R115, R142, R241: what the device takes for a division by a bus that measures 0 V (log entry 15). -/
opaque overZeroBus : Rat → Rat

/-- R49: the rate in ppb that the device takes to remove an error in ns, from the rate in use; the manual bounds it to
±200 ppm only (log entry 11). -/
opaque ppsRate : Int → Rat → Rat

/-- R143: what TBL_DATA reads at an index past the end of the table (log entry 23). -/
opaque tablePastEnd : Nat → BitVec 16

/-- R256: the CRC-32 over the items of R16, whose order and coding the manual does not give (log entry 20). -/
opaque cfgDigest : List Nat → Word

/-- R25: frames from a watchdog expiry to the restart of the housekeeping or the link engine, for the n-th expiry. The manual
bounds them to 1 ms only (log entry 21). -/
opaque engineRestart : Nat → Nat

/-- R315: a field of a CFG_COMMIT response that its REASON gives no meaning to, by REASON and the field's first byte: BUDGET
without REASON 4, the offset without REASON 3, the generation without a commit (log entry 40). -/
opaque commitField : Nat → Nat → Nat

end Sys2Proof.Config
end

