-- ==== Sys2Proof/Machine/State.lean ====
section
/-! DEFINITION. The state of the CPV4816 as plain data: the object registers as one sparse list, and the dynamic state of
each chapter in a structure of its own. A field's default value is its value in State.reset.
"stamp" fields hold frame counts of the clock `now`, against which the manual's timers run. -/

namespace Sys2Proof.Machine

/-- No command of this block stops the machine: the manual gives every event an effect, so there is no fault. -/
inductive Fault where
deriving DecidableEq, Repr

/-- Why a command is refused by the model. -/
inductive Refusal where
  /-- Raised by an arm of exec whose command has no meaning yet (safe). -/
  | notModelled (mnemonic : String)
deriving DecidableEq, Repr

/-- Object values by key class·65536 + inst·256 + item, keys strictly rising, no entry equal to its default. -/
abbrev Store := List (Nat × Word)

/-- Sparse signed tables (pattern bins, legacy entries, sums): indexes strictly rising, no entry 0. -/
abbrev Sparse := List (Nat × Int)

/-- CLK.STAT.SYNC_STATE (R42). -/
inductive SyncState where
  | own | acquiring | locked | holdover | returning
deriving DecidableEq, Repr

/-- Frame, clocks and synchronisation (02). -/
structure ClkState where
  frame : Nat := 0
  superframe : Nat := 0
  frameHi : Nat := 0
  sync : SyncState := .own
  syncErr : Int := 0
  freqOfs : Rat := 0
  syncFreq : Rat := 0
  validRun : Nat := 0
  missRun : Nat := 0
  present8 : List Bool := []
  lockFrames : Nat := 0
  holdoverEnd : Option Nat := none
  markerNow : Bool := false
  markerSeen : Bool := false
  alignReq : Bool := false
  alignBusy : Bool := false
  outDly : Nat := 0
  refsel : Bool := false
  dlLast : Nat := 0
  dlTap : Nat := 0
deriving DecidableEq, Repr

/-- TIME.STAT.STATE (R54). -/
inductive TimeSt where
  | unset | free | acquiring | locked | holdover
deriving DecidableEq, Repr

/-- The time counter of the main side or of the meter core (R48 … R51, R270). -/
structure TimeState where
  sec : Nat := 0
  ns : Rat := 0
  mono : Rat := 0
  tstate : TimeSt := .unset
  secHi : Nat := 0
  nsLatch : Nat := 0
  ppsErr : Int := 0
  rate : Rat := 0
  learnt : Rat := 0
  edgeComp : Rat := 0
  ppsRun : Nat := 0
  lastPps : Option Rat := none
  wasSet : Bool := false
  setFresh : Bool := false
  setPending : Option (Option SlotIx × Nat × Rat) := none
  lastAnchor : Nat := 0
deriving DecidableEq, Repr

/-- The force of a phase (R70). -/
inductive Force where
  | none | off | lsOn | duty | hsOn
deriving DecidableEq, Repr

/-- The output states of R57. -/
inductive OutState where
  | hsOn | lsOn | dead | parked | disabled
deriving DecidableEq, Repr

/-- The settings a generator took at its last period start (R82, R123). -/
structure PhaseSet where
  ctrl : Word := 0
  offset : Nat := 0
  maxduty : Nat := 62259
  minH : Nat := 640
  minL : Nat := 640
  period : Nat := 32000
deriving DecidableEq, Repr

/-- The generator of one phase (03). -/
structure GenState where
  set : PhaseSet := {}
  committed : Nat := 0
  prevCommitted : Nat := 0
  loaded : Nat := 0
  code1 : Nat := 0
  te : Nat := 0
  rise : Option Nat := none
  fall : Option Nat := none
  startTick : Nat := 0
  thisPeriod : Nat := 32000
  nextStart : Nat := 0
  placed : Bool := false
  lastEdge : Option Nat := none
  lastOfs : Nat := 0
  hasOfs : Bool := false
  midDue : Bool := false
  carry : Nat := 0
  force : Force := .none
  forceDuty : Nat := 0
  forceOn : Force := .none
  forceOnDuty : Nat := 0
  hsUnlock : Option Nat := none
  tripCount : Nat := 0
  cleanRun : Nat := 0
  tripped : Bool := false
  issued : Bool := false
  trLatched : Bool := false
  /-- The frame from which a crowbar holds the low side on: four frames after PWML rises from Disabled (R58). -/
  crowbarAt : Option Nat := none
  frozen : Option OutState := none
  wokeAt : Option Nat := none
  switching : Bool := false
  slamPark : Bool := false
  dlHas : Bool := false
  dlFail : Bool := false
  dlNew : Option Bool := none
deriving DecidableEq, Repr

/-- Current sense, balance and placement of one phase (04). -/
structure SenseState where
  zero : Rat := 0
  gainCorr : Rat := 0
  iph : Rat := 0
  iinst : Rat := 0
  sage : Nat := 0
  sdisp : Int := 0
  refNow : Bool := false
  dispNow : Int := 0
  vdiffNow : Rat := 0
  trim : Rat := 0
  limitRun : Nat := 0
  offRun : Nat := 0
  lagging : Bool := false
  lagNeg : Bool := false
  qacc : Rat := 0
  lastSkim : Option Nat := none
  shed : Bool := false
  shedAt : Nat := 0
deriving DecidableEq, Repr

structure PhaseState where
  gen : GenState := {}
  sense : SenseState := {}
deriving DecidableEq, Repr

/-- RAIL.STAT.REGIME (R108). -/
inductive Regime where
  | linear | slamUp | slamDown
deriving DecidableEq, Repr

/-- RAIL.STAT.LOOP (R116). -/
inductive LoopSel where
  | voltage | current | power | temperature
deriving DecidableEq, Repr

/-- The law's states of one rail (05). -/
structure LawState where
  regime : Regime := .linear
  armed : Bool := false
  slamFrames : Nat := 0
  overRun : Nat := 0
  underRun : Nat := 0
  sV : Rat := 0
  sI : Rat := 0
  sP : Rat := 0
  sT : Rat := 0
  e1 : Rat := 0
  e2 : Rat := 0
  f1 : Rat := 0
  f2 : Rat := 0
  eI1 : Option Rat := none
  eP1 : Option Rat := none
  eT1 : Option Rat := none
  b0 : Word := 0
  b1 : Word := 0
  b2 : Word := 0
  a1 : Word := 0
  a2 : Word := 0
  loop : LoopSel := .voltage
  dSel : Rat := 0
  dRail : Nat := 0
deriving DecidableEq, Repr

/-- What the law saw and asked for in the last frame (R105, R115, R120, R125), in volts, amperes, watts, kelvin. -/
structure MeasState where
  e : Rat := 0
  v : Rat := 0
  pAt : Rat := 0
  vCoarse : Rat := 0
  outWin : Bool := false
  iRail : Rat := 0
  pIn : Rat := 0
  pHist : List Rat := []
  pShare : Option Rat := none
  demV : Rat := 0
  demI : Rat := 0
  demP : Rat := 0
  demT : Rat := 0
  dFF : Rat := 0
  tStage : Rat := 25
  ovrCount : Nat := 0
  sawLimit : Bool := false
deriving DecidableEq, Repr

/-- The profile (06): position in mV, velocity in mV/ms, acceleration in mV/ms². -/
structure ProfState where
  p : Rat := 0
  v : Rat := 0
  a : Rat := 0
  reqMv : Nat := 0
  tgtMv : Nat := 0
  slew : Nat := 0
  tag : Nat := 0
  port : Nat := 255
  waiter : Option (SlotIx × Nat) := none
  done : Bool := false
  inBand : Nat := 0
  softStart : Bool := false
  linkReq : Option (Nat × Nat) := none
deriving DecidableEq, Repr

/-- An open stroke (R138). -/
structure StrokeState where
  id : Nat
  table : Nat
  startAt : Nat
  expected : Nat
deriving DecidableEq, Repr

/-- A pattern save (R141): both tables and their identity. -/
structure PatSave where
  t0 : Sparse
  t1 : Sparse
  mode : Nat
  period : Nat
  ids : Nat
  phases : Nat
deriving DecidableEq, Repr

/-- Feed-forward of one rail (R135 … R143). -/
structure FfState where
  t0 : Sparse := []
  t1 : Sparse := []
  fric : Sparse := []
  cog : Sparse := []
  sums : List (Nat × Rat) := []
  counts : Sparse := []
  spoiled : List Nat := []
  mode : Nat := 0
  bin : Nat := 0
  fade : Option (Rat × Nat) := none
  applied : Bool := false
  dFF : Rat := 0
  stroke : Option StrokeState := none
  mismatch : Bool := false
  frozen : Bool := false
  restored : Bool := false
  stale : Bool := false
  savedFlag : Bool := false
  pos : Option Nat := none
  posAt : Nat := 0
  dir : Int := 0
  patErr : Rat := 0
  lastIdx : Nat := 0
deriving DecidableEq, Repr

/-- Live tuning of one rail (R154 … R157). -/
structure LtState where
  kLt : Rat := 1
  running : Bool := false
  ending : Bool := false
  paused : Bool := false
  sineFrame : Nat := 0
  window : List (Rat × Rat) := []
  windowFrames : Nat := 0
  sine : Rat := 0
  mag : Rat := 0
  phase : Int := 0
  qual : Nat := 0
  clearRun : Nat := 0
deriving DecidableEq, Repr

/-- A running skim (R91). -/
structure Skim where
  phase : PhaseIx
  began : Option Nat
  decayRun : Nat
  measuring : Bool
  sum : Rat
  count : Nat
deriving DecidableEq, Repr

/-- Outcome of the last skim to end (R104). -/
inductive SkimOut where
  | none | done | rejected | tooShort | aborted
deriving DecidableEq, Repr

/-- Placement and skimming of one rail (04). -/
structure PlcState where
  iHist : List Rat := []
  scale2 : Rat := 1
  lastMove : Nat := 0
  lastAddShed : Option Nat := none
  skim : Option Skim := none
  passive : Option Skim := none
  lastPhase : Nat := 255
  lastOut : SkimOut := .none
  lastActiveEnd : Nat := 0
  gcalWindows : Nat := 0
  gcalStart : Nat := 0
  gcalOk : Bool := false
  gcalSum : Rat := 0
  gcalCount : Nat := 0
  metSum : Rat := 0
  gcalSet : List Nat := []
deriving DecidableEq, Repr

/-- PROT_STAT.LATCH (R235). -/
inductive Latch where
  | none | crowbar | overcurrent | overrun | tripLatch | overtemp | passShort | cmp | startFail
deriving DecidableEq, Repr

/-- Protection of one rail (10). -/
structure ProtState where
  uvw : Bool := false
  ovw : Bool := false
  uvf : Bool := false
  ovf : Bool := false
  uvwRun : Nat := 0
  ovwRun : Nat := 0
  uvfRun : Nat := 0
  ovfRun : Nat := 0
  limRun : Nat := 0
  notLimRun : Nat := 64
  cmpHic : Bool := false
  hicEnd : Option Nat := none
  hicRun : Nat := 0
  hicClean : Nat := 0
  latch : Latch := .none
  crowbar : Bool := false
  inuv : Bool := false
  inov : Bool := false
  inuvRun : Nat := 0
  inovRun : Nat := 0
  inGoodSince : Option Nat := none
  thold : Bool := false
deriving DecidableEq, Repr

/-- SEQ_STAT.RSEQ (R238). -/
inductive Rseq where
  | off | ramp | on | discharge
deriving DecidableEq, Repr

/-- Sequencing of one rail (11). -/
structure SeqState where
  rseq : Rseq := .off
  good : Bool := false
  qualStart : Option Nat := none
  upEnd : Nat := 0
  disRun : Nat := 0
  disEnd : Nat := 0
  minOffEnd : Nat := 0
  paused : Bool := false
  disDuty : Rat := 0
  disErr1 : Rat := 0
deriving DecidableEq, Repr

/-- FUSE_STAT.STATE (R198). -/
inductive FuseSt where
  | off | ramp | on | tripped | latched | passShort
deriving DecidableEq, Repr

/-- The output fuse of one rail (09). -/
structure FuseState where
  fstate : FuseSt := .off
  retry : Nat := 0
  cause : Nat := 0
  limiting : Bool := false
  psArmed : Bool := false
  gateOffAt : Nat := 0
  rampAt : Nat := 0
  trippedAt : Nat := 0
  aboveRun : Nat := 0
  tc : Rat := 25
  tj : Rat := 25
  voutMv : Nat := 0
  load : Bool := false
deriving DecidableEq, Repr

/-- One history row of R295. -/
structure HistRow where
  vUv : Int := 0
  iMa : Int := 0
  dsel : Nat := 0
  flags : Nat := 0
  nact : Nat := 0
  eUv : Int := 0
deriving DecidableEq, Repr

/-- One rail. -/
structure RailState where
  law : LawState := {}
  meas : MeasState := {}
  prof : ProfState := {}
  ff : FfState := {}
  lt : LtState := {}
  plc : PlcState := {}
  prot : ProtState := {}
  seq : SeqState := {}
  fuse : FuseState := {}
  hist : List HistRow := []
  histFrozen : Bool := false
  carrierBase : Nat := 0
  period : Nat := 32000
  upDue : Option Nat := none
  dnDue : Option Nat := none
deriving DecidableEq, Repr

/-- PORT.STAT.STATE (R169). -/
inductive PortSt where
  | disabled | negotiating | wl1 | wl2 | lost
deriving DecidableEq, Repr

/-- The frames the device sends on a port (R168). -/
inductive TxMsg where
  | hello (major minor : Nat) (reply : Bool)
  | vackStart (tag : Nat) (clamped duplicate inForce : Bool) (tgtMv : Nat)
  | vackDone (tag : Nat) (clamped duplicate : Bool) (vMv : Nat)
  | vnak (tag reason : Nat)
  | warn (cause feed holdup vbus episode : Nat)
  | status (vMv tgtMv flags inForce feed : Nat)
  | ping (reply : Bool) (cookie : Nat)
deriving DecidableEq, Repr

/-- A standing request (R171). -/
structure Standing where
  mv : Nat
  slew : Nat
  tag : Nat
deriving DecidableEq, Repr

/-- An accepted WL2 request without its final acknowledgement (R175). -/
structure PendAck where
  tag : Nat
  withdraw : Bool
  clamped : Bool
  held : Nat
deriving DecidableEq, Repr

/-- One Wairel port (08). -/
structure PortState where
  pstate : PortSt := .disabled
  wlmax : Nat := 2
  lastHello : Nat := 0
  lastValid : Nat := 0
  lastPing : Nat := 0
  lastStatus : Nat := 0
  lastWarn : Nat := 0
  txSeq : Nat := 0
  rxSeq : Option Nat := none
  standing : Option Standing := none
  arb : Option Standing := none
  takeAt : Option Nat := none
  pending : Option PendAck := none
  lastAck : Option TxMsg := none
  reqTag : Nat := 0
  ackPhase : Nat := 0
  pos : Nat := 0
  posAt : Option Nat := none
  peerId : Nat := 0
  peerCaps : Nat := 0
  peerMaj : Nat := 0
  peerMin : Nat := 0
  loadStat : List Byte := []
  warnHoldup : Nat := 65535
  queue : List TxMsg := []
  line : List Byte := []
deriving DecidableEq, Repr

/-- DOMAIN.STAT.STATE (R245). -/
inductive DomSt where
  | off | up | on | down | retryWait | latched
deriving DecidableEq, Repr

/-- One domain (11). -/
structure DomainState where
  dstate : DomSt := .off
  req : Bool := false
  retryFlag : Bool := false
  latchFlag : Bool := false
  latchRail : Nat := 255
  latchCause : Latch := .none
  failRail : Nat := 255
  stepRail : Nat := 255
  retryLeft : Nat := 0
  upStart : Nat := 0
  retryEnd : Nat := 0
  upTimeUs : Nat := 0
  pinArmed : Bool := true
deriving DecidableEq, Repr

/-- FEED.STAT.CLASS (R189). -/
inductive FeedClass where
  | good | warn | fault
deriving DecidableEq, Repr

/-- FEED[2].SEL_STATE (R191). -/
inductive SelState where
  | none | onA | onB | brk | dead | make
deriving DecidableEq, Repr

/-- One feed (09). -/
structure FeedOne where
  hist : List Nat := []
  vin : Nat := 0
  cls : FeedClass := .fault
  ov : Bool := false
  falling : Bool := false
  means : List Rat := []
  goodSince : Option Nat := none
  gate : Int := 0
deriving DecidableEq, Repr

/-- Feeds, bus and early warning (09). -/
structure FeedState where
  fa : FeedOne := {}
  fb : FeedOne := {}
  sel : SelState := .none
  target : Option FeedId := none
  fromFeed : Option FeedId := none
  isReturn : Bool := false
  slow : Bool := false
  selAt : Nat := 0
  confirmRun : Nat := 0
  busHist : List Nat := []
  vbus : Nat := 0
  heldWrites : List ObjWrite := []
  ewarn : Bool := false
  cause : Nat := 0
  causeGone : Nat := 0
  episode : Nat := 0
  holdup : Nat := 65535
  pload : Rat := 0
deriving DecidableEq, Repr

/-- One comparator (10). -/
structure CmpState where
  decision : Bool := false
  decided : Bool := false
  out : Bool := false
  outAt : Nat := 0
  latched : Bool := false
  initHold : Bool := false
  device : Bool := false
deriving DecidableEq, Repr

/-- One temperature sensor (R227 … R229), in 0.01 °C. -/
structure TempState where
  value : Int := 2500
  hist : List Rat := []
  msStart : Nat := 0
  msSum : Int := 0
  msCount : Nat := 0
  ror : Int := 0
  warn : Bool := false
  fault : Bool := false
  rate : Bool := false
  fail : Bool := false
  belowAt : Option Nat := none
  stops : List Nat := []
  device : Bool := false
deriving DecidableEq, Repr

/-- One correlator result (R151). -/
structure TuneRes where
  f : Nat
  mag : Int
  arg : Int
  qual : Nat
deriving DecidableEq, Repr

/-- TUNE.STAT.STATE (R158). -/
inductive TuneSt where
  | idle | running | done | aborted
deriving DecidableEq, Repr

/-- The one tuning session (07). -/
structure TuneState where
  tstate : TuneSt := .idle
  rail : Nat := 255
  reason : Nat := 0
  step : Nat := 0
  limited : Bool := false
  auto : Bool := false
  slot : Option SlotIx := none
  stepAt : Nat := 0
  recording : Bool := false
  accA : Rat := 0
  accB : Rat := 0
  accN : Nat := 0
  lastA : Rat := 0
  lastB : Rat := 0
  recA : List Int := []
  recB : List Int := []
  results : List TuneRes := []
  inject : Rat := 0
  endSine : Bool := false
  sineAt : Nat := 0
deriving DecidableEq, Repr

/-- TWIN.STAT.ROLE (R255). -/
inductive TwinRole where
  | solo | listen | active | standby | monitor
deriving DecidableEq, Repr

/-- TWIN.STAT.UNARM (R264). -/
inductive Unarm where
  | none | notRequested | holdoff | version | config | link | frameSync | lag | replication | split | resync
deriving DecidableEq, Repr

/-- What the device sends over the twin link beside heartbeats (R257, R258, R293). -/
inductive TwinMsg where
  | align (edge : Nat)
  | pattern (edge : Nat)
  | command (edge : Nat) (r : Req)
  | relay (rr : RelayRec)
  | resync (edge : Nat)
deriving DecidableEq, Repr

/-- Twin pairing (12). -/
structure TwinState where
  role : TwinRole := .solo
  enabled : Bool := false
  armed : Bool := false
  unarm : Unarm := .notRequested
  seatB : Bool := false
  split : Bool := false
  partner : Bool := false
  fsLock : Bool := false
  hbMiss : Nat := 0
  fsMiss : Nat := 0
  linkUp : Bool := false
  sameSeat : Bool := false
  ver : Nat := 0
  peerVer : Nat := 0
  peerDigest : Nat := 0
  lag : Nat := 0
  align : Option AlignRec := none
  hoEdge : Nat := 0
  pendingHo : Option (SlotIx × Nat) := none
  partnerHo : Option Nat := none
  holdoffEnd : Option Nat := none
  actN : Bool := true
  actHighRun : Nat := 0
  actLowRun : Nat := 0
  noHbRun : Nat := 0
  driveActN : Bool := false
  driving : Bool := true
  armSlot : Option SlotIx := none
  resyncing : Bool := false
  /-- The running resynchronisation ends unarmed: it follows a split without AUTO_ARM (R261). -/
  resyncOnly : Bool := false
  outbox : List TwinMsg := []
  partnerStarted : List Nat := []
  fsRun : Nat := 0
  repl : List (Nat × EdgeAction) := []
  driveAt : Option Nat := none
deriving DecidableEq, Repr

/-- Metrological parameters of one point (R276), in the units of its table. -/
structure MeterParams where
  en : Bool := false
  shunt : Nat := 0
  div : Nat := 0
  iGain : Int := 0
  vGain : Int := 0
  iOfs : Int := 0
  vOfs : Int := 0
  creep : Nat := 100
deriving DecidableEq, Repr

/-- One metered point (R265, R266). The energies are exact µWh: the 64-bit counter is their whole part. -/
structure PointState where
  par : MeterParams := {}
  imp : Rat := 0
  exp : Rat := 0
  clipped : Bool := false
  clippedIv : Bool := false
  creepNow : Bool := false
  vSum : Rat := 0
  iSum : Rat := 0
  pSum : Rat := 0
  n : Nat := 0
  impAt : Rat := 0
  expAt : Rat := 0
deriving DecidableEq, Repr

/-- An interval record of R272, without its CHECK. -/
structure IvRec where
  number : Nat
  startS : Nat
  durS : Nat
  point : Nat
  flags : Nat
  imp : Nat
  exp : Nat
deriving DecidableEq, Repr

/-- An audit record of R278, without its CHECK. -/
structure AuditRec where
  index : Nat
  sealCount : Nat
  timeS : Nat
  interval : Nat
  kind : Nat
  point : Nat
  old : Nat
  new : Nat
deriving DecidableEq, Repr

/-- A staged write of a sealed session (R276, R273, R277). -/
inductive Staged where
  | param (kind point : Nat) (value : Word)
  | key (k : List Byte)
  | chunk (offset : Nat) (data : List Byte)
deriving DecidableEq, Repr

/-- One point of the published mirror (R275). -/
structure MirrorPoint where
  en : Bool := false
  creepNow : Bool := false
  vMv : Int := 0
  iMa : Int := 0
  pMw : Int := 0
  imp : Nat := 0
  exp : Nat := 0
  shunt : Nat := 0
  div : Nat := 0
  creep : Nat := 100
deriving DecidableEq, Repr

/-- A save of the meter (R267): the points, the open interval, and the meter time of the save; closed after a power-fail
save, whose interval is recorded already (R271). -/
structure MeterSave where
  points : Vector PointState 16 := Vector.replicate 16 {}
  ivStart : Rat := 0
  ivFlags : Nat := 0
  ivUnsure : Bool := true
  atTime : Rat := 0
  closed : Bool := false
deriving DecidableEq, Repr

/-- The sealed meter partition and its mirror (13). -/
structure MeterState where
  points : Vector PointState 16 := Vector.replicate 16 {}
  intervalMin : Nat := 15
  time : TimeState := {}
  ivStart : Rat := 0
  ivFlags : Nat := 0
  ivUnsure : Bool := true
  ivNext : Nat := 1
  intervals : List IvRec := []
  audit : List AuditRec := []
  sealCount : Nat := 0
  fwVer : Nat := 0
  fwCrc : Word := 0
  fwImage : List Byte := []
  fwFault : Bool := false
  media : Bool := false
  session : Bool := false
  sessionAt : Nat := 0
  staged : List Staged := []
  key : Option (List Byte) := none
  sealLowSince : Option Nat := none
  saved : MeterSave := {}
  stale : Bool := true
  mirror : Vector MirrorPoint 16 := Vector.replicate 16 {}
  mirrorAt : Nat := 0
  overMirror : List Nat := []
  impHi : Vector Nat 16 := Vector.replicate 16 0
  expHi : Vector Nat 16 := Vector.replicate 16 0
deriving DecidableEq, Repr

/-- A record of R281, without its CHECK. -/
structure Rec where
  seq : Nat
  code : Nat
  srcClass : Nat
  srcInst : Nat
  sub : Nat
  flags : Nat
  data : List Byte
deriving DecidableEq, Repr

/-- An event on its way into a record (R282): with the rail and the latch cause of each snapshot its record stands for
(R294), and whether it came from the partner (R293). -/
structure Ev where
  code : Nat
  srcClass : Nat
  srcInst : Nat
  sub : Nat
  data : List Byte
  snaps : List (RailIx × Nat) := []
  partner : Bool := false
deriving DecidableEq, Repr

/-- A stored snapshot (R295). -/
structure Snap where
  bytes : List Byte
deriving DecidableEq, Repr

/-- Recorder and snapshots (14). Lists of records stand in rising SEQ order. -/
structure RecState where
  next : Nat := 0
  reserve0 : Option Nat := some 4096
  reserve1 : Option Nat := some 4096
  reserveFail : Bool := false
  ring : List Rec := []
  spare : List Rec := []
  ram : List Rec := []
  hold : List Rec := []
  frozen : Bool := false
  freezeEnd : Nat := 0
  keptHold : Option (Nat × Nat) := none
  keptRam : Option (Nat × Nat) := none
  keptReserve : Option (Nat × Nat) := none
  wrapped : Bool := false
  mediaFault : Bool := false
  snaps : Vector (Option Snap) 8 := Vector.replicate 8 none
  snapNext : Nat := 0
  newest : Nat := 0
  due : List Snap := []
  waiting : Option Snap := none
  firstHi : Nat := 0
  lastHi : Nat := 0
  ringOk : Bool := true
  spareOk : Bool := true
  batch : Option (List Ev) := none
deriving DecidableEq, Repr

/-- SLOTSTATE codes (R308). -/
inductive SlotSt where
  | free | posted | pending | ready | read | discard
deriving DecidableEq, Repr

/-- The request of a PENDING slot that passed the checks of R314. -/
structure Taken where
  op : Nat
  tag : Byte
  body : List Byte
  key : Option Nat
  started : Bool
deriving DecidableEq, Repr

/-- The outcome of a command that ended, before RESPONSE_READY writes it. -/
structure Reply where
  status : Nat
  payload : List Byte
deriving DecidableEq, Repr

/-- One slot pair (R307, R308). -/
structure Slot where
  st : SlotSt := .free
  req : List Byte := List.replicate 256 0
  resp : List Byte := List.replicate 256 0
  taken : Option Taken := none
  reply : Option Reply := none
deriving DecidableEq, Repr

/-- A per-member result kept until all members have theirs (R130, R317, R318). -/
structure Gather where
  slot : SlotIx
  codes : List (Option Nat × Bool)
  pairs : Bool
deriving DecidableEq, Repr

/-- An accepted SLEEP (cause 0), RESET (2) or FW_ACTIVATE (5) and the frame from which it acts (R320, R340). -/
structure Arming where
  slot : SlotIx
  cause : Nat
  due : Option Nat
deriving DecidableEq, Repr

/-- Host transports, mailbox and authorisation (15). -/
structure MbState where
  slots : Vector Slot 4 := Vector.replicate 4 {}
  order : List SlotIx := []
  mp : Nat := 0
  minor : Nat := 0
  istat : Word := 0
  imask : Word := 0
  hostcfg : Word := 0
  evcnt : Vector Word 16 := Vector.replicate 16 0
  alertHeld : Bool := false
  fstat : Word := 16
  pgmap : Word := 0
  fltmap : Word := 0
  i2cPtr : Nat := 0
  i2cStop : Bool := false
  i2cAddr : Nat := 88
  spiOut : List Byte := []
  i2cOut : Option (List Byte) := none
  nonce : Option (Nat × List Byte × Nat) := none
  nonces : Nat := 0
  fails : Nat := 0
  lockEnd : Option Nat := none
  keys : List (Nat × List Byte) := []
  keyWords : List (Nat × Word) := []
  arming : List Arming := []
  gathers : List Gather := []
deriving DecidableEq, Repr

/-- A stored configuration image that passed its checks: bytes as stored and what it holds (R328, R331). -/
structure Image where
  bytes : List Byte
  generation : Nat
  objs : Store
  tables : List (Nat × Nat × Sparse)
  converted : Bool
deriving DecidableEq, Repr

/-- Configuration memory (16). -/
structure CfgState where
  copy0 : Option Image := none
  copy1 : Option Image := none
  staging : List Byte := []
  staged : Nat := 0
  genRun : Nat := 0
  runCopy : Nat := 3
  modified : Bool := false
  converted : Bool := false
  isDefault : Bool := false
  lastReason : Nat := 0
deriving DecidableEq, Repr

/-- A firmware slot: empty, the delivered image of release 2.4, or staged bytes (R326). -/
inductive FwImage where
  | empty
  | delivered
  | staged (bytes : List Byte)
deriving DecidableEq, Repr

/-- Firmware slots (R325 … R327). -/
structure FwState where
  slotA : FwImage := .delivered
  slotB : FwImage := .empty
  running : Nat := 0
  preferred : Nat := 0
  trial : Bool := false
  trialNext : Bool := false
  trialEnd : Nat := 0
  release : Nat := 516
deriving DecidableEq, Repr

/-- A deferred non-volatile write (R337, R377). -/
inductive Deferred where
  | counters (c : Store)
  | qacc (l : List Rat)
  | zeros (l : List (Nat × Rat × Rat))
  | fuses (l : List Nat)
  | pattern (rail : Nat) (save : PatSave)
deriving DecidableEq, Repr

/-- Non-volatile memory of the saved states, the write window and the deferral queue (16). -/
structure NvmState where
  window : Bool := true
  goodSince : Option Nat := none
  armGood : Option Nat := none
  deferArmed : Bool := false
  recArmed : Bool := false
  counters : Store := []
  qacc : List Rat := []
  zeros : List (Nat × Rat × Rat) := []
  fuseRetry : List Nat := []
  patterns : List (Nat × PatSave) := []
  queue : List Deferred := []
  marker : Bool := false
deriving DecidableEq, Repr

/-- CPV4816M or CPV4816S (00_scope, ordering codes). -/
inductive Part where
  | m | s
deriving DecidableEq, Repr

/-- DEV.STAT.STATE (R322), and the device without supply (below UVLO, R344). -/
inductive DevSt where
  | boot | standby | run | sleep | recovery | unpowered
deriving DecidableEq, Repr

/-- The device level (01, 16, 17). -/
structure DevState where
  part : Part := .m
  dstate : DevSt := .boot
  cause : Nat := 0
  wdPending : Bool := false
  retIntact : Bool := false
  boots : Nat := 0
  readyAt : Nat := 0
  wakeSrc : Nat := 0
  wakeMs : Nat := 0
  sleepAt : Nat := 0
  sleptFrom : Nat := 0
  faultAtSleep : Bool := false
  tjHi : Int := 2500
  tjLo : Int := 2500
  halted : Vector Bool 4 := Vector.replicate 4 false
  cePeak : Vector Nat 4 := Vector.replicate 4 0
  hkBack : Option Nat := none
  linkBack : Option Nat := none
  wdStamps : List (Nat × Nat) := []
  wdDown : Bool := false
  enPins : BitVec 4 := 0
  enRun : Vector Nat 4 := Vector.replicate 4 0
  enLevel : BitVec 4 := 0
  gpioIn : BitVec 16 := 0
  sealN : Bool := true
  dbgen : Bool := true
  pgood : Bool := false
deriving DecidableEq, Repr

/-- The whole machine. -/
structure State where
  pending : List Instr := []
  now : Nat := 0
  free : Nat := 0
  objs : Store := []
  edgeQueue : List EdgeAction := []
  clk : ClkState := {}
  time : TimeState := {}
  phases : Vector PhaseState 48 := Vector.replicate 48 {}
  rails : Vector RailState 16 := Vector.replicate 16 {}
  ports : Vector PortState 32 := Vector.replicate 32 {}
  domains : Vector DomainState 8 := Vector.replicate 8 {}
  feeds : FeedState := {}
  cmps : Vector CmpState 32 := Vector.replicate 32 {}
  temps : Vector TempState 28 := Vector.replicate 28 {}
  tune : TuneState := {}
  twin : TwinState := {}
  meter : MeterState := {}
  recd : RecState := {}
  mb : MbState := {}
  cfg : CfgState := {}
  fw : FwState := {}
  nvm : NvmState := {}
  dev : DevState := {}
deriving DecidableEq, Repr

/-- The machine right after a power-on reset: in BOOT, nothing saved, every slot FREE (R304, R308, R324). -/
def State.reset : State := {}

end Sys2Proof.Machine
end

