-- ==== Sys2Proof/Machine/Bits.lean ====
section
/-! DEFINITION. Bit fields, byte order, saturation and rounding: the plain arithmetic that the chapters share. -/

namespace Sys2Proof.Machine

/-- The field of bits hi … lo of a word. -/
def bits (w : Word) (hi lo : Nat) : Nat := (w.toNat >>> lo) % 2 ^ (hi + 1 - lo)

/-- One bit of a word. -/
def bit (w : Word) (k : Nat) : Bool := w.toNat.testBit k

/-- One bit of a number as a number at its place. -/
def flag (b : Bool) (k : Nat) : Nat := if b then 2 ^ k else 0

/-- The word of a number, saturated at 0xFFFF FFFF (R296). -/
def satWord (n : Nat) : Word := BitVec.ofNat 32 (min n maxWord)

/-- The two's complement word of an integer (R5). -/
def intWord (i : Int) : Word := BitVec.ofInt 32 i

/-- The bytes of a number, least significant first (R8), n of them. -/
def leBytes : Nat → Nat → List Byte
  | 0, _ => []
  | n + 1, v => BitVec.ofNat 8 v :: leBytes n (v / 256)

/-- The number that bytes spell, least significant first (R8). -/
def leNat : List Byte → Nat
  | [] => 0
  | b :: bs => b.toNat + 256 * leNat bs

/-- Bytes i … i + n - 1 of a list, as a little-endian number; bytes beyond the end count 0. -/
def leAt (bs : List Byte) (i n : Nat) : Nat := leNat ((bs.drop i).take n)

/-- The byte at an index, 0 beyond the end. -/
def byteAt (bs : List Byte) (i : Nat) : Nat := (bs.getD i 0).toNat

/-- A word's four bytes, least significant first (R8). -/
def wordBytes (w : Word) : List Byte := leBytes 4 w.toNat

/-- A list brought to a length, with zeros at its end. -/
def padTo (n : Nat) (bs : List Byte) : List Byte := (bs ++ List.replicate (n - bs.length) 0).take n

/-- Round to nearest, a half upwards (log entry 9). -/
def roundQ (q : Rat) : Int := (q + 1 / 2).floor

/-- Clamp into an interval. -/
def clampQ (q lo hi : Rat) : Rat := if q < lo then lo else if hi < q then hi else q

def clampI (q lo hi : Int) : Int := if q < lo then lo else if hi < q then hi else q

def clampN (q lo hi : Nat) : Nat := if q < lo then lo else if hi < q then hi else q

def absQ (q : Rat) : Rat := if q < 0 then -q else q

/-- A division by a measured bus voltage; what a bus of 0 V gives is open (log entry 15). -/
def divBus (a b : Rat) : Rat := if b = 0 then Config.overZeroBus a else a / b

/-- The sum of a list. -/
def sumQ (l : List Rat) : Rat := l.foldl (· + ·) 0

def sumN (l : List Nat) : Nat := l.foldl (· + ·) 0

/-- The mean of a list, 0 of an empty one. -/
def meanQ (l : List Rat) : Rat := if l.isEmpty then 0 else sumQ l / (l.length : Rat)

/-- A new element at the front of a history that holds at most n. -/
def pushHist {α : Type} (n : Nat) (x : α) (l : List α) : List α := (x :: l).take n

/-- Fixed-point formats of R5 as exact numbers: a signed word with n fraction bits. -/
def qSigned (w : Word) (n : Nat) : Rat := (w.toInt : Rat) / ((2 ^ n : Nat) : Rat)

/-- An unsigned word with n fraction bits (R5). -/
def qUnsigned (w : Word) (n : Nat) : Rat := (w.toNat : Rat) / ((2 ^ n : Nat) : Rat)

/-- Frames of a number of milliseconds, microseconds and seconds (R29: 500 ns a frame). -/
def msFrames (n : Nat) : Nat := 2000 * n
def usFrames (n : Nat) : Nat := 2 * n
def sFrames (n : Nat) : Nat := 2000000 * n

/-- Has a timer that was started at `stamp` run for `len` frames? -/
def elapsed (now stamp len : Nat) : Bool := stamp + len ≤ now

/-- A set of small numbers as the bits of a word. -/
def maskOf (l : List Nat) : Nat := l.foldl (fun m k => m ||| 2 ^ k) 0

/-- Sparse tables: the value at an index. -/
def Sparse.at (t : Sparse) (i : Nat) : Int := ((t.find? fun p => p.1 == i).map (·.2)).getD 0

/-- Sparse tables: a write keeps the indexes rising and lists no 0. -/
def Sparse.put : Sparse → Nat → Int → Sparse
  | [], i, v => if v = 0 then [] else [(i, v)]
  | (k, x) :: t, i, v =>
    if i < k then (if v = 0 then (k, x) :: t else (i, v) :: (k, x) :: t)
    else if i = k then (if v = 0 then t else (i, v) :: t)
    else (k, x) :: Sparse.put t i v

end Sys2Proof.Machine
end

