-- ==== Sys2Proof/Machine/Objects.lean ====
section
/-! DEFINITION. The object maps: the items of every class with their access code, default, range and reserved bits
(R10 and the maps R53, R54, R82, R103, R104, R123 … R125, R144, R145, R158, R159, R187, R188, R205, R206, R233 … R235,
R248, R249, R264, R279, R298, R299, R321, R345, R346, R353). -/

namespace Sys2Proof.Machine

/-- Access codes of R10. -/
inductive Acc where
  | ro | rw | w1c | wo | rwa | rwl
deriving DecidableEq, Repr

/-- The range an object's map gives it: any value, an unsigned or signed interval, an interval or one value beside it,
multiples, fields (high bit, low bit, least, greatest), the codes of R207, the nibbles of PIN.EN_MAP, the TEMP transfer. -/
inductive Rng where
  | all
  | u (lo hi : Nat)
  | s (lo hi : Int)
  | uOr (lo hi other : Nat)
  | mult (lo hi step : Nat)
  | fields (fs : List (Nat × Nat × Nat × Nat))
  | insel
  | nibs
  | tempXfer
deriving DecidableEq, Repr

/-- One row of an object map. `mask` holds the bits that are not reserved, `clr` says that CNT_CLEAR clears it. -/
structure Row where
  item : Nat
  acc : Acc
  dflt : Nat
  rng : Rng
  mask : Nat
  clr : Bool
deriving DecidableEq, Repr

/-- Class bytes of the object space (00_scope "Objects"). -/
abbrev Ob.clsDev : Nat := 1
abbrev Ob.clsClk : Nat := 2
abbrev Ob.clsTime : Nat := 3
abbrev Ob.clsPhase : Nat := 16
abbrev Ob.clsRail : Nat := 32
abbrev Ob.clsDomain : Nat := 40
abbrev Ob.clsPort : Nat := 48
abbrev Ob.clsFeed : Nat := 56
abbrev Ob.clsCmp : Nat := 64
abbrev Ob.clsTemp : Nat := 72
abbrev Ob.clsRec : Nat := 80
abbrev Ob.clsMeter : Nat := 88
abbrev Ob.clsTwin : Nat := 96
abbrev Ob.clsTune : Nat := 104
abbrev Ob.clsCfg : Nat := 112
abbrev Ob.clsAuth : Nat := 120
abbrev Ob.clsPin : Nat := 124

/-! Items of DEV. -/
abbrev Ob.Dev.stat : Nat := 0
abbrev Ob.Dev.wakeCtrl : Nat := 1
abbrev Ob.Dev.dbgPermit : Nat := 2
abbrev Ob.Dev.cebud0 : Nat := 4
abbrev Ob.Dev.cebud1 : Nat := 5
abbrev Ob.Dev.cebud2 : Nat := 6
abbrev Ob.Dev.cebud3 : Nat := 7
abbrev Ob.Dev.uidLo : Nat := 8
abbrev Ob.Dev.uidHi : Nat := 9
abbrev Ob.Dev.fwRel : Nat := 10
abbrev Ob.Dev.bootUs : Nat := 11
abbrev Ob.Dev.wakeSrc : Nat := 12
abbrev Ob.Dev.deferBytes : Nat := 13
abbrev Ob.Dev.eccCorr : Nat := 14
abbrev Ob.Dev.eccUncorr : Nat := 15
abbrev Ob.Dev.nvmRefreshes : Nat := 16
abbrev Ob.Dev.nvmRemaps : Nat := 17
abbrev Ob.Dev.resets : Nat := 18
abbrev Ob.Dev.tjHi : Nat := 19
abbrev Ob.Dev.tjLo : Nat := 20

/-! Items of CLK. -/
abbrev Ob.Clk.stat : Nat := 0
abbrev Ob.Clk.ctrl : Nat := 1
abbrev Ob.Clk.syncOfs : Nat := 2
abbrev Ob.Clk.syncOutDly : Nat := 3
abbrev Ob.Clk.holdoverMs : Nat := 4
abbrev Ob.Clk.ovrLimit : Nat := 5
abbrev Ob.Clk.align : Nat := 6
abbrev Ob.Clk.sscCtrl : Nat := 8
abbrev Ob.Clk.sscRails : Nat := 9
abbrev Ob.Clk.xtc0 : Nat := 10
abbrev Ob.Clk.xtc1 : Nat := 11
abbrev Ob.Clk.xtc2 : Nat := 12
abbrev Ob.Clk.xtc3 : Nat := 13
abbrev Ob.Clk.frameLo : Nat := 16
abbrev Ob.Clk.frameHi : Nat := 17
abbrev Ob.Clk.syncErr : Nat := 18
abbrev Ob.Clk.freqOfs : Nat := 19
abbrev Ob.Clk.dlcal : Nat := 20
abbrev Ob.Clk.syncLosses : Nat := 21

/-! Items of TIME. -/
abbrev Ob.Time.stat : Nat := 0
abbrev Ob.Time.ctrl : Nat := 1
abbrev Ob.Time.secLo : Nat := 2
abbrev Ob.Time.secHi : Nat := 3
abbrev Ob.Time.ns : Nat := 4
abbrev Ob.Time.ppsErr : Nat := 5
abbrev Ob.Time.rate : Nat := 6
abbrev Ob.Time.stepNs : Nat := 7
abbrev Ob.Time.steps : Nat := 8
abbrev Ob.Time.ppsLosses : Nat := 9

/-! Items of PHASE. -/
abbrev Ob.Phase.rail : Nat := 0
abbrev Ob.Phase.ctrl : Nat := 1
abbrev Ob.Phase.offset : Nat := 2
abbrev Ob.Phase.maxduty : Nat := 3
abbrev Ob.Phase.dtHl : Nat := 4
abbrev Ob.Phase.dtLh : Nat := 5
abbrev Ob.Phase.minH : Nat := 6
abbrev Ob.Phase.minL : Nat := 7
abbrev Ob.Phase.force : Nat := 8
abbrev Ob.Phase.forceDuty : Nat := 9
abbrev Ob.Phase.hsunlock : Nat := 10
abbrev Ob.Phase.tripsel : Nat := 11
abbrev Ob.Phase.blank : Nat := 12
abbrev Ob.Phase.tripN : Nat := 13
abbrev Ob.Phase.tripLeak : Nat := 14
abbrev Ob.Phase.stat : Nat := 16
abbrev Ob.Phase.dutyNow : Nat := 17
abbrev Ob.Phase.tonNow : Nat := 18
abbrev Ob.Phase.drops : Nat := 20
abbrev Ob.Phase.hems : Nat := 21
abbrev Ob.Phase.carryDiscards : Nat := 22
abbrev Ob.Phase.trips : Nat := 23
abbrev Ob.Phase.tripLatches : Nat := 24
abbrev Ob.Phase.isenGain : Nat := 64
abbrev Ob.Phase.irate : Nat := 65
abbrev Ob.Phase.lindNh : Nat := 66
abbrev Ob.Phase.weight : Nat := 67
abbrev Ob.Phase.zero : Nat := 68
abbrev Ob.Phase.gainCorr : Nat := 69
abbrev Ob.Phase.irateStat : Nat := 70
abbrev Ob.Phase.iph : Nat := 72
abbrev Ob.Phase.iinst : Nat := 73
abbrev Ob.Phase.sage : Nat := 74
abbrev Ob.Phase.sdisp : Nat := 75
abbrev Ob.Phase.trim : Nat := 76
abbrev Ob.Phase.pstat : Nat := 77
abbrev Ob.Phase.qacc : Nat := 78
abbrev Ob.Phase.collisions : Nat := 80
abbrev Ob.Phase.lagging : Nat := 81
abbrev Ob.Phase.skims : Nat := 82
abbrev Ob.Phase.skimRejects : Nat := 83
abbrev Ob.Phase.skimAborts : Nat := 84

/-! Items of RAIL. -/
abbrev Ob.Rail.cfg : Nat := 0
abbrev Ob.Rail.engine : Nat := 1
abbrev Ob.Rail.period : Nat := 2
abbrev Ob.Rail.origin : Nat := 3
abbrev Ob.Rail.dmax : Nat := 4
abbrev Ob.Rail.vbusRef : Nat := 5
abbrev Ob.Rail.eff : Nat := 6
abbrev Ob.Rail.rloss : Nat := 7
abbrev Ob.Rail.profCtrl : Nat := 16
abbrev Ob.Rail.target : Nat := 17
abbrev Ob.Rail.vmin : Nat := 18
abbrev Ob.Rail.vmax : Nat := 19
abbrev Ob.Rail.rateMax : Nat := 20
abbrev Ob.Rail.accMax : Nat := 21
abbrev Ob.Rail.jerkMax : Nat := 22
abbrev Ob.Rail.ssRate : Nat := 23
abbrev Ob.Rail.ssAcc : Nat := 24
abbrev Ob.Rail.ssJerk : Nat := 25
abbrev Ob.Rail.settle : Nat := 26
abbrev Ob.Rail.posUv : Nat := 27
abbrev Ob.Rail.vel : Nat := 28
abbrev Ob.Rail.accel : Nat := 29
abbrev Ob.Rail.tgtNow : Nat := 30
abbrev Ob.Rail.profStat : Nat := 31
abbrev Ob.Rail.ctrl : Nat := 32
abbrev Ob.Rail.bandOutUv : Nat := 33
abbrev Ob.Rail.bandInUv : Nat := 34
abbrev Ob.Rail.slamMax : Nat := 35
abbrev Ob.Rail.sinkLim : Nat := 36
abbrev Ob.Rail.b0 : Nat := 37
abbrev Ob.Rail.b1 : Nat := 38
abbrev Ob.Rail.b2 : Nat := 39
abbrev Ob.Rail.a1 : Nat := 40
abbrev Ob.Rail.a2 : Nat := 41
abbrev Ob.Rail.coefApply : Nat := 42
abbrev Ob.Rail.kpI : Nat := 43
abbrev Ob.Rail.kiI : Nat := 44
abbrev Ob.Rail.kpP : Nat := 45
abbrev Ob.Rail.kiP : Nat := 46
abbrev Ob.Rail.tlim : Nat := 47
abbrev Ob.Rail.kpT : Nat := 48
abbrev Ob.Rail.kiT : Nat := 49
abbrev Ob.Rail.pwrW : Nat := 50
abbrev Ob.Rail.ffCtrl : Nat := 64
abbrev Ob.Rail.patPeriod : Nat := 65
abbrev Ob.Rail.patPhase : Nat := 66
abbrev Ob.Rail.patGain : Nat := 67
abbrev Ob.Rail.patForget : Nat := 68
abbrev Ob.Rail.patLead : Nat := 69
abbrev Ob.Rail.ffLim : Nat := 70
abbrev Ob.Rail.ffPort : Nat := 71
abbrev Ob.Rail.patId : Nat := 72
abbrev Ob.Rail.posMap : Nat := 73
abbrev Ob.Rail.legRout : Nat := 74
abbrev Ob.Rail.ffCmd : Nat := 75
abbrev Ob.Rail.tblSel : Nat := 76
abbrev Ob.Rail.tblData : Nat := 77
abbrev Ob.Rail.ffStat : Nat := 78
abbrev Ob.Rail.patErrUv : Nat := 79
abbrev Ob.Rail.tuneCtrl : Nat := 80
abbrev Ob.Rail.ltFreqHz : Nat := 81
abbrev Ob.Rail.ltAmp : Nat := 82
abbrev Ob.Rail.ltKmin : Nat := 83
abbrev Ob.Rail.ltKmax : Nat := 84
abbrev Ob.Rail.ltQmin : Nat := 85
abbrev Ob.Rail.kLt : Nat := 86
abbrev Ob.Rail.ltMag : Nat := 87
abbrev Ob.Rail.ltPhase : Nat := 88
abbrev Ob.Rail.ltStat : Nat := 89
abbrev Ob.Rail.ltUpdates : Nat := 90
abbrev Ob.Rail.ltRejects : Nat := 91
abbrev Ob.Rail.protCtrl : Nat := 96
abbrev Ob.Rail.uvWarn : Nat := 97
abbrev Ob.Rail.uvFault : Nat := 98
abbrev Ob.Rail.ovWarn : Nat := 99
abbrev Ob.Rail.ovFault : Nat := 100
abbrev Ob.Rail.warnFloorMv : Nat := 101
abbrev Ob.Rail.faultFloorMv : Nat := 102
abbrev Ob.Rail.lvlQual : Nat := 103
abbrev Ob.Rail.ilim : Nat := 104
abbrev Ob.Rail.ilimFloor : Nat := 105
abbrev Ob.Rail.hicN : Nat := 106
abbrev Ob.Rail.hicOffMs : Nat := 107
abbrev Ob.Rail.hicMax : Nat := 108
abbrev Ob.Rail.inLim : Nat := 109
abbrev Ob.Rail.ftmpXfer : Nat := 110
abbrev Ob.Rail.protStat : Nat := 111
abbrev Ob.Rail.plcCtrl : Nat := 112
abbrev Ob.Rail.iadd : Nat := 113
abbrev Ob.Rail.ished : Nat := 114
abbrev Ob.Rail.frefKhz : Nat := 115
abbrev Ob.Rail.tcr : Nat := 116
abbrev Ob.Rail.dwellUs : Nat := 117
abbrev Ob.Rail.minph : Nat := 118
abbrev Ob.Rail.plcAvg : Nat := 119
abbrev Ob.Rail.balGain : Nat := 120
abbrev Ob.Rail.skimLen : Nat := 121
abbrev Ob.Rail.skimPeriodMs : Nat := 122
abbrev Ob.Rail.nact : Nat := 123
abbrev Ob.Rail.plcScale : Nat := 124
abbrev Ob.Rail.adds : Nat := 125
abbrev Ob.Rail.sheds : Nat := 126
abbrev Ob.Rail.skimStat : Nat := 127
abbrev Ob.Rail.linkCtrl : Nat := 128
abbrev Ob.Rail.linkAuth : Nat := 129
abbrev Ob.Rail.linkPorts : Nat := 130
abbrev Ob.Rail.linkStat : Nat := 131
abbrev Ob.Rail.arbMv : Nat := 132
abbrev Ob.Rail.vreqs : Nat := 133
abbrev Ob.Rail.naks : Nat := 134
abbrev Ob.Rail.supersedes : Nat := 135
abbrev Ob.Rail.withdrawals : Nat := 136
abbrev Ob.Rail.seqCtrl : Nat := 144
abbrev Ob.Rail.domain : Nat := 145
abbrev Ob.Rail.upRank : Nat := 146
abbrev Ob.Rail.dnRank : Nat := 147
abbrev Ob.Rail.stepUs : Nat := 148
abbrev Ob.Rail.qualUs : Nat := 149
abbrev Ob.Rail.upTmoMs : Nat := 150
abbrev Ob.Rail.pgWin : Nat := 151
abbrev Ob.Rail.pgFloorMv : Nat := 152
abbrev Ob.Rail.dnStepUs : Nat := 153
abbrev Ob.Rail.disMv : Nat := 154
abbrev Ob.Rail.disTmoMs : Nat := 155
abbrev Ob.Rail.disIma : Nat := 156
abbrev Ob.Rail.disVbusMv : Nat := 157
abbrev Ob.Rail.minOffMs : Nat := 158
abbrev Ob.Rail.seqStat : Nat := 159
abbrev Ob.Rail.fuseCtrl : Nat := 160
abbrev Ob.Rail.fuseIgUa : Nat := 161
abbrev Ob.Rail.inrushMa : Nat := 162
abbrev Ob.Rail.insTmoMs : Nat := 163
abbrev Ob.Rail.insDropMv : Nat := 164
abbrev Ob.Rail.tjMax : Nat := 165
abbrev Ob.Rail.rthJc : Nat := 166
abbrev Ob.Rail.rthCa : Nat := 167
abbrev Ob.Rail.cth : Nat := 168
abbrev Ob.Rail.fuseRetries : Nat := 169
abbrev Ob.Rail.fuseRetryMs : Nat := 170
abbrev Ob.Rail.psArmMs : Nat := 171
abbrev Ob.Rail.fuseStat : Nat := 172
abbrev Ob.Rail.fuseTj : Nat := 173
abbrev Ob.Rail.vout : Nat := 174
abbrev Ob.Rail.fuseTrips : Nat := 175
abbrev Ob.Rail.stat : Nat := 192
abbrev Ob.Rail.errUv : Nat := 193
abbrev Ob.Rail.vsense : Nat := 194
abbrev Ob.Rail.vcoarse : Nat := 195
abbrev Ob.Rail.irail : Nat := 196
abbrev Ob.Rail.pin : Nat := 197
abbrev Ob.Rail.pshare : Nat := 198
abbrev Ob.Rail.dsel : Nat := 199
abbrev Ob.Rail.demV : Nat := 200
abbrev Ob.Rail.demI : Nat := 201
abbrev Ob.Rail.demP : Nat := 202
abbrev Ob.Rail.demT : Nat := 203
abbrev Ob.Rail.dff : Nat := 204
abbrev Ob.Rail.tstage : Nat := 205
abbrev Ob.Rail.slamTimeouts : Nat := 206
abbrev Ob.Rail.limitFrames : Nat := 207
abbrev Ob.Rail.uvWarnCnt : Nat := 224
abbrev Ob.Rail.uvFaultCnt : Nat := 225
abbrev Ob.Rail.ovWarnCnt : Nat := 226
abbrev Ob.Rail.ovFaultCnt : Nat := 227
abbrev Ob.Rail.ocEpisodes : Nat := 228
abbrev Ob.Rail.hiccups : Nat := 229
abbrev Ob.Rail.crowbars : Nat := 230
abbrev Ob.Rail.qualifyRestarts : Nat := 231
abbrev Ob.Rail.startFail : Nat := 232
abbrev Ob.Rail.dischargeTimeout : Nat := 233
abbrev Ob.Rail.slamEvents : Nat := 234
abbrev Ob.Rail.overruns : Nat := 235
abbrev Ob.Rail.latchClears : Nat := 236

/-! Items of DOMAIN. -/
abbrev Ob.Domain.ctrl : Nat := 0
abbrev Ob.Domain.rails : Nat := 1
abbrev Ob.Domain.retries : Nat := 2
abbrev Ob.Domain.retryMs : Nat := 3
abbrev Ob.Domain.stat : Nat := 4
abbrev Ob.Domain.upTimeUs : Nat := 5
abbrev Ob.Domain.starts : Nat := 6
abbrev Ob.Domain.retried : Nat := 7
abbrev Ob.Domain.latches : Nat := 8

/-! Items of PORT. -/
abbrev Ob.Port.ctrl : Nat := 0
abbrev Ob.Port.rail : Nat := 1
abbrev Ob.Port.timeoutMs : Nat := 2
abbrev Ob.Port.statusMs : Nat := 3
abbrev Ob.Port.warnRepeatMs : Nat := 4
abbrev Ob.Port.stat : Nat := 8
abbrev Ob.Port.reqMv : Nat := 9
abbrev Ob.Port.reqInfo : Nat := 10
abbrev Ob.Port.pos : Nat := 11
abbrev Ob.Port.posAge : Nat := 12
abbrev Ob.Port.peer : Nat := 13
abbrev Ob.Port.loadStat0 : Nat := 14
abbrev Ob.Port.loadStat1 : Nat := 15
abbrev Ob.Port.crcErrors : Nat := 16
abbrev Ob.Port.drops : Nat := 17
abbrev Ob.Port.lost : Nat := 18
abbrev Ob.Port.formatErrors : Nat := 19
abbrev Ob.Port.seqGaps : Nat := 20
abbrev Ob.Port.rxFrames : Nat := 21
abbrev Ob.Port.txFrames : Nat := 22
abbrev Ob.Port.reqOverflows : Nat := 23
abbrev Ob.Port.unknown : Nat := 24

/-! Items of FEED. -/
abbrev Ob.Feed.ctrl : Nat := 0
abbrev Ob.Feed.uvWarn : Nat := 1
abbrev Ob.Feed.uvFault : Nat := 2
abbrev Ob.Feed.ovFault : Nat := 3
abbrev Ob.Feed.hystMv : Nat := 4
abbrev Ob.Feed.fallRate : Nat := 5
abbrev Ob.Feed.fallWinUs : Nat := 6
abbrev Ob.Feed.plim : Nat := 7
abbrev Ob.Feed.igateUa : Nat := 8
abbrev Ob.Feed.stat : Nat := 16
abbrev Ob.Feed.vin : Nat := 17
abbrev Ob.Feed.faults : Nat := 18
abbrev Ob.Feed.turnOns : Nat := 19
abbrev Ob.Feed.gateFaults : Nat := 20
abbrev Ob.Feed.busCtrl : Nat := 32
abbrev Ob.Feed.vbus : Nat := 33
abbrev Ob.Feed.deadUs : Nat := 34
abbrev Ob.Feed.confirmUs : Nat := 35
abbrev Ob.Feed.returnDelayMs : Nat := 36
abbrev Ob.Feed.cbusUf : Nat := 37
abbrev Ob.Feed.vbusMin : Nat := 38
abbrev Ob.Feed.pAuxMw : Nat := 39
abbrev Ob.Feed.ewHoldMs : Nat := 40
abbrev Ob.Feed.selStat : Nat := 41
abbrev Ob.Feed.holdup : Nat := 42
abbrev Ob.Feed.pload : Nat := 43
abbrev Ob.Feed.changeovers : Nat := 44
abbrev Ob.Feed.returns : Nat := 45
abbrev Ob.Feed.ewarns : Nat := 46
abbrev Ob.Feed.noneEpisodes : Nat := 47

/-! Items of CMP. -/
abbrev Ob.Cmp.ctrl : Nat := 0
abbrev Ob.Cmp.insel : Nat := 1
abbrev Ob.Cmp.dac : Nat := 2
abbrev Ob.Cmp.ramp : Nat := 3
abbrev Ob.Cmp.refph : Nat := 4
abbrev Ob.Cmp.blank : Nat := 5
abbrev Ob.Cmp.route : Nat := 6
abbrev Ob.Cmp.stat : Nat := 8
abbrev Ob.Cmp.clr : Nat := 9
abbrev Ob.Cmp.asserts : Nat := 10

/-! Items of TEMP. -/
abbrev Ob.Temp.ctrl : Nat := 0
abbrev Ob.Temp.xfer : Nat := 1
abbrev Ob.Temp.warn : Nat := 2
abbrev Ob.Temp.fault : Nat := 3
abbrev Ob.Temp.hyst : Nat := 4
abbrev Ob.Temp.rorLim : Nat := 5
abbrev Ob.Temp.rorWinMs : Nat := 6
abbrev Ob.Temp.rails : Nat := 7
abbrev Ob.Temp.value : Nat := 8
abbrev Ob.Temp.ror : Nat := 9
abbrev Ob.Temp.stat : Nat := 10
abbrev Ob.Temp.warns : Nat := 11
abbrev Ob.Temp.faults : Nat := 12

/-! Items of REC. -/
abbrev Ob.Rec.stat : Nat := 0
abbrev Ob.Rec.firstLo : Nat := 1
abbrev Ob.Rec.firstHi : Nat := 2
abbrev Ob.Rec.lastLo : Nat := 3
abbrev Ob.Rec.lastHi : Nat := 4
abbrev Ob.Rec.count : Nat := 5
abbrev Ob.Rec.held : Nat := 6
abbrev Ob.Rec.ramPend : Nat := 7
abbrev Ob.Rec.lost : Nat := 8
abbrev Ob.Rec.writeFaults : Nat := 9
abbrev Ob.Rec.clears : Nat := 10
abbrev Ob.Rec.snapStat : Nat := 11
abbrev Ob.Rec.freezeMs : Nat := 12

/-! Items of METER. -/
abbrev Ob.Meter.stat : Nat := 0
abbrev Ob.Meter.vMv : Nat := 1
abbrev Ob.Meter.iMa : Nat := 2
abbrev Ob.Meter.pMw : Nat := 3
abbrev Ob.Meter.impLo : Nat := 4
abbrev Ob.Meter.impHi : Nat := 5
abbrev Ob.Meter.expLo : Nat := 6
abbrev Ob.Meter.expHi : Nat := 7
abbrev Ob.Meter.iFsMa : Nat := 8
abbrev Ob.Meter.shuntUohm : Nat := 9
abbrev Ob.Meter.div : Nat := 10
abbrev Ob.Meter.creep : Nat := 11

/-! Items of METERPART. -/
abbrev Ob.Part.stat : Nat := 0
abbrev Ob.Part.fwVer : Nat := 1
abbrev Ob.Part.fwCrc : Nat := 2
abbrev Ob.Part.sealCount : Nat := 3
abbrev Ob.Part.auditUsed : Nat := 4
abbrev Ob.Part.intervalMin : Nat := 5
abbrev Ob.Part.intLast : Nat := 6
abbrev Ob.Part.mirrorAgeUs : Nat := 7

/-! Items of TWIN. -/
abbrev Ob.Twin.ctrl : Nat := 0
abbrev Ob.Twin.rejoinS : Nat := 1
abbrev Ob.Twin.stat : Nat := 2
abbrev Ob.Twin.linkVer : Nat := 3
abbrev Ob.Twin.peerVer : Nat := 4
abbrev Ob.Twin.cfgDigest : Nat := 5
abbrev Ob.Twin.peerDigest : Nat := 6
abbrev Ob.Twin.lag : Nat := 7
abbrev Ob.Twin.hoEdgeLo : Nat := 8
abbrev Ob.Twin.takeovers : Nat := 9
abbrev Ob.Twin.handovers : Nat := 10
abbrev Ob.Twin.unarms : Nat := 11
abbrev Ob.Twin.splits : Nat := 12
abbrev Ob.Twin.hbMisses : Nat := 13
abbrev Ob.Twin.linkErrors : Nat := 14

/-! Items of TUNE. -/
abbrev Ob.Tune.stat : Nat := 0
abbrev Ob.Tune.injCtrl : Nat := 1
abbrev Ob.Tune.fLoHz : Nat := 2
abbrev Ob.Tune.fHiHz : Nat := 3
abbrev Ob.Tune.amp : Nat := 4
abbrev Ob.Tune.steps : Nat := 5
abbrev Ob.Tune.capCtrl : Nat := 6
abbrev Ob.Tune.capPhase : Nat := 7
abbrev Ob.Tune.settleFr : Nat := 8
abbrev Ob.Tune.atFcHz : Nat := 9
abbrev Ob.Tune.atPm : Nat := 10
abbrev Ob.Tune.nres : Nat := 11
abbrev Ob.Tune.stop : Nat := 12
abbrev Ob.Tune.sessions : Nat := 13
abbrev Ob.Tune.aborts : Nat := 14

/-! Items of CFG. -/
abbrev Ob.Cfg.stat : Nat := 0
abbrev Ob.Cfg.gen0 : Nat := 1
abbrev Ob.Cfg.gen1 : Nat := 2
abbrev Ob.Cfg.genRun : Nat := 3
abbrev Ob.Cfg.staged : Nat := 4
abbrev Ob.Cfg.runLen : Nat := 5
abbrev Ob.Cfg.lastReason : Nat := 6
abbrev Ob.Cfg.commits : Nat := 7
abbrev Ob.Cfg.rejects : Nat := 8

/-! Items of AUTH. -/
abbrev Ob.Auth.stat : Nat := 0
abbrev Ob.Auth.fails : Nat := 1
abbrev Ob.Auth.passes : Nat := 2
abbrev Ob.Auth.lockMs : Nat := 3
abbrev Ob.Auth.keySel : Nat := 4
abbrev Ob.Auth.keyW0 : Nat := 5
abbrev Ob.Auth.keyW1 : Nat := 6
abbrev Ob.Auth.keyW2 : Nat := 7
abbrev Ob.Auth.keyW3 : Nat := 8
abbrev Ob.Auth.keyW4 : Nat := 9
abbrev Ob.Auth.keyW5 : Nat := 10
abbrev Ob.Auth.keyW6 : Nat := 11
abbrev Ob.Auth.keyW7 : Nat := 12
abbrev Ob.Auth.keyApply : Nat := 13

/-! Items of PIN. -/
abbrev Ob.Pin.enMap : Nat := 0
abbrev Ob.Pin.enLevel : Nat := 1
abbrev Ob.Pin.pgSel : Nat := 2
abbrev Ob.Pin.gpioDir : Nat := 3
abbrev Ob.Pin.gpioOd : Nat := 4
abbrev Ob.Pin.gpioOut : Nat := 5
abbrev Ob.Pin.gpioIn : Nat := 6
abbrev Ob.Pin.cmpoSel0 : Nat := 8
abbrev Ob.Pin.cmpoSel1 : Nat := 9
abbrev Ob.Pin.cmpoSel2 : Nat := 10
abbrev Ob.Pin.cmpoSel3 : Nat := 11
abbrev Ob.Pin.cmpoSel4 : Nat := 12
abbrev Ob.Pin.cmpoSel5 : Nat := 13
abbrev Ob.Pin.cmpoSel6 : Nat := 14
abbrev Ob.Pin.cmpoSel7 : Nat := 15

/-- Items of DEV (R345). -/
def rowsDev : List Row :=
  [ ⟨0, .ro, 0, .all, 4294967295, false⟩,  -- STAT
    ⟨1, .rw, 31, .all, 31, false⟩,  -- WAKE_CTRL
    ⟨2, .ro, 0, .all, 4294967295, false⟩,  -- DBG_PERMIT
    ⟨4, .ro, 0, .all, 4294967295, false⟩,  -- CEBUD0
    ⟨5, .ro, 0, .all, 4294967295, false⟩,  -- CEBUD1
    ⟨6, .ro, 0, .all, 4294967295, false⟩,  -- CEBUD2
    ⟨7, .ro, 0, .all, 4294967295, false⟩,  -- CEBUD3
    ⟨8, .ro, 0, .all, 4294967295, false⟩,  -- UID_LO
    ⟨9, .ro, 0, .all, 4294967295, false⟩,  -- UID_HI
    ⟨10, .ro, 516, .all, 4294967295, false⟩,  -- FW_REL
    ⟨11, .ro, 0, .all, 4294967295, false⟩,  -- BOOT_US
    ⟨12, .ro, 0, .all, 4294967295, false⟩,  -- WAKE_SRC
    ⟨13, .ro, 0, .all, 4294967295, false⟩,  -- DEFER_BYTES
    ⟨14, .ro, 0, .all, 4294967295, true⟩,  -- ECC_CORR
    ⟨15, .ro, 0, .all, 4294967295, true⟩,  -- ECC_UNCORR
    ⟨16, .ro, 0, .all, 4294967295, true⟩,  -- NVM_REFRESHES
    ⟨17, .ro, 0, .all, 4294967295, true⟩,  -- NVM_REMAPS
    ⟨18, .ro, 0, .all, 4294967295, true⟩,  -- RESETS
    ⟨19, .ro, 0, .all, 4294967295, false⟩,  -- TJ_HI
    ⟨20, .ro, 0, .all, 4294967295, false⟩]  -- TJ_LO

/-- Items of CLK (R53). -/
def rowsClk : List Row :=
  [ ⟨0, .ro, 0, .all, 4294967295, false⟩,  -- STAT
    ⟨1, .rw, 2, .all, 15, false⟩,  -- CTRL
    ⟨2, .rw, 0, .u 0 6399, 4294967295, false⟩,  -- SYNC_OFS
    ⟨3, .rw, 0, .u 0 6399, 4294967295, false⟩,  -- SYNC_OUT_DLY
    ⟨4, .rw, 1000, .u 0 60000, 4294967295, false⟩,  -- HOLDOVER_MS
    ⟨5, .rw, 8, .u 1 255, 4294967295, false⟩,  -- OVR_LIMIT
    ⟨6, .wo, 0, .u 1 1, 4294967295, false⟩,  -- ALIGN
    ⟨8, .rw, 0, .fields [(12, 8, 0, 20), (7, 4, 0, 8), (1, 0, 0, 2)], 8179, false⟩,  -- SSC_CTRL
    ⟨9, .rw, 0, .all, 65535, false⟩,  -- SSC_RAILS
    ⟨10, .rw, 0, .all, 4294967295, false⟩,  -- XTC0
    ⟨11, .rw, 0, .all, 4294967295, false⟩,  -- XTC1
    ⟨12, .rw, 0, .all, 4294967295, false⟩,  -- XTC2
    ⟨13, .rw, 0, .all, 4294967295, false⟩,  -- XTC3
    ⟨16, .ro, 0, .all, 4294967295, false⟩,  -- FRAME_LO
    ⟨17, .ro, 0, .all, 4294967295, false⟩,  -- FRAME_HI
    ⟨18, .ro, 0, .all, 4294967295, false⟩,  -- SYNC_ERR
    ⟨19, .ro, 0, .all, 4294967295, false⟩,  -- FREQ_OFS
    ⟨20, .ro, 0, .all, 4294967295, false⟩,  -- DLCAL
    ⟨21, .ro, 0, .all, 4294967295, false⟩]  -- SYNC_LOSSES

/-- Items of TIME (R54). -/
def rowsTime : List Row :=
  [ ⟨0, .ro, 0, .all, 4294967295, false⟩,  -- STAT
    ⟨1, .rw, 1, .all, 3, false⟩,  -- CTRL
    ⟨2, .ro, 0, .all, 4294967295, false⟩,  -- SEC_LO
    ⟨3, .ro, 0, .all, 4294967295, false⟩,  -- SEC_HI
    ⟨4, .ro, 0, .all, 4294967295, false⟩,  -- NS
    ⟨5, .ro, 0, .all, 4294967295, false⟩,  -- PPS_ERR
    ⟨6, .ro, 0, .all, 4294967295, false⟩,  -- RATE
    ⟨7, .rw, 1000, .u 100 1000000, 4294967295, false⟩,  -- STEP_NS
    ⟨8, .ro, 0, .all, 4294967295, false⟩,  -- STEPS
    ⟨9, .ro, 0, .all, 4294967295, false⟩]  -- PPS_LOSSES

/-- Items of PHASE (R103, R82). -/
def rowsPhaseA : List Row :=
  [ ⟨0, .ro, 255, .all, 4294967295, false⟩,  -- RAIL
    ⟨1, .rwl, 0, .fields [(1, 0, 0, 1)], 159, false⟩,  -- CTRL
    ⟨2, .rwl, 0, .u 0 65535, 4294967295, false⟩,  -- OFFSET
    ⟨3, .rw, 62259, .u 0 65535, 4294967295, false⟩,  -- MAXDUTY
    ⟨4, .rwl, 256, .u 0 1024, 4294967295, false⟩,  -- DT_HL
    ⟨5, .rwl, 256, .u 0 1024, 4294967295, false⟩,  -- DT_LH
    ⟨6, .rw, 640, .u 0 6400, 4294967295, false⟩,  -- MIN_H
    ⟨7, .rw, 640, .u 0 6400, 4294967295, false⟩,  -- MIN_L
    ⟨8, .rw, 0, .u 0 4, 4294967295, false⟩,  -- FORCE
    ⟨9, .rw, 0, .u 0 65535, 4294967295, false⟩,  -- FORCE_DUTY
    ⟨10, .rwa, 0, .u 0 1, 4294967295, false⟩,  -- HSUNLOCK
    ⟨11, .rw, 0, .all, 4294967295, false⟩,  -- TRIPSEL
    ⟨12, .rw, 1280, .u 0 5120, 4294967295, false⟩,  -- BLANK
    ⟨13, .rw, 16, .u 1 255, 4294967295, false⟩,  -- TRIP_N
    ⟨14, .rw, 64, .u 1 255, 4294967295, false⟩,  -- TRIP_LEAK
    ⟨16, .ro, 0, .all, 4294967295, false⟩,  -- STAT
    ⟨17, .ro, 0, .all, 4294967295, false⟩,  -- DUTY_NOW
    ⟨18, .ro, 0, .all, 4294967295, false⟩,  -- TON_NOW
    ⟨20, .ro, 0, .all, 4294967295, true⟩,  -- DROPS
    ⟨21, .ro, 0, .all, 4294967295, true⟩,  -- HEMS
    ⟨22, .ro, 0, .all, 4294967295, true⟩,  -- CARRY_DISCARDS
    ⟨23, .ro, 0, .all, 4294967295, true⟩,  -- TRIPS
    ⟨24, .ro, 0, .all, 4294967295, true⟩,  -- TRIP_LATCHES
    ⟨64, .rwl, 5000, .u 100 100000, 4294967295, false⟩,  -- ISEN_GAIN
    ⟨65, .rw, 40000, .u 1000 120000, 4294967295, false⟩,  -- IRATE
    ⟨66, .rwl, 470, .u 50 20000, 4294967295, false⟩,  -- LIND_NH
    ⟨67, .rw, 32768, .u 16384 49152, 4294967295, false⟩,  -- WEIGHT
    ⟨68, .ro, 0, .all, 4294967295, false⟩,  -- ZERO
    ⟨69, .ro, 0, .all, 4294967295, false⟩,  -- GAIN_CORR
    ⟨70, .ro, 0, .all, 4294967295, false⟩,  -- IRATE_STAT
    ⟨72, .ro, 0, .all, 4294967295, false⟩,  -- IPH
    ⟨73, .ro, 0, .all, 4294967295, false⟩,  -- IINST
    ⟨74, .ro, 0, .all, 4294967295, false⟩,  -- SAGE
    ⟨75, .ro, 0, .all, 4294967295, false⟩,  -- SDISP
    ⟨76, .ro, 0, .all, 4294967295, false⟩,  -- TRIM
    ⟨77, .ro, 0, .all, 4294967295, false⟩,  -- PSTAT
    ⟨78, .ro, 0, .all, 4294967295, false⟩,  -- QACC
    ⟨80, .ro, 0, .all, 4294967295, true⟩,  -- COLLISIONS
    ⟨81, .ro, 0, .all, 4294967295, true⟩,  -- LAGGING
    ⟨82, .ro, 0, .all, 4294967295, true⟩]  -- SKIMS
/-- Items of PHASE (R103). -/
def rowsPhaseB : List Row :=
  [ ⟨83, .ro, 0, .all, 4294967295, true⟩,  -- SKIM_REJECTS
    ⟨84, .ro, 0, .all, 4294967295, true⟩]  -- SKIM_ABORTS
/-- All items of PHASE. -/
def rowsPhase : List Row := rowsPhaseA ++ rowsPhaseB

/-- Items of RAIL (R123, R124, R144). -/
def rowsRailA : List Row :=
  [ ⟨0, .rwl, 4, .fields [(2, 1, 0, 2)], 7, false⟩,  -- CFG
    ⟨1, .rwl, 0, .u 0 3, 4294967295, false⟩,  -- ENGINE
    ⟨2, .rw, 32000, .u 8534 128000, 4294967295, false⟩,  -- PERIOD
    ⟨3, .rw, 0, .u 0 409599, 4294967295, false⟩,  -- ORIGIN
    ⟨4, .rw, 58982, .u 0 65535, 4294967295, false⟩,  -- DMAX
    ⟨5, .rw, 48000, .u 10000 60000, 4294967295, false⟩,  -- VBUS_REF
    ⟨6, .rw, 31129, .u 16384 32768, 4294967295, false⟩,  -- EFF
    ⟨7, .rw, 10, .u 0 1000, 4294967295, false⟩,  -- RLOSS
    ⟨16, .rw, 0, .all, 7, false⟩,  -- PROF_CTRL
    ⟨17, .rw, 0, .u 0 45000, 4294967295, false⟩,  -- TARGET
    ⟨18, .rw, 0, .all, 4294967295, false⟩,  -- VMIN
    ⟨19, .rw, 45000, .all, 4294967295, false⟩,  -- VMAX
    ⟨20, .rw, 1000, .u 10 100000, 4294967295, false⟩,  -- RATE_MAX
    ⟨21, .rw, 20000, .u 10 10000000, 4294967295, false⟩,  -- ACC_MAX
    ⟨22, .rw, 400000, .u 1000 1000000000, 4294967295, false⟩,  -- JERK_MAX
    ⟨23, .rw, 500, .u 10 100000, 4294967295, false⟩,  -- SS_RATE
    ⟨24, .rw, 5000, .u 10 10000000, 4294967295, false⟩,  -- SS_ACC
    ⟨25, .rw, 100000, .u 1000 1000000000, 4294967295, false⟩,  -- SS_JERK
    ⟨26, .rw, 200, .u 1 65535, 4294967295, false⟩,  -- SETTLE
    ⟨27, .ro, 0, .all, 4294967295, false⟩,  -- POS_UV
    ⟨28, .ro, 0, .all, 4294967295, false⟩,  -- VEL
    ⟨29, .ro, 0, .all, 4294967295, false⟩,  -- ACCEL
    ⟨30, .ro, 0, .all, 4294967295, false⟩,  -- TGT_NOW
    ⟨31, .ro, 0, .all, 4294967295, false⟩,  -- PROF_STAT
    ⟨32, .rw, 523, .all, 3855, false⟩,  -- CTRL
    ⟨33, .rw, 80000, .all, 4294967295, false⟩,  -- BAND_OUT_UV
    ⟨34, .rw, 30000, .all, 4294967295, false⟩,  -- BAND_IN_UV
    ⟨35, .rw, 200, .u 1 65535, 4294967295, false⟩,  -- SLAM_MAX
    ⟨36, .rw, 0, .u 0 20000, 4294967295, false⟩,  -- SINK_LIM
    ⟨37, .rw, 0, .all, 4294967295, false⟩,  -- B0
    ⟨38, .rw, 0, .all, 4294967295, false⟩,  -- B1
    ⟨39, .rw, 0, .all, 4294967295, false⟩,  -- B2
    ⟨40, .rw, 0, .all, 4294967295, false⟩,  -- A1
    ⟨41, .rw, 0, .all, 4294967295, false⟩,  -- A2
    ⟨42, .wo, 0, .u 1 1, 4294967295, false⟩,  -- COEF_APPLY
    ⟨43, .rw, 524288, .all, 4294967295, false⟩,  -- KP_I
    ⟨44, .rw, 16384, .all, 4294967295, false⟩,  -- KI_I
    ⟨45, .rw, 8192, .all, 4294967295, false⟩,  -- KP_P
    ⟨46, .rw, 256, .all, 4294967295, false⟩,  -- KI_P
    ⟨47, .rw, 11000, .all, 4294967295, false⟩]  -- TLIM
/-- Items of RAIL (R124, R145, R159, R235). -/
def rowsRailB : List Row :=
  [ ⟨48, .rw, 1048576, .all, 4294967295, false⟩,  -- KP_T
    ⟨49, .rw, 4, .all, 4294967295, false⟩,  -- KI_T
    ⟨50, .rw, 1, .u 1 255, 4294967295, false⟩,  -- PWR_W
    ⟨64, .rw, 48, .all, 115, false⟩,  -- FF_CTRL
    ⟨65, .rw, 20000, .u 64 1048576, 4294967295, false⟩,  -- PAT_PERIOD
    ⟨66, .rw, 0, .u 0 1048575, 4294967295, false⟩,  -- PAT_PHASE
    ⟨67, .rw, 3277, .u 0 65535, 4294967295, false⟩,  -- PAT_GAIN
    ⟨68, .rw, 65280, .u 61440 65535, 4294967295, false⟩,  -- PAT_FORGET
    ⟨69, .rw, 2, .u 0 15, 4294967295, false⟩,  -- PAT_LEAD
    ⟨70, .rw, 3277, .u 0 32767, 4294967295, false⟩,  -- FF_LIM
    ⟨71, .rw, 255, .uOr 0 31 255, 4294967295, false⟩,  -- FF_PORT
    ⟨72, .rw, 65280, .all, 65535, false⟩,  -- PAT_ID
    ⟨73, .rw, 4294901760, .all, 4294967295, false⟩,  -- POS_MAP
    ⟨74, .rw, 0, .u 0 1000, 4294967295, false⟩,  -- LEG_ROUT
    ⟨75, .wo, 0, .u 1 3, 4294967295, false⟩,  -- FF_CMD
    ⟨76, .rw, 0, .all, 1023, false⟩,  -- TBL_SEL
    ⟨77, .rw, 0, .all, 65535, false⟩,  -- TBL_DATA: signed, in bits 15 … 0 (R143, R145)
    ⟨78, .ro, 0, .all, 4294967295, false⟩,  -- FF_STAT
    ⟨79, .ro, 0, .all, 4294967295, false⟩,  -- PAT_ERR_UV
    ⟨80, .rw, 0, .all, 3, false⟩,  -- TUNE_CTRL
    ⟨81, .rw, 20000, .mult 1000 100000 100, 4294967295, false⟩,  -- LT_FREQ_HZ
    ⟨82, .rw, 10, .u 1 20, 4294967295, false⟩,  -- LT_AMP
    ⟨83, .rw, 8192, .u 8192 16384, 4294967295, false⟩,  -- LT_KMIN
    ⟨84, .rw, 32768, .u 16384 32768, 4294967295, false⟩,  -- LT_KMAX
    ⟨85, .rw, 16384, .u 0 65535, 4294967295, false⟩,  -- LT_QMIN
    ⟨86, .ro, 16384, .all, 4294967295, false⟩,  -- K_LT
    ⟨87, .ro, 0, .all, 4294967295, false⟩,  -- LT_MAG
    ⟨88, .ro, 0, .all, 4294967295, false⟩,  -- LT_PHASE
    ⟨89, .ro, 0, .all, 4294967295, false⟩,  -- LT_STAT
    ⟨90, .ro, 0, .all, 4294967295, true⟩,  -- LT_UPDATES
    ⟨91, .ro, 0, .all, 4294967295, true⟩,  -- LT_REJECTS
    ⟨96, .rw, 7, .all, 15, false⟩,  -- PROT_CTRL
    ⟨97, .rw, 4294967246, .s (-500) (-1), 4294967295, false⟩,  -- UV_WARN
    ⟨98, .rw, 4294967196, .s (-500) (-1), 4294967295, false⟩,  -- UV_FAULT
    ⟨99, .rw, 50, .u 1 500, 4294967295, false⟩,  -- OV_WARN
    ⟨100, .rw, 100, .u 1 500, 4294967295, false⟩,  -- OV_FAULT
    ⟨101, .rw, 200, .u 10 5000, 4294967295, false⟩,  -- WARN_FLOOR_MV
    ⟨102, .rw, 400, .u 10 5000, 4294967295, false⟩,  -- FAULT_FLOOR_MV
    ⟨103, .rw, 544, .fields [(15, 8, 1, 255), (7, 0, 1, 255)], 65535, false⟩,  -- LVL_QUAL
    ⟨104, .rw, 40000, .u 100 1000000, 4294967295, false⟩]  -- ILIM
/-- Items of RAIL (R104, R188, R235, R249). -/
def rowsRailC : List Row :=
  [ ⟨105, .rw, 200, .u 50 1000, 4294967295, false⟩,  -- ILIM_FLOOR
    ⟨106, .rw, 2000, .u 1 65535, 4294967295, false⟩,  -- HIC_N
    ⟨107, .rw, 20, .u 1 10000, 4294967295, false⟩,  -- HIC_OFF_MS
    ⟨108, .rw, 5, .u 0 255, 4294967295, false⟩,  -- HIC_MAX
    ⟨109, .rw, 4194342000, .all, 4294967295, false⟩,  -- IN_LIM
    ⟨110, .rw, 52436800, .fields [(31, 16, 0, 2400), (15, 0, 1000, 20000)], 4294967295, false⟩,  -- FTMP_XFER
    ⟨111, .ro, 0, .all, 4294967295, false⟩,  -- PROT_STAT
    ⟨112, .rw, 31, .all, 63, false⟩,  -- PLC_CTRL
    ⟨113, .rw, 20000, .u 100 120000, 4294967295, false⟩,  -- IADD
    ⟨114, .rw, 14000, .u 100 120000, 4294967295, false⟩,  -- ISHED
    ⟨115, .rw, 500, .u 100 1500, 4294967295, false⟩,  -- FREF_KHZ
    ⟨116, .rw, 4000, .u 0 10000, 4294967295, false⟩,  -- TCR
    ⟨117, .rw, 2000, .u 10 100000, 4294967295, false⟩,  -- DWELL_US
    ⟨118, .rw, 1, .u 1 16, 4294967295, false⟩,  -- MINPH
    ⟨119, .rw, 32, .u 1 256, 4294967295, false⟩,  -- PLC_AVG
    ⟨120, .rw, 16, .u 0 65535, 4294967295, false⟩,  -- BAL_GAIN
    ⟨121, .rwl, 64, .u 32 1024, 4294967295, false⟩,  -- SKIM_LEN
    ⟨122, .rw, 1000, .u 100 60000, 4294967295, false⟩,  -- SKIM_PERIOD_MS
    ⟨123, .ro, 0, .all, 4294967295, false⟩,  -- NACT
    ⟨124, .ro, 16384, .all, 4294967295, false⟩,  -- PLC_SCALE
    ⟨125, .ro, 0, .all, 4294967295, true⟩,  -- ADDS
    ⟨126, .ro, 0, .all, 4294967295, true⟩,  -- SHEDS
    ⟨127, .ro, 0, .all, 4294967295, false⟩,  -- SKIM_STAT
    ⟨128, .rw, 0, .all, 1, false⟩,  -- LINK_CTRL
    ⟨129, .rw, 255, .uOr 0 31 255, 4294967295, false⟩,  -- LINK_AUTH
    ⟨130, .ro, 0, .all, 4294967295, false⟩,  -- LINK_PORTS
    ⟨131, .ro, 0, .all, 4294967295, false⟩,  -- LINK_STAT
    ⟨132, .ro, 4294967295, .all, 4294967295, false⟩,  -- ARB_MV
    ⟨133, .ro, 0, .all, 4294967295, true⟩,  -- VREQS
    ⟨134, .ro, 0, .all, 4294967295, true⟩,  -- NAKS
    ⟨135, .ro, 0, .all, 4294967295, true⟩,  -- SUPERSEDES
    ⟨136, .ro, 0, .all, 4294967295, true⟩,  -- WITHDRAWALS
    ⟨144, .rw, 1, .all, 3, false⟩,  -- SEQ_CTRL
    ⟨145, .ro, 255, .all, 4294967295, false⟩,  -- DOMAIN
    ⟨146, .rw, 0, .u 0 15, 4294967295, false⟩,  -- UP_RANK
    ⟨147, .rw, 0, .u 0 15, 4294967295, false⟩,  -- DN_RANK
    ⟨148, .rw, 0, .u 0 1000000, 4294967295, false⟩,  -- STEP_US
    ⟨149, .rw, 1000, .u 1 10000, 4294967295, false⟩,  -- QUAL_US
    ⟨150, .rw, 200, .u 1 60000, 4294967295, false⟩,  -- UP_TMO_MS
    ⟨151, .rw, 50, .u 1 500, 4294967295, false⟩]  -- PG_WIN
/-- Items of RAIL (R125, R206, R249). -/
def rowsRailD : List Row :=
  [ ⟨152, .rw, 300, .u 10 5000, 4294967295, false⟩,  -- PG_FLOOR_MV
    ⟨153, .rw, 0, .u 0 1000000, 4294967295, false⟩,  -- DN_STEP_US
    ⟨154, .rw, 1000, .u 100 10000, 4294967295, false⟩,  -- DIS_MV
    ⟨155, .rw, 500, .u 1 60000, 4294967295, false⟩,  -- DIS_TMO_MS
    ⟨156, .rw, 2000, .u 100 100000, 4294967295, false⟩,  -- DIS_IMA
    ⟨157, .rw, 58000, .u 40000 68000, 4294967295, false⟩,  -- DIS_VBUS_MV
    ⟨158, .rw, 100, .u 0 60000, 4294967295, false⟩,  -- MIN_OFF_MS
    ⟨159, .ro, 0, .all, 4294967295, false⟩,  -- SEQ_STAT
    ⟨160, .rwl, 0, .fields [(12, 8, 0, 27)], 7951, false⟩,  -- FUSE_CTRL
    ⟨161, .rw, 10, .u 1 100, 4294967295, false⟩,  -- FUSE_IG_UA
    ⟨162, .rw, 5000, .u 100 100000, 4294967295, false⟩,  -- INRUSH_MA
    ⟨163, .rw, 100, .u 1 10000, 4294967295, false⟩,  -- INS_TMO_MS
    ⟨164, .rw, 500, .u 50 5000, 4294967295, false⟩,  -- INS_DROP_MV
    ⟨165, .rw, 15000, .u 5000 17500, 4294967295, false⟩,  -- TJ_MAX
    ⟨166, .rw, 50, .u 1 10000, 4294967295, false⟩,  -- RTH_JC
    ⟨167, .rw, 1500, .u 1 100000, 4294967295, false⟩,  -- RTH_CA
    ⟨168, .rw, 2000, .u 1 1000000, 4294967295, false⟩,  -- CTH
    ⟨169, .rw, 3, .u 0 15, 4294967295, false⟩,  -- FUSE_RETRIES
    ⟨170, .rw, 1000, .u 10 60000, 4294967295, false⟩,  -- FUSE_RETRY_MS
    ⟨171, .rw, 1000, .u 10 10000, 4294967295, false⟩,  -- PS_ARM_MS
    ⟨172, .ro, 0, .all, 4294967295, false⟩,  -- FUSE_STAT
    ⟨173, .ro, 2500, .all, 4294967295, false⟩,  -- FUSE_TJ
    ⟨174, .ro, 0, .all, 4294967295, false⟩,  -- VOUT
    ⟨175, .ro, 0, .all, 4294967295, true⟩,  -- FUSE_TRIPS
    ⟨192, .ro, 0, .all, 4294967295, false⟩,  -- STAT
    ⟨193, .ro, 0, .all, 4294967295, false⟩,  -- ERR_UV
    ⟨194, .ro, 0, .all, 4294967295, false⟩,  -- VSENSE
    ⟨195, .ro, 0, .all, 4294967295, false⟩,  -- VCOARSE
    ⟨196, .ro, 0, .all, 4294967295, false⟩,  -- IRAIL
    ⟨197, .ro, 0, .all, 4294967295, false⟩,  -- PIN
    ⟨198, .ro, 0, .all, 4294967295, false⟩,  -- PSHARE
    ⟨199, .ro, 0, .all, 4294967295, false⟩,  -- DSEL
    ⟨200, .ro, 0, .all, 4294967295, false⟩,  -- DEM_V
    ⟨201, .ro, 0, .all, 4294967295, false⟩,  -- DEM_I
    ⟨202, .ro, 0, .all, 4294967295, false⟩,  -- DEM_P
    ⟨203, .ro, 0, .all, 4294967295, false⟩,  -- DEM_T
    ⟨204, .ro, 0, .all, 4294967295, false⟩,  -- DFF
    ⟨205, .ro, 2500, .all, 4294967295, false⟩,  -- TSTAGE
    ⟨206, .ro, 0, .all, 4294967295, true⟩,  -- SLAM_TIMEOUTS
    ⟨207, .ro, 0, .all, 4294967295, true⟩]  -- LIMIT_FRAMES
/-- Items of RAIL (R298). -/
def rowsRailE : List Row :=
  [ ⟨224, .ro, 0, .all, 4294967295, true⟩,  -- UV_WARN_CNT
    ⟨225, .ro, 0, .all, 4294967295, true⟩,  -- UV_FAULT_CNT
    ⟨226, .ro, 0, .all, 4294967295, true⟩,  -- OV_WARN_CNT
    ⟨227, .ro, 0, .all, 4294967295, true⟩,  -- OV_FAULT_CNT
    ⟨228, .ro, 0, .all, 4294967295, true⟩,  -- OC_EPISODES
    ⟨229, .ro, 0, .all, 4294967295, true⟩,  -- HICCUPS
    ⟨230, .ro, 0, .all, 4294967295, true⟩,  -- CROWBARS
    ⟨231, .ro, 0, .all, 4294967295, true⟩,  -- QUALIFY_RESTARTS
    ⟨232, .ro, 0, .all, 4294967295, true⟩,  -- START_FAIL
    ⟨233, .ro, 0, .all, 4294967295, true⟩,  -- DISCHARGE_TIMEOUT
    ⟨234, .ro, 0, .all, 4294967295, true⟩,  -- SLAM_EVENTS
    ⟨235, .ro, 0, .all, 4294967295, true⟩,  -- OVERRUNS
    ⟨236, .ro, 0, .all, 4294967295, true⟩]  -- LATCH_CLEARS
/-- All items of RAIL. -/
def rowsRail : List Row := rowsRailA ++ rowsRailB ++ rowsRailC ++ rowsRailD ++ rowsRailE

/-- Items of DOMAIN (R248). -/
def rowsDomain : List Row :=
  [ ⟨0, .rw, 0, .all, 7, false⟩,  -- CTRL
    ⟨1, .ro, 0, .all, 4294967295, false⟩,  -- RAILS
    ⟨2, .rw, 2, .u 0 15, 4294967295, false⟩,  -- RETRIES
    ⟨3, .rw, 1000, .u 10 60000, 4294967295, false⟩,  -- RETRY_MS
    ⟨4, .ro, 0, .all, 4294967295, false⟩,  -- STAT
    ⟨5, .ro, 0, .all, 4294967295, false⟩,  -- UP_TIME_US
    ⟨6, .ro, 0, .all, 4294967295, true⟩,  -- STARTS
    ⟨7, .ro, 0, .all, 4294967295, true⟩,  -- RETRIED
    ⟨8, .ro, 0, .all, 4294967295, true⟩]  -- LATCHES

/-- Items of PORT (R187). -/
def rowsPort : List Row :=
  [ ⟨0, .rw, 4, .fields [(2, 1, 1, 2)], 55, false⟩,  -- CTRL
    ⟨1, .rw, 255, .uOr 0 15 255, 4294967295, false⟩,  -- RAIL
    ⟨2, .rw, 100, .u 0 60000, 4294967295, false⟩,  -- TIMEOUT_MS
    ⟨3, .rw, 0, .u 0 1000, 4294967295, false⟩,  -- STATUS_MS
    ⟨4, .rw, 10, .u 1 1000, 4294967295, false⟩,  -- WARN_REPEAT_MS
    ⟨8, .ro, 0, .all, 4294967295, false⟩,  -- STAT
    ⟨9, .ro, 4294967295, .all, 4294967295, false⟩,  -- REQ_MV
    ⟨10, .ro, 0, .all, 4294967295, false⟩,  -- REQ_INFO
    ⟨11, .ro, 0, .all, 4294967295, false⟩,  -- POS
    ⟨12, .ro, 4294967295, .all, 4294967295, false⟩,  -- POS_AGE
    ⟨13, .ro, 0, .all, 4294967295, false⟩,  -- PEER
    ⟨14, .ro, 0, .all, 4294967295, false⟩,  -- LOAD_STAT0
    ⟨15, .ro, 0, .all, 4294967295, false⟩,  -- LOAD_STAT1
    ⟨16, .ro, 0, .all, 4294967295, true⟩,  -- CRC_ERRORS
    ⟨17, .ro, 0, .all, 4294967295, true⟩,  -- DROPS
    ⟨18, .ro, 0, .all, 4294967295, true⟩,  -- LOST
    ⟨19, .ro, 0, .all, 4294967295, true⟩,  -- FORMAT_ERRORS
    ⟨20, .ro, 0, .all, 4294967295, true⟩,  -- SEQ_GAPS
    ⟨21, .ro, 0, .all, 4294967295, true⟩,  -- RX_FRAMES
    ⟨22, .ro, 0, .all, 4294967295, true⟩,  -- TX_FRAMES
    ⟨23, .ro, 0, .all, 4294967295, true⟩,  -- REQ_OVERFLOWS
    ⟨24, .ro, 0, .all, 4294967295, true⟩]  -- UNKNOWN

/-- Items of FEED (R205). -/
def rowsFeed : List Row :=
  [ ⟨0, .rw, 1, .all, 1, false⟩,  -- CTRL
    ⟨1, .rw, 46000, .u 30000 65000, 4294967295, false⟩,  -- UV_WARN
    ⟨2, .rw, 42000, .u 30000 65000, 4294967295, false⟩,  -- UV_FAULT
    ⟨3, .rw, 61000, .u 30000 68000, 4294967295, false⟩,  -- OV_FAULT
    ⟨4, .rw, 1000, .u 100 5000, 4294967295, false⟩,  -- HYST_MV
    ⟨5, .rw, 5000, .u 100 100000, 4294967295, false⟩,  -- FALL_RATE
    ⟨6, .rw, 100, .u 10 1000, 4294967295, false⟩,  -- FALL_WIN_US
    ⟨7, .rw, 2000000, .u 0 20000000, 4294967295, false⟩,  -- PLIM
    ⟨8, .rwl, 20, .u 1 100, 4294967295, false⟩,  -- IGATE_UA
    ⟨16, .ro, 0, .all, 4294967295, false⟩,  -- STAT
    ⟨17, .ro, 0, .all, 4294967295, false⟩,  -- VIN
    ⟨18, .w1c, 0, .all, 3, false⟩,  -- FAULTS
    ⟨19, .ro, 0, .all, 4294967295, true⟩,  -- TURN_ONS
    ⟨20, .ro, 0, .all, 4294967295, true⟩,  -- GATE_FAULTS
    ⟨32, .rw, 0, .fields [(1, 0, 0, 2)], 7, false⟩,  -- BUS_CTRL
    ⟨33, .ro, 0, .all, 4294967295, false⟩,  -- VBUS
    ⟨34, .rw, 10, .u 2 50, 4294967295, false⟩,  -- DEAD_US
    ⟨35, .rw, 50, .u 5 200, 4294967295, false⟩,  -- CONFIRM_US
    ⟨36, .rw, 5000, .u 100 60000, 4294967295, false⟩,  -- RETURN_DELAY_MS
    ⟨37, .rw, 10000, .u 100 1000000, 4294967295, false⟩,  -- CBUS_UF
    ⟨38, .rw, 40000, .u 10000 60000, 4294967295, false⟩,  -- VBUS_MIN
    ⟨39, .rw, 0, .u 0 1000000, 4294967295, false⟩,  -- P_AUX_MW
    ⟨40, .rw, 100, .u 1 10000, 4294967295, false⟩,  -- EW_HOLD_MS
    ⟨41, .ro, 0, .all, 4294967295, false⟩,  -- SEL_STAT
    ⟨42, .ro, 65535, .all, 4294967295, false⟩,  -- HOLDUP
    ⟨43, .ro, 0, .all, 4294967295, false⟩,  -- PLOAD
    ⟨44, .ro, 0, .all, 4294967295, true⟩,  -- CHANGEOVERS
    ⟨45, .ro, 0, .all, 4294967295, true⟩,  -- RETURNS
    ⟨46, .ro, 0, .all, 4294967295, true⟩,  -- EWARNS
    ⟨47, .ro, 0, .all, 4294967295, true⟩]  -- NONE_EPISODES

/-- Items of CMP (R233). -/
def rowsCmp : List Row :=
  [ ⟨0, .rw, 0, .fields [(11, 10, 0, 2), (7, 5, 0, 4)], 1043681, false⟩,  -- CTRL
    ⟨1, .rw, 0, .insel, 4294967295, false⟩,  -- INSEL
    ⟨2, .rw, 1023, .u 0 1023, 4294967295, false⟩,  -- DAC
    ⟨3, .rw, 0, .all, 33791, false⟩,  -- RAMP
    ⟨4, .rw, 255, .uOr 0 47 255, 4294967295, false⟩,  -- REFPH
    ⟨5, .rw, 0, .u 0 5120, 4294967295, false⟩,  -- BLANK
    ⟨6, .rw, 0, .fields [(2, 0, 0, 5)], 3847, false⟩,  -- ROUTE
    ⟨8, .ro, 0, .all, 4294967295, false⟩,  -- STAT
    ⟨9, .wo, 0, .u 1 1, 4294967295, false⟩,  -- CLR
    ⟨10, .ro, 0, .all, 4294967295, true⟩]  -- ASSERTS

/-- Items of TEMP (R234). -/
def rowsTemp : List Row :=
  [ ⟨0, .rw, 3, .all, 15, false⟩,  -- CTRL
    ⟨1, .rw, 52436800, .tempXfer, 4294967295, false⟩,  -- XFER
    ⟨2, .rw, 11000, .all, 4294967295, false⟩,  -- WARN
    ⟨3, .rw, 12500, .all, 4294967295, false⟩,  -- FAULT
    ⟨4, .rw, 300, .u 50 2000, 4294967295, false⟩,  -- HYST
    ⟨5, .rw, 0, .u 0 10000, 4294967295, false⟩,  -- ROR_LIM
    ⟨6, .rw, 100, .u 10 1000, 4294967295, false⟩,  -- ROR_WIN_MS
    ⟨7, .rw, 0, .all, 65535, false⟩,  -- RAILS
    ⟨8, .ro, 2500, .all, 4294967295, false⟩,  -- VALUE
    ⟨9, .ro, 0, .all, 4294967295, false⟩,  -- ROR
    ⟨10, .ro, 0, .all, 4294967295, false⟩,  -- STAT
    ⟨11, .ro, 0, .all, 4294967295, true⟩,  -- WARNS
    ⟨12, .ro, 0, .all, 4294967295, true⟩]  -- FAULTS

/-- Items of REC (R299). -/
def rowsRec : List Row :=
  [ ⟨0, .ro, 0, .all, 4294967295, false⟩,  -- STAT
    ⟨1, .ro, 0, .all, 4294967295, false⟩,  -- FIRST_LO
    ⟨2, .ro, 0, .all, 4294967295, false⟩,  -- FIRST_HI
    ⟨3, .ro, 0, .all, 4294967295, false⟩,  -- LAST_LO
    ⟨4, .ro, 0, .all, 4294967295, false⟩,  -- LAST_HI
    ⟨5, .ro, 0, .all, 4294967295, false⟩,  -- COUNT
    ⟨6, .ro, 0, .all, 4294967295, false⟩,  -- HELD
    ⟨7, .ro, 0, .all, 4294967295, false⟩,  -- RAM_PEND
    ⟨8, .ro, 0, .all, 4294967295, false⟩,  -- LOST
    ⟨9, .ro, 0, .all, 4294967295, false⟩,  -- WRITE_FAULTS
    ⟨10, .ro, 0, .all, 4294967295, false⟩,  -- CLEARS
    ⟨11, .ro, 0, .all, 4294967295, false⟩,  -- SNAP_STAT
    ⟨12, .ro, 0, .all, 4294967295, false⟩]  -- FREEZE_MS

/-- Items of METER (R279). -/
def rowsMeter : List Row :=
  [ ⟨0, .ro, 0, .all, 4294967295, false⟩,  -- STAT
    ⟨1, .ro, 0, .all, 4294967295, false⟩,  -- V_MV
    ⟨2, .ro, 0, .all, 4294967295, false⟩,  -- I_MA
    ⟨3, .ro, 0, .all, 4294967295, false⟩,  -- P_MW
    ⟨4, .ro, 0, .all, 4294967295, false⟩,  -- IMP_LO
    ⟨5, .ro, 0, .all, 4294967295, false⟩,  -- IMP_HI
    ⟨6, .ro, 0, .all, 4294967295, false⟩,  -- EXP_LO
    ⟨7, .ro, 0, .all, 4294967295, false⟩,  -- EXP_HI
    ⟨8, .ro, 0, .all, 4294967295, false⟩,  -- I_FS_MA
    ⟨9, .ro, 0, .all, 4294967295, false⟩,  -- SHUNT_UOHM
    ⟨10, .ro, 0, .all, 4294967295, false⟩,  -- DIV
    ⟨11, .ro, 100, .all, 4294967295, false⟩]  -- CREEP

/-- Items of METERPART (R279). -/
def rowsPart : List Row :=
  [ ⟨0, .ro, 0, .all, 4294967295, false⟩,  -- STAT
    ⟨1, .ro, 0, .all, 4294967295, false⟩,  -- FW_VER
    ⟨2, .ro, 0, .all, 4294967295, false⟩,  -- FW_CRC
    ⟨3, .ro, 0, .all, 4294967295, false⟩,  -- SEAL_COUNT
    ⟨4, .ro, 0, .all, 4294967295, false⟩,  -- AUDIT_USED
    ⟨5, .ro, 15, .all, 4294967295, false⟩,  -- INTERVAL_MIN
    ⟨6, .ro, 0, .all, 4294967295, false⟩,  -- INT_LAST
    ⟨7, .ro, 0, .all, 4294967295, false⟩]  -- MIRROR_AGE_US

/-- Items of TWIN (R264). -/
def rowsTwin : List Row :=
  [ ⟨0, .rw, 0, .all, 3, false⟩,  -- CTRL
    ⟨1, .rw, 10, .u 1 60, 4294967295, false⟩,  -- REJOIN_S
    ⟨2, .ro, 0, .all, 4294967295, false⟩,  -- STAT
    ⟨3, .ro, 0, .all, 4294967295, false⟩,  -- LINK_VER
    ⟨4, .ro, 0, .all, 4294967295, false⟩,  -- PEER_VER
    ⟨5, .ro, 0, .all, 4294967295, false⟩,  -- CFG_DIGEST
    ⟨6, .ro, 0, .all, 4294967295, false⟩,  -- PEER_DIGEST
    ⟨7, .ro, 0, .all, 4294967295, false⟩,  -- LAG
    ⟨8, .ro, 0, .all, 4294967295, false⟩,  -- HO_EDGE_LO
    ⟨9, .ro, 0, .all, 4294967295, true⟩,  -- TAKEOVERS
    ⟨10, .ro, 0, .all, 4294967295, true⟩,  -- HANDOVERS
    ⟨11, .ro, 0, .all, 4294967295, true⟩,  -- UNARMS
    ⟨12, .ro, 0, .all, 4294967295, true⟩,  -- SPLITS
    ⟨13, .ro, 0, .all, 4294967295, true⟩,  -- HB_MISSES
    ⟨14, .ro, 0, .all, 4294967295, true⟩]  -- LINK_ERRORS

/-- Items of TUNE (R158). -/
def rowsTune : List Row :=
  [ ⟨0, .ro, 0, .all, 4294967295, false⟩,  -- STAT
    ⟨1, .rw, 1794, .fields [(11, 8, 7, 15), (1, 0, 1, 3)], 3983, false⟩,  -- INJ_CTRL
    ⟨2, .rw, 1000, .u 10 200000, 4294967295, false⟩,  -- F_LO_HZ
    ⟨3, .rw, 100000, .u 10 200000, 4294967295, false⟩,  -- F_HI_HZ
    ⟨4, .rw, 256, .all, 4294967295, false⟩,  -- AMP
    ⟨5, .rw, 16, .u 1 64, 4294967295, false⟩,  -- STEPS
    ⟨6, .rw, 4, .fields [(11, 8, 0, 9), (3, 0, 0, 9)], 462607, false⟩,  -- CAP_CTRL
    ⟨7, .rw, 0, .u 0 47, 4294967295, false⟩,  -- CAP_PHASE
    ⟨8, .rw, 2000, .u 0 200000, 4294967295, false⟩,  -- SETTLE_FR
    ⟨9, .rw, 20000, .u 1000 100000, 4294967295, false⟩,  -- AT_FC_HZ
    ⟨10, .rw, 500, .u 300 700, 4294967295, false⟩,  -- AT_PM
    ⟨11, .ro, 0, .all, 4294967295, false⟩,  -- NRES
    ⟨12, .wo, 0, .u 1 1, 4294967295, false⟩,  -- STOP
    ⟨13, .ro, 0, .all, 4294967295, true⟩,  -- SESSIONS
    ⟨14, .ro, 0, .all, 4294967295, true⟩]  -- ABORTS

/-- Items of CFG (R346). -/
def rowsCfg : List Row :=
  [ ⟨0, .ro, 0, .all, 4294967295, false⟩,  -- STAT
    ⟨1, .ro, 0, .all, 4294967295, false⟩,  -- GEN0
    ⟨2, .ro, 0, .all, 4294967295, false⟩,  -- GEN1
    ⟨3, .ro, 0, .all, 4294967295, false⟩,  -- GEN_RUN
    ⟨4, .ro, 0, .all, 4294967295, false⟩,  -- STAGED
    ⟨5, .ro, 0, .all, 4294967295, false⟩,  -- RUN_LEN
    ⟨6, .ro, 0, .all, 4294967295, false⟩,  -- LAST_REASON
    ⟨7, .ro, 0, .all, 4294967295, true⟩,  -- COMMITS
    ⟨8, .ro, 0, .all, 4294967295, true⟩]  -- REJECTS

/-- Items of AUTH (R321). -/
def rowsAuth : List Row :=
  [ ⟨0, .ro, 0, .all, 4294967295, false⟩,  -- STAT
    ⟨1, .ro, 0, .all, 4294967295, true⟩,  -- FAILS
    ⟨2, .ro, 0, .all, 4294967295, true⟩,  -- PASSES
    ⟨3, .ro, 0, .all, 4294967295, false⟩,  -- LOCK_MS
    ⟨4, .rwa, 0, .u 0 1, 4294967295, false⟩,  -- KEY_SEL
    ⟨5, .rwa, 0, .all, 4294967295, false⟩,  -- KEY_W0
    ⟨6, .rwa, 0, .all, 4294967295, false⟩,  -- KEY_W1
    ⟨7, .rwa, 0, .all, 4294967295, false⟩,  -- KEY_W2
    ⟨8, .rwa, 0, .all, 4294967295, false⟩,  -- KEY_W3
    ⟨9, .rwa, 0, .all, 4294967295, false⟩,  -- KEY_W4
    ⟨10, .rwa, 0, .all, 4294967295, false⟩,  -- KEY_W5
    ⟨11, .rwa, 0, .all, 4294967295, false⟩,  -- KEY_W6
    ⟨12, .rwa, 0, .all, 4294967295, false⟩,  -- KEY_W7
    ⟨13, .rwa, 0, .u 1 1, 4294967295, false⟩]  -- KEY_APPLY

/-- Items of PIN (R353). -/
def rowsPin : List Row :=
  [ ⟨0, .rw, 4294967295, .nibs, 4294967295, false⟩,  -- EN_MAP
    ⟨1, .ro, 0, .all, 4294967295, false⟩,  -- EN_LEVEL
    ⟨2, .rw, 0, .all, 65535, false⟩,  -- PG_SEL
    ⟨3, .rw, 0, .all, 65535, false⟩,  -- GPIO_DIR
    ⟨4, .rw, 0, .all, 65535, false⟩,  -- GPIO_OD
    ⟨5, .rw, 0, .all, 65535, false⟩,  -- GPIO_OUT
    ⟨6, .ro, 0, .all, 4294967295, false⟩,  -- GPIO_IN
    ⟨8, .rw, 0, .all, 4294967295, false⟩,  -- CMPO_SEL0
    ⟨9, .rw, 0, .all, 4294967295, false⟩,  -- CMPO_SEL1
    ⟨10, .rw, 0, .all, 4294967295, false⟩,  -- CMPO_SEL2
    ⟨11, .rw, 0, .all, 4294967295, false⟩,  -- CMPO_SEL3
    ⟨12, .rw, 0, .all, 4294967295, false⟩,  -- CMPO_SEL4
    ⟨13, .rw, 0, .all, 4294967295, false⟩,  -- CMPO_SEL5
    ⟨14, .rw, 0, .all, 4294967295, false⟩,  -- CMPO_SEL6
    ⟨15, .rw, 0, .all, 4294967295, false⟩]  -- CMPO_SEL7

/-- The rows of a class; METER instance 0x10 has its own. -/
def rowsOf (cls inst : Nat) : List Row :=
  if cls = Ob.clsRail then rowsRail else if cls = Ob.clsPhase then rowsPhase
  else if cls = Ob.clsDev then rowsDev else if cls = Ob.clsClk then rowsClk
  else if cls = Ob.clsTime then rowsTime else if cls = Ob.clsDomain then rowsDomain
  else if cls = Ob.clsPort then rowsPort else if cls = Ob.clsFeed then rowsFeed
  else if cls = Ob.clsCmp then rowsCmp else if cls = Ob.clsTemp then rowsTemp
  else if cls = Ob.clsRec then rowsRec
  else if cls = Ob.clsMeter then (if inst = 16 then rowsPart else rowsMeter)
  else if cls = Ob.clsTwin then rowsTwin else if cls = Ob.clsTune then rowsTune
  else if cls = Ob.clsCfg then rowsCfg else if cls = Ob.clsAuth then rowsAuth
  else if cls = Ob.clsPin then rowsPin else []

/-- How many instances a class has; a class without instances has the one instance 0 (R8). METER counts its points and
the partition. -/
def instCount (cls : Nat) : Nat :=
  if cls = Ob.clsRail then 16 else if cls = Ob.clsPhase then 48 else if cls = Ob.clsDomain then 8
  else if cls = Ob.clsPort then 32 else if cls = Ob.clsFeed then 3 else if cls = Ob.clsCmp then 32
  else if cls = Ob.clsTemp then 28 else if cls = Ob.clsMeter then 17 else 1

/-- The row of an item at an instance, if the object exists there: FEED items 0x20 … 0x2F are the bus's and the others the
feeds' (R205), TEMP.XFER does not exist at the die sensors (R234). -/
def rowAt (cls inst item : Nat) : Option Row :=
  if inst < instCount cls then
    if cls = Ob.clsFeed && ((inst == 2) != (32 ≤ item : Bool)) then none
    else if cls = Ob.clsTemp && item = Ob.Temp.xfer && inst < 8 then none
    else (rowsOf cls inst).find? (fun r => r.item == item)
  else none

/-- The factory default of an item at an instance: the map's value, with the maps' values by instance for RAIL.ENGINE,
UP_RANK, DN_RANK (R123, R249) and the TEMP objects (R234). Instances 0 … 7 of TEMP are the die sensors, 8 … 15 the TD
inputs and 16 … 27 the TMON inputs (R227). -/
def dfltAt (cls inst item : Nat) : Nat :=
  match rowAt cls inst item with
  | none => 0
  | some r =>
    if cls = Ob.clsRail then
      if item = Ob.Rail.engine then inst / 4
      else if item = Ob.Rail.upRank || item = Ob.Rail.dnRank then inst
      else r.dflt
    else if cls = Ob.clsTemp then
      if item = Ob.Temp.ctrl then (if inst < 8 then 7 else if inst < 16 then 1 else 3)
      else if item = Ob.Temp.xfer then (if inst < 16 then 0x4083 else 0x03201F40)
      else if item = Ob.Temp.warn then (if inst < 8 then 11000 else if inst < 16 then 10000 else 11000)
      else if item = Ob.Temp.fault then (if inst < 8 then 12000 else if inst < 16 then 11500 else 12500)
      else r.dflt
    else r.dflt

/-- Does a written value lie within the range of its row? Reserved bits are ignored (R9), so the value is masked before. -/
def Rng.ok (g : Rng) (inst : Nat) (w : Word) : Bool :=
  match g with
  | .all => true
  | .u lo hi => lo ≤ w.toNat && w.toNat ≤ hi
  | .s lo hi => lo ≤ w.toInt && w.toInt ≤ hi
  | .uOr lo hi x => (lo ≤ w.toNat && w.toNat ≤ hi) || w.toNat == x
  | .mult lo hi k => lo ≤ w.toNat && w.toNat ≤ hi && w.toNat % k == 0
  | .fields fs => fs.all fun f => f.2.2.1 ≤ bits w f.1 f.2.1 && bits w f.1 f.2.1 ≤ f.2.2.2
  | .insel => w.toNat ≤ 0x42 || (0x48 ≤ w.toNat && w.toNat ≤ 0x5B)
  | .nibs => (List.range 8).all fun k => bits w (4 * k + 3) (4 * k) ≤ 3 || bits w (4 * k + 3) (4 * k) == 15
  | .tempXfer =>
    if inst < 16 then 0x3C00 ≤ bits w 15 0 && bits w 15 0 ≤ 0x4400
    else bits w 31 16 ≤ 2400 && 1000 ≤ bits w 15 0 && bits w 15 0 ≤ 20000

/-- The bits of an object that are not reserved at an instance: the map's, and the low half for a TD transfer (R234). -/
def Row.maskAt (r : Row) (cls inst : Nat) : Word :=
  if cls = Ob.clsTemp && r.item = Ob.Temp.xfer && inst < 16 then 0xFFFF else BitVec.ofNat 32 r.mask

end Sys2Proof.Machine
end

