-- ==== Sys2Proof/Machine/Ops.lean ====
section
/-! DEFINITION. The named operations on State that every chapter uses: vectors, the object store, counters, interrupts,
and who belongs to whom (phases of a rail, rails of a domain). -/

namespace Sys2Proof.Machine

/-- Write one place of a vector. -/
def vset {α : Type} {n : Nat} (v : Vector α n) (i : Fin n) (x : α) : Vector α n := v.set i.val x i.isLt

/-- Change one place of a vector. -/
def vmod {α : Type} {n : Nat} (v : Vector α n) (i : Fin n) (f : α → α) : Vector α n := vset v i (f (v.get i))

/-! The object store -/

/-- The listed value of a key. -/
def Store.get : Store → Nat → Option Word
  | [], _ => none
  | (k, w) :: t, i => if i = k then some w else if i < k then none else Store.get t i

/-- Write a key whose default is d: keys stay rising, a value equal to the default is not listed. -/
def Store.put (d : Word) : Store → Nat → Word → Store
  | [], i, v => if v = d then [] else [(i, v)]
  | (k, w) :: t, i, v =>
    if i < k then (if v = d then (k, w) :: t else (i, v) :: (k, w) :: t)
    else if i = k then (if v = d then t else (i, v) :: t)
    else (k, w) :: Store.put d t i v

/-- The key of an object (00_scope "Objects"). -/
def objKey (cls inst item : Nat) : Nat := cls * 65536 + inst * 256 + item

/-- The default of a key as a word. -/
def keyDflt (k : Nat) : Word := BitVec.ofNat 32 (dfltAt (k / 65536) (k / 256 % 256) (k % 256))

/-- The value an object of a store holds. -/
def Store.val (st : Store) (cls inst item : Nat) : Word :=
  (st.get (objKey cls inst item)).getD (keyDflt (objKey cls inst item))

/-- The store after a write of an object. -/
def Store.setVal (st : Store) (cls inst item : Nat) (v : Word) : Store :=
  st.put (keyDflt (objKey cls inst item)) (objKey cls inst item) v

namespace State

/-- The value of a stored object. -/
def obj (s : State) (cls inst item : Nat) : Word := s.objs.val cls inst item

/-- Write a stored object. -/
def setObj (s : State) (cls inst item : Nat) (v : Word) : State :=
  { s with objs := s.objs.setVal cls inst item v }

/-- Stored objects as numbers, by class. -/
def railN (s : State) (r item : Nat) : Nat := (s.obj Ob.clsRail r item).toNat
def railI (s : State) (r item : Nat) : Int := (s.obj Ob.clsRail r item).toInt
def phaseN (s : State) (n item : Nat) : Nat := (s.obj Ob.clsPhase n item).toNat
def portN (s : State) (p item : Nat) : Nat := (s.obj Ob.clsPort p item).toNat
def domN (s : State) (d item : Nat) : Nat := (s.obj Ob.clsDomain d item).toNat
def feedN (s : State) (x item : Nat) : Nat := (s.obj Ob.clsFeed x item).toNat
def cmpN (s : State) (c item : Nat) : Nat := (s.obj Ob.clsCmp c item).toNat
def tempN (s : State) (i item : Nat) : Nat := (s.obj Ob.clsTemp i item).toNat
def clkN (s : State) (item : Nat) : Nat := (s.obj Ob.clsClk 0 item).toNat
def tuneN (s : State) (item : Nat) : Nat := (s.obj Ob.clsTune 0 item).toNat

/-- Count n events in a 32-bit saturating counter (R296). -/
def countN (s : State) (cls inst item n : Nat) : State :=
  s.setObj cls inst item (satWord ((s.obj cls inst item).toNat + n))

/-- Count one event (R296). -/
def count (s : State) (cls inst item : Nat) : State := s.countN cls inst item 1

/-- Count one event if it happened. -/
def countIf (s : State) (b : Bool) (cls inst item : Nat) : State := if b then s.count cls inst item else s

/-! Parts by index -/

def rail (s : State) (r : RailIx) : RailState := s.rails.get r
def phase (s : State) (n : PhaseIx) : PhaseState := s.phases.get n
def port (s : State) (p : PortIx) : PortState := s.ports.get p
def domain (s : State) (d : DomainIx) : DomainState := s.domains.get d
def cmp (s : State) (c : CmpIx) : CmpState := s.cmps.get c
def temp (s : State) (i : TempIx) : TempState := s.temps.get i
def slot (s : State) (k : SlotIx) : Slot := s.mb.slots.get k

def modRail (s : State) (r : RailIx) (f : RailState → RailState) : State := { s with rails := vmod s.rails r f }
def modPhase (s : State) (n : PhaseIx) (f : PhaseState → PhaseState) : State := { s with phases := vmod s.phases n f }
def modGen (s : State) (n : PhaseIx) (f : GenState → GenState) : State :=
  s.modPhase n fun p => { p with gen := f p.gen }
def modSense (s : State) (n : PhaseIx) (f : SenseState → SenseState) : State :=
  s.modPhase n fun p => { p with sense := f p.sense }
def modPort (s : State) (p : PortIx) (f : PortState → PortState) : State := { s with ports := vmod s.ports p f }
def modDomain (s : State) (d : DomainIx) (f : DomainState → DomainState) : State :=
  { s with domains := vmod s.domains d f }
def modCmp (s : State) (c : CmpIx) (f : CmpState → CmpState) : State := { s with cmps := vmod s.cmps c f }
def modTemp (s : State) (i : TempIx) (f : TempState → TempState) : State := { s with temps := vmod s.temps i f }
def modSlot (s : State) (k : SlotIx) (f : Slot → Slot) : State :=
  { s with mb := { s.mb with slots := vmod s.mb.slots k f } }

def modLaw (s : State) (r : RailIx) (f : LawState → LawState) : State := s.modRail r fun x => { x with law := f x.law }
def modMeas (s : State) (r : RailIx) (f : MeasState → MeasState) : State := s.modRail r fun x => { x with meas := f x.meas }
def modProf (s : State) (r : RailIx) (f : ProfState → ProfState) : State := s.modRail r fun x => { x with prof := f x.prof }
def modFf (s : State) (r : RailIx) (f : FfState → FfState) : State := s.modRail r fun x => { x with ff := f x.ff }
def modLt (s : State) (r : RailIx) (f : LtState → LtState) : State := s.modRail r fun x => { x with lt := f x.lt }
def modPlc (s : State) (r : RailIx) (f : PlcState → PlcState) : State := s.modRail r fun x => { x with plc := f x.plc }
def modProt (s : State) (r : RailIx) (f : ProtState → ProtState) : State := s.modRail r fun x => { x with prot := f x.prot }
def modSeq (s : State) (r : RailIx) (f : SeqState → SeqState) : State := s.modRail r fun x => { x with seq := f x.seq }
def modFuse (s : State) (r : RailIx) (f : FuseState → FuseState) : State := s.modRail r fun x => { x with fuse := f x.fuse }

/-! Interrupts (R306) -/

/-- An event of ISTAT source k: the bit is set, EVCNT counts it even where the bit stands already, and a newly set bit
whose IMASK bit is 1 ends the release that an alert response began (R306). -/
def irq (s : State) (k : Fin 16) : State :=
  let old := s.mb.istat
  let m := s.mb
  { s with mb := { m with
      istat := old ||| BitVec.ofNat 32 (2 ^ k.val)
      evcnt := vmod m.evcnt k (· + 1)
      alertHeld := m.alertHeld && !(!bit old k.val && bit m.imask k.val) } }

def irqIf (s : State) (b : Bool) (k : Fin 16) : State := if b then s.irq k else s

end State

/-- ISTAT sources (R306). -/
abbrev Irq.slot (k : SlotIx) : Fin 16 := ⟨k.val, by omega⟩
abbrev Irq.fault : Fin 16 := 4
abbrev Irq.ewarn : Fin 16 := 5
abbrev Irq.pg : Fin 16 := 6
abbrev Irq.domain : Fin 16 := 7
abbrev Irq.nvm : Fin 16 := 8
abbrev Irq.twin : Fin 16 := 9
abbrev Irq.snap : Fin 16 := 10
abbrev Irq.time : Fin 16 := 11
abbrev Irq.port : Fin 16 := 12
abbrev Irq.hostErr : Fin 16 := 13
abbrev Irq.auth : Fin 16 := 14
abbrev Irq.boot : Fin 16 := 15

/-- Status codes of R316. -/
abbrev St.ok : Nat := 0x00
abbrev St.pending : Nat := 0x01
abbrev St.partialDone : Nat := 0x02
abbrev St.badOpcode : Nat := 0x10
abbrev St.badLength : Nat := 0x11
abbrev St.badObject : Nat := 0x12
abbrev St.range : Nat := 0x13
abbrev St.state : Nat := 0x14
abbrev St.authRequired : Nat := 0x15
abbrev St.authFailed : Nat := 0x16
abbrev St.busy : Nat := 0x17
abbrev St.version : Nat := 0x18
abbrev St.superseded : Nat := 0x20
abbrev St.aborted : Nat := 0x21
abbrev St.media : Nat := 0x30

/-! Loops over the parts -/

def allRails : List RailIx := List.finRange 16
def allPhases : List PhaseIx := List.finRange 48
def allPorts : List PortIx := List.finRange 32
def allDomains : List DomainIx := List.finRange 8
def allCmps : List CmpIx := List.finRange 32
def allTemps : List TempIx := List.finRange 28

/-- Run an operation for each element in order. -/
def forEach {α : Type} (l : List α) (f : State → α → State) (s : State) : State := l.foldl f s

/-! Who belongs to whom -/

/-- RAIL.CFG of a store: enabled, and the range code (R123). -/
def Store.railEn (st : Store) (r : Nat) : Bool := bit (st.val Ob.clsRail r Ob.Rail.cfg) 0
def Store.rangeCode (st : Store) (r : Nat) : Nat := bits (st.val Ob.clsRail r Ob.Rail.cfg) 2 1

/-- The phases that a store assigns to a rail (R12), in ascending order. -/
def Store.phasesOf (st : Store) (r : Nat) : List PhaseIx :=
  allPhases.filter fun n => (st.val Ob.clsPhase n.val Ob.Phase.rail).toNat == r

/-- The enabled rails that a store gives a domain (R15). -/
def Store.railsOf (st : Store) (d : Nat) : List RailIx :=
  allRails.filter fun r => st.railEn r.val && (st.val Ob.clsRail r.val Ob.Rail.domain).toNat == d

namespace State

def railEn (s : State) (r : Nat) : Bool := s.objs.railEn r
def phasesOf (s : State) (r : Nat) : List PhaseIx := s.objs.phasesOf r
def railsOf (s : State) (d : Nat) : List RailIx := s.objs.railsOf d

/-- The rail of a phase, none if unassigned (R12). -/
def phaseRail (s : State) (n : PhaseIx) : Option RailIx :=
  let r := s.phaseN n.val Ob.Phase.rail
  if h : r < 16 then some ⟨r, h⟩ else none

/-- The domain of a rail (R15). -/
def railDomain (s : State) (r : RailIx) : Option DomainIx :=
  let d := s.railN r.val Ob.Rail.domain
  if h : d < 8 then some ⟨d, h⟩ else none

/-- The rail of a port (R187). -/
def portRail (s : State) (p : PortIx) : Option RailIx :=
  let r := s.portN p.val Ob.Port.rail
  if h : r < 16 then some ⟨r, h⟩ else none

/-- The ports mapped to a rail. -/
def portsOf (s : State) (r : Nat) : List PortIx :=
  allPorts.filter fun p => s.portN p.val Ob.Port.rail == r

/-- A rail is regulating in every sequencing state other than OFF (R70, R238). -/
def regulating (s : State) (r : RailIx) : Bool := (s.rail r).seq.rseq != .off

/-- In a hiccup off time (R223). -/
def inHiccup (s : State) (r : RailIx) : Bool := (s.rail r).prot.hicEnd.isSome

/-- Held off by an input limit or a temperature action (R226, R229). -/
def heldOff (s : State) (r : RailIx) : Bool :=
  (s.rail r).prot.inuv || (s.rail r).prot.inov || (s.rail r).prot.thold

/-- Latched off, for any cause (PROT_STAT.LATCH). -/
def latchedOff (s : State) (r : RailIx) : Bool := (s.rail r).prot.latch != .none

/-- The law and the profile run: RAMP or ON (R238), neither in a hiccup off time nor held off (log entry 17). -/
def lawRuns (s : State) (r : RailIx) : Bool :=
  ((s.rail r).seq.rseq == .ramp || (s.rail r).seq.rseq == .on) && !s.inHiccup r && !s.heldOff r

/-- Forced: the force in effect is not NONE (R70, R71). -/
def forced (s : State) (n : PhaseIx) : Bool := (s.phase n).gen.forceOn != .none

/-- Available: assigned, not forced and not latched (R89). -/
def available (s : State) (n : PhaseIx) : Bool :=
  (s.phaseRail n).isSome && !s.forced n && !(s.phase n).gen.tripped

/-- Is a phase parked by a running active skim of its rail (R90)? -/
def skimming (s : State) (r : RailIx) (n : PhaseIx) : Bool :=
  match (s.rail r).plc.skim with
  | none => false
  | some k => k.phase == n

/-- Active (R89): of a rail whose law runs, available, not shed and not parked for skimming. -/
def active (s : State) (n : PhaseIx) : Bool :=
  match s.phaseRail n with
  | none => false
  | some r => s.lawRuns r && s.available n && !(s.phase n).sense.shed && !s.skimming r n

/-- The active phases of a rail, ascending. -/
def activeOf (s : State) (r : RailIx) : List PhaseIx := (s.phasesOf r.val).filter s.active

/-- The available phases of a rail, ascending. -/
def availOf (s : State) (r : RailIx) : List PhaseIx := (s.phasesOf r.val).filter s.available

/-- A DEVICE action holds (R214, R229), or the third housekeeping restart powers the domains down (R25). -/
def deviceHold (s : State) : Bool :=
  s.cmps.toList.any (·.device) || s.temps.toList.any (·.device) || s.dev.wdDown

/-- The device is powered and booted: boot complete and slots served (FSTAT.READY, R305). -/
def ready (s : State) : Bool :=
  s.dev.dstate == .standby || s.dev.dstate == .run || s.dev.dstate == .recovery

/-- The frame edge runs: the device is powered, not in BOOT and not in SLEEP. -/
def framesRun (s : State) : Bool := s.dev.dstate == .standby || s.dev.dstate == .run

/-- The housekeeping engine is stopped: telemetry is frozen and stale (R25). -/
def teleStale (s : State) : Bool := s.dev.hkBack.isSome

/-- The link engine is stopped: ports and the twin link are silent (R25). -/
def linkSilent (s : State) : Bool := s.dev.linkBack.isSome

/-- FEED[2].VBUS in volts: the four-frame mean (R226). -/
def vbusV (s : State) : Rat := (s.feeds.vbus : Rat) / 1000

/-- The rail current of R89 in amperes: the sum of IPH (mA) over the active phases. -/
def railAmps (s : State) (r : RailIx) : Rat :=
  sumQ ((s.activeOf r).map fun n => (s.phase n).sense.iph) / 1000

/-- Full scale of a rail's sense range in mV, and its fine and coarse LSB in µV (R106). -/
def fullScaleMv (s : State) (r : Nat) : Nat :=
  match s.objs.rangeCode r with | 0 => 7500 | 1 => 20000 | _ => 45000

end State

/-- The fine LSB in µV of a range code (R106). -/
def fineLsbUv (code : Nat) : Nat := match code with | 0 => 250 | 1 => 500 | _ => 1250

/-- The coarse LSB in volts: the full scale over 4096 (R106). -/
def coarseLsbV (code : Nat) : Rat :=
  match code with | 0 => 15 / 8192 | 1 => 20 / 4096 | _ => 45 / 4096

/-- Full scale in mV of a range code (R106). -/
def rangeFsMv (code : Nat) : Nat := match code with | 0 => 7500 | 1 => 20000 | _ => 45000

/-- The outcome of every command: there is always a next state. -/
abbrev Out := Host.Outcome State Fault Refusal

end Sys2Proof.Machine
end

