-- ==== Sys2Proof/Machine/Checks.lean ====
section
/-! DEFINITION. The checks between objects that CFG_COMMIT, SET and SET_GROUP make before anything is applied, as
decisions over a candidate store of object values, and the engine budgets of R21. -/

namespace Sys2Proof.Machine
namespace Store

/-- A rail's stored object as a number, and as a signed number. -/
def rN (st : Store) (r item : Nat) : Nat := (st.val Ob.clsRail r item).toNat
def rI (st : Store) (r item : Nat) : Int := (st.val Ob.clsRail r item).toInt
def pN (st : Store) (n item : Nat) : Nat := (st.val Ob.clsPhase n item).toNat

/-- Spread spectrum is set on a rail: bit r of SSC_RAILS with SHAPE 1 or 2 (R21). -/
def sscOn (st : Store) (r : Nat) : Bool :=
  let shape := bits (st.val Ob.clsClk 0 Ob.Clk.sscCtrl) 1 0
  bit (st.val Ob.clsClk 0 Ob.Clk.sscRails) r && (shape == 1 || shape == 2)

/-- DEPTH of SSC_CTRL in percent (R53). -/
def sscDepth (st : Store) : Nat := bits (st.val Ob.clsClk 0 Ob.Clk.sscCtrl) 7 4

/-- A period with a relative offset, in PWM ticks (R46). -/
def dithered (p : Nat) (delta : Rat) : Nat := (roundQ ((p : Rat) * (1 + delta))).toNat

/-- The shortest and the longest period the rail can run, its dithered periods included (R66, R47). -/
def shortest (st : Store) (r : Nat) : Nat :=
  let p := st.rN r Ob.Rail.period
  if st.sscOn r then dithered p (-(st.sscDepth : Rat) / 100) else p
def longest (st : Store) (r : Nat) : Nat :=
  let p := st.rN r Ob.Rail.period
  if st.sscOn r then dithered p ((st.sscDepth : Rat) / 100) else p

/-- PHASE.CTRL.MODE is COMP (R55). -/
def comp (st : Store) (n : Nat) : Bool := bits (st.val Ob.clsPhase n Ob.Phase.ctrl) 1 0 == 1

/-- Minimum high-side width and minimum off-time of a phase from its four settings (R66). -/
def tMinOf (isComp : Bool) (minH dtHl dtLh : Nat) : Nat := if isComp then max minH (dtHl + dtLh) else minH
def lMinOf (isComp : Bool) (minL dtHl dtLh : Nat) : Nat := if isComp then minL + dtHl + dtLh else minL

def tMin (st : Store) (n : Nat) : Nat :=
  tMinOf (st.comp n) (st.pN n Ob.Phase.minH) (st.pN n Ob.Phase.dtHl) (st.pN n Ob.Phase.dtLh)
def lMin (st : Store) (n : Nat) : Nat :=
  lMinOf (st.comp n) (st.pN n Ob.Phase.minL) (st.pN n Ob.Phase.dtHl) (st.pN n Ob.Phase.dtLh)

/-- R66 for one phase; an unassigned phase has no period to compare. -/
def phaseOk (st : Store) (n : Nat) : Bool :=
  let r := st.pN n Ob.Phase.rail
  r ≥ 16 || st.tMin n + st.lMin n ≤ st.shortest r

/-- R47: the dithered frequency stays within 100 kHz … 1.5 MHz. -/
def ditherOk (st : Store) (r : Nat) : Bool :=
  !st.sscOn r || (8534 ≤ st.shortest r && st.longest r ≤ 128000)

/-- R376: SSC_CTRL as a whole. -/
def sscOk (st : Store) : Bool :=
  let w := st.val Ob.clsClk 0 Ob.Clk.sscCtrl
  bits w 1 0 == 0 || (1 ≤ bits w 12 8 && bits w 12 8 ≤ 20 && 1 ≤ bits w 7 4 && bits w 7 4 ≤ 8)

/-- R13, R15: an enabled rail has 1 … 16 phases and a domain. -/
def memberOk (st : Store) (r : Nat) : Bool :=
  !st.railEn r ||
    (1 ≤ (st.phasesOf r).length && (st.phasesOf r).length ≤ 16 && st.rN r Ob.Rail.domain < 8)

/-- R99: ISHED < IADD, and MINPH within the phases of an enabled rail. -/
def placeOk (st : Store) (r : Nat) : Bool :=
  st.rN r Ob.Rail.ished < st.rN r Ob.Rail.iadd &&
    (!st.railEn r || st.rN r Ob.Rail.minph ≤ (st.phasesOf r).length)

/-- R111: the bands of an enabled rail, in fine LSB. -/
def bandOk (st : Store) (r : Nat) : Bool :=
  let lsb := fineLsbUv (st.rangeCode r)
  let o := st.rN r Ob.Rail.bandOutUv
  let i := st.rN r Ob.Rail.bandInUv
  !st.railEn r || (4 * lsb ≤ o && o ≤ 256 * lsb && lsb ≤ i && i + lsb ≤ o)

/-- R134: VMIN < VMAX, and VMAX within the full scale of the sense range. -/
def vLimOk (st : Store) (r : Nat) : Bool :=
  st.rN r Ob.Rail.vmin < st.rN r Ob.Rail.vmax && st.rN r Ob.Rail.vmax ≤ rangeFsMv (st.rangeCode r)

/-- R145: the feed-forward settings of an enabled rail. -/
def ffOk (st : Store) (r : Nat) : Bool :=
  let mode := bits (st.val Ob.clsRail r Ob.Rail.ffCtrl) 1 0
  let port := st.rN r Ob.Rail.ffPort
  let ids := st.val Ob.clsRail r Ob.Rail.patId
  let pos := st.val Ob.clsRail r Ob.Rail.posMap
  !st.railEn r ||
    ((mode < 2 || (port < 32 && (st.val Ob.clsPort port Ob.Port.rail).toNat == r)) &&
     !(bits ids 7 0 == bits ids 15 8 && bits ids 7 0 != 255) &&
     bits pos 15 0 != bits pos 31 16 &&
     st.rN r Ob.Rail.patPhase < st.rN r Ob.Rail.patPeriod)

/-- R216: the voltage levels. -/
def levelOk (st : Store) (r : Nat) : Bool :=
  let uw := st.rI r Ob.Rail.uvWarn
  let uf := st.rI r Ob.Rail.uvFault
  let ow := st.rI r Ob.Rail.ovWarn
  let of' := st.rI r Ob.Rail.ovFault
  uw < 0 && uf < 0 && 0 < ow && 0 < of' && -uw < -uf && ow < of' &&
    st.rN r Ob.Rail.warnFloorMv < st.rN r Ob.Rail.faultFloorMv

/-- R114: the test of the shadow coefficients: the section's poles lie inside the unit circle, and the numerator of an
enabled rail is not all zero. -/
def coefOk (st : Store) (r : Nat) : Bool :=
  let a1 := st.rI r Ob.Rail.a1
  let a2 := st.rI r Ob.Rail.a2
  let one : Int := 536870912
  decide (-one < a2) && a2 < one && a1 < one + a2 && -a1 < one + a2 &&
    !(st.railEn r && st.rN r Ob.Rail.b0 == 0 && st.rN r Ob.Rail.b1 == 0 && st.rN r Ob.Rail.b2 == 0)

/-- R243: the enabled rails of a domain have different ranks. -/
def ranksOk (st : Store) (d : Nat) : Bool :=
  let rs := st.railsOf d
  let up := rs.map fun r => st.rN r.val Ob.Rail.upRank
  let dn := rs.map fun r => st.rN r.val Ob.Rail.dnRank
  up.Nodup && (!bit (st.val Ob.clsDomain d Ob.Domain.ctrl) 1 || dn.Nodup)

/-- R189: the levels of a feed. -/
def feedOk (st : Store) (x : Nat) : Bool :=
  let f (i : Nat) : Nat := (st.val Ob.clsFeed x i).toNat
  f Ob.Feed.uvFault + f Ob.Feed.hystMv < f Ob.Feed.uvWarn &&
    f Ob.Feed.uvWarn + 2 * f Ob.Feed.hystMv < f Ob.Feed.ovFault

/-- R213: ramp, blanking and LATCH_PERIOD need a reference phase. -/
def cmpOk (st : Store) (c : Nat) : Bool :=
  (st.val Ob.clsCmp c Ob.Cmp.refph).toNat != 255 ||
    !(bit (st.val Ob.clsCmp c Ob.Cmp.ramp) 15 || 0 < (st.val Ob.clsCmp c Ob.Cmp.blank).toNat ||
      bits (st.val Ob.clsCmp c Ob.Cmp.ctrl) 11 10 == 2)

/-- R228: the levels of a sensor. -/
def tempOk (st : Store) (i : Nat) : Bool :=
  let w := (st.val Ob.clsTemp i Ob.Temp.warn).toInt
  let f := (st.val Ob.clsTemp i Ob.Temp.fault).toInt
  w < f && (st.val Ob.clsTemp i Ob.Temp.hyst).toInt < f - w

/-- Cycles of the feed-forward feature (R21). -/
def ffCost (st : Store) (r : Nat) : Nat :=
  match bits (st.val Ob.clsRail r Ob.Rail.ffCtrl) 1 0 with
  | 0 => 0 | 1 => 10 | 2 => 14 | _ => 8

/-- Cycles of one enabled rail (R21). -/
def railCost (st : Store) (r : Nat) : Nat :=
  let tc := st.val Ob.clsRail r Ob.Rail.tuneCtrl
  38 + (st.phasesOf r).length + st.ffCost r
    + (if bit tc 1 then 9 else 0) + (if bit tc 0 then 6 else 0)
    + (if bit (st.val Ob.clsRail r Ob.Rail.plcCtrl) 2 then 3 else 0)
    + (if st.sscOn r then 5 else 0)

/-- The budget of a control engine (R21). -/
def budget (st : Store) (e : Nat) : Nat :=
  20 + sumN ((allRails.filter fun r => st.railEn r.val && st.rN r.val Ob.Rail.engine == e).map
    fun r => st.railCost r.val)

/-- The first engine over 360 cycles, with its budget (R22). -/
def overBudget (st : Store) : Option (Nat × Nat) :=
  ((List.range 4).map fun e => (e, st.budget e)).find? fun p => 360 < p.2

/-- R23: no engine's budget rises above 360 cycles from one store to another. -/
def budgetOk (old new : Store) : Bool :=
  (List.range 4).all fun e => new.budget e ≤ 360 || new.budget e ≤ old.budget e

/-- All checks about one rail. -/
def railOk (st : Store) (r : Nat) : Bool :=
  st.memberOk r && st.placeOk r && st.bandOk r && st.vLimOk r && st.ffOk r && st.levelOk r && st.ditherOk r &&
    (st.phasesOf r).all (fun n => st.phaseOk n.val)

/-- The checks between objects that a write of one object can break, by its class. -/
def objOk (st : Store) (cls inst : Nat) : Bool :=
  if cls = Ob.clsRail then
    st.railOk inst && (st.rN inst Ob.Rail.domain ≥ 8 || st.ranksOk (st.rN inst Ob.Rail.domain))
  else if cls = Ob.clsPhase then st.phaseOk inst
  else if cls = Ob.clsClk then
    st.sscOk && allRails.all fun r => st.ditherOk r.val && (st.phasesOf r.val).all fun n => st.phaseOk n.val
  else if cls = Ob.clsFeed then inst ≥ 2 || st.feedOk inst
  else if cls = Ob.clsCmp then st.cmpOk inst
  else if cls = Ob.clsTemp then st.tempOk inst
  else if cls = Ob.clsDomain then st.ranksOk inst
  else if cls = Ob.clsPort then allRails.all fun r => st.ffOk r.val
  else true

/-- The checks of a whole image between its objects, coefficients included (R114, R330). -/
def imageOk (st : Store) : Bool :=
  allRails.all (fun r => st.railOk r.val && st.coefOk r.val) &&
  allDomains.all (fun d => st.ranksOk d.val) && st.sscOk && st.feedOk 0 && st.feedOk 1 &&
  allCmps.all (fun c => st.cmpOk c.val) && allTemps.all (fun i => st.tempOk i.val)

end Store
end Sys2Proof.Machine
end

