-- ==== Sys2Proof/Machine/Flags.lean ====
section
/-! DEFINITION. The status words and read-only objects: what a read shows of the dynamic state, chapter by chapter. A view
answers none for an item that is stored or does not exist. -/

namespace Sys2Proof.Machine

/-! Codes of the status fields -/

def SyncState.code : SyncState → Nat | .own => 0 | .acquiring => 1 | .locked => 2 | .holdover => 3 | .returning => 4
def TimeSt.code : TimeSt → Nat | .unset => 0 | .free => 1 | .acquiring => 2 | .locked => 3 | .holdover => 4
def Regime.code : Regime → Nat | .linear => 0 | .slamUp => 1 | .slamDown => 2
def LoopSel.code : LoopSel → Nat | .voltage => 0 | .current => 1 | .power => 2 | .temperature => 3
def Latch.code : Latch → Nat
  | .none => 0 | .crowbar => 1 | .overcurrent => 2 | .overrun => 3 | .tripLatch => 4 | .overtemp => 5
  | .passShort => 6 | .cmp => 7 | .startFail => 8
def Rseq.code : Rseq → Nat | .off => 0 | .ramp => 1 | .on => 2 | .discharge => 3
def FuseSt.code : FuseSt → Nat | .off => 0 | .ramp => 1 | .on => 2 | .tripped => 3 | .latched => 4 | .passShort => 5
def SkimOut.code : SkimOut → Nat | .none => 0 | .done => 1 | .rejected => 2 | .tooShort => 3 | .aborted => 4
def DomSt.code : DomSt → Nat | .off => 0 | .up => 1 | .on => 2 | .down => 3 | .retryWait => 4 | .latched => 5
def PortSt.code : PortSt → Nat | .disabled => 0 | .negotiating => 1 | .wl1 => 2 | .wl2 => 3 | .lost => 4
def FeedClass.code : FeedClass → Nat | .good => 0 | .warn => 1 | .fault => 2
def SelState.code : SelState → Nat | .none => 0 | .onA => 1 | .onB => 2 | .brk => 3 | .dead => 4 | .make => 5
def TuneSt.code : TuneSt → Nat | .idle => 0 | .running => 1 | .done => 2 | .aborted => 3
def TwinRole.code : TwinRole → Nat | .solo => 0 | .listen => 1 | .active => 2 | .standby => 3 | .monitor => 4
def Unarm.code : Unarm → Nat
  | .none => 0 | .notRequested => 1 | .holdoff => 2 | .version => 3 | .config => 4 | .link => 5 | .frameSync => 6
  | .lag => 7 | .replication => 8 | .split => 9 | .resync => 10
def DevSt.code : DevSt → Nat | .boot => 0 | .standby => 1 | .run => 2 | .sleep => 3 | .recovery => 4 | .unpowered => 0
def SlotSt.code : SlotSt → Nat | .free => 0 | .posted => 1 | .pending => 2 | .ready => 3 | .read => 4 | .discard => 5
def Force.code : Force → Nat | .none => 0 | .off => 1 | .lsOn => 2 | .duty => 3 | .hsOn => 4

/-- The force of a code (R70). -/
def Force.ofCode : Nat → Force | 1 => .off | 2 => .lsOn | 3 => .duty | 4 => .hsOn | _ => .none

/-- Feed X's instance in the FEED class. -/
def feedInst : FeedId → Nat | .a => 0 | .b => 1

namespace State

def feed (s : State) : FeedId → FeedOne | .a => s.feeds.fa | .b => s.feeds.fb
def modFeed (s : State) (x : FeedId) (f : FeedOne → FeedOne) : State :=
  match x with
  | .a => { s with feeds := { s.feeds with fa := f s.feeds.fa } }
  | .b => { s with feeds := { s.feeds with fb := f s.feeds.fb } }

/-- GATE_FAULT: a bit of FAULTS is set (R205). -/
def gateFault (s : State) (x : FeedId) : Bool := s.feedN (feedInst x) Ob.Feed.faults != 0

/-- The feed that is on (R191). -/
def feedOn (s : State) : Option FeedId :=
  match s.feeds.sel with | .onA => some .a | .onB => some .b | _ => none

/-! The output state of a phase (R57, R74) -/

/-- Device-level off: reset, clock fault, watchdog, and the states in which the engines do not run (rank 1 of R74). -/
def deviceOff (s : State) : Bool := !s.framesRun

/-- PHASE.STAT.OUT (R82), by the ranks of R74. -/
def outCode (s : State) (n : PhaseIx) : Nat :=
  let g := (s.phase n).gen
  match s.phaseRail n with
  | none => 0
  | some r =>
    let x := s.rail r
    if s.deviceOff then 0
    else if g.tripped then 5
    else if x.prot.crowbar && g.crowbarAt.isSome then 4
    else if g.frozen.isSome then 6
    else if s.inHiccup r || s.heldOff r || s.latchedOff r then 0
    else if g.forceOn != .none then 3
    else if !s.regulating r then 0
    else if x.seq.rseq == .discharge then
      (if !bit (s.obj Ob.clsRail r.val Ob.Rail.seqCtrl) 1 then 0 else if x.seq.paused then 1 else 2)
    else if x.law.regime == .slamDown then (if s.active n && !g.slamPark then 2 else 1)
    else if g.switching && !g.slamPark then 2 else 1

/-- PHASE.STAT as a whole (R82). -/
def phaseStat (s : State) (n : PhaseIx) : Nat :=
  let g := (s.phase n).gen
  s.outCode n + flag g.hsUnlock.isSome 4 + flag (g.carry != 0) 5 + 256 * g.tripCount + 65536 * min g.cleanRun 255

/-- PHASE.PSTAT (R103). -/
def pstat (s : State) (n : PhaseIx) : Nat :=
  let x := (s.phase n).sense
  let skim : Nat := match s.phaseRail n with
    | none => 0
    | some r =>
      let of (k : Option Skim) : Nat := match k with
        | some k => if k.phase == n then (if k.measuring then 2 else 1) else 0
        | none => 0
      max (of (s.rail r).plc.skim) (of (s.rail r).plc.passive)
  let late : Bool := match s.phaseRail n with
    | none => false
    | some r => x.lastSkim.getD s.dev.readyAt + 2 * msFrames (s.railN r.val Ob.Rail.skimPeriodMs) < s.now
  flag (s.active n) 0 + flag (s.available n) 1 + flag x.shed 2 + flag x.lagging 3 + flag x.lagNeg 4 + flag late 5
    + 64 * skim

/-- RAIL.STAT (R125). -/
def railStat (s : State) (r : RailIx) : Nat :=
  let x := s.rail r
  x.law.regime.code + 4 * x.law.loop.code + flag (s.regulating r) 5 + flag x.law.armed 6 + flag x.meas.outWin 7
    + 65536 * min x.law.slamFrames 65535

/-- The requested target of a rail as it stands: the arbitration's result under LINK, else TARGET with tag 0, HSLEW and
port 0xFF (R127). -/
def requested (s : State) (r : RailIx) : Nat × Nat × Nat × Nat :=
  let ctrl := s.obj Ob.clsRail r.val Ob.Rail.profCtrl
  let host := (s.railN r.val Ob.Rail.target, bits ctrl 2 1, 0, 255)
  if bit ctrl 0 then
    match (s.rail r).prof.linkReq with
    | none => host
    | some q =>
      if h : q.1 < 32 then
        match (s.port ⟨q.1, h⟩).arb with
        | some k => (q.2, k.slew, k.tag, q.1)
        | none => (q.2, (s.rail r).prof.slew, (s.rail r).prof.tag, q.1)
      else host
  else host

/-- The effective target: the requested one clamped to VMIN … VMAX (R127). -/
def clampTarget (s : State) (r : RailIx) (mv : Nat) : Nat :=
  clampN mv (s.railN r.val Ob.Rail.vmin) (s.railN r.val Ob.Rail.vmax)

/-- The requested target and TGT_NOW (R127): what the profile took, and on a rail that does not regulate what the settings give. -/
def targetNow (s : State) (r : RailIx) : Nat × Nat :=
  if s.regulating r then ((s.rail r).prof.reqMv, (s.rail r).prof.tgtMv)
  else ((s.requested r).1, s.clampTarget r (s.requested r).1)

/-- PROF_STAT (R144): rest and clamped are read from the profile state. -/
def profStat (s : State) (r : RailIx) : Nat :=
  let x := (s.rail r).prof
  x.slew + flag (x.v = 0 && x.a = 0) 2 + flag x.done 3 + flag ((s.targetNow r).1 != (s.targetNow r).2) 4 + flag x.softStart 5
    + 65536 * x.port + 16777216 * x.tag

/-- SEQ_STAT.PG: ON and good (R239). -/
def pg (s : State) (r : RailIx) : Bool := (s.rail r).seq.rseq == .on && (s.rail r).seq.good

/-- SEQ_STAT (R249). -/
def seqStat (s : State) (r : RailIx) : Nat :=
  let x := (s.rail r).seq
  x.rseq.code + flag (s.pg r) 3 + flag x.good 4 + flag x.qualStart.isSome 5 + flag x.paused 6
    + flag (decide (s.now < x.minOffEnd)) 7

/-- PROT_STAT (R235). -/
def protStat (s : State) (r : RailIx) : Nat :=
  let x := (s.rail r).prot
  flag x.uvw 0 + flag x.uvf 1 + flag x.ovw 2 + flag x.ovf 3 + flag x.crowbar 4 + flag x.hicEnd.isSome 5 + flag x.inuv 6
    + flag x.inov 7 + flag (x.thold || s.temps.toList.any (·.device)) 8 + 65536 * x.latch.code + 16777216 * min x.hicRun 255

/-- FUSE_STAT (R206). -/
def fuseStat (s : State) (r : RailIx) : Nat :=
  let x := (s.rail r).fuse
  x.fstate.code + flag x.limiting 3 + 16 * x.cause + flag x.psArmed 6
    + flag (x.load && bit (s.obj Ob.clsRail r.val Ob.Rail.fuseCtrl) 3) 7 + 256 * x.retry

/-- Is a session running on a rail (R147)? -/
def sessionOn (s : State) (r : RailIx) : Bool := s.tune.tstate == .running && s.tune.rail == r.val

/-- FF_STAT (R145). FROZEN: a condition of R140 holds in the present frame. -/
def ffStat (s : State) (r : RailIx) : Nat :=
  let x := (s.rail r).ff
  let table := match x.mode, x.stroke with
    | 1, _ => 0
    | 2, some k => k.table
    | _, _ => 3
  table + flag x.frozen 2 + flag x.mismatch 3 + flag x.stroke.isSome 4 + flag x.fade.isSome 5 + flag x.restored 6
    + flag x.savedFlag 7 + 65536 * (match x.stroke with | some k => k.id | none => 255) + 16777216 * x.bin

/-- The pause conditions of live tuning (R156), as the bits of LT_STAT. The condition SKIM also covers a due skim; its
part that looks at the conditions of R90 is computed with the frame and held in plc. -/
def ltPause (s : State) (r : RailIx) (skimDue : Bool) : Nat :=
  let x := s.rail r
  flag (x.law.regime != .linear) 0 + flag (!(x.prof.v = 0 && x.prof.a = 0)) 1 + flag (x.plc.skim.isSome || skimDue) 2
    + flag (x.ff.mode == 2 && bit (s.obj Ob.clsRail r.val Ob.Rail.ffCtrl) 5 && x.ff.stroke.isSome) 3
    + flag (s.sessionOn r) 4 + flag (x.law.loop != .voltage) 5 + flag (!s.regulating r) 6

/-- SKIM_STAT (R104). -/
def skimStat (s : State) (r : RailIx) : Nat :=
  let x := (s.rail r).plc
  let ph := match x.skim, x.passive with
    | some k, _ => k.phase.val
    | none, some k => k.phase.val
    | none, none => x.lastPhase
  x.lastOut.code + 65536 * min x.gcalWindows 255 + 16777216 * ph

/-- PLC_SCALE: the square root of the scale's square in UQ2.14, to nearest (R100, Example 4.1). -/
def plcScale (s : State) (r : RailIx) : Nat :=
  ((((s.rail r).plc.scale2 * 1073741824).floor.toNat).sqrt + 1) / 2

/-- What keeps a domain from starting (R237): its own latch, a latched or shorted rail, a phase forced to HS_ON. -/
def domBlocks (s : State) (d : DomainIx) : Bool :=
  (s.domain d).dstate == .latched ||
  (s.railsOf d.val).any fun r => s.latchedOff r || (s.rail r).fuse.fstate == .passShort ||
    (s.phasesOf r.val).any fun n => (s.phase n).gen.forceOn == .hsOn || (s.phase n).gen.force == .hsOn

/-- DOMAIN.STAT (R248). -/
def domStat (s : State) (d : DomainIx) : Nat :=
  let x := s.domain d
  x.dstate.code + flag x.req 4 + flag x.retryFlag 5
    + flag (x.dstate == .off && x.req && s.domBlocks d) 6 + flag s.deviceHold 7 + 4096 * min x.retryLeft 15
    + 65536 * x.stepRail + 16777216 * x.latchRail

/-- CLK.STAT (R53). -/
def clkStat (s : State) : Nat :=
  flag s.clk.refsel 0 + flag s.framesRun 1
    + flag (s.clk.present8.any id) 2 + 8 * s.clk.sync.code + flag (s.phases.toList.any (·.gen.dlFail)) 6
    + flag s.clk.markerSeen 7 + flag s.clk.alignBusy 8
    + flag (s.clk.sync == .own && allRails.any fun r => s.objs.sscOn r.val && s.regulating r) 9

/-- TIME.STAT (R54). -/
def timeStat (s : State) : Nat :=
  s.time.tstate.code + flag (match s.time.lastPps with | some t => s.time.mono - t ≤ 2000000000 | none => false) 3
    + flag s.time.setPending.isSome 4

/-! Pins and maps that status words show -/

/-- R231, R324: FAULT_N is low. It is low until step 6 of a boot, which RECOVERY never reaches (log entry 33), and SLEEP holds
the level of its entry (R340). -/
def faultLow (s : State) : Bool :=
  if s.dev.dstate == .boot || s.dev.dstate == .recovery || s.dev.dstate == .unpowered then true
  else if s.dev.dstate == .sleep then s.dev.faultAtSleep
  else allRails.any (fun r => s.latchedOff r) || s.domains.toList.any (·.dstate == .latched) ||
    s.gateFault .a || s.gateFault .b || s.deviceHold

/-- PGMAP (R304). -/
def pgmapNow (s : State) : Nat := maskOf ((allRails.filter s.pg).map (·.val))

/-- FLTMAP (R305). -/
def fltmapNow (s : State) : Nat :=
  maskOf ((allRails.filter s.latchedOff).map (·.val))
    + 65536 * maskOf ((allDomains.filter fun d => (s.domain d).dstate == .latched).map (·.val))
    + flag (s.gateFault .a || s.gateFault .b) 24 + flag s.deviceHold 25

/-- Age of the meter mirror in µs; a stale mirror reads saturated (R275, R25). -/
def mirrorAge (s : State) : Nat :=
  if s.meter.stale then maxWord else min ((s.now - s.meter.mirrorAt) / 2) maxWord

def mirrorFresh (s : State) : Bool := s.mirrorAge ≤ 10000

/-- Records wait in the RAM ring (R292). -/
def nvmDegraded (s : State) : Bool := !s.recd.ram.isEmpty

/-- PG_ALL: every rail of every domain in state ON has its PGMAP bit set (R305). -/
def pgAll (s : State) : Bool :=
  allDomains.all fun d => (s.domain d).dstate != .on || (s.railsOf d.val).all s.pg

/-- FSTAT (R305). -/
def fstatNow (s : State) : Nat :=
  flag s.ready 0 + flag (s.dev.dstate == .sleep) 1 + flag s.cfg.isDefault 2 + flag s.nvmDegraded 3 + flag s.faultLow 4
    + flag s.feeds.ewarn 5 + flag s.pgAll 6 + flag (s.twin.role == .solo || s.twin.role == .active) 7
    + flag s.twin.split 8 + flag (s.dev.part == .m && s.mirrorFresh) 9 + flag (s.time.tstate == .locked) 10
    + flag (s.clk.sync == .locked) 11 + flag s.mb.lockEnd.isSome 12 + flag s.recd.frozen 13 + 16384 * s.mb.mp

/-- Refresh FLTMAP and raise ISTAT.FAULT where it gains a bit (R306). -/
def refreshFlt (s : State) : State :=
  let new := BitVec.ofNat 32 s.fltmapNow
  let gained := (new &&& ~~~ s.mb.fltmap) != 0
  let s := { s with mb := { s.mb with fltmap := new } }
  s.irqIf gained Irq.fault

/-- Refresh PGMAP and raise ISTAT.PG where a bit changes (R306). -/
def refreshPg (s : State) : State :=
  let new := BitVec.ofNat 32 s.pgmapNow
  let changed := new != s.mb.pgmap
  let s := { s with mb := { s.mb with pgmap := new } }
  s.irqIf changed Irq.pg

/-- Refresh FSTAT (R305), raising ISTAT.NVM where NVM_DEGRADED becomes 1 (R306). -/
def refreshFstat (s : State) : State :=
  let new := BitVec.ofNat 32 s.fstatNow
  let deg := bit new 3 && !bit s.mb.fstat 3
  let s := { s with mb := { s.mb with fstat := new } }
  s.irqIf deg Irq.nvm

/-! Views by class: the read-only objects -/

/-- A rational in a unit, to nearest, as the word's number. -/
def qWord (q : Rat) : Nat := (intWord (roundQ q)).toNat

def viewClk (s : State) (item : Nat) : Option Nat :=
  if item = Ob.Clk.stat then some s.clkStat
  else if item = Ob.Clk.frameLo then some (s.clk.frame % 4294967296)
  else if item = Ob.Clk.frameHi then some s.clk.frameHi
  else if item = Ob.Clk.syncErr then some (intWord s.clk.syncErr).toNat
  else if item = Ob.Clk.freqOfs then some (qWord (s.clk.freqOfs * 100000))
  else if item = Ob.Clk.dlcal then
    some (16777216 * s.clk.dlLast
      + 65536 * (((allPhases.find? fun n => (s.phase n).gen.dlFail).map (·.val)).getD 255) + s.clk.dlTap % 65536)
  else none

def viewTime (s : State) (item : Nat) : Option Nat :=
  if item = Ob.Time.stat then some s.timeStat
  else if item = Ob.Time.secLo then some (s.time.sec % 4294967296)
  else if item = Ob.Time.secHi then some s.time.secHi
  else if item = Ob.Time.ns then some s.time.nsLatch
  else if item = Ob.Time.ppsErr then some (intWord s.time.ppsErr).toNat
  else if item = Ob.Time.rate then some (qWord s.time.rate)
  else none

def viewPhase (s : State) (n : PhaseIx) (item : Nat) : Option Nat :=
  let g := (s.phase n).gen
  let x := (s.phase n).sense
  if item = Ob.Phase.hsunlock then some (flag g.hsUnlock.isSome 0)
  else if item = Ob.Phase.stat then some (s.phaseStat n)
  else if item = Ob.Phase.dutyNow then some g.loaded
  else if item = Ob.Phase.tonNow then some g.te
  else if item = Ob.Phase.zero then some (qWord x.zero)
  else if item = Ob.Phase.gainCorr then some (qWord (x.gainCorr * 100000))
  else if item = Ob.Phase.irateStat then some (qWord (1000 * x.iph / (s.phaseN n.val Ob.Phase.irate : Rat)))
  else if item = Ob.Phase.iph then some (qWord x.iph)
  else if item = Ob.Phase.iinst then some (qWord x.iinst)
  else if item = Ob.Phase.sage then some (min x.sage maxWord)
  else if item = Ob.Phase.sdisp then some (intWord x.sdisp).toNat
  else if item = Ob.Phase.trim then some (qWord (x.trim * 100000))
  else if item = Ob.Phase.pstat then some (s.pstat n)
  else if item = Ob.Phase.qacc then some (min ((x.qacc * 100).floor.toNat) maxWord)
  else none

/-- The standing requests of a rail's ports (R171). -/
def standingOf (s : State) (r : RailIx) : List PortIx := (s.portsOf r.val).filter fun p => (s.port p).standing.isSome

def viewRail (s : State) (r : RailIx) (item : Nat) : Option Nat :=
  let x := s.rail r
  let duty (q : Rat) : Option Nat := some (qWord (q * 65536))
  if item = Ob.Rail.posUv then some (qWord (x.prof.p * 1000))
  else if item = Ob.Rail.vel then some (qWord (x.prof.v * 1000))
  else if item = Ob.Rail.accel then some (qWord x.prof.a)
  else if item = Ob.Rail.tgtNow then some (s.targetNow r).2
  else if item = Ob.Rail.profStat then some (s.profStat r)
  else if item = Ob.Rail.ffStat then some (s.ffStat r)
  else if item = Ob.Rail.patErrUv then some (qWord (x.ff.patErr * 1000000))
  else if item = Ob.Rail.kLt then some (qWord (x.lt.kLt * 16384))
  else if item = Ob.Rail.ltMag then some (qWord (x.lt.mag * 1000))
  else if item = Ob.Rail.ltPhase then some (intWord x.lt.phase).toNat
  else if item = Ob.Rail.ltStat then
    some (s.ltPause r false + flag x.lt.running 8
      + flag (x.lt.kLt == (s.railN r.val Ob.Rail.ltKmin : Rat) / 16384 || x.lt.kLt == (s.railN r.val Ob.Rail.ltKmax : Rat) / 16384) 9
      + 65536 * x.lt.qual)
  else if item = Ob.Rail.nact then some (s.activeOf r).length
  else if item = Ob.Rail.plcScale then some (s.plcScale r)
  else if item = Ob.Rail.skimStat then some (s.skimStat r)
  else if item = Ob.Rail.protStat then some (s.protStat r)
  else if item = Ob.Rail.linkPorts then some (maskOf ((s.portsOf r.val).map (·.val)))
  else if item = Ob.Rail.linkStat then
    some (65536 * (s.standingOf r).length + 16777216 * (match x.prof.linkReq with | some q => q.1 | none => 255))
  else if item = Ob.Rail.arbMv then some (match x.prof.linkReq with | some q => q.2 | none => maxWord)
  else if item = Ob.Rail.seqStat then some (s.seqStat r)
  else if item = Ob.Rail.fuseStat then some (s.fuseStat r)
  else if item = Ob.Rail.fuseTj then some (qWord (x.fuse.tj * 100))
  else if item = Ob.Rail.vout then some x.fuse.voutMv
  else if item = Ob.Rail.stat then some (s.railStat r)
  else if item = Ob.Rail.errUv then some (qWord (x.meas.e * 1000000))
  else if item = Ob.Rail.vsense then some (qWord (x.meas.v * 1000))
  else if item = Ob.Rail.vcoarse then some (qWord (x.meas.vCoarse * 1000))
  else if item = Ob.Rail.irail then some (qWord (x.meas.iRail * 1000))
  else if item = Ob.Rail.pin then some (qWord (x.meas.pIn * 1000))
  else if item = Ob.Rail.pshare then some (match x.meas.pShare with | some q => qWord (q * 1000) | none => 0)
  else if item = Ob.Rail.dsel then some x.law.dRail
  else if item = Ob.Rail.demV then duty x.meas.demV
  else if item = Ob.Rail.demI then duty x.meas.demI
  else if item = Ob.Rail.demP then duty x.meas.demP
  else if item = Ob.Rail.demT then duty x.meas.demT
  else if item = Ob.Rail.dff then duty x.meas.dFF
  else if item = Ob.Rail.tstage then some (qWord (x.meas.tStage * 100))
  else none

def viewDomain (s : State) (d : DomainIx) (item : Nat) : Option Nat :=
  if item = Ob.Domain.rails then
    some (maskOf ((allRails.filter fun r => s.railN r.val Ob.Rail.domain == d.val).map (·.val)))
  else if item = Ob.Domain.stat then some (s.domStat d)
  else if item = Ob.Domain.upTimeUs then some (min (s.domain d).upTimeUs maxWord)
  else none

/-- Is this port's request in force on its rail (R187)? -/
def portInForce (s : State) (p : PortIx) : Bool :=
  match s.portRail p with
  | none => false
  | some r => match (s.rail r).prof.linkReq with
    | some q => q.1 == p.val
    | none => false

def isAck : TxMsg → Bool | .vackStart .. => true | .vackDone .. => true | .vnak .. => true | _ => false

def viewPort (s : State) (p : PortIx) (item : Nat) : Option Nat :=
  let x := s.port p
  if item = Ob.Port.stat then
    let maj : Nat := match x.pstate with | .wl1 => 1 | .wl2 => 2 | _ => 0
    some (x.pstate.code + flag (s.portInForce p) 3 + flag x.pending.isSome 4 + flag x.standing.isSome 5
      + 4096 * maj + 65536 * (x.queue.filter isAck).length + 16777216 * x.queue.length)
  else if item = Ob.Port.reqMv then some (match x.standing with | some q => q.mv | none => maxWord)
  else if item = Ob.Port.reqInfo then
    some (x.ackPhase + 4 * (match x.standing with | some q => q.slew | none => 0) + 256 * x.reqTag)
  else if item = Ob.Port.pos then some x.pos
  else if item = Ob.Port.posAge then some (match x.posAt with | some t => min (s.now - t) maxWord | none => maxWord)
  else if item = Ob.Port.peer then some (x.peerMin % 16 + 16 * (x.peerMaj % 16) + 256 * x.peerCaps + 65536 * x.peerId)
  else if item = Ob.Port.loadStat0 then some (leAt x.loadStat 0 4)
  else if item = Ob.Port.loadStat1 then some (leAt x.loadStat 4 4)
  else none

def viewFeed (s : State) (inst item : Nat) : Option Nat :=
  let one (x : FeedId) : Option Nat :=
    let f := s.feed x
    if item = Ob.Feed.stat then
      some (flag f.ov 0 + 2 * f.cls.code + flag f.falling 3 + flag (s.feedOn == some x) 4 + flag (s.gateFault x) 5)
    else if item = Ob.Feed.vin then some f.vin
    else none
  if inst = 0 then one .a
  else if inst = 1 then one .b
  else if item = Ob.Feed.vbus then some s.feeds.vbus
  else if item = Ob.Feed.selStat then
    some (s.feeds.sel.code + 8 * (s.feeds.cause / 2 % 16) + flag s.feeds.ewarn 7 + 256 * (s.feeds.episode % 256))
  else if item = Ob.Feed.holdup then some s.feeds.holdup
  else if item = Ob.Feed.pload then some (qWord (s.feeds.pload * 1000))
  else none

def viewCmp (s : State) (c : CmpIx) (item : Nat) : Option Nat :=
  let x := s.cmp c
  if item = Ob.Cmp.stat then some (flag x.out 0 + flag x.decision 1 + flag x.latched 2 + flag x.initHold 3) else none

def viewTemp (s : State) (i : TempIx) (item : Nat) : Option Nat :=
  let x := s.temp i
  if item = Ob.Temp.value then some (intWord x.value).toNat
  else if item = Ob.Temp.ror then some (intWord x.ror).toNat
  else if item = Ob.Temp.stat then some (flag x.warn 0 + flag x.fault 1 + flag x.rate 2 + flag x.fail 3)
  else none

/-- The lowest SEQ held and the highest appended (R299): over the MRAM ring, the spare region and the RAM ring. -/
def recAll (s : State) : List Rec := s.recd.ring ++ s.recd.spare ++ s.recd.ram
def recFirst (s : State) : Nat := match (s.recAll).map (·.seq) with | [] => 0 | a :: t => t.foldl min a
def recLast (s : State) : Nat := ((s.recAll).map (·.seq)).foldl max 0

def viewRec (s : State) (item : Nat) : Option Nat :=
  let x := s.recd
  if item = Ob.Rec.stat then
    some (flag x.frozen 0 + flag (256 ≤ x.hold.length) 1 + flag s.nvmDegraded 2 + flag x.wrapped 3
      + flag (!x.spare.isEmpty) 4 + flag x.reserveFail 5)
  else if item = Ob.Rec.firstLo then some (s.recFirst % 4294967296)
  else if item = Ob.Rec.firstHi then some x.firstHi
  else if item = Ob.Rec.lastLo then some (s.recLast % 4294967296)
  else if item = Ob.Rec.lastHi then some x.lastHi
  else if item = Ob.Rec.count then some x.ring.length
  else if item = Ob.Rec.held then some x.hold.length
  else if item = Ob.Rec.ramPend then some x.ram.length
  else if item = Ob.Rec.snapStat then
    some (maskOf ((List.range 8).filter fun k => (x.snaps.toList.getD k none).isSome) + 256 * x.newest + flag x.waiting.isSome 11)
  else if item = Ob.Rec.freezeMs then some (if x.frozen then (x.freezeEnd - s.now) / 2000 else 0)
  else none

def viewMeter (s : State) (inst item : Nat) : Option Nat :=
  if h : inst < 16 then
    let i : PointIx := ⟨inst, h⟩
    let m := s.meter.mirror.get i
    let iFs := m.shunt
    let fs : Nat := if iFs = 0 then 0 else 50000000 / iFs
    if item = Ob.Meter.stat then
      some (flag m.en 0 + flag m.creepNow 1 + flag (m.en && decide (0 < fs) && decide (100 * m.iMa.natAbs < fs)) 2
        + flag (s.meter.overMirror.contains inst) 3)
    else if item = Ob.Meter.vMv then some (intWord m.vMv).toNat
    else if item = Ob.Meter.iMa then some (intWord m.iMa).toNat
    else if item = Ob.Meter.pMw then some (intWord m.pMw).toNat
    else if item = Ob.Meter.impLo then some (m.imp % 4294967296)
    else if item = Ob.Meter.impHi then some (s.meter.impHi.get i)
    else if item = Ob.Meter.expLo then some (m.exp % 4294967296)
    else if item = Ob.Meter.expHi then some (s.meter.expHi.get i)
    else if item = Ob.Meter.iFsMa then some fs
    else if item = Ob.Meter.shuntUohm then some m.shunt
    else if item = Ob.Meter.div then some m.div
    else if item = Ob.Meter.creep then some m.creep
    else none
  else
    let m := s.meter
    if item = Ob.Part.stat then
      some (m.time.tstate.code + flag s.mirrorFresh 3 + flag (!s.dev.sealN) 4 + flag m.session 5 + flag m.fwFault 6
        + flag m.media 7 + flag (2048 < m.audit.length + 16) 8)
    else if item = Ob.Part.fwVer then some m.fwVer
    else if item = Ob.Part.fwCrc then some m.fwCrc.toNat
    else if item = Ob.Part.sealCount then some (min m.sealCount maxWord)
    else if item = Ob.Part.auditUsed then some m.audit.length
    else if item = Ob.Part.intervalMin then some m.intervalMin
    else if item = Ob.Part.intLast then some (m.ivNext - 1)
    else if item = Ob.Part.mirrorAgeUs then some s.mirrorAge
    else none

def viewTwin (s : State) (item : Nat) : Option Nat :=
  let x := s.twin
  if item = Ob.Twin.stat then
    some (x.role.code + flag x.seatB 5 + flag x.armed 6 + flag x.partner 7 + flag x.split 8 + flag x.holdoffEnd.isSome 9
      + flag x.fsLock 10 + flag x.actN 11 + (if x.role == .solo then 0 else 4096 * x.unarm.code))
  else if item = Ob.Twin.linkVer then some x.ver
  else if item = Ob.Twin.peerVer then some x.peerVer
  else if item = Ob.Twin.peerDigest then some x.peerDigest
  else if item = Ob.Twin.lag then some x.lag
  else if item = Ob.Twin.hoEdgeLo then some (x.hoEdge % 4294967296)
  else none

def viewTune (s : State) (item : Nat) : Option Nat :=
  let x := s.tune
  if item = Ob.Tune.stat then
    some (x.tstate.code + flag x.auto 2 + flag x.limited 3 + 16 * (x.step % 16) + 256 * x.reason + 16777216 * x.rail)
  else if item = Ob.Tune.nres then some x.results.length
  else none

def viewAuth (s : State) (item : Nat) : Option Nat :=
  let x := s.mb
  if item = Ob.Auth.stat then
    some (maskOf ((x.keys.map (·.1)).filter fun k => k < 4 && k != 2)
      + flag (s.dev.part == .m && s.meter.key.isSome) 2
      + flag x.lockEnd.isSome 8 + 4096 * (match x.nonce with | some q => q.1 | none => 15))
  else if item = Ob.Auth.lockMs then some (match x.lockEnd with | some t => (t - s.now) / 2000 | none => 0)
  else if Ob.Auth.keyW0 ≤ item && item ≤ Ob.Auth.keyApply then some 0
  else none

/-- The bytes a deferred write occupies (R377). -/
def deferBytes : Deferred → Nat
  | .counters _ => 4096 | .qacc _ => 400 | .zeros _ => 400 | .fuses _ => 32 | .pattern .. => 1056

def deferTotal (s : State) : Nat := sumN (s.nvm.queue.map deferBytes)

def viewDev (s : State) (item : Nat) : Option Nat :=
  let x := s.dev
  if item = Ob.Dev.stat then
    some (x.dstate.code + flag s.nvm.window 4 + flag x.retIntact 5 + flag (s.fw.running == 1) 6 + flag s.fw.trial 7
      + 256 * x.cause)
  else if Ob.Dev.cebud0 ≤ item && item ≤ Ob.Dev.cebud3 then
    some (s.objs.budget (item - Ob.Dev.cebud0) + 65536 * min (x.cePeak.toList.getD (item - Ob.Dev.cebud0) 0) 65535)
  else if item = Ob.Dev.uidLo then some (Config.uniqueDeviceNumber.toNat % 4294967296)
  else if item = Ob.Dev.uidHi then some (Config.uniqueDeviceNumber.toNat / 4294967296)
  else if item = Ob.Dev.fwRel then some s.fw.release
  else if item = Ob.Dev.bootUs then some (Config.bootMicros x.boots).toNat
  else if item = Ob.Dev.wakeSrc then some x.wakeSrc
  else if item = Ob.Dev.deferBytes then some s.deferTotal
  else if item = Ob.Dev.tjHi then some (intWord x.tjHi).toNat
  else if item = Ob.Dev.tjLo then some (intWord x.tjLo).toNat
  else none

def viewPin (s : State) (item : Nat) : Option Nat :=
  if item = Ob.Pin.enLevel then some s.dev.enLevel.toNat
  else if item = Ob.Pin.gpioIn then some s.dev.gpioIn.toNat
  else none

end State
end Sys2Proof.Machine
end

