-- ==== Sys2Proof/Machine/Recorder.lean ====
section
/-! DEFINITION. Numbering, appending and storing of records, the freeze and the failing medium (R281 … R293), the taking
of snapshots (R294, R295) and the time anchors (R286). -/

namespace Sys2Proof.Machine

/-! Event codes (R284) -/
namespace Code
abbrev boot : Nat := 0x0101
abbrev watchdog : Nat := 0x0102
abbrev clockFault : Nat := 0x0103
abbrev cfgDefault : Nat := 0x0104
abbrev cfgCommit : Nat := 0x0105
abbrev fwActivate : Nat := 0x0106
abbrev nvmWritesLost : Nat := 0x0107
abbrev authFailed : Nat := 0x0108
abbrev logMediaFault : Nat := 0x0110
abbrev logMediaRecovered : Nat := 0x0111
abbrev nvmDegraded : Nat := 0x0112
abbrev recordsLost : Nat := 0x0113
abbrev cleared : Nat := 0x0114
abbrev cntCleared : Nat := 0x0115
abbrev timeAnchor : Nat := 0x0201
abbrev syncLoss : Nat := 0x0202
abbrev ppsLoss : Nat := 0x0203
abbrev dlcalFail : Nat := 0x0204
abbrev tripLatch : Nat := 0x0301
abbrev skimReject : Nat := 0x0302
abbrev phaseLagging : Nat := 0x0303
abbrev railUvWarn : Nat := 0x0401
abbrev railOvWarn : Nat := 0x0402
abbrev railUvFault : Nat := 0x0403
abbrev crowbar : Nat := 0x0404
abbrev hiccup : Nat := 0x0405
abbrev ocLatch : Nat := 0x0406
abbrev overrun : Nat := 0x0407
abbrev slamTimeout : Nat := 0x0408
abbrev inputUv : Nat := 0x0409
abbrev inputOv : Nat := 0x040A
abbrev startFail : Nat := 0x040B
abbrev dischargeTimeout : Nat := 0x040C
abbrev latchCleared : Nat := 0x040D
abbrev railOvFault : Nat := 0x040E
abbrev fuseTrip : Nat := 0x0501
abbrev fuseLatch : Nat := 0x0502
abbrev passShort : Nat := 0x0503
abbrev loadRemoved : Nat := 0x0504
abbrev loadInserted : Nat := 0x0505
abbrev feedOn : Nat := 0x0601
abbrev feedOff : Nat := 0x0602
abbrev breakFail : Nat := 0x0603
abbrev makeFail : Nat := 0x0604
abbrev ewarn : Nat := 0x0605
abbrev cmpAssert : Nat := 0x0701
abbrev tempFault : Nat := 0x0702
abbrev sensorFail : Nat := 0x0703
abbrev domainOn : Nat := 0x0801
abbrev domainOff : Nat := 0x0802
abbrev domainRetry : Nat := 0x0803
abbrev domainLatch : Nat := 0x0804
abbrev portVersion : Nat := 0x0901
abbrev portLost : Nat := 0x0902
abbrev twinRole : Nat := 0x0A01
abbrev twinArmed : Nat := 0x0A02
abbrev twinUnarmed : Nat := 0x0A03
abbrev twinTakeover : Nat := 0x0A04
abbrev twinSplit : Nat := 0x0A05
abbrev twinPartnerLost : Nat := 0x0A06
abbrev twinSeatConflict : Nat := 0x0A07
abbrev actLineFault : Nat := 0x0A08
end Code

/-- Bits of a record's FLAGS (R281). -/
abbrev RecFlag.partner : Nat := 1
abbrev RecFlag.held : Nat := 2
abbrev RecFlag.snap : Nat := 4
abbrev RecFlag.ram : Nat := 8

/-- The 28 bytes of a record before its check word (R281). -/
def Rec.head (r : Rec) (flags : Nat) : List Byte :=
  leBytes 6 r.seq ++ leBytes 2 r.code ++ leBytes 1 r.srcClass ++ leBytes 1 r.srcInst ++ leBytes 1 r.sub
    ++ leBytes 1 flags ++ padTo 16 r.data

/-- The 32 bytes of a record: the check word is computed with the RAM flag at 0 (R281). -/
def Rec.bytes (r : Rec) (inRam : Bool) : List Byte :=
  Rec.head r (r.flags + (if inRam then RecFlag.ram else 0)) ++ leBytes 4 (crc32 (Rec.head r r.flags))

namespace State

def modRec (s : State) (f : RecState → RecState) : State := { s with recd := f s.recd }

/-- The reserve: the higher valid copy (R283). -/
def reserve (s : State) : Nat := max (s.recd.reserve0.getD 0) (s.recd.reserve1.getD 0)

/-- Can the recorder write MRAM now: the write window is open (R337)? -/
def canWrite (s : State) : Bool := s.nvm.window

/-- A lost event is counted (REC.LOST). -/
def countLost (s : State) (n : Nat) : State := s.countN Ob.clsRec 0 Ob.Rec.lost n

/-- A record into the MRAM ring: a full ring overwrites the lowest SEQ (R287). -/
def pushRing (s : State) (r : Rec) : State :=
  let full := decide (16384 ≤ s.recd.ring.length)
  s.modRec fun x => { x with
    ring := (if full then x.ring.drop 1 else x.ring) ++ [r]
    wrapped := x.wrapped || full }

/-- REC_ARMED is written (R290). -/
def armRec (s : State) : State := { s with nvm := { s.nvm with recArmed := true } }

/-- A record into the RAM ring of 512: a full ring displaces the oldest, whose number is kept for RECORDS_LOST with
SUB 1 (R292, R289). REC_ARMED is written before a record is first left waiting (R290). -/
def pushRam (s : State) (r : Rec) : State :=
  let s := s.armRec
  if s.recd.ram.length < 512 then s.modRec fun x => { x with ram := x.ram ++ [r] }
  else
    let s := s.countLost 1
    s.modRec fun x => { x with
      ram := x.ram.drop 1 ++ [r]
      keptRam := match x.keptRam, x.ram with
        | some k, _ => some (k.1, k.2 + 1)
        | none, o :: _ => some (o.seq, 1)
        | none, [] => none }

/-- What the device sends to its partner goes into the twin outbox (R293). -/
def toTwin (s : State) (m : TwinMsg) : State :=
  if s.twin.role == .solo then s else { s with twin := { s.twin with outbox := s.twin.outbox ++ [m] } }

/-- The record the partner is to write for one of ours (R293). -/
def relayOf (r : Rec) : RelayRec := ⟨r.code, r.srcClass, r.srcInst, r.sub, r.seq, (padTo 16 r.data).take 8⟩

/-- An event that no number can be given is lost; the last number below the reserve is kept (R283). -/
def loseReserve (s : State) : State :=
  (s.countLost 1).modRec fun x => { x with
    keptReserve := match x.keptReserve with
      | some k => some (k.1, k.2 + 1)
      | none => some (x.next, 1) }

/-- The LOG_MEDIA_FAULT of a record whose write failed (R292): it waits in the RAM ring and goes to the twin. Where its number
is the last below the reserve, which a failing ring cannot raise, that number is kept and the event is lost (R283). -/
def mediaFault (s : State) (r : Rec) (faultSeq : Nat) : State :=
  let s := s.modRec fun x => { x with mediaFault := true }
  let lf : Rec := ⟨faultSeq, Code.logMediaFault, Ob.clsRec, 0, 0, 0, leBytes 6 r.seq⟩
  if faultSeq + 1 < s.reserve then
    ((s.pushRam lf).modRec fun x => { x with next := faultSeq + 1 }).toTwin (.relay (relayOf lf))
  else (s.modRec fun x => { x with reserveFail := true }).loseReserve

/-- Put a numbered record on the medium: to the MRAM ring, or to the RAM ring while the window is closed or records wait
there already; a write that fails verification follows R292. -/
def commitRec (s : State) (r : Rec) (faultSeq : Nat) : State :=
  if !s.canWrite || s.nvmDegraded then s.pushRam r
  else if s.recd.ringOk then s.pushRing r
  else
    let s := s.count Ob.clsRec 0 Ob.Rec.writeFaults
    let s := if s.recd.spareOk && decide (s.recd.spare.length < 256) then s.modRec fun x => { x with spare := x.spare ++ [r] }
      else (s.count Ob.clsRec 0 Ob.Rec.writeFaults).pushRam r
    s.mediaFault r faultSeq

/-- Raise the reserve by 4096 when the number would reach it; the write is verified in both copies (R283). -/
def raiseReserve (s : State) : State :=
  if s.recd.next + 1 < s.reserve then s
  else if s.canWrite && s.recd.ringOk then
    s.modRec fun x => { x with reserve0 := some (s.reserve + 4096), reserve1 := some (s.reserve + 4096), reserveFail := false }
  else s.modRec fun x => { x with reserveFail := true }

/-- Append a numbered record: into the hold queue while frozen, else onto the medium (R289). -/
def place (s : State) (r : Rec) : State :=
  if s.recd.frozen then s.modRec fun x => { x with hold := x.hold ++ [{ r with flags := r.flags + RecFlag.held }] }
  else s.commitRec r s.recd.next

/-- Is the hold queue of 256 full during a freeze (R289)? -/
def holdFull (s : State) : Bool := s.recd.frozen && decide (256 ≤ s.recd.hold.length)

/-- Once the reserve could be raised, the kept number becomes RECORDS_LOST with SUB 3 (R283), as soon as it has room. -/
def writeKeptReserve (s : State) : State :=
  match s.recd.keptReserve with
  | none => s
  | some k =>
    let r : Rec := ⟨k.1, Code.recordsLost, Ob.clsRec, 0, 3, 0, leBytes 4 (min k.2 maxWord)⟩
    let s := s.modRec fun x => { x with next := max x.next (k.1 + 1) }
    if s.holdFull then s else (s.modRec fun x => { x with keptReserve := none }).place r

/-- The 16 bytes of a rail's entry in a snapshot (R295). -/
def snapRail (s : State) (r : RailIx) : List Byte :=
  let x := s.rail r
  leBytes 4 (qWord (x.meas.v * 1000)) ++ leBytes 4 (qWord (x.meas.iRail * 1000)) ++ leBytes 2 x.law.dRail
    ++ leBytes 1 (s.railStat r) ++ leBytes 1 x.seq.rseq.code ++ leBytes 1 x.prot.latch.code
    ++ leBytes 1 x.fuse.fstate.code ++ leBytes 1 (s.activeOf r).length ++ [0]

/-- The 8 bytes of a phase's entry (R295). -/
def snapPhase (s : State) (n : PhaseIx) : List Byte :=
  leBytes 4 (qWord (s.phase n).sense.iph) ++ leBytes 2 (s.phase n).gen.loaded ++ leBytes 1 (s.outCode n)
    ++ leBytes 1 (s.phase n).gen.tripCount

/-- The 16 bytes of a history row (R295). -/
def snapRow (h : HistRow) : List Byte :=
  leBytes 4 (intWord h.vUv).toNat ++ leBytes 4 (intWord h.iMa).toNat ++ leBytes 2 h.dsel ++ leBytes 1 h.flags
    ++ leBytes 1 h.nact ++ leBytes 4 (intWord h.eUv).toNat

/-- A snapshot without its check word (R295). Rows before the first frame of the history read 0. -/
def snapBody (s : State) (seq code : Nat) (r : RailIx) (cause : Nat) : List Byte :=
  [0x43, 0x50, 0x56, 0x53] ++ leBytes 6 seq ++ leBytes 2 code ++ leBytes 1 r.val ++ leBytes 1 cause ++ [0, 0]
    ++ leBytes 6 s.clk.frame ++ leBytes 6 s.time.sec ++ leBytes 4 s.time.ns.floor.toNat
    ++ leBytes 1 s.time.tstate.code ++ leBytes 1 s.clk.sync.code ++ leBytes 1 s.feeds.sel.code
    ++ leBytes 1 s.twin.role.code ++ leBytes 4 s.feeds.vbus ++ leBytes 4 s.fstatNow
    ++ leBytes 3 (leNat8 (allDomains.map fun d => (s.domain d).dstate.code)) ++ [0]
    ++ leBytes 4 s.cfg.genRun ++ leBytes 2 s.fw.release ++ List.replicate 10 0
    ++ allRails.flatMap s.snapRail
    ++ allTemps.flatMap (fun i => leBytes 2 (intWord (s.temp i).value).toNat)
    ++ allPhases.flatMap s.snapPhase
    ++ ((List.replicate (128 - (s.rail r).hist.length) ({} : HistRow)) ++ (s.rail r).hist.reverse).flatMap snapRow
where
  /-- Three bits an entry, the first lowest. -/
  leNat8 : List Nat → Nat
    | [] => 0
    | a :: t => a + 8 * leNat8 t

/-- Take the snapshot of a latching fault: the rail's history is frozen until it is stored (R294). -/
def takeSnap (s : State) (seq code : Nat) (r : RailIx) (cause : Nat) : State :=
  let body := s.snapBody seq code r cause
  let s := s.modRail r fun x => { x with histFrozen := true }
  s.modRec fun x => { x with due := x.due ++ [⟨body ++ leBytes 4 (crc32 body)⟩] }

/-- Number an event and append its record (R282, R283, R289). The hold queue's first lost event keeps its number, every
later one is lost without a number. -/
def emit (s : State) (e : Ev) : State :=
  let s := s.raiseReserve
  if s.recd.reserveFail then s.loseReserve
  else
    let s := s.writeKeptReserve
    let n := s.recd.next
    let flags := (if e.partner then RecFlag.partner else 0) + (if e.snaps.isEmpty then 0 else RecFlag.snap)
    let r : Rec := ⟨n, e.code, e.srcClass, e.srcInst, e.sub, flags, e.data⟩
    let s := forEach e.snaps (fun s q => s.takeSnap n e.code q.1 q.2) s
    let relayed := !e.snaps.isEmpty || e.code == Code.watchdog || e.code == Code.logMediaFault
    let s := if relayed && !e.partner then s.toTwin (.relay (relayOf r)) else s
    if s.holdFull then
      (s.countLost 1).modRec fun x => match x.keptHold with
        | some k => { x with keptHold := some (k.1, k.2 + 1) }
        | none => { x with keptHold := some (n, 1), next := n + 1 }
    else (s.modRec fun x => { x with next := n + 1 }).place r

/-- An event: within a frame edge it waits for the frame's ordering (R282), elsewhere it is numbered at once. -/
def event (s : State) (e : Ev) : State :=
  match s.recd.batch with
  | some l => s.modRec fun x => { x with batch := some (l ++ [e]) }
  | none => s.emit e

/-- An event without a snapshot. -/
def record (s : State) (code cls inst sub : Nat) (data : List Byte) : State := s.event ⟨code, cls, inst, sub, data, [], false⟩

/-- An event whose record carries FLAGS.SNAP, of a rail that latches (R294). -/
def recordSnap (s : State) (code cls inst sub : Nat) (data : List Byte) (r : RailIx) (cause : Nat) : State :=
  s.event ⟨code, cls, inst, sub, data, [(r, cause)], false⟩

def recordIf (s : State) (b : Bool) (code cls inst sub : Nat) (data : List Byte) : State :=
  if b then s.record code cls inst sub data else s

end State

/-- Does an event stand before another in one frame (R282): by source class, then instance. -/
def Ev.before (a b : Ev) : Bool := a.srcClass < b.srcClass || (a.srcClass == b.srcClass && a.srcInst < b.srcInst)

/-- Insert an event behind those that do not stand after it, so that one source's events keep their order. -/
def Ev.insert (e : Ev) : List Ev → List Ev
  | [] => [e]
  | a :: t => if Ev.before e a then e :: a :: t else a :: Ev.insert e t

/-- The order of one frame's events (R282). -/
def Ev.sort (l : List Ev) : List Ev := l.foldl (fun acc e => Ev.insert e acc) []

namespace State

/-- Begin and end the gathering of a frame's events (R282). -/
def openBatch (s : State) : State := s.modRec fun x => { x with batch := some [] }

def closeBatch (s : State) : State :=
  match s.recd.batch with
  | none => s
  | some l => forEach (Ev.sort l) State.emit (s.modRec fun x => { x with batch := none })

/-- A TIME_ANCHOR (R286): the counter and the frame index, and the time of the anchor. -/
def anchor (s : State) (sub : Nat) : State :=
  let s := s.record Code.timeAnchor Ob.clsTime 0 sub
    (leBytes 6 s.time.sec ++ leBytes 4 s.time.ns.floor.toNat ++ leBytes 6 s.clk.frame)
  { s with time := { s.time with lastAnchor := s.now } }

/-- REC_ARMED := 0 once no freeze is in force and nothing waits (R290). -/
def disarmRec (s : State) : State :=
  if !s.recd.frozen && s.recd.hold.isEmpty && s.recd.ram.isEmpty then { s with nvm := { s.nvm with recArmed := false } } else s

/-- The end of a freeze: the held records are appended in SEQ order, then the kept RECORDS_LOST with SUB 0 (R290). -/
def thaw (s : State) : State :=
  if !s.recd.frozen then s
  else
    let kept : List Rec := match s.recd.keptHold with
      | none => []
      | some k => [⟨k.1, Code.recordsLost, Ob.clsRec, 0, 0, 0, leBytes 4 (min k.2 maxWord)⟩]
    let held := s.recd.hold
    let s := s.modRec fun x => { x with frozen := false, hold := [], keptHold := none }
    (forEach (held ++ kept) (fun s r => s.commitRec r s.recd.next) s).disarmRec

/-- Move every waiting record to MRAM in SEQ order, the kept RECORDS_LOST with SUB 1 first (R292, R337). -/
def drainRam (s : State) : State :=
  let waiting := s.recd.ram
  let kept : List Rec := match s.recd.keptRam with
    | none => []
    | some k => [⟨k.1, Code.recordsLost, Ob.clsRec, 0, 1, 0, leBytes 4 (min k.2 maxWord)⟩]
  let s := s.modRec fun x => { x with ram := [], keptRam := none, mediaFault := false }
  (forEach (kept ++ waiting) (fun s r => s.commitRec r s.recd.next) s).disarmRec

end State
end Sys2Proof.Machine
end

