-- ==== Sys2Proof/Machine/Nvm.lean ====
section
/-! DEFINITION. The saves to MRAM that the write window can defer (R337, R377): counters, charges, current-sense zeros, fuse
retry counts and patterns. -/

namespace Sys2Proof.Machine

/-- Does a newer save replace a queued one? Pattern saves are queued one by one (R377). -/
def Deferred.replaces : Deferred → Deferred → Bool
  | .counters _, .counters _ => true
  | .qacc _, .qacc _ => true
  | .zeros _, .zeros _ => true
  | .fuses _, .fuses _ => true
  | _, _ => false

namespace State

def modNvm (s : State) (f : NvmState → NvmState) : State := { s with nvm := f s.nvm }

/-- The pattern of a rail written to MRAM (R141). -/
def storePattern (s : State) (r : Nat) (k : PatSave) : State :=
  let s := s.modNvm fun x => { x with patterns := x.patterns.filter (fun q => q.1 != r) ++ [(r, k)] }
  if h : r < 16 then s.modFf ⟨r, h⟩ fun x => { x with savedFlag := true } else s

/-- A save reaches MRAM. -/
def writeSave (s : State) : Deferred → State
  | .counters c => s.modNvm fun x => { x with counters := c }
  | .qacc l => s.modNvm fun x => { x with qacc := l }
  | .zeros l => s.modNvm fun x => { x with zeros := l }
  | .fuses l => s.modNvm fun x => { x with fuseRetry := l }
  | .pattern r k => s.storePattern r k

/-- A save: at once while the window is open, else into the queue of 64 KiB; a pattern that does not fit is lost and
recorded with its size (R337). -/
def save (s : State) (d : Deferred) : State :=
  if s.canWrite then s.writeSave d
  else
    let kept := s.nvm.queue.filter fun x => !d.replaces x
    if sumN (kept.map deferBytes) + deferBytes d ≤ 65536 then s.modNvm fun x => { x with queue := kept ++ [d] }
    else s.record Code.nvmWritesLost Ob.clsDev 0 0 (leBytes 4 (deferBytes d))

/-- The window opened: the queue is written in order (R337). -/
def flushSaves (s : State) : State :=
  let q := s.nvm.queue
  forEach q State.writeSave (s.modNvm fun x => { x with queue := [] })

/-- Every counter, as the save of R296 holds it: the stored read-only objects that count. -/
def counterStore (s : State) : Store :=
  s.objs.filter fun p => match rowAt (p.1 / 65536) (p.1 / 256 % 256) (p.1 % 256) with
    | some row => row.acc == .ro && p.1 != objKey Ob.clsDev 0 Ob.Dev.dbgPermit &&
        !(p.1 / 65536 == Ob.clsPhase && p.1 % 256 == Ob.Phase.rail) &&
        !(p.1 / 65536 == Ob.clsRail && p.1 % 256 == Ob.Rail.domain)
    | none => false

def saveCounters (s : State) : State := s.save (.counters s.counterStore)

/-- The charges of R101. -/
def saveQacc (s : State) : State := s.save (.qacc (allPhases.map fun n => (s.phase n).sense.qacc))

/-- ISEN_GAIN, ZERO and GAIN_CORR of every phase (R84). -/
def saveZeros (s : State) : State :=
  s.save (.zeros (allPhases.map fun n =>
    (s.phaseN n.val Ob.Phase.isenGain, (s.phase n).sense.zero, (s.phase n).sense.gainCorr)))

/-- The fuse retry counts (R202). -/
def saveFuses (s : State) : State := s.save (.fuses (allRails.map fun r => (s.rail r).fuse.retry))

end State
end Sys2Proof.Machine
end

