-- ==== Sys2Proof/Machine/Phases.lean ====
section
/-! DEFINITION. The PWM generator of a phase (03): carrier schedule, compare arithmetic, minimum pulses, forcing, trips and
the trip count. The commands of these rules stand in PhaseCmds.lean. -/

namespace Sys2Proof.Machine

/-! Compare arithmetic -/

/-- The on-time of R61, before the limit of MAXDUTY. -/
def onTime (d p : Nat) : Nat := if d = 0 then 0 else if d = 65535 then p else (d * p + 32768) / 65536

/-- What the minimum-pulse rule makes of a period (R67): the effective on-time, the carry out and what is counted. -/
structure Pulse where
  te : Nat
  carry : Nat
  hems : Nat
  drops : Nat
  discards : Nat
deriving DecidableEq, Repr

/-- R67, first part: drop, hem or issue. -/
def pulseShort (hem : Bool) (d t c tMin tMax : Nat) : Pulse :=
  let tc := t + c
  if d = 0 then ⟨0, 0, 0, 0, if 0 < c then 1 else 0⟩
  else if tc < tMin then
    if hem then ⟨tMin, c, 1, 0, 0⟩ else ⟨0, min tc tMin, 0, 1, 0⟩
  else ⟨min tc tMax, 0, 0, 0, if min tc tMax < tc then 1 else 0⟩

/-- R67 as a whole: the off-time of any duty but 0xFFFF is at least lMin. -/
def pulseOf (hem : Bool) (d p c tMin lMin tMax : Nat) : Pulse :=
  let q := pulseShort hem d (onTime d p) c tMin tMax
  if d ≠ 65535 ∧ p < q.te + lMin then { q with te := p - lMin, hems := q.hems + 1 } else q

/-- The rising and the falling edge of an on-time about the centre (R62). -/
def riseOf (p te : Nat) : Nat := p / 2 - te / 2
def fallOf (p te : Nat) : Nat := p / 2 + (te - te / 2)

/-- An edge without a valid delay-line calibration: the nearest multiple of 32 ticks (R64). -/
def edgeRound (has : Bool) (x : Nat) : Nat := if has then x else (x + 16) / 32 * 32

/-- The falling edge that the mid-period reload places (R63, R69): the whole pulse at least tMin wide and lMin off. -/
def midFall (rise p te2 tMin lMin : Nat) (full : Bool) : Nat × Nat :=
  let f := fallOf p te2
  let f1 := if f < rise + tMin then rise + tMin else f
  let n1 := if f < rise + tMin then 1 else 0
  if !full && decide (p < (f1 - rise) + lMin) then (rise + (p - lMin), n1 + 1) else (f1, n1)

/-- The triangle of R46 at a frame: −1 … +1 with RATE kHz, rising first (log entry 12). -/
def triangle (now rate : Nat) : Rat :=
  let u : Rat := ((now * rate % 2000 : Nat) : Rat) / 2000
  if u < 1 / 2 then 4 * u - 1 else 3 - 4 * u

/-- The relative period offset of a dithered rail (R46): SHAPE, DEPTH and RATE of SSC_CTRL at a frame. -/
def ditherDelta (w : Word) (now : Nat) : Rat :=
  let depth : Rat := (bits w 7 4 : Rat) / 100
  let rate := bits w 12 8
  match bits w 1 0 with
  | 1 => depth * triangle now rate
  | 2 => depth * (2 * ((Config.lfsr15 (now * 16 * rate / 2000)).toNat : Rat) / 32767 - 1)
  | _ => 0

/-- Signed distance of a schedule from its target modulo the period, the shorter way round (R60). -/
def carrierErr (start target p : Nat) : Int :=
  let m : Int := ((start : Int) - (target : Int)) % (p : Int)
  if (p : Int) < 2 * m then m - p else m

/-- The length of a period that removes an error by at most P/32 (R45, R60). -/
def slewPeriod (p : Nat) (err : Int) : Nat :=
  let lim : Int := (p / 32 : Nat)
  ((p : Int) - clampI err (-lim) lim).toNat

namespace State

/-- The first PWM tick of the present frame on the clock `now`. -/
def frameTick (s : State) : Nat := 6400 * s.now

/-- A carry is set to 0, and counted if it was not 0 (R68). -/
def dropCarry (s : State) (n : PhaseIx) : State :=
  if (s.phase n).gen.carry = 0 then s
  else (s.count Ob.clsPhase n.val Ob.Phase.carryDiscards).modGen n fun g => { g with carry := 0 }

/-- The settings that act at a period start (R82, R123). -/
def genSettings (s : State) (n : PhaseIx) (r : RailIx) : PhaseSet :=
  { ctrl := s.obj Ob.clsPhase n.val Ob.Phase.ctrl
    offset := s.phaseN n.val Ob.Phase.offset
    maxduty := s.phaseN n.val Ob.Phase.maxduty
    minH := s.phaseN n.val Ob.Phase.minH
    minL := s.phaseN n.val Ob.Phase.minL
    period := s.railN r.val Ob.Rail.period }

/-- Is a rail dithering: set, and SYNC_STATE is OWN (R47)? -/
def dithering (s : State) (r : RailIx) : Bool := s.objs.sscOn r.val && s.clk.sync == .own

/-- The first phase of a rail: it leads the rail's dithered periods, which all phases of the rail share (R46). -/
def leadPhase (s : State) (r : RailIx) : Option PhaseIx := (s.phasesOf r.val).head?

/-- The period of a rail as a phase starts one (R46, R47). -/
def periodNow (s : State) (n : PhaseIx) (r : RailIx) (nominal : Nat) : Nat :=
  if s.dithering r then
    if s.leadPhase r == some n then
      Store.dithered nominal (ditherDelta (s.obj Ob.clsClk 0 Ob.Clk.sscCtrl) s.now)
    else (s.rail r).period
  else nominal

/-- The target offset of a phase in ticks (R59): fixed, or even interleave by rank among the active phases; a phase that is
not active keeps its last one, and before it was ever active takes its rank among the assigned phases. -/
def targetOffset (s : State) (n : PhaseIx) (r : RailIx) (set : PhaseSet) (p : Nat) : Nat :=
  let rankIn (l : List PhaseIx) : Nat :=
    (2 * (l.idxOf n) * p + l.length) / (2 * max l.length 1)
  if bit set.ctrl 3 then (2 * set.offset * p + 65536) / 131072
  else if s.active n then rankIn (s.activeOf r)
  else if (s.phase n).gen.hasOfs then (s.phase n).gen.lastOfs
  else rankIn (s.phasesOf r.val)

/-- The duty that a reload takes: a reload in the timebase cycle of the commit takes the older value (R33). -/
def reloadDuty (s : State) (n : PhaseIx) (tick : Nat) : Nat :=
  let g := (s.phase n).gen
  if tick < s.frameTick + 32 then g.prevCommitted else g.committed

/-- Does a force end at this period start and leave the phase Parked until placement adds it (R73)? -/
def staysParked (s : State) (n : PhaseIx) (r : RailIx) : Bool :=
  s.forced n && s.regulating r && (s.rail r).law.regime != .slamUp

/-- Is the phase switching from this period start: under the law, in an active discharge that is not paused, or forced to
DUTY (R70, R74, R241)? -/
def wantsSwitch (s : State) (n : PhaseIx) (r : RailIx) : Bool :=
  let x := s.rail r
  !s.deviceOff && !(s.phase n).gen.tripped && !x.prot.crowbar && !s.inHiccup r && !s.heldOff r && !s.latchedOff r &&
  (match (s.phase n).gen.force with
   | .duty => true
   | .none =>
     (s.lawRuns r && !(s.phase n).sense.shed && !s.skimming r n && !s.staysParked n r) ||
       (x.seq.rseq == .discharge && bit (s.obj Ob.clsRail r.val Ob.Rail.seqCtrl) 1 && !x.seq.paused && s.available n)
   | _ => false)

/-- Has the stage had its 4 frames since PWML rose (R58)? COMP drivers need none. -/
def stageAwake (s : State) (n : PhaseIx) : Bool :=
  s.objs.comp n.val || (match (s.phase n).gen.wokeAt with | some t => t + 4 ≤ s.now | none => false)

/-- The pulse of a period that switches, from its settings, its length and its duty (R61 … R69). -/
def pulseFor (s : State) (n : PhaseIx) (set : PhaseSet) (d p : Nat) : Pulse :=
  let comp := bits set.ctrl 1 0 == 1
  let dtHl := s.phaseN n.val Ob.Phase.dtHl
  let dtLh := s.phaseN n.val Ob.Phase.dtLh
  pulseOf (bit set.ctrl 4) d p (s.phase n).gen.carry (Store.tMinOf comp set.minH dtHl dtLh)
    (Store.lMinOf comp set.minL dtHl dtLh) (onTime set.maxduty p)

/-- The dead time after a falling edge, which ends at the low side's edge in COMP mode (R65). -/
def lowLag (s : State) (n : PhaseIx) : Nat :=
  if bits (s.phase n).gen.set.ctrl 1 0 == 1 then s.phaseN n.val Ob.Phase.dtHl else 0

/-- The end of a period: a clean period raises the clean-run count (R77), and the last PWM edge is kept for its blanking
(R76). -/
def endPeriod (s : State) (n : PhaseIx) : State :=
  s.modGen n fun g =>
    let clean := g.issued && !g.trLatched
    { g with
      cleanRun := if clean then g.cleanRun + 1 else g.cleanRun, issued := false, trLatched := false
      lastEdge := match g.fall with | some x => some (g.startTick + x + s.lowLag n) | none => g.lastEdge }

/-- A period that does not switch: no edges, no pulse; a carry is dropped (R68). -/
def idlePeriod (s : State) (n : PhaseIx) : State :=
  (s.dropCarry n).modGen n fun g => { g with switching := false, rise := none, fall := none, te := 0, midDue := false }

/-- A period that switches with duty d (R61 … R67). -/
def pulsePeriod (s : State) (n : PhaseIx) (set : PhaseSet) (d p : Nat) : State :=
  let d := min d set.maxduty
  let q := s.pulseFor n set d p
  let s := s.countN Ob.clsPhase n.val Ob.Phase.hems q.hems
  let s := s.countN Ob.clsPhase n.val Ob.Phase.drops q.drops
  let s := s.countN Ob.clsPhase n.val Ob.Phase.carryDiscards q.discards
  s.modGen n fun g => { g with
    switching := true
    loaded := d
    code1 := d
    te := q.te
    carry := q.carry
    rise := if q.te = 0 then none else some (edgeRound g.dlHas (riseOf p q.te))
    fall := if q.te = 0 then none else some (edgeRound g.dlHas (fallOf p q.te))
    issued := decide (0 < q.te)
    midDue := bit set.ctrl 2 }

/-- The carrier part of a period start (R59, R60, R46): the period's length, the next start and the offsets kept. -/
def startCarrier (s : State) (n : PhaseIx) (r : RailIx) : State :=
  let set := s.genSettings n r
  let p := s.periodNow n r set.period
  let ofs := s.targetOffset n r set p
  let start := (s.phase n).gen.nextStart
  let target := (s.rail r).carrierBase + s.railN r.val Ob.Rail.origin + ofs
  let err := if s.dithering r && s.leadPhase r == some n then 0 else carrierErr start target p
  let len := slewPeriod p err
  let act := s.active n
  let s := s.modGen n fun g => { g with
    set := set, startTick := start, thisPeriod := len, nextStart := start + len
    lastOfs := if act then ofs else g.lastOfs
    hasOfs := act || g.hasOfs
    dlHas := g.dlNew.getD g.dlHas
    dlNew := none }
  if s.leadPhase r == some n then
    s.modRail r fun x => { x with
      period := p
      carrierBase := if s.dithering r then start - min start (ofs + s.railN r.val Ob.Rail.origin) else x.carrierBase }
  else s

/-- The force that takes effect at a period start (R71). -/
def applyForce (s : State) (n : PhaseIx) : State :=
  s.modGen n fun g => { g with forceOn := g.force, forceOnDuty := g.forceDuty }

/-- The place in the tick order at which a carrier that was never placed begins: the first start of its schedule in or
after the present frame (R59). -/
def placeCarrier (s : State) (n : PhaseIx) (r : RailIx) : State :=
  if (s.phase n).gen.placed then s
  else
    let set := s.genSettings n r
    let p := set.period
    let t := (s.rail r).carrierBase + s.railN r.val Ob.Rail.origin + s.targetOffset n r set p
    let start := if s.frameTick ≤ t then t - (t - s.frameTick) / p * p else t + ((s.frameTick - t) + p - 1) / p * p
    s.modGen n fun g => { g with placed := true, nextStart := start }

/-- Does the phase's next period start fall into the present frame? -/
def startDue (s : State) (n : PhaseIx) : Bool := (s.phase n).gen.nextStart < s.frameTick + 6400

/-- A skim runs from the period start at which its phase becomes Parked (R91). -/
def beginSkim (s : State) (n : PhaseIx) (r : RailIx) : State :=
  if s.skimming r n then s.modPlc r fun x => { x with skim := x.skim.map fun k => { k with began := some (k.began.getD s.now) } }
  else s

/-- A period start of a phase (R33, R46, R58 … R71, R77). -/
def startPeriod (s : State) (n : PhaseIx) (r : RailIx) : State :=
  let s := s.endPeriod n
  let start := (s.phase n).gen.nextStart
  let d := s.reloadDuty n start
  let s := (s.startCarrier n r).beginSkim n r
  let want := s.wantsSwitch n r
  let s := s.applyForce n
  let g := (s.phase n).gen
  if want && s.stageAwake n && !g.slamPark && (s.rail r).law.regime != .slamDown then
    s.pulsePeriod n g.set (if g.forceOn == .duty then g.forceOnDuty else d) g.thisPeriod
  else s.idlePeriod n

/-- The mid-period reload of a phase with double update (R63, R69): it places the falling edge only where a pulse started
and no trip ended it (R75). -/
def midReload (s : State) (n : PhaseIx) : State :=
  let g := (s.phase n).gen
  let p := g.thisPeriod
  let d := if g.forceOn == .duty then g.code1 else min (s.reloadDuty n (g.startTick + p / 2)) g.set.maxduty
  let comp := bits g.set.ctrl 1 0 == 1
  let dtHl := s.phaseN n.val Ob.Phase.dtHl
  let dtLh := s.phaseN n.val Ob.Phase.dtLh
  let s := s.modGen n fun g => { g with midDue := false, loaded := d }
  match g.rise with
  | none => s
  | some rise =>
    if g.trLatched then s
    else
      let q := midFall rise p (onTime d p) (Store.tMinOf comp g.set.minH dtHl dtLh)
        (Store.lMinOf comp g.set.minL dtHl dtLh) (d == 65535 && g.code1 == 65535)
      (s.countN Ob.clsPhase n.val Ob.Phase.hems q.2).modGen n fun g => { g with
        fall := some (edgeRound g.dlHas q.1), te := edgeRound g.dlHas q.1 - rise }

/-! Trips (R75 … R77) -/

/-- The PWM edges of a period from which blanking runs, low-side edges included in COMP mode (R76). -/
def blankEdges (s : State) (n : PhaseIx) : List Nat :=
  let g := (s.phase n).gen
  let lows := if bits g.set.ctrl 1 0 == 1 then
    (match g.rise with | some x => [x - s.phaseN n.val Ob.Phase.dtLh] | none => [])
      ++ (match g.fall with | some x => [x + s.phaseN n.val Ob.Phase.dtHl] | none => []) else []
  g.rise.toList ++ g.fall.toList ++ lows

/-- Where in the present period the blanking that the period before left ends (R76). -/
def blankCarry (s : State) (n : PhaseIx) : Nat :=
  match (s.phase n).gen.lastEdge with
  | none => 0
  | some e => (e + s.phaseN n.val Ob.Phase.blank) - (s.phase n).gen.startTick

/-- Is a place in the period blanked? -/
def blanked (s : State) (n : PhaseIx) (pos : Nat) : Bool :=
  let b := s.phaseN n.val Ob.Phase.blank
  decide (pos < s.blankCarry n) || (s.blankEdges n).any fun e => e ≤ pos && pos < e + b

/-- The places in the period at which blanking ends (R76): before the rising edge, unless its own blanking (in COMP mode that
of the low side's edge) has begun by then, and after the rising edge. -/
def blankEnds (s : State) (n : PhaseIx) : List Nat :=
  match (s.phase n).gen.rise with
  | none => []
  | some rise =>
    let first := (s.blankEdges n).foldl min rise
    (if s.blankCarry n < first then [s.blankCarry n] else []) ++ [rise + s.phaseN n.val Ob.Phase.blank]

/-- A trip at a place in the present period (R75): it ends the pulse that is on or suppresses the edge to come, and the
first trip of a period counts (R77). A trip after the pulse changes nothing. -/
def tripAt (s : State) (n : PhaseIx) (pos : Nat) : State :=
  let g := (s.phase n).gen
  match g.rise, g.fall with
  | some rise, some fall =>
    if g.trLatched || fall ≤ pos then s
    else
      let s := s.count Ob.clsPhase n.val Ob.Phase.trips
      let s := s.dropCarry n
      s.modGen n fun g => { g with
        trLatched := true
        tripCount := min (g.tripCount + 1) 255
        cleanRun := 0
        rise := if pos < rise then none else some rise
        fall := if pos < rise then none else some pos }
  | _, _ => s

/-- A trip input asserted at a tick: outside blanking it trips at once; within it, at the end of the blanking of the
edge where the input is still asserted then (R76), which the next frame edge judges. -/
def tripInput (s : State) (n : PhaseIx) (tick : Nat) : State :=
  let pos := tick - (s.phase n).gen.startTick
  if s.deviceOff || s.blanked n pos then s else s.tripAt n pos

/-- The comparators that trip a phase and whose output is asserted now. -/
def tripAsserted (s : State) (n : PhaseIx) : Bool :=
  let sel := s.obj Ob.clsPhase n.val Ob.Phase.tripsel
  allCmps.any fun c => bit sel c.val && (s.cmp c).out

/-- Did one of these outputs already stand at a tick? -/
def tripStood (s : State) (n : PhaseIx) (tick : Nat) : Bool :=
  let sel := s.obj Ob.clsPhase n.val Ob.Phase.tripsel
  allCmps.any fun c => bit sel c.val && (s.cmp c).out && decide ((s.cmp c).outAt ≤ tick)

/-- A level that is still asserted when blanking ends trips the phase at that moment (R76); one that asserted after that
end acted when it did. -/
def levelTrip (s : State) (n : PhaseIx) : State :=
  match (s.blankEnds n).reverse.find? fun pos => decide ((s.phase n).gen.startTick + pos ≤ s.frameTick) with
  | none => s
  | some pos => if s.tripStood n ((s.phase n).gen.startTick + pos) && !s.deviceOff then s.tripAt n pos else s

/-- The latch of a phase at TRIP_N, without its rail's part (R78). -/
def latchPhase (s : State) (n : PhaseIx) (r : RailIx) : State :=
  let s := s.dropCarry n
  let s := s.count Ob.clsPhase n.val Ob.Phase.tripLatches
  let s := s.modGen n fun g => { g with tripped := true, switching := false, rise := none, fall := none, te := 0 }
  s.record Code.tripLatch Ob.clsPhase n.val 0 [BitVec.ofNat 8 r.val]

/-- A carrier realignment measures each rail that is not dithered against the superframe start (R45). -/
def alignCarriers (s : State) : State :=
  forEach allRails (fun s r => if s.dithering r then s else
    s.modRail r fun x => { x with carrierBase := s.frameTick }) s

/-- Every rail's carriers lie within a tick of their targets (R45). -/
def carriersAligned (s : State) : Bool :=
  allRails.all fun r => s.dithering r || (s.phasesOf r.val).all fun n =>
    let set := s.genSettings n r
    let target := (s.rail r).carrierBase + s.railN r.val Ob.Rail.origin + s.targetOffset n r set set.period
    !(s.phase n).gen.placed || carrierErr (s.phase n).gen.nextStart target set.period == 0

end State
end Sys2Proof.Machine
end

