-- ==== Sys2Proof/Machine/Rails.lean ====
section
/-! DEFINITION. What the chapters share about a rail's life: outcomes of host commands, starting and leaving regulation
(R107, R112, R132, R133), latching off (R78, R220, R224, R245), hiccup (R223), and the domain sequencer (R244, R245). -/

namespace Sys2Proof.Machine
namespace State

/-! Outcomes of mailbox commands -/

/-- The command of a slot ends with a status and a payload; RESPONSE_READY writes the response (R308). -/
def finish (s : State) (k : SlotIx) (status : Nat) (payload : List Byte) : State :=
  s.modSlot k fun x => { x with reply := some ⟨status, payload⟩ }

def finishOpt (s : State) (k : Option SlotIx) (status : Nat) (payload : List Byte) : State :=
  match k with
  | some k => s.finish k status payload
  | none => s

/-- The payload of a request that names several units: COUNT, then a status per member, with the CLAMPED byte of
RAIL_TARGET (R315). -/
def memberPayload (pairs : Bool) (codes : List (Nat × Bool)) : List Byte :=
  leBytes 1 codes.length ++ codes.flatMap fun c => leBytes 1 c.1 ++ (if pairs then leBytes 1 (flag c.2 0) else [])

/-- STATUS of a request whose members all have their outcome (R317, R318). -/
def memberStatus (codes : List (Nat × Bool)) : Nat :=
  match codes with
  | [c] => c.1
  | l => if l.all fun c => c.1 == St.ok then St.ok else St.partialDone

/-- Give a member its outcome; the response follows when every member has one (R130, R318). -/
def gatherSet (s : State) (k : SlotIx) (i code : Nat) (clamped : Bool) : State :=
  let step (g : Gather) : Gather :=
    if g.slot == k then { g with codes := g.codes.set i (some code, clamped) } else g
  let gs := s.mb.gathers.map step
  let s := { s with mb := { s.mb with gathers := gs } }
  match gs.find? (fun g => g.slot == k) with
  | none => s
  | some g =>
    if g.codes.all (fun c => c.1.isSome) then
      let codes := g.codes.map fun c => (c.1.getD 0, c.2)
      let s := { s with mb := { s.mb with gathers := gs.filter fun g => g.slot != k } }
      s.finish k (memberStatus codes) (memberPayload g.pairs codes)
    else s

/-- The outcome of a rail's WAIT command (R130). -/
def endWait (s : State) (r : RailIx) (code : Nat) : State :=
  match (s.rail r).prof.waiter with
  | none => s
  | some w =>
    let s := s.modProf r fun x => { x with waiter := none }
    s.gatherSet w.1 w.2 code ((s.rail r).prof.reqMv != (s.rail r).prof.tgtMv)

/-! Sessions and skims that end with a rail's motion or regulation -/

/-- A session ends as ABORTED with its reason (R147): a sine runs on to its zero crossing; an AUTOTUNE is answered ABORTED
(R153). -/
def abortTune (s : State) (reason : Nat) : State :=
  if s.tune.tstate != .running then s
  else
    let slot := s.tune.slot
    let s := s.count Ob.clsTune 0 Ob.Tune.aborts
    let sine := s.tune.auto || decide (bits (s.obj Ob.clsTune 0 Ob.Tune.injCtrl) 3 2 < 2)
    let s := { s with tune := { s.tune with
      tstate := .aborted, reason := reason, recording := false, slot := none, endSine := sine
      inject := if sine then s.tune.inject else 0 } }
    s.finishOpt slot St.aborted []

def abortTuneOn (s : State) (r : RailIx) (reason : Nat) : State := if s.sessionOn r then s.abortTune reason else s

/-- A skim ends as ABORTED: ZERO is unchanged and SKIM_ABORTS counts 1 (R92, R93). -/
def abortSkim (s : State) (r : RailIx) : State :=
  match (s.rail r).plc.skim with
  | none => s
  | some k =>
    (s.count Ob.clsPhase k.phase.val Ob.Phase.skimAborts).modPlc r fun x =>
      { x with skim := none, lastPhase := k.phase.val, lastOut := .aborted, lastActiveEnd := s.now }

def abortPassive (s : State) (r : RailIx) : State :=
  match (s.rail r).plc.passive with
  | none => s
  | some k =>
    (s.count Ob.clsPhase k.phase.val Ob.Phase.skimAborts).modPlc r fun x =>
      { x with passive := none, lastPhase := k.phase.val, lastOut := .aborted }

/-- An open stroke closes with a mismatch: its learning is discarded and d_FF fades to 0 over 64 frames (R136, R138). -/
def strokeMismatch (s : State) (r : RailIx) : State :=
  if (s.rail r).ff.stroke.isNone then s
  else s.modFf r fun x => { x with
    stroke := none, mismatch := true, sums := [], counts := [], spoiled := []
    fade := if x.applied then some (x.dFF, 64) else x.fade, applied := false }

/-! Errors of the limiting loops -/

/-- A stored object of a rail as an exact number. -/
def railQ (s : State) (r item : Nat) : Rat := (s.railN r item : Rat)

/-- CTRL of a rail, bit by bit (R124). -/
def ctrlBit (s : State) (r : RailIx) (k : Nat) : Bool := bit (s.obj Ob.clsRail r.val Ob.Rail.ctrl) k

/-- The fold-back limit of R222 in amperes at a profile position in mV. -/
def foldAt (s : State) (r : RailIx) (p : Rat) : Rat :=
  let full := s.railQ r.val Ob.Rail.ilim / 1000
  if !bit (s.obj Ob.clsRail r.val Ob.Rail.protCtrl) 2 then full
  else
    let m := (s.rail r).meas
    let ratio := m.v * 1000 / max p 1000
    full * max (s.railQ r.val Ob.Rail.ilimFloor / 1000) (min 1 ratio)

/-- The fold-back limit of the frame (R222). -/
def foldLimit (s : State) (r : RailIx) : Rat := s.foldAt r (s.rail r).prof.p

/-- The three errors of R115; a rail without a share counts a power error of 0 (R121). -/
def errCurrent (s : State) (r : RailIx) : Rat := s.foldLimit r - (s.rail r).meas.iRail
def errPower (s : State) (r : RailIx) : Rat :=
  match (s.rail r).meas.pShare with
  | some q => q - (s.rail r).meas.pIn
  | none => 0
def errTemp (s : State) (r : RailIx) : Rat :=
  (s.railI r.val Ob.Rail.tlim : Rat) / 100 - (s.rail r).meas.tStage

/-! Preload -/

/-- Set the loop states to a duty, the past errors to the present ones, and clear the past outputs (R112). The voltage
loop's state is the duty less the feed-forward of the frame. -/
def preload (s : State) (r : RailIx) (d e eI eP eT : Rat) : State :=
  let dff := (s.rail r).meas.dFF
  s.modLaw r fun x => { x with
    sV := d - dff, sI := d, sP := d, sT := d, e1 := e, e2 := e, f1 := 0, f2 := 0, eI1 := some eI, eP1 := some eP
    eT1 := some eT }

/-- The duty that sustains a current at a voltage (R112), in V, A, Ω. -/
def sustain (s : State) (r : RailIx) (v i : Rat) (nAct : Nat) : Rat :=
  let rl : Rat := (s.railN r.val Ob.Rail.rloss : Rat) / 1000
  let dmax : Rat := (s.railN r.val Ob.Rail.dmax : Rat) / 65536
  clampQ (divBus (v + i * rl / ((max nAct 1 : Nat) : Rat)) s.vbusV) 0 dmax

/-! Targets -/

/-- The profile takes a new command (R127, R130, R131): an earlier WAIT is superseded. -/
def takeTarget (s : State) (r : RailIx) (mv slew tag port : Nat) : State :=
  let s := s.endWait r St.superseded
  let tgt := s.clampTarget r mv
  s.modProf r fun x => { x with
    reqMv := mv, tgtMv := tgt, slew := slew, tag := tag, port := port, done := false, inBand := 0 }

/-! Starting -/

/-- The law and the profile start (R107, R112, R132): LINEAR and disarmed, p at the coarse voltage, every available phase
active, the dwell from here, the feed-forward's MODE taken (R136). The first error is that of the new p, so that a pre-biased
output is not pulled down (R132). -/
def startLaw (s : State) (r : RailIx) : State :=
  let x := s.rail r
  let v := x.meas.vCoarse
  let fs : Rat := (s.fullScaleMv r.val : Rat)
  let p := clampQ (v * 1000) 0 fs
  let e := p / 1000 - v
  let q := s.requested r
  let s := s.modLaw r fun l => { l with regime := .linear, armed := false, slamFrames := 0, overRun := 0, underRun := 0, loop := .voltage }
  let s := s.modMeas r fun m => { m with e := e, v := v, dFF := 0, sawLimit := false }
  let s := s.preload r (s.sustain r v 0 1) e (s.foldAt r p) (s.errPower r) (s.errTemp r)
  let s := s.modProf r fun y => { y with
    p := p, v := 0, a := 0, reqMv := q.1, tgtMv := s.clampTarget r q.1, slew := q.2.1, tag := q.2.2.1, port := q.2.2.2
    softStart := true, done := false, inBand := 0 }
  let s := s.modFf r fun y => { y with mode := bits (s.obj Ob.clsRail r.val Ob.Rail.ffCtrl) 1 0, dFF := 0, fade := none, applied := false }
  let s := s.modPlc r fun y => { y with lastMove := s.now, lastAddShed := none, iHist := [] }
  let s := s.modProt r fun y => { y with limRun := 0, uvwRun := 0, uvfRun := 0, hicEnd := none }
  forEach (s.phasesOf r.val) (fun s n => (s.modSense n fun y => { y with shed := false }).modGen n fun g =>
    { g with slamPark := false, wokeAt := if s.objs.comp n.val then g.wokeAt else some s.now }) s

/-- The fuse of a rail that starts (R198): WITH_RAIL drives the gate fully on. -/
def fuseStart (s : State) (r : RailIx) : State :=
  let w := s.obj Ob.clsRail r.val Ob.Rail.fuseCtrl
  if bit w 0 && !bit w 1 && (s.rail r).fuse.fstate == .off then s.modFuse r fun f => { f with fstate := .on, psArmed := false }
  else s

/-- The gate of a fuse is commanded off (R198, R203). -/
def fuseOff (s : State) (r : RailIx) : State :=
  if (s.rail r).fuse.fstate == .on || (s.rail r).fuse.fstate == .ramp then
    s.modFuse r fun f => { f with fstate := .off, psArmed := false, gateOffAt := s.now, aboveRun := 0, limiting := false }
  else s

/-! Leaving regulation -/

/-- A rail leaves regulation and enters OFF (R133, R238): the profile and the law's states are discarded, a WAIT command is
ABORTED, an open stroke is a mismatch, skims and a session abort, trims become 0, carries are dropped, the fuse's gate goes
off unless a crowbar holds it, and the minimum off time starts (R242). -/
def leaveRegulation (s : State) (r : RailIx) (byCrowbar : Bool) : State :=
  let s := s.endWait r St.aborted
  let s := (s.strokeMismatch r).modFf r fun x => { x with dFF := 0, fade := none, applied := false }
  let s := (s.abortSkim r).abortPassive r
  let s := s.abortTuneOn r 2
  let s := forEach (s.phasesOf r.val) (fun s n => (s.dropCarry n).modPhase n fun y =>
    { y with sense := { y.sense with trim := 0, shed := false, limitRun := 0 },
             gen := { y.gen with slamPark := false, wokeAt := none } }) s
  let s := s.modRail r fun x => { x with
    prof := { x.prof with p := 0, v := 0, a := 0, softStart := false, done := false, inBand := 0 }
    law := { x.law with regime := .linear, armed := false, slamFrames := 0, sV := 0, sI := 0, sP := 0, sT := 0,
                        e1 := 0, e2 := 0, f1 := 0, f2 := 0, eI1 := none, eP1 := none, eT1 := none, dSel := 0, dRail := 0 }
    meas := { x.meas with pHist := [], pShare := none, dFF := 0 }
    lt := { x.lt with running := false, ending := false, window := [], windowFrames := 0, sine := 0, clearRun := 0 }
    prot := { x.prot with hicEnd := none, uvw := false, uvf := false, ovw := false, ovf := false, uvwRun := 0, uvfRun := 0,
                          ovwRun := 0, ovfRun := 0, limRun := 0, cmpHic := false }
    seq := { x.seq with rseq := .off, good := false, qualStart := none, paused := false, disRun := 0
                        minOffEnd := s.now + msFrames (s.railN r.val Ob.Rail.minOffMs) }
    dnDue := none, upDue := none }
  if byCrowbar then s else s.fuseOff r

/-! Domains -/

/-- Insert a rail by a key, lower keys first, equal keys in order. -/
def insertBy (key : RailIx → Nat) (r : RailIx) : List RailIx → List RailIx
  | [] => [r]
  | a :: t => if key r < key a then r :: a :: t else a :: insertBy key r t

def sortBy (key : RailIx → Nat) (l : List RailIx) : List RailIx := l.foldl (fun acc r => insertBy key r acc) []

/-- The rails of a domain in ascending UP_RANK (R244). -/
def upOrder (s : State) (d : DomainIx) : List RailIx :=
  sortBy (fun r => s.railN r.val Ob.Rail.upRank) (s.railsOf d.val)

/-- The rails of a domain in the order of the down-sequence (R244). -/
def downOrder (s : State) (d : DomainIx) : List RailIx :=
  if bit (s.obj Ob.clsDomain d.val Ob.Domain.ctrl) 1 then sortBy (fun r => s.railN r.val Ob.Rail.dnRank) (s.railsOf d.val)
  else (s.upOrder d).reverse

/-- The state of a domain changes (ISTAT.DOMAIN, R306). -/
def setDom (s : State) (d : DomainIx) (st : DomSt) : State :=
  if (s.domain d).dstate == st then s
  else (s.modDomain d fun x => { x with dstate := st }).irq Irq.domain

/-- DEV.STAT.STATE follows the domains: RUN while a domain is in neither OFF nor LATCHED (R322). -/
def settleDev (s : State) : State :=
  if s.dev.dstate == .standby || s.dev.dstate == .run then
    let idle := s.domains.toList.all fun x => x.dstate == .off || x.dstate == .latched
    { s with dev := { s.dev with dstate := if idle then .standby else .run } }
  else s

/-- The next rail in a list that has not started and comes after the given ones. -/
def dueNext (s : State) (d : DomainIx) (after : Option RailIx) : Option RailIx :=
  let order := s.upOrder d
  match after with
  | none => order.head?
  | some a => (order.drop (order.idxOf a + 1)).head?

/-- A rail's up step is scheduled STEP_US from now (R244). -/
def schedUp (s : State) (d : DomainIx) (r : RailIx) : State :=
  let s := s.modRail r fun x => { x with upDue := some (s.now + usFrames (s.railN r.val Ob.Rail.stepUs)) }
  s.modDomain d fun x => { x with stepRail := r.val }

/-- A domain enters UP (R245): STARTS counts, and the first rail's step is scheduled. -/
def enterUp (s : State) (d : DomainIx) (freshRetries : Bool) : State :=
  let s := s.count Ob.clsDomain d.val Ob.Domain.starts
  let s := (s.setDom d .up).modDomain d fun x => { x with
    retryLeft := if freshRetries then s.domN d.val Ob.Domain.retries else x.retryLeft
    retryFlag := false, latchFlag := false, upStart := s.now, latchRail := 255 }
  let s := match s.dueNext d none with
    | some r => s.schedUp d r
    | none => s
  s.settleDev

/-- The last down step has ended (R245, R246). -/
def downEnd (s : State) (d : DomainIx) : State :=
  let x := s.domain d
  let s := s.modDomain d fun x => { x with stepRail := 255 }
  let s :=
    if x.latchFlag then
      let s := if h : x.latchRail < 16 then
          (if x.latchCause == .startFail then s.modProt ⟨x.latchRail, h⟩ fun p => { p with latch := .startFail } else s)
        else s
      let s := s.count Ob.clsDomain d.val Ob.Domain.latches
      let s := (s.setDom d .latched).modDomain d fun x => { x with req := false, latchFlag := false, retryFlag := false, pinArmed := false }
      s.record Code.domainLatch Ob.clsDomain d.val x.latchCause.code (leBytes 1 x.latchRail)
    else if x.retryFlag then
      let s := s.count Ob.clsDomain d.val Ob.Domain.retried
      let s := (s.setDom d .retryWait).modDomain d fun y => { y with
        retryFlag := false, retryEnd := s.now + msFrames (s.domN d.val Ob.Domain.retryMs) }
      s.record Code.domainRetry Ob.clsDomain d.val x.retryLeft (leBytes 1 x.failRail)
    else if x.req && !s.deviceHold && !s.domBlocks d then s.enterUp d true
    else (s.setDom d .off).record Code.domainOff Ob.clsDomain d.val 0 []
  (s.settleDev).refreshFlt

/-- The next rail of the down-sequence that is not OFF: its step falls DN_STEP_US from now; with none left the sequence has
ended (R244, R245). -/
def nextDown (s : State) (d : DomainIx) : State :=
  match (s.downOrder d).find? (fun r => s.regulating r) with
  | none => s.downEnd d
  | some r =>
    let s := s.modRail r fun x => { x with dnDue := some (s.now + usFrames (s.railN r.val Ob.Rail.dnStepUs)) }
    s.modDomain d fun x => { x with stepRail := r.val }

/-- A domain enters DOWN: every step not yet taken is cancelled (R245). -/
def enterDown (s : State) (d : DomainIx) : State :=
  let s := forEach (s.railsOf d.val) (fun s r => s.modRail r fun x => { x with upDue := none }) s
  (s.setDom d .down).nextDown d

/-- A rail has entered OFF while its domain goes down: the next step (R244). -/
def railWentOff (s : State) (r : RailIx) : State :=
  match s.railDomain r with
  | none => s
  | some d =>
    if (s.domain d).dstate == .down then
      (if (s.downOrder d).any fun x => (s.rail x).dnDue.isSome || (s.rail x).seq.rseq == .discharge then s else s.nextDown d)
    else s

/-- A rail latched off reports to its domain (R245, R247). A rail that was OFF counts only while its domain powers up. -/
def reportLatch (s : State) (r : RailIx) (cause : Latch) (was : Bool) : State :=
  match s.railDomain r with
  | none => s
  | some d =>
    let x := s.domain d
    let iso := bit (s.obj Ob.clsDomain d.val Ob.Domain.ctrl) 2
    let setLatch (s : State) : State :=
      s.modDomain d fun y => if y.latchFlag then y else { y with latchFlag := true, latchRail := r.val, latchCause := cause }
    match x.dstate with
    | .up => (setLatch s).enterDown d
    | .on => if iso || !was then s else (setLatch s).enterDown d
    | .down => if !was then s else if iso then s.railWentOff r else (setLatch s).railWentOff r
    | _ => s

/-! Causes of the frame (R219, R223, R230) -/

/-- A UV fault level has qualified in this frame and is not yet reported (R217). -/
def uvPending (s : State) (r : RailIx) : Bool :=
  !(s.rail r).prot.uvf && decide (bits (s.obj Ob.clsRail r.val Ob.Rail.lvlQual) 7 0 ≤ (s.rail r).prot.uvfRun)

/-- v, and the p it was judged about (R216), in mV as records carry them (R284): the step of the frame has moved p on (R126). -/
def levelData (s : State) (r : RailIx) : List Byte :=
  leBytes 4 (qWord ((s.rail r).meas.v * 1000)) ++ leBytes 4 (qWord (s.rail r).meas.pAt)

/-- A UV fault crossing: UVF, its counter and its record (R219); a session on the rail aborts (R147). -/
def uvFaultReport (s : State) (r : RailIx) : State :=
  let s := (s.abortTuneOn r 4).modProt r fun p => { p with uvf := true, uvfRun := 0 }
  (s.count Ob.clsRail r.val Ob.Rail.uvFaultCnt).record Code.railUvFault Ob.clsRail r.val 0 (s.levelData r)

/-- The causes of hiccup that hold in this frame, as the bits of a HICCUP record (R223). -/
def hicCauses (s : State) (r : RailIx) : Nat :=
  let p := (s.rail r).prot
  flag (s.railN r.val Ob.Rail.hicN ≤ p.limRun) 0
    + flag (s.uvPending r && bit (s.obj Ob.clsRail r.val Ob.Rail.protCtrl) 0) 1 + flag p.cmpHic 2

def hicRecord (s : State) (r : RailIx) (causes run : Nat) : State :=
  s.record Code.hiccup Ob.clsRail r.val causes (leBytes 1 run ++ leBytes 4 (qWord ((s.rail r).meas.iRail * 1000)))

/-- The causes of a hiccup end with the decision about them. -/
def clearHic (s : State) (r : RailIx) : State :=
  s.modProt r fun p => { p with limRun := 0, uvfRun := 0, cmpHic := false }

/-- A hiccup that falls into the frame of a crowbar or a latch is recorded and has no further effect (R230). -/
def recordLower (s : State) (r : RailIx) : State :=
  if !s.regulating r || s.inHiccup r then s
  else
    let causes := s.hicCauses r
    let s := if s.uvPending r then s.uvFaultReport r else s
    (if causes = 0 then s else s.hicRecord r causes (s.rail r).prot.hicRun).clearHic r

/-! Latching a rail off -/

/-- What follows the record of a latch (R230, R238): lower causes of the frame are recorded, the rail is OFF, and its domain
hears of it. -/
def afterLatch (s : State) (r : RailIx) (cause : Latch) : State :=
  let s := s.recordLower r
  let was := s.regulating r
  let s := if was then s.leaveRegulation r false else s
  (s.reportLatch r cause was).refreshFlt

/-- A rail is latched off (R74, R238): the latch, the record with its snapshot (R294), OFF, and the report to the domain. A
rail that is latched already keeps its cause; the event is then recorded without a snapshot (R230). -/
def latchRail (s : State) (r : RailIx) (cause : Latch) (code cls inst sub : Nat) (data : List Byte) : State :=
  if s.latchedOff r then s.record code cls inst sub data
  else
    let s := s.modProt r fun p => { p with latch := cause }
    (s.recordSnap code cls inst sub data r cause.code).afterLatch r cause

/-- One event latches rails off (R229): a single record, with a snapshot of each rail that was not latched yet (R294). -/
def latchRails (s : State) (rs : List RailIx) (cause : Latch) (code cls inst sub : Nat) (data : List Byte) : State :=
  let fresh := rs.filter fun r => !s.latchedOff r
  let s := forEach fresh (fun s r => s.modProt r fun p => { p with latch := cause }) s
  let s := s.event ⟨code, cls, inst, sub, data, fresh.map fun r => (r, cause.code), false⟩
  forEach fresh (fun s r => s.afterLatch r cause) s

/-- The frame from which a crowbar holds a phase's low side on: at once, or four frames after the stage is enabled where the
phase leaves Disabled (R58, R220); none of a phase that is not available. -/
def crowbarDue (s : State) (n : PhaseIx) : Option Nat :=
  if !s.available n then none else if s.outCode n == 0 && !s.objs.comp n.val then some (s.now + 4) else some s.now

/-- The crowbar of a rail (R220): every available phase into LS on at once, high sides off, the rail latched off with cause
CROWBAR, the fuse left as it is. On a rail that stands in a crowbar a further cause is recorded only (R230). -/
def crowbar (s : State) (r : RailIx) (sub cmp : Nat) : State :=
  let data := leBytes 1 cmp ++ leBytes 4 (qWord ((s.rail r).meas.v * 1000))
  if (s.rail r).prot.crowbar then s.record Code.crowbar Ob.clsRail r.val sub data
  else
    let due : PhaseIx → Option Nat := s.crowbarDue
    let s := s.count Ob.clsRail r.val Ob.Rail.crowbars
    let s := s.modProt r fun p => { p with crowbar := true, latch := .crowbar }
    let s := (s.recordSnap Code.crowbar Ob.clsRail r.val sub data r Latch.crowbar.code).recordLower r
    let s := forEach (s.phasesOf r.val) (fun s n =>
      (s.dropCarry n).modGen n fun g => { g with
        rise := none, fall := none, switching := false, crowbarAt := due n }) s
    let was := s.regulating r
    let s := if was then s.leaveRegulation r true else s
    (s.reportLatch r .crowbar was).refreshFlt

/-- The crowbar ends: its phases become Disabled and the fuse's gate goes off (R221, R198). -/
def endCrowbar (s : State) (r : RailIx) : State :=
  if !(s.rail r).prot.crowbar then s
  else
    let s := s.modProt r fun p => { p with crowbar := false }
    let s := forEach (s.phasesOf r.val) (fun s n => s.modGen n fun g => { g with crowbarAt := none }) s
    s.fuseOff r

/-! Hiccup -/

/-- The phases of a rail become Disabled while it keeps its sequencing state: pulses end, carries are dropped, skims
abort (R68, R92, R223, R226, R229). -/
def disablePhases (s : State) (r : RailIx) : State :=
  let s := (s.abortSkim r).abortPassive r
  forEach (s.phasesOf r.val) (fun s n => (s.dropCarry n).modGen n fun g =>
    { g with switching := false, rise := none, fall := none, te := 0, wokeAt := none, slamPark := false }) s

/-- A rail enters hiccup with the causes of the frame, or is latched off with OVERCURRENT where the run count would pass
HIC_MAX (R223, R224). Nothing follows in an off time, on a latched rail, or on a rail whose law does not regulate. -/
def hiccupRail (s : State) (r : RailIx) : State :=
  let x := s.rail r
  if x.prot.hicEnd.isSome || s.latchedOff r || !(x.seq.rseq == .ramp || x.seq.rseq == .on) then s.clearHic r
  else
    let causes := s.hicCauses r
    let s := if s.uvPending r then s.uvFaultReport r else s
    let s := s.clearHic r
    if s.railN r.val Ob.Rail.hicMax < x.prot.hicRun + 1 then
      s.latchRail r .overcurrent Code.ocLatch Ob.clsRail r.val 0 (leBytes 1 x.prot.hicRun)
    else
      let s := s.count Ob.clsRail r.val Ob.Rail.hiccups
      let s := s.modProt r fun p => { p with
        hicRun := p.hicRun + 1, hicClean := 0, uvw := false, uvf := false, uvwRun := 0
        hicEnd := some (s.now + msFrames (s.railN r.val Ob.Rail.hicOffMs)) }
      let s := s.hicRecord r causes (x.prot.hicRun + 1)
      (s.disablePhases r).modSeq r fun q => { q with good := false }

end State
end Sys2Proof.Machine
end

