-- ==== Sys2Proof/Machine/Sensing.lean ====
section
/-! DEFINITION. Phase current sensing, balance and placement (04): the slot schedule, the samples of a frame, the balance
trims, adds and sheds, and the course of a skim within a frame. -/

namespace Sys2Proof.Machine

/-- One conversion code as a voltage difference in µV (R83: ±1.2 V in 12 bits). -/
def codeUv (code : Int) : Rat := (clampI code (-2048) 2047 : Int) * 9375 / 16

/-- The current of a difference in mA (R84). -/
def currentMa (vdiff zero : Rat) (gain : Nat) (corr : Rat) : Rat :=
  (vdiff - zero) * 1000 / ((gain : Rat) * (1 + corr))

/-- The ripple in mA between valley and average (R88): voltages in V, the on-time in ticks, the inductance in nH. -/
def rippleMa (vbus vrail : Rat) (te lind : Nat) : Rat :=
  (vbus - vrail) * ((te : Rat) * 625 / 8000) / (lind : Rat) * 1000

/-- The nearest sampling slot of an instant in the frame; halfway takes the earlier (R87). -/
def nearestSlot (t : Nat) : Nat := min ((t + 399) / 800) 7

/-- The next free slot from a slot on, counting cyclically (R87). -/
def freeSlot (taken : List Nat) (k : Nat) : Nat :=
  (((List.range 8).map fun j => (k + j) % 8).find? fun x => !taken.contains x).getD k

/-- Insert a phase by its instant, earlier first, the lower-numbered phase first on a tie (R87). -/
def insertInst (p : Nat × PhaseIx) : List (Nat × PhaseIx) → List (Nat × PhaseIx)
  | [] => [p]
  | a :: t => if p.1 < a.1 then p :: a :: t else a :: insertInst p t

namespace State

/-- The reference instant of a phase as a tick of the clock (R86): the centre of the period in progress or, past it, of the
next one; below 12 800 ticks the valley, with the on-time of the period in progress. -/
def refInstant (s : State) (n : PhaseIx) : Nat :=
  let g := (s.phase n).gen
  let ofIn (start p : Nat) (thisOne : Bool) : Nat :=
    if 12800 ≤ p then start + p / 2
    else match thisOne, g.rise with
      | true, some x => start + x
      | true, none => start + p / 2
      | false, _ => start + riseOf p g.te
  let a := ofIn g.startTick g.thisPeriod true
  if a < s.frameTick then ofIn g.nextStart g.thisPeriod false else a

/-- The phases of a slice (R85). -/
def slicePhases (s : State) (k : Nat) : List PhaseIx :=
  allPhases.filter fun n => n.val / 8 == k && (s.phaseRail n).isSome

/-- The slots of the coming frame in one slice (R87): the phase, its slot, whether it is a reference conversion, its
displacement and whether it left the nearest slot. -/
def sliceSlots (s : State) (k : Nat) : List (PhaseIx × Bool × Int × Bool) :=
  let ps := s.slicePhases k
  let inFrame := ps.filter fun n => s.frameTick ≤ s.refInstant n && s.refInstant n < s.frameTick + 6400
  let ordered := inFrame.foldl (fun acc n => insertInst (s.refInstant n - s.frameTick, n) acc) []
  (ordered.foldl (fun (acc : List Nat × List (PhaseIx × Bool × Int × Bool)) q =>
    let want := nearestSlot q.1
    let got := freeSlot acc.1 want
    (got :: acc.1, (q.2, true, (800 * got : Int) - q.1, got != want) :: acc.2)) ([], [])).2
  ++ (ps.filter fun n => !inFrame.contains n).map fun n => (n, false, 0, false)

/-- Assign the slots of the coming frame; a phase that had to leave the nearest slot counts COLLISIONS (R87). -/
def assignSlots (s : State) : State :=
  forEach (List.range 6) (fun s k => forEach (s.sliceSlots k) (fun s q =>
    (s.countIf q.2.2.2 Ob.clsPhase q.1.val Ob.Phase.collisions).modSense q.1 fun x =>
      { x with refNow := q.2.1, dispNow := q.2.2.1 }) s) s

/-- The conversion of one phase in the frame that ends (R84, R88). An unassigned phase is not sampled (R14). -/
def sensePhase (s : State) (code : Int) (n : PhaseIx) : State :=
  match s.phaseRail n with
  | none => s
  | some r =>
    let x := (s.phase n).sense
    let vd := codeUv code
    let i := currentMa vd x.zero (s.phaseN n.val Ob.Phase.isenGain) x.gainCorr
    let g := (s.phase n).gen
    let iRef := if 12800 ≤ g.thisPeriod then i
      else i + rippleMa s.vbusV (s.rail r).meas.vCoarse g.te (s.phaseN n.val Ob.Phase.lindNh) / 2
    s.modSense n fun y => { y with
      vdiffNow := vd
      iinst := i
      iph := if y.refNow then iRef else y.iph
      sage := if y.refNow then 0 else y.sage + 1
      sdisp := if y.refNow then y.dispNow else y.sdisp }

/-- All conversions of a frame, by phase number (R85). -/
def sense (s : State) (convs : List Int) : State :=
  forEach allPhases (fun s n => s.sensePhase (convs.getD n.val 0) n) s

/-- The sum of IRATE over the active phases in mA (R95, R97). -/
def irateSum (s : State) (r : RailIx) : Rat :=
  sumQ ((s.activeOf r).map fun n => (s.phaseN n.val Ob.Phase.irate : Rat))

/-- The balance integrators of a rail in a LINEAR frame (R97), with the count of frames at and off the limit (R98). -/
def balance (s : State) (r : RailIx) : State :=
  let acts := s.activeOf r
  let total := sumQ (acts.map fun n => (s.phase n).sense.iph)
  let wsum := sumQ (acts.map fun n => (s.phaseN n.val Ob.Phase.weight : Rat))
  let en := bit (s.obj Ob.clsRail r.val Ob.Rail.plcCtrl) 1
  let gain : Rat := (s.railN r.val Ob.Rail.balGain : Rat) / 65536
  let runs := en && (s.rail r).law.regime == .linear && decide (s.irateSum r / 20 ≤ total)
  forEach acts (fun s n =>
    let x := (s.phase n).sense
    let target := (s.phaseN n.val Ob.Phase.weight : Rat) * total / wsum
    let t := if runs then
        clampQ (x.trim + gain * (target - x.iph) / (s.phaseN n.val Ob.Phase.irate : Rat)) (-1 / 50) (1 / 50)
      else x.trim
    let atLim := t == 1 / 50 || t == -1 / 50
    s.modSense n fun y => { y with
      trim := t
      limitRun := if atLim then y.limitRun + 1 else 0
      offRun := if atLim then 0 else y.offRun + 1 }) s

/-- The charge of the active phases (R101), in Ah over 500 ns. -/
def charge (s : State) (r : RailIx) : State :=
  forEach (s.activeOf r) (fun s n => s.modSense n fun y => { y with qacc := y.qacc + absQ y.iph / 7200000000000 }) s

/-- The highest TMON temperature among the banks that hold a rail's assigned phases, in °C (R100, R115). -/
def bankTemp (s : State) (r : RailIx) : Rat :=
  let ts := (s.phasesOf r.val).map fun n =>
    match s.temps.toList[16 + n.val / 4]? with
    | some t => (t.value : Rat) / 100
    | none => 25
  match ts with
  | [] => 25
  | a :: t => t.foldl max a

/-- The square of the adaptive scale, clamped to 0.50² … 2.00² (R100): f_sw in kHz is 12 800 000 over the period. -/
def scaleSq (s : State) (r : RailIx) : Rat :=
  if !bit (s.obj Ob.clsRail r.val Ob.Rail.plcCtrl) 4 then 1
  else
    let f : Rat := 12800000 / (s.railN r.val Ob.Rail.period : Rat)
    let den : Rat := 1 + (s.railN r.val Ob.Rail.tcr : Rat) / 1000000 * (s.bankTemp r - 25)
    if den ≤ 0 then 4 else clampQ (f / (s.railN r.val Ob.Rail.frefKhz : Rat) / den) (1 / 4) 4

/-- Compare a current with k × threshold × s, both sides squared, so that the root of R100 is exact. -/
def aboveScaled (i base scale2 : Rat) : Bool := decide (base * base * scale2 < i * i) && decide (0 < i)
def belowScaled (i base scale2 : Rat) : Bool := decide (i * i < base * base * scale2)

/-- The placement current of R99 in mA: the mean of |rail current| over the last PLC_AVG frames. -/
def placementMa (s : State) (r : RailIx) : Rat :=
  meanQ (((s.rail r).plc.iHist).take (s.railN r.val Ob.Rail.plcAvg))

/-- The parked available phase with the least charge, and the active phase with the most (R101). -/
def leastQ (s : State) (l : List PhaseIx) : Option PhaseIx :=
  l.foldl (fun acc n => match acc with
    | none => some n
    | some m => if (s.phase n).sense.qacc < (s.phase m).sense.qacc then some n else acc) none
def mostQ (s : State) (l : List PhaseIx) : Option PhaseIx :=
  l.foldl (fun acc n => match acc with
    | none => some n
    | some m => if (s.phase m).sense.qacc < (s.phase n).sense.qacc then some n else acc) none

/-- A phase joins: it leaves Parked at its next period start; its passive skim ends as ABORTED (R93, R102). -/
def joinPhase (s : State) (r : RailIx) (n : PhaseIx) : State :=
  let s := match (s.rail r).plc.passive with
    | some k => if k.phase == n then s.abortPassive r else s
    | none => s
  s.modSense n fun y => { y with shed := false }

/-- Every available phase joins at a slam (R102). -/
def joinAll (s : State) (r : RailIx) : State :=
  forEach ((s.availOf r).filter fun n => (s.phase n).sense.shed) (fun s n => s.joinPhase r n)
    (s.modPlc r fun x => { x with lastMove := s.now })

/-- The add condition of R99. -/
def addWanted (s : State) (r : RailIx) : Bool :=
  let nAct := (s.activeOf r).length
  nAct < (s.availOf r).length &&
    aboveScaled (s.placementMa r) ((nAct : Rat) * (s.railN r.val Ob.Rail.iadd : Rat)) (s.rail r).plc.scale2

/-- The shed condition of R99, with its dwell. -/
def shedWanted (s : State) (r : RailIx) : Bool :=
  let nAct := (s.activeOf r).length
  s.railN r.val Ob.Rail.minph < nAct &&
    belowScaled (s.placementMa r) (((nAct - 1 : Nat) : Rat) * (s.railN r.val Ob.Rail.ished : Rat)) (s.rail r).plc.scale2 &&
    decide ((s.rail r).plc.lastMove + usFrames (s.railN r.val Ob.Rail.dwellUs) ≤ s.now)

/-- Placement adds a phase (R99, R101); an add that ends an active skim is that add (R92). -/
def placeAdd (s : State) (r : RailIx) : State :=
  let stamp (s : State) : State := s.modPlc r fun x => { x with lastMove := s.now, lastAddShed := some s.now }
  if (s.rail r).plc.skim.isSome then stamp ((s.abortSkim r).count Ob.clsRail r.val Ob.Rail.adds)
  else match s.leastQ ((s.availOf r).filter fun n => (s.phase n).sense.shed) with
    | none => s
    | some n => stamp ((s.joinPhase r n).count Ob.clsRail r.val Ob.Rail.adds)

/-- Placement sheds the active phase with the most charge (R99, R101). -/
def placeShed (s : State) (r : RailIx) : State :=
  match s.mostQ (s.activeOf r) with
  | none => s
  | some n =>
    let s := s.modSense n fun y => { y with shed := true, shedAt := s.now }
    (s.count Ob.clsRail r.val Ob.Rail.sheds).modPlc r fun x => { x with lastMove := s.now, lastAddShed := some s.now }

/-- The scale of R100, recomputed in every frame. -/
def scaleFrame (s : State) (r : RailIx) : State := s.modPlc r fun x => { x with scale2 := s.scaleSq r }

/-- The placement of one frame (R99, R94): only in LINEAR, and with PLC_EN = 0 every available phase is active. -/
def placement (s : State) (r : RailIx) : State :=
  let s := s.modPlc r fun x => { x with
    iHist := pushHist 256 (absQ ((s.rail r).meas.iRail * 1000)) x.iHist }
  if (s.rail r).law.regime != .linear then s
  else if !bit (s.obj Ob.clsRail r.val Ob.Rail.plcCtrl) 0 then
    forEach ((s.availOf r).filter fun n => (s.phase n).sense.shed) (fun s n => s.joinPhase r n) s
  else if s.addWanted r then s.placeAdd r
  else if (s.rail r).plc.skim.isSome then s
  else if s.shedWanted r then s.placeShed r
  else s

/-- A running skim takes one frame: decay below 2 % of IRATE × ISEN_GAIN for 4 frames, then the mean of every conversion
(R91). It has begun once its phase's period start parked it. -/
def skimFrame (s : State) (k : Skim) : Skim :=
  match k.began with
  | none => k
  | some _ =>
    let x := (s.phase k.phase).sense
    let full : Rat := (s.phaseN k.phase.val Ob.Phase.irate : Rat) * (s.phaseN k.phase.val Ob.Phase.isenGain : Rat) / 1000
    if k.measuring then { k with sum := k.sum + x.vdiffNow, count := k.count + 1 }
    else if absQ (x.vdiffNow - x.zero) < full / 50 then { k with decayRun := k.decayRun + 1 }
    else { k with decayRun := 0 }

/-- The skims of a rail over one frame (R91, R93), and the sums of the calibration window (R95). -/
def skimFrames (s : State) (r : RailIx) : State :=
  let p := (s.rail r).plc
  s.modPlc r fun x => { x with skim := p.skim.map s.skimFrame, passive := p.passive.map s.skimFrame }

/-- The calibration window's conditions and sums (R95): the fuse on, the mirror fresh, no slam, the same active set. -/
def gcalFrame (s : State) (r : RailIx) : State :=
  let p := (s.rail r).plc
  let set := (s.activeOf r).map (·.val)
  let same := decide (p.gcalCount = 0) || p.gcalSet == set
  let ok := p.gcalOk && (s.rail r).fuse.fstate == .on && s.mirrorFresh && (s.rail r).law.regime == .linear && same
  s.modPlc r fun x => { x with
    gcalOk := ok, gcalSet := set, gcalCount := x.gcalCount + 1
    gcalSum := x.gcalSum + (s.rail r).meas.iRail
    metSum := x.metSum + ((s.meter.mirror.get r).iMa : Rat) / 1000 }

end State
end Sys2Proof.Machine
end

