-- ==== Sys2Proof/Machine/Law.lean ====
section
/-! DEFINITION. The rail band law (05): the regime decision, preload, the compensator and the limiting loops, selection and
tracking, the commit of a rail's duties, and the input power arbiter. One call is one frame of one rail. -/

namespace Sys2Proof.Machine

/-- A UQ0.32 gain (R124). -/
def gain32 (w : Word) : Rat := qUnsigned w 32

/-- The regime part of one frame (R108), before any demand is computed. -/
structure RegimeStep where
  regime : Regime
  armed : Bool
  overRun : Nat
  underRun : Nat
  slamFrames : Nat
  event : Bool
  joinAll : Bool
  preload : Bool
  clear : Bool
deriving DecidableEq, Repr

/-- The regime table of R108 on an error and the two bands in volts. -/
def regimeStep (slamEn : Bool) (qual : Nat) (out inn e : Rat) (l : LawState) : RegimeStep :=
  let up := if out < e then l.overRun + 1 else 0
  let dn := if e < -out then l.underRun + 1 else 0
  let within := absQ e ≤ inn
  let stay : RegimeStep := ⟨l.regime, l.armed, up, dn, if l.regime = .linear then 0 else l.slamFrames + 1, false, false, false, false⟩
  let toUp : RegimeStep := { stay with regime := .slamUp, slamFrames := l.slamFrames + 1, event := true, joinAll := true }
  let toDown : RegimeStep := { stay with regime := .slamDown, slamFrames := l.slamFrames + 1, event := true, clear := true }
  let back : RegimeStep := { stay with regime := .linear, armed := true, slamFrames := 0, preload := true }
  match l.regime with
  | .linear =>
    if !l.armed then { stay with armed := decide within }
    else if slamEn && decide (qual ≤ up) then toUp
    else if slamEn && decide (qual ≤ dn) then toDown
    else stay
  | .slamUp => if within then back else if qual ≤ dn then toDown else stay
  | .slamDown => if within then back else if qual ≤ up then toUp else stay

/-- The smaller of two demands; on a tie the first stays (R116). A loop that takes no part gives none. -/
def lowerDemand (a : Rat × LoopSel) (d : Option Rat) (l : LoopSel) : Rat × LoopSel :=
  match d with
  | none => a
  | some q => if q < a.1 then (q, l) else a

/-- The winner of R116 before the clamp. -/
def selectLoop (dV : Rat) (dI dP dT : Option Rat) : Rat × LoopSel :=
  lowerDemand (lowerDemand (lowerDemand (dV, .voltage) dI .current) dP .power) dT .temperature

/-- The D16 word of a selected duty (R118). -/
def dutyWord (d : Rat) (dmax : Nat) : Nat := (clampI (roundQ (d * 65536)) 0 dmax).toNat

namespace State

/-- DMAX as a fraction of the period. -/
def dmaxQ (s : State) (r : RailIx) : Rat := s.railQ r.val Ob.Rail.dmax / 65536

/-- The bus normalisation of R115. -/
def busNorm (s : State) (r : RailIx) : Rat :=
  if s.ctrlBit r 9 then clampQ (divBus (s.railQ r.val Ob.Rail.vbusRef / 1000) s.vbusV) (1 / 2) 2 else 1

/-- A preload from the present measurements (R112). -/
def preloadNow (s : State) (r : RailIx) : State :=
  let m := (s.rail r).meas
  s.preload r (s.sustain r m.v m.iRail (s.activeOf r).length) m.e (s.errCurrent r) (s.errPower r) (s.errTemp r)

/-- A rail is back in LINEAR: the dwell counts from the return (R102). -/
def slamReturn (s : State) (r : RailIx) : State := s.modPlc r fun x => { x with lastMove := s.now }

/-- Leaving SLAM_DOWN: each phase resumes at its next period start (R110). -/
def endPark (s : State) (r : RailIx) : State :=
  forEach (s.phasesOf r.val) (fun s n => s.modGen n fun g => { g with slamPark := false }) s

/-- The regime decision of a frame with everything that follows from it at once (R108, R110, R68, R92, R147). -/
def regimeFrame (s : State) (r : RailIx) : State :=
  let l := (s.rail r).law
  let uv (item : Nat) : Rat := s.railQ r.val item / 1000000
  let q := regimeStep (s.ctrlBit r 0) (bits (s.obj Ob.clsRail r.val Ob.Rail.ctrl) 11 10 + 1)
    (uv Ob.Rail.bandOutUv) (uv Ob.Rail.bandInUv) (s.rail r).meas.e l
  let s := s.modLaw r fun x => { x with
    regime := q.regime, armed := q.armed, overRun := q.overRun, underRun := q.underRun, slamFrames := q.slamFrames }
  let s := s.countIf q.event Ob.clsRail r.val Ob.Rail.slamEvents
  let s := if q.event then (s.abortSkim r).abortTuneOn r 1 else s
  let s := if l.regime == .slamDown && q.regime != .slamDown then s.endPark r else s
  let s := if q.joinAll then s.joinAll r else s
  let s := if q.clear then forEach (s.phasesOf r.val) State.dropCarry s else s
  if q.preload then (s.preloadNow r).slamReturn r else s

/-- The voltage demand of a LINEAR frame (R113); the past errors and outputs move on. -/
def voltageDemand (s : State) (r : RailIx) (g : Rat) : State × Rat :=
  let x := (s.rail r).law
  let e := (s.rail r).meas.e
  let f := qSigned x.b0 28 * e + qSigned x.b1 28 * x.e1 + qSigned x.b2 28 * x.e2 - qSigned x.a1 29 * x.f1 - qSigned x.a2 29 * x.f2
  (s.modLaw r fun y => { y with e2 := y.e1, e1 := e, f2 := y.f1, f1 := f },
   x.sV + g * f * (s.rail r).lt.kLt + (s.rail r).meas.dFF)

/-- The demand of a limiting loop: its state plus g times its increment (R115). A loop that took no part in the frame before
holds no past error and begins with the present one, as after a preload (R112, R116; log entry 37). -/
def limitDemand (g kp ki state e : Rat) (e1 : Option Rat) : Rat := state + g * (kp * (e - e1.getD e) + ki * e)

/-- A frame in LINEAR or SLAM_UP: demands, selection and tracking (R109, R113 … R117). -/
def demandFrame (s : State) (r : RailIx) : State :=
  let g := s.busNorm r
  let k (item : Nat) : Rat := gain32 (s.obj Ob.clsRail r.val item)
  let x := (s.rail r).law
  let (s, dV) := if x.regime == .slamUp then (s, s.dmaxQ r) else s.voltageDemand r g
  let eI := s.errCurrent r
  let eP := s.errPower r
  let eT := s.errTemp r
  let dI := limitDemand g (k Ob.Rail.kpI) (k Ob.Rail.kiI) x.sI eI x.eI1
  let dP := limitDemand g (k Ob.Rail.kpP) (k Ob.Rail.kiP) x.sP eP x.eP1
  let dT := limitDemand g (k Ob.Rail.kpT) (k Ob.Rail.kiT) x.sT eT x.eT1
  let opt (b : Bool) (d : Rat) : Option Rat := if b then some d else none
  let onI := s.ctrlBit r 1
  let onP := s.ctrlBit r 2 && (s.rail r).meas.pShare.isSome
  let onT := s.ctrlBit r 3
  let w := selectLoop dV (opt onI dI) (opt onP dP) (opt onT dT)
  let d := clampQ w.1 0 (s.dmaxQ r)
  let s := s.modLaw r fun y => { y with
    sV := d - (s.rail r).meas.dFF, sI := d, sP := d, sT := d, eI1 := opt onI eI, eP1 := opt onP eP
    eT1 := opt onT eT, loop := w.2, dSel := d }
  let s := s.modMeas r fun m => { m with
    demV := dV, demI := (opt onI dI).getD 0, demP := (opt onP dP).getD 0, demT := (opt onT dT).getD 0
    sawLimit := w.2 == .current }
  s.countIf (w.2 != .voltage) Ob.clsRail r.val Ob.Rail.limitFrames

/-! The commit (R33, R35, R36, R118) -/

/-- The duty of one phase from its rail's (R118): the trim acts in LINEAR with BAL_EN only. -/
def phaseDuty (s : State) (r : RailIx) (n : PhaseIx) (dRail : Nat) : Nat :=
  let dmax := s.railN r.val Ob.Rail.dmax
  if (s.rail r).law.regime == .linear && bit (s.obj Ob.clsRail r.val Ob.Rail.plcCtrl) 1 then
    (clampI (roundQ ((dRail : Rat) * (1 + (s.phase n).sense.trim))) 0 dmax).toNat
  else min dRail dmax

/-- A commit of a value per phase: the value before it stays for a reload in the same timebase cycle (R33). -/
def commitPhases (s : State) (r : RailIx) (f : PhaseIx → Nat) : State :=
  forEach (s.phasesOf r.val) (fun s n => s.modGen n fun g =>
    { g with prevCommitted := g.committed, committed := f n }) s

/-- The hold of a rail that is late or whose engine is halted: every phase keeps its duty (R36, R119). -/
def holdCommit (s : State) (r : RailIx) : State := s.commitPhases r fun n => (s.phase n).gen.committed

/-- SLAM_DOWN takes effect at the commit edge (R110): no high side, and the low sides by BRAKE and SINK_LIM. -/
def parkSlam (s : State) (r : RailIx) : State :=
  let lim : Rat := s.railQ r.val Ob.Rail.sinkLim
  forEach (s.activeOf r) (fun s n => s.modGen n fun g => { g with
    rise := none, fall := none, te := 0
    slamPark := g.slamPark || s.ctrlBit r 8 || decide ((s.phase n).sense.iinst ≤ -lim) }) s

/-- The rail's part of the injection into the duty (R148), in fractions of the period. -/
def injectAt (s : State) (r : RailIx) (point : Nat) : Rat :=
  let p := if s.tune.auto then 2 else bits (s.obj Ob.clsTune 0 Ob.Tune.injCtrl) 1 0
  if s.tune.rail == r.val && (s.tune.tstate == .running || s.tune.endSine) && p == point then s.tune.inject else 0

/-- What is added to the reference in volts: REF injection and the live-tuning sine (R148, R154). -/
def refAdd (s : State) (r : RailIx) : Rat := s.injectAt r 1 / 1000000 + (s.rail r).lt.sine

/-- The commit of a frame whose law ran (R118). -/
def commitLaw (s : State) (r : RailIx) : State :=
  let d := dutyWord ((s.rail r).law.dSel + s.injectAt r 2 / 65536) (s.railN r.val Ob.Rail.dmax)
  let s := s.modLaw r fun x => { x with dRail := d }
  s.commitPhases r fun n => s.phaseDuty r n d

/-- One frame of the law of a rail whose law runs (R108 … R118). -/
def lawFrame (s : State) (r : RailIx) : State :=
  let s := s.regimeFrame r
  let s := if (s.rail r).law.regime == .slamDown then s.modMeas r fun m => { m with sawLimit := false } else s.demandFrame r
  let s := if (s.rail r).law.regime == .linear then s.balance r else s
  s.commitLaw r

/-! The arbiter (R120, R121) -/

/-- PIN filtered over the last 16 frames; frames before the rail drew power count 0. -/
def pinF (s : State) (r : RailIx) : Rat := sumQ (s.rail r).meas.pHist / 16

/-- The power limit of R121 in watts. -/
def powerLimit (s : State) : Rat :=
  let lim (x : FeedId) : Rat := (s.feedN (feedInst x) Ob.Feed.plim : Rat) / 1000
  match s.feedOn with
  | some x => lim x
  | none => min (lim .a) (lim .b)

/-- The rails that share, and those that only draw (R120). -/
def sharing (s : State) : List RailIx := allRails.filter fun r => s.railEn r.val && s.regulating r && s.ctrlBit r 2
def drawing (s : State) : List RailIx := allRails.filter fun r => s.railEn r.val && s.regulating r && !s.ctrlBit r 2

/-- The shares of a list of (weight, PIN_f) under an available power (R120), in its order. -/
def sharesOf (avail : Rat) (l : List (Rat × Rat)) : List Rat :=
  let total := sumQ (l.map (·.1))
  let base (q : Rat × Rat) : Rat := avail * q.1 / total
  let need (q : Rat × Rat) : Rat := 5 / 4 * q.2
  let under (q : Rat × Rat) : Bool := decide (need q ≤ base q)
  let surplus := sumQ ((l.filter under).map fun q => base q - need q)
  let overW := sumQ ((l.filter fun q => !under q).map (·.1))
  l.map fun q => if under q then base q else base q + surplus * q.1 / overW

/-- The arbiter's computation of a frame: every rail outside the contest has no share (R120, R121). -/
def arbiter (s : State) : State :=
  let avail := max (s.powerLimit - sumQ (s.drawing.map s.pinF)) 0
  let rs := s.sharing
  let sh := sharesOf avail (rs.map fun r => (s.railQ r.val Ob.Rail.pwrW, s.pinF r))
  let s := forEach s.drawing (fun s r => s.modMeas r fun m => { m with pShare := none }) s
  forEach (rs.zip sh) (fun s q => s.modMeas q.1 fun m => { m with pShare := some q.2 }) s

end State
end Sys2Proof.Machine
end

