-- ==== Sys2Proof/Machine/Profile.lean ====
section
/-! DEFINITION. The profile generator (06): the least-time plan under velocity, acceleration and jerk limits, one frame of
motion, soft start, and the count towards DONE. Units are mV, ms and their quotients. -/

namespace Sys2Proof.Machine

/-- A point of a motion. -/
structure Motion where
  p : Rat
  v : Rat
  a : Rat
deriving DecidableEq, Repr

/-- A stretch of constant jerk. -/
structure Jerk where
  j : Rat
  t : Rat
deriving DecidableEq, Repr

/-- The square root of a non-negative number to 2^-24 (log entry 18). -/
def sqrtQ (q : Rat) : Rat := (((q * 281474976710656).floor.toNat).sqrt : Rat) / 16777216

/-- The internal resolution of the profile, 2^-24 mV and alike, finer than the 1 µV of R128 (log entry 18). -/
def fineQ (q : Rat) : Rat := ((roundQ (q * 16777216) : Int) : Rat) / 16777216

/-- The motion after a time under constant jerk. -/
def Motion.move (m : Motion) (j t : Rat) : Motion :=
  ⟨m.p + m.v * t + m.a * t * t / 2 + j * t * t * t / 6, m.v + m.a * t + j * t * t / 2, m.a + j * t⟩

/-- The least-time change of velocity by u ≥ a|a|/2J upwards: jerk up, hold, jerk down, within A and J (R128). An
acceleration that is above its limit is brought down first (R129). -/
def riseBy (u a A J : Rat) : List Jerk :=
  let free := sqrtQ (max (J * u + a * a / 2) 0)
  let ap := if A < free then A else max free a
  let dv : Rat := (ap * ap - a * a) / (2 * J)
  if A < a then
    [⟨-J, (a - A) / J⟩, ⟨0, max ((u - (a * a - A * A) / (2 * J) - A * A / (2 * J)) / A) 0⟩, ⟨-J, A / J⟩]
  else if A < free then [⟨J, (ap - a) / J⟩, ⟨0, max ((u - dv - ap * ap / (2 * J)) / A) 0⟩, ⟨-J, ap / J⟩]
  else [⟨J, (ap - a) / J⟩, ⟨-J, ap / J⟩]

/-- The least-time way from (v, a) to velocity w at rest acceleration (R128). -/
def velocityPlan (m : Motion) (w A J : Rat) : List Jerk :=
  let u := w - m.v
  if m.a * absQ m.a / (2 * J) ≤ u then riseBy u m.a A J
  else (riseBy (-u) (-m.a) A J).map fun k => ⟨-k.j, k.t⟩

/-- Follow a plan for a time; beyond its end the velocity stays. The flag says that the plan ended. -/
def Motion.follow (m : Motion) (t : Rat) : List Jerk → Motion × Bool
  | [] => (m.move 0 t, true)
  | k :: ks => if t < k.t then (m.move k.j t, false) else (m.move k.j k.t).follow (t - k.t) ks

/-- Where a plan ends. -/
def Motion.finish (m : Motion) : List Jerk → Motion
  | [] => m
  | k :: ks => (m.move k.j k.t).finish ks

/-- Where braking to rest at once ends. -/
def Motion.stop (m : Motion) (A J : Rat) : Rat := (m.finish (velocityPlan m 0 A J)).p

/-- One frame, 1/2000 ms. -/
def frameMs : Rat := 1 / 2000

/-- Push towards velocity w for tau, then brake for the rest of the frame. -/
def Motion.pushBrake (m : Motion) (w A J tau : Rat) : Motion × Bool :=
  let x := (m.follow tau (velocityPlan m w A J)).1
  x.follow (frameMs - tau) (velocityPlan x 0 A J)

/-- Bisect the moment within the frame at which the push must end so that braking stops at the target. -/
def Motion.switchAt (m : Motion) (tgt w A J : Rat) : Nat → Rat → Rat → Rat
  | 0, lo, _ => lo
  | n + 1, lo, hi =>
    let mid := (lo + hi) / 2
    let x := (m.follow mid (velocityPlan m w A J)).1
    let short := if 0 ≤ w then decide (x.stop A J ≤ tgt) else decide (tgt ≤ x.stop A J)
    if short then m.switchAt tgt w A J n mid hi else m.switchAt tgt w A J n lo mid

/-- The motion kept at the internal resolution. -/
def Motion.fine (m : Motion) : Motion := ⟨fineQ m.p, fineQ m.v, fineQ m.a⟩

/-- A motion whose plan ended within a microvolt of the target has arrived on it (R128). -/
def Motion.land (x : Motion × Bool) (tgt : Rat) : Motion :=
  if x.2 && decide (absQ (x.1.p - tgt) ≤ 1 / 1000) then ⟨tgt, 0, 0⟩ else x.1.fine

/-- One frame of the least-time motion to a target under the limits V, A and J (R128, R129): brake where braking from here
stops at the target, else push towards the target, and switch to braking within the frame where that is due. -/
def planFrame (m : Motion) (tgt V A J : Rat) : Motion :=
  if m = ⟨tgt, 0, 0⟩ then m
  else
    let here := m.stop A J
    if absQ (here - tgt) ≤ 1 / 1000000 then Motion.land (m.pushBrake 0 A J 0) tgt
    else
      let w := if here < tgt then V else -V
      let full := (m.follow frameMs (velocityPlan m w A J)).1
      let short := if here < tgt then decide (full.stop A J ≤ tgt) else decide (tgt ≤ full.stop A J)
      if short then full.fine
      else Motion.land (m.pushBrake w A J (m.switchAt tgt w A J 32 0 frameMs)) tgt

namespace State

/-- The limits of a rail's motion in mV/ms, mV/ms² and mV/ms³ (R128, R132). -/
def limits (s : State) (r : RailIx) : Rat × Rat × Rat :=
  let x := (s.rail r).prof
  let q (item : Nat) : Rat := s.railQ r.val item
  if x.softStart then (q Ob.Rail.ssRate, q Ob.Rail.ssAcc, q Ob.Rail.ssJerk)
  else
    let c : Rat := ((2 ^ x.slew : Nat) : Rat)
    (q Ob.Rail.rateMax / c, q Ob.Rail.accMax / c, q Ob.Rail.jerkMax / c)

/-- At rest on the effective target (R131). -/
def atTarget (s : State) (r : RailIx) : Bool :=
  let x := (s.rail r).prof
  x.p = (x.tgtMv : Rat) && x.v = 0 && x.a = 0

/-- The profile in motion (R126). -/
def moving (s : State) (r : RailIx) : Bool := !((s.rail r).prof.v = 0 && (s.rail r).prof.a = 0)

/-- The frames in which the error stayed within the inner band after the profile came to rest (R131). -/
def settleCount (s : State) (r : RailIx) : State :=
  let inb := s.atTarget r && decide (absQ (s.rail r).meas.e * 1000000 ≤ s.railQ r.val Ob.Rail.bandInUv)
  s.modProf r fun x => { x with inBand := if inb then x.inBand + 1 else 0 }

/-- The profile step of a frame (R126, R128, R131, R132): motion starts end a skim and a session (R92, R147). -/
def profileFrame (s : State) (r : RailIx) : State :=
  let x := (s.rail r).prof
  let l := s.limits r
  let m := planFrame ⟨x.p, x.v, x.a⟩ x.tgtMv l.1 l.2.1 l.2.2
  let s := s.settleCount r
  let s := s.modProf r fun y => { y with p := m.p, v := m.v, a := m.a }
  if s.moving r then (s.abortSkim r).abortTuneOn r 3 else s

/-- Has the rail a requested target other than the one in force (R127)? Each change is a new command. -/
def takeRequested (s : State) (r : RailIx) : State :=
  let q := s.requested r
  s.takeTarget r q.1 q.2.1 q.2.2.1 q.2.2.2

/-- The target in force is clamped again after a write of VMIN or VMAX (R127). -/
def reclamp (s : State) (r : RailIx) : State :=
  s.modProf r fun x => { x with tgtMv := s.clampTarget r x.reqMv }

end State
end Sys2Proof.Machine
end

