-- ==== Sys2Proof/Machine/Pattern.lean ====
section
/-! DEFINITION. Feed-forward (06): the pattern with TIME and STROKE sources, its learning, the legacy position tables, fading,
strokes and position reports, and the table commands. -/

namespace Sys2Proof.Machine

/-- Linear interpolation in a table: `wrap` takes index n back to 0, else the last index holds flat (R137, R142). -/
def tableAt (t : Sparse) (n : Nat) (wrap : Bool) (x : Rat) : Rat :=
  let i := min x.floor.toNat (n - 1)
  let j := if i + 1 < n then i + 1 else if wrap then 0 else i
  let frac := x - (i : Rat)
  (t.at i : Rat) + frac * ((t.at j : Rat) - (t.at i : Rat))

/-- The span position of a report (R137, R142): n × (pos − POS0) / (POS1 − POS0), clamped. -/
def spanPos (n : Rat) (top : Rat) (pos pos0 pos1 : Nat) : Rat :=
  clampQ (n * ((pos : Rat) - (pos0 : Rat)) / ((pos1 : Rat) - (pos0 : Rat))) 0 top

/-- The sums of a running period with a further sample. -/
def addSample (l : List (Nat × Rat)) (i : Nat) (e : Rat) : List (Nat × Rat) :=
  match l with
  | [] => [(i, e)]
  | (k, x) :: t => if k = i then (k, x + e) :: t else (k, x) :: addSample t i e

def sumAt (l : List (Nat × Rat)) (i : Nat) : Rat := ((l.find? fun p => p.1 == i).map (·.2)).getD 0

/-- One bin at the end of a period (R139). -/
def learnBin (gain forget : Rat) (lim : Int) (u : Int) (meanE : Rat) : Int :=
  clampI (roundQ (forget * u + gain * meanE * 65536)) (-lim) lim

namespace State

/-- FF_CTRL bits (R145). -/
def ffBit (s : State) (r : RailIx) (k : Nat) : Bool := bit (s.obj Ob.clsRail r.val Ob.Rail.ffCtrl) k

/-- The table in use, none outside a stroke (R137). -/
def ffTable (s : State) (r : RailIx) : Option Nat :=
  let x := (s.rail r).ff
  match x.mode, x.stroke with
  | 1, _ => some 0
  | 2, some k => some k.table
  | _, _ => none

def ffTab (s : State) (r : RailIx) (t : Nat) : Sparse := if t = 0 then (s.rail r).ff.t0 else (s.rail r).ff.t1

/-- The TIME index of a frame (R137). -/
def timeIdx (s : State) (r : RailIx) (frame : Nat) : Nat :=
  (frame + s.railN r.val Ob.Rail.patPhase) % max (s.railN r.val Ob.Rail.patPeriod) 1

/-- The two ends of POS_MAP (R145). -/
def pos0 (s : State) (r : RailIx) : Nat := bits (s.obj Ob.clsRail r.val Ob.Rail.posMap) 15 0
def pos1 (s : State) (r : RailIx) : Nat := bits (s.obj Ob.clsRail r.val Ob.Rail.posMap) 31 16

/-- The bin position of the coming frame (R137): with STROKE by elapsed time or by reported position. -/
def ffPosition (s : State) (r : RailIx) : Rat :=
  let x := (s.rail r).ff
  let top : Rat := 25599 / 100
  match x.mode, x.stroke with
  | 1, _ => 256 * (s.timeIdx r s.clk.frame : Rat) / (s.railN r.val Ob.Rail.patPeriod : Rat)
  | 2, some k =>
    if s.ffBit r 6 then
      match x.pos with
      | some p => spanPos 256 top p (s.pos0 r) (s.pos1 r)
      | none => 0
    else
      let total := msFrames k.expected
      if total ≤ s.now - k.startAt then top else 256 * ((s.now - k.startAt : Nat) : Rat) / (total : Rat)
  | _, _ => 0

/-- The feed-forward of R142. -/
def legacyFf (s : State) (r : RailIx) : Rat :=
  let x := (s.rail r).ff
  match x.pos with
  | none => 0
  | some p =>
    let q := spanPos 128 127 p (s.pos0 r) (s.pos1 r)
    let i := (x.dir : Rat) * tableAt x.fric 128 false q + tableAt x.cog 128 false q
    let ohm := (s.railQ r.val Ob.Rail.rloss / ((max (s.activeOf r).length 1 : Nat) : Rat) + s.railQ r.val Ob.Rail.legRout) / 1000
    divBus (i / 1000 * ohm) s.vbusV

/-- What the selected source gives before fading, clamped to ±FF_LIM (R135). -/
def ffSource (s : State) (r : RailIx) (x : Rat) : Rat :=
  let lim := s.railQ r.val Ob.Rail.ffLim / 65536
  let raw := match (s.rail r).ff.mode, s.ffTable r with
    | 3, _ => s.legacyFf r
    | _, some t => tableAt (s.ffTab r t) 256 ((s.rail r).ff.mode == 1) x / 65536
    | _, none => 0
  clampQ raw (-lim) lim

/-- Is the source applied now (R135, R136): APPLY, and a stroke or a fresh position where the source needs one? -/
def ffApplied (s : State) (r : RailIx) : Bool :=
  let x := (s.rail r).ff
  s.ffBit r 4 && (match x.mode with
    | 1 => true
    | 2 => x.stroke.isSome
    | 3 => x.pos.isSome && !x.stale
    | _ => false)

/-- The fade of R136 over 64 frames: the value of the next frame and what is left. -/
def fadeStep (f : Option (Rat × Nat)) (target : Rat) : Rat × Option (Rat × Nat) :=
  match f with
  | none => (target, none)
  | some (v, n) => (v + (target - v) * ((min (65 - n) 64 : Nat) : Rat) / 64, some (v, n - 1))

/-- A condition of R140 holds on the rail in the present frame; it spoils the frame's bin. -/
def ffCondition (s : State) (r : RailIx) : Bool :=
  let x := s.rail r
  x.law.regime != .linear || x.law.loop != .voltage || x.prot.uvf || x.prot.ovf || x.prot.hicEnd.isSome || s.sessionOn r

/-- Learning runs: LEARN, and a pattern in use (R139, R140). -/
def ffLearns (s : State) (r : RailIx) : Bool := s.ffBit r 5 && (s.ffTable r).isSome

/-- The error of the frame joins the sums of its own bin (R139). -/
def ffSample (s : State) (r : RailIx) (e : Rat) : State :=
  if !s.ffLearns r then s
  else
    let bad := s.ffCondition r
    s.modFf r fun x => { x with
      sums := addSample x.sums x.bin e
      counts := x.counts.put x.bin (x.counts.at x.bin + 1)
      spoiled := if bad && !x.spoiled.contains x.bin then x.bin :: x.spoiled else x.spoiled }

/-- The mean error of a bin that holds samples. -/
def ffMean (x : FfState) (j : Nat) : Option Rat :=
  let n := x.counts.at j
  if 0 < n then some (sumAt x.sums j / (n : Rat)) else none

/-- The table after a period (R139): bin i learns from bin i + PAT_LEAD, under TIME modulo 256. -/
def learnTable (x : FfState) (u : Sparse) (lead : Nat) (time : Bool) (gain forget : Rat) (lim : Int) : Sparse :=
  (List.range 256).foldl (fun t i =>
    let j := if time then (i + lead) % 256 else i + lead
    if j < 256 && !x.spoiled.contains j then
      match ffMean x j with
      | some m => t.put i (learnBin gain forget lim (u.at i) m)
      | none => t
    else t) u

/-- The end of a pattern period: the bins are updated and the sums begin anew (R139). -/
def periodEnd (s : State) (r : RailIx) : State :=
  let x := (s.rail r).ff
  let s := match s.ffTable r with
    | none => s
    | some t =>
      if !s.ffBit r 5 then s
      else
        let u := learnTable x (s.ffTab r t) (s.railN r.val Ob.Rail.patLead) (x.mode == 1)
          (s.railQ r.val Ob.Rail.patGain / 65536) (s.railQ r.val Ob.Rail.patForget / 65536) (s.railN r.val Ob.Rail.ffLim)
        let means := (List.range 256).filterMap (ffMean x)
        s.modFf r fun y => { y with
          t0 := if t = 0 then u else y.t0
          t1 := if t = 0 then y.t1 else u
          patErr := meanQ (means.map absQ) }
  s.modFf r fun y => { y with sums := [], counts := [], spoiled := [] }

/-- One frame of the feed-forward of a rail whose law runs: learning from the error of the frame that ended, the end of a
TIME period, and the duty for the coming frame (R137 … R142). -/
def ffFrame (s : State) (r : RailIx) (e : Rat) : State :=
  let s := s.ffSample r e
  let idx := s.timeIdx r s.clk.frame
  let s := if (s.rail r).ff.mode == 1 && decide (idx < (s.rail r).ff.lastIdx) then s.periodEnd r else s
  let x := s.ffPosition r
  let on := s.ffApplied r
  let old := (s.rail r).ff
  let f := fadeStep (if on == old.applied then old.fade else some (old.dFF, 64)) (if on then s.ffSource r x else 0)
  let s := s.modFf r fun y => { y with
    lastIdx := idx, bin := x.floor.toNat % 256, applied := on, fade := f.2, dFF := f.1, frozen := s.ffCondition r }
  s.modMeas r fun m => { m with dFF := f.1 + s.injectAt r 3 / 65536 }

/-! Strokes and positions (R138, R142) -/

/-- The rails that take their strokes and positions from a port. -/
def ffRails (s : State) (p : PortIx) : List RailIx :=
  allRails.filter fun r => s.railEn r.val && s.railN r.val Ob.Rail.ffPort == p.val

/-- A STROKE start on a rail: an open stroke is a mismatch, and a matching identity opens a new one (R138). -/
def strokeStart (s : State) (r : RailIx) (id expected : Nat) : State :=
  if (s.rail r).ff.mode != 2 || !s.regulating r then s
  else
    let s := s.strokeMismatch r
    let ids := s.obj Ob.clsRail r.val Ob.Rail.patId
    let table : Option Nat := if id = 255 then none else if id = bits ids 7 0 then some 0 else if id = bits ids 15 8 then some 1 else none
    match table with
    | none => s
    | some t => s.modFf r fun x => { x with stroke := some ⟨id, t, s.now, expected⟩, sums := [], counts := [], spoiled := [] }

/-- A STROKE end of the open stroke: within 0.75 … 1.25 × expected its learning is applied, else a mismatch (R138). -/
def strokeEnd (s : State) (r : RailIx) (id : Nat) : State :=
  match (s.rail r).ff.stroke with
  | none => s
  | some k =>
    if k.id != id then s
    else
      let el := 4 * (s.now - k.startAt)
      let ex := msFrames k.expected
      if 3 * ex ≤ el && el ≤ 5 * ex then
        let s := s.periodEnd r
        s.modFf r fun x => { x with stroke := none, mismatch := false
                                    fade := if x.applied then some (x.dFF, 64) else x.fade, applied := false }
      else s.strokeMismatch r

/-- Elapsed has reached 1.25 × expected (R138). -/
def strokeLate (s : State) (r : RailIx) : Bool :=
  match (s.rail r).ff.stroke with
  | none => false
  | some k => 5 * msFrames k.expected ≤ 4 * (s.now - k.startAt)

/-- A position report for a rail's feed-forward (R137, R142). -/
def ffPos (s : State) (r : RailIx) (pos : Nat) : State :=
  s.modFf r fun x => { x with
    dir := match x.pos with
      | some old => if old < pos then 1 else if pos < old then -1 else x.dir
      | none => x.dir
    pos := some pos, posAt := s.now, stale := false }

/-! Table access and commands (R141, R143) -/

/-- TABLE and INDEX of TBL_SEL. -/
def tblTable (s : State) (r : RailIx) : Nat := bits (s.obj Ob.clsRail r.val Ob.Rail.tblSel) 9 8
def tblIndex (s : State) (r : RailIx) : Nat := bits (s.obj Ob.clsRail r.val Ob.Rail.tblSel) 7 0

/-- The length of a table (R143). -/
def tblLen (t : Nat) : Nat := if t < 2 then 256 else 128

/-- A table of a rail. -/
def tblGet (x : FfState) : Nat → Sparse | 0 => x.t0 | 1 => x.t1 | 2 => x.fric | _ => x.cog

/-- The entry that TBL_DATA reads: the signed 16-bit value in bits 15 … 0; past the end of the table it is open (log
entry 23). -/
def tblRead (s : State) (r : RailIx) : Word :=
  if tblLen (s.tblTable r) ≤ s.tblIndex r then (Config.tablePastEnd (s.tblIndex r)).setWidth 32
  else BitVec.ofNat 32 ((intWord ((tblGet (s.rail r).ff (s.tblTable r)).at (s.tblIndex r))).toNat % 65536)

/-- After an access the index advances by 1 and wraps at the table's length (R143). -/
def tblAdvance (s : State) (r : RailIx) : State :=
  let t := s.tblTable r
  s.setObj Ob.clsRail r.val Ob.Rail.tblSel (BitVec.ofNat 32 (256 * t + (s.tblIndex r + 1) % tblLen t))

/-- Is a table applied or learning on a regulating rail (R143)? -/
def tblInUse (s : State) (r : RailIx) : Bool :=
  s.regulating r && (s.ffBit r 4 || s.ffBit r 5) &&
    (match (s.rail r).ff.mode with
     | 1 => s.tblTable r == 0
     | 2 => decide (s.tblTable r < 2)
     | 3 => decide (2 ≤ s.tblTable r)
     | _ => false)

def tblWrite (s : State) (r : RailIx) (v : Word) : State :=
  let e : Int := (v.setWidth 16).toInt
  let i := s.tblIndex r
  let s := s.modFf r fun x => match s.tblTable r with
    | 0 => { x with t0 := x.t0.put i e }
    | 1 => { x with t1 := x.t1.put i e }
    | 2 => { x with fric := x.fric.put i e }
    | _ => { x with cog := x.cog.put i e }
  s.tblAdvance r

/-- FF_CMD CLEAR (R141). -/
def ffClear (s : State) (r : RailIx) : State :=
  s.modFf r fun x => { x with t0 := [], t1 := [], sums := [], counts := [], spoiled := [] }

/-- What a save holds (R141). -/
def patSave (s : State) (r : RailIx) : PatSave :=
  let x := (s.rail r).ff
  ⟨x.t0, x.t1, bits (s.obj Ob.clsRail r.val Ob.Rail.ffCtrl) 1 0, s.railN r.val Ob.Rail.patPeriod,
   s.railN r.val Ob.Rail.patId, (s.phasesOf r.val).length⟩

/-- The valid save of a rail. -/
def savedPattern (s : State) (r : RailIx) : Option PatSave := (s.nvm.patterns.find? fun q => q.1 == r.val).map (·.2)

/-- FF_CMD RESTORE (R141). -/
def ffRestore (s : State) (r : RailIx) : State :=
  match s.savedPattern r with
  | none => s
  | some k => s.modFf r fun x => { x with t0 := k.t0, t1 := k.t1 }

end State
end Sys2Proof.Machine
end

