-- ==== Sys2Proof/Machine/Tune.lean ====
section
/-! DEFINITION. Sessions, injection, capture and the correlator (R146 … R153), and live tuning (R154 … R157). -/

namespace Sys2Proof.Machine
namespace State

/-! Settings of a session -/

def injCtrl (s : State) : Word := s.obj Ob.clsTune 0 Ob.Tune.injCtrl

/-- SIGNAL of the session (R149): AUTOTUNE runs a SWEEP (R152). -/
def tuneSignal (s : State) : Nat := if s.tune.auto then 1 else bits s.injCtrl 3 2
def tunePoint (s : State) : Nat := if s.tune.auto then 2 else bits s.injCtrl 1 0

/-- The smallest power of two of R152. -/
def autoDec (fc : Nat) : Nat := ((List.range 8).map (2 ^ ·)).find? (fun d => 4 * 977 ≤ fc * d) |>.getD 128

/-- DEC of the session (R149, R152). -/
def tuneDec (s : State) : Nat :=
  if s.tune.auto then autoDec (s.tuneN Ob.Tune.atFcHz)
  else 2 ^ bits (s.obj Ob.clsTune 0 Ob.Tune.capCtrl) 18 16

def tuneLo (s : State) : Nat := if s.tune.auto then s.tuneN Ob.Tune.atFcHz / 4 else s.tuneN Ob.Tune.fLoHz
def tuneHi (s : State) : Nat := if s.tune.auto then min (4 * s.tuneN Ob.Tune.atFcHz) 200000 else s.tuneN Ob.Tune.fHiHz
def tuneSteps (s : State) : Nat := if s.tune.auto then 16 else s.tuneN Ob.Tune.steps

/-- The frequency of a sweep step or analysed point (R149). -/
def tuneFreq (s : State) (i : Nat) : Nat := Config.logSpaced s.tuneLo s.tuneHi s.tuneSteps i

/-- The frequency that the sine of the present step runs at. -/
def sineFreq (s : State) : Nat := if s.tuneSignal = 1 then s.tuneFreq s.tune.step else s.tuneLo

/-- The injected value of frame n of the session, in AMP units (R148, R149): PRBS is ±AMP with one chip per DEC frames, and the
other signals stay within ±AMP. -/
def injectValue (s : State) (n : Nat) : Rat :=
  let amp : Rat := (s.tuneN Ob.Tune.amp : Rat)
  if s.tuneSignal < 2 then amp * clampQ (Config.injection 0 s.sineFreq s.sineFreq n) (-1) 1
  else if s.tuneSignal = 2 then (if Config.prbs (bits s.injCtrl 11 8) (n / s.tuneDec) then amp else -amp)
  else amp * clampQ (Config.injection 3 s.tuneLo s.tuneHi n) (-1) 1

/-- The frequency and amplitude limits of R149; AUTOTUNE is held to its amplitude only (R152). -/
def tuneRangeOk (s : State) (r : RailIx) (auto : Bool) : Bool :=
  let amp := s.tuneN Ob.Tune.amp
  let lo := s.tuneN Ob.Tune.fLoHz
  let hi := s.tuneN Ob.Tune.fHiHz
  let dec := 2 ^ bits (s.obj Ob.clsTune 0 Ob.Tune.capCtrl) 18 16
  let point := bits s.injCtrl 1 0
  if auto then 0 < amp && amp ≤ 4096
  else
    0 < amp && 10 ≤ lo && 977 ≤ lo * dec && hi ≤ 200000 && hi * dec ≤ 400000 && lo ≤ hi &&
      (if point = 1 then amp ≤ s.railN r.val Ob.Rail.bandInUv else amp ≤ 4096)

/-- Why a session cannot start (R146), none if it can. -/
def tuneRefusal (s : State) (r : RailIx) (auto : Bool) : Option Nat :=
  if s.tune.tstate == .running || (s.tune.auto && s.tune.slot.isSome) then some St.busy
  else if !(bit (s.obj Ob.clsRail r.val Ob.Rail.tuneCtrl) 0 && s.lawRuns r && (s.rail r).law.regime == .linear && !s.moving r) then
    some St.state
  else if !s.tuneRangeOk r auto then some St.range
  else none

/-- A session begins (R147): SESSIONS counts, a skim on the rail aborts, and TUNE_START is answered OK. -/
def tuneBegin (s : State) (slot : Option SlotIx) (r : RailIx) (auto : Bool) : State :=
  let s := s.abortSkim r
  let s := s.count Ob.clsTune 0 Ob.Tune.sessions
  let s := { s with tune := {
    tstate := .running, rail := r.val, auto := auto, slot := if auto then slot else none, stepAt := s.now } }
  if auto then s else s.finishOpt slot St.ok []

/-- The injection of the coming frame; an ended sine runs to its next zero crossing (R147). -/
def injectFrame (s : State) : State :=
  if s.tune.tstate == .running then
    { s with tune := { s.tune with inject := s.injectValue s.tune.sineAt, sineAt := s.tune.sineAt + 1 } }
  else if s.tune.endSine then
    let q := s.injectValue s.tune.sineAt
    let crossed := decide (q * s.tune.inject ≤ 0)
    { s with tune := { s.tune with
        inject := if crossed then 0 else q, endSine := !crossed, sineAt := s.tune.sineAt + 1 } }
  else s

/-- The value of a capture point in its unit (R150). -/
def capture (s : State) (r : RailIx) (point : Nat) : Rat :=
  let x := s.rail r
  let d := x.law.dSel * 65536
  match point with
  | 0 => x.meas.e * 1000000
  | 1 => x.meas.v * 1000000
  | 2 => x.prof.p * 1000 + s.injectAt r 1
  | 3 => d
  | 4 => d + s.injectAt r 2
  | 5 => x.meas.dFF * 65536
  | 6 => x.meas.iRail * 1000
  | 7 => match s.phases.toList[s.tuneN Ob.Tune.capPhase]? with
    | some p => p.sense.iph
    | none => 0
  | 8 => (s.feeds.vbus : Rat)
  | _ => s.tune.inject

def pointA (s : State) : Nat := if s.tune.auto then 4 else bits (s.obj Ob.clsTune 0 Ob.Tune.capCtrl) 3 0
def pointB (s : State) : Nat := if s.tune.auto then 1 else bits (s.obj Ob.clsTune 0 Ob.Tune.capCtrl) 11 8

/-- One frame of a running session: LIMITED, and the records while they are taken (R147, R150). A held frame repeats the
values before it. -/
def tuneFrame (s : State) (held : Bool) : State :=
  if s.tune.tstate != .running then s
  else if h : s.tune.rail < 16 then
    let r : RailIx := ⟨s.tune.rail, h⟩
    let t := s.tune
    let a := if held then t.lastA else s.capture r s.pointA
    let b := if held then t.lastB else s.capture r s.pointB
    let s := { s with tune := { t with limited := t.limited || (s.rail r).law.loop != .voltage, lastA := a, lastB := b } }
    if !t.recording || 4096 ≤ t.recA.length then s
    else
      let n := t.accN + 1
      let sumA := t.accA + a
      let sumB := t.accB + b
      if n < s.tuneDec then { s with tune := { s.tune with accA := sumA, accB := sumB, accN := n } }
      else { s with tune := { s.tune with
        accA := 0, accB := 0, accN := 0
        recA := roundQ (sumA / (n : Rat)) :: t.recA, recB := roundQ (sumB / (n : Rat)) :: t.recB } }
  else s

/-- Both records are full. -/
def tuneFull (s : State) : Bool := decide (4096 ≤ s.tune.recA.length)

/-- Is the present step the last of a sweep? -/
def lastStep (s : State) : Bool := s.tuneSignal != 1 || decide (s.tuneSteps ≤ s.tune.step + 1)

/-- The result at a frequency (R151). -/
def resultAt (s : State) (f : Nat) : TuneRes :=
  let q := Config.correlate s.tune.recA s.tune.recB f (!s.tune.auto && bit s.injCtrl 7)
  ⟨f, q.1, q.2.1, q.2.2⟩

/-- The results that end a session (R149). -/
def finalResults (s : State) : List TuneRes :=
  match s.tuneSignal with
  | 0 => [s.resultAt s.tuneLo]
  | 1 => s.tune.results ++ [s.resultAt (s.tuneFreq s.tune.step)]
  | _ => (List.range s.tuneSteps).map fun i => s.resultAt (s.tuneFreq i)

/-- A result in its 16 bytes (R315, TUNE_READ). -/
def resultBytes (q : TuneRes) : List Byte :=
  leBytes 4 q.f ++ leBytes 4 (intWord q.mag).toNat ++ leBytes 4 (intWord q.arg).toNat ++ leBytes 2 q.qual ++ [0, 0]

/-! Live tuning -/

/-- LT_EN (R159). -/
def ltEn (s : State) (r : RailIx) : Bool := bit (s.obj Ob.clsRail r.val Ob.Rail.tuneCtrl) 1

/-- The conditions of R90 but for the absence of live tuning. -/
def skimReady (s : State) (r : RailIx) : Bool :=
  let x := (s.rail r).plc
  let nAct := (s.activeOf r).length
  bit (s.obj Ob.clsRail r.val Ob.Rail.plcCtrl) 2 && s.lawRuns r && (s.rail r).law.regime == .linear && !s.moving r &&
    !s.sessionOn r && x.skim.isNone && decide (3 ≤ nAct) &&
    !aboveScaled (s.placementMa r) (((nAct - 1 : Nat) : Rat) * (s.railN r.val Ob.Rail.iadd : Rat)) x.scale2 &&
    (match x.lastAddShed with | some t => decide (t + s.railN r.val Ob.Rail.plcAvg ≤ s.now) | none => true) &&
    (x.lastActiveEnd == 0 ||
      decide (msFrames (s.railN r.val Ob.Rail.skimPeriodMs) ≤ (s.now - x.lastActiveEnd) * (s.phasesOf r.val).length))

/-- Does any pause condition of R156 hold? -/
def ltPaused (s : State) (r : RailIx) : Bool := s.ltPause r (s.skimReady r) != 0

/-- A sine by its phase in 2 000 000 parts of a cycle (R154): 0 at both zero crossings, positive in the first half cycle and its
negative in the second. -/
def sineOf (k : Nat) : Rat :=
  if k % 1000000 = 0 then 0
  else if k < 1000000 then clampQ (Config.halfSine k) 0 1 else -(clampQ (Config.halfSine (k - 1000000)) 0 1)

/-- The live-tuning sine of a frame in volts (R154), from zero phase. -/
def ltSine (s : State) (r : RailIx) (n : Nat) : Rat :=
  let amp := min (s.railQ r.val Ob.Rail.ltAmp / 10000 * ((s.rail r).prof.tgtMv : Rat) / 1000)
    (s.railQ r.val Ob.Rail.bandInUv / 2000000)
  amp * sineOf (s.railN r.val Ob.Rail.ltFreqHz * n % 2000000)

/-- Live tuning runs with a new window (R154, R156). -/
def ltBegin (s : State) (r : RailIx) : State :=
  (s.abortSkim r).modLt r fun x => { x with
    running := true, ending := false, paused := false, sineFrame := 1, sine := s.ltSine r 0, window := [], windowFrames := 0 }

/-- The sine's next value; one that is ending stops at its zero crossing (R156). -/
def ltNext (s : State) (r : RailIx) : State :=
  let x := (s.rail r).lt
  let q := s.ltSine r x.sineFrame
  if x.ending && decide (q * x.sine ≤ 0) then s.modLt r fun y => { y with running := false, ending := false, sine := 0 }
  else s.modLt r fun y => { y with sine := q, sineFrame := y.sineFrame + 1 }

/-- One frame of live tuning on a rail (R154, R156, R157). -/
def ltFrame (s : State) (r : RailIx) : State :=
  let x := (s.rail r).lt
  let pause := s.ltPaused r
  if !s.ltEn r then
    s.modLt r fun y => { y with kLt := 1, running := false, ending := false, paused := false, sine := 0
                                window := [], windowFrames := 0, clearRun := if pause then 0 else y.clearRun + 1 }
  else
    let s := s.modLt r fun y => { y with clearRun := if pause then 0 else y.clearRun + 1, paused := y.paused || pause }
    if pause then
      if x.running then
        (s.modLt r fun y => { y with ending := true, window := [], windowFrames := 0 }).ltNext r
      else s
    else if x.running then
      let s := if x.ending || 20000 ≤ x.windowFrames then s else s.modLt r fun y => { y with
        window := ((s.rail r).meas.v, (s.rail r).meas.e) :: y.window, windowFrames := y.windowFrames + 1 }
      s.ltNext r
    else if (s.rail r).lt.paused then s
    else s.ltBegin r

/-- The end of a window (R155). -/
def ltWindow (s : State) (r : RailIx) : State :=
  let x := (s.rail r).lt
  let q := Config.liveTransform (x.window.map (·.1)) (x.window.map (·.2)) (s.railN r.val Ob.Rail.ltFreqHz)
  let s := s.modLt r fun y => { y with mag := q.1, phase := q.2.1, qual := q.2.2, window := [], windowFrames := 0 }
  if q.2.2 < s.railN r.val Ob.Rail.ltQmin ∨ q.1 < 1 / 4 ∨ 4 < q.1 then s.count Ob.clsRail r.val Ob.Rail.ltRejects
  else
    let ratio := 1 / q.1
    if absQ (ratio - 1) < 1 / 100 then s
    else
      let lo := s.railQ r.val Ob.Rail.ltKmin / 16384
      let hi := s.railQ r.val Ob.Rail.ltKmax / 16384
      (s.modLt r fun y => { y with kLt := clampQ (y.kLt * clampQ ratio (9 / 10) (11 / 10)) lo hi }).count
        Ob.clsRail r.val Ob.Rail.ltUpdates

/-- A write of LT_KMIN or LT_KMAX clamps k_lt at the frame edge (R157). -/
def ltClamp (s : State) (r : RailIx) : State :=
  if s.ltEn r then
    s.modLt r fun y => { y with
      kLt := clampQ y.kLt (s.railQ r.val Ob.Rail.ltKmin / 16384) (s.railQ r.val Ob.Rail.ltKmax / 16384) }
  else s

end State

/-! The commands -/

/-- TUNE_SETTLE_END (R150): SETTLE_FR frames after a session or a step starts, recording begins. -/
def execTuneSettleEnd (s : State) : Out :=
  let t := s.tune
  .next (if t.tstate == .running && !t.recording && elapsed s.now t.stepAt (s.tuneN Ob.Tune.settleFr) then
    { s with tune := { t with recording := true, recA := [], recB := [], accA := 0, accB := 0, accN := 0 } } else s)

/-- SWEEP_STEP_END (R149): the step's result is kept and the next step begins. -/
def execSweepStepEnd (s : State) : Out :=
  let t := s.tune
  .next (if t.tstate == .running && t.recording && s.tuneFull && !s.lastStep then
    { s with tune := { t with
        results := t.results ++ [s.resultAt (s.tuneFreq t.step)], step := t.step + 1, stepAt := s.now, recording := false
        sineAt := 0 } } else s)

/-- TUNE_DONE (R147, R151): the correlator results are complete; a sine ends at its zero crossing. -/
def execTuneDone (s : State) : Out :=
  let t := s.tune
  .next (if t.tstate == .running && t.recording && s.tuneFull && s.lastStep then
    let sine := decide (s.tuneSignal < 2)
    { s with tune := { t with
        tstate := .done, results := s.finalResults, recording := false, endSine := sine
        inject := if sine then t.inject else 0 } } else s)

/-- AUTOTUNE_DESIGN_END (R152, R153): the shadow coefficients are written and OK is answered, or RANGE. -/
def execAutotuneDesignEnd (s : State) : Out :=
  let t := s.tune
  .next (if t.tstate == .done && t.auto && t.slot.isSome then
    let q := Config.autotuneDesign (t.results.map (·.mag)) (t.results.map (·.arg)) (s.tuneN Ob.Tune.atFcHz) (s.tuneN Ob.Tune.atPm)
    let boost := q.1
    let fp := q.2.1
    let c := q.2.2.1
    let p := q.2.2.2
    let s := { s with tune := { t with slot := none } }
    if 0 ≤ boost ∧ boost ≤ 14000 ∧ fp ≤ 400000 then
      let set (s : State) (item : Nat) (w : Word) : State := s.setObj Ob.clsRail t.rail item w
      let s := set (set (set (set (set s Ob.Rail.b0 c.1) Ob.Rail.b1 c.2.1) Ob.Rail.b2 c.2.2.1) Ob.Rail.a1 c.2.2.2.1) Ob.Rail.a2 c.2.2.2.2
      s.finishOpt t.slot St.ok (leBytes 4 p.1 ++ leBytes 2 p.2.1 ++ leBytes 2 (intWord p.2.2).toNat)
    else s.finishOpt t.slot St.range [] else s)

/-- LT_WINDOW_END (R155). -/
def execLtWindowEnd (r : RailIx) (s : State) : Out :=
  let x := (s.rail r).lt
  .next (if x.running && !x.ending && decide (20000 ≤ x.windowFrames) then s.ltWindow r else s)

/-- LT_RESUME (R156): no condition has held for 2000 frames. -/
def execLtResume (r : RailIx) (s : State) : Out :=
  let x := (s.rail r).lt
  .next (if s.ltEn r && x.paused && !x.running && decide (2000 ≤ x.clearRun) then s.ltBegin r else s)

end Sys2Proof.Machine
end

