-- ==== Sys2Proof/Machine/PhaseCmds.lean ====
section
/-! DEFINITION. The commands of the phase outputs (03) and of the debug port: period starts, the leak of the trip count, the
trip latch, the delay-line calibration, the unlock's expiry, halt and resume. A command whose condition does not hold
leaves the state as it is. -/

namespace Sys2Proof.Machine
namespace State

/-- The output state of a switching phase at a place in its period (R57, R62, R65). -/
def pulseState (s : State) (n : PhaseIx) (pos : Nat) : OutState :=
  let g := (s.phase n).gen
  let comp := bits g.set.ctrl 1 0 == 1
  let dtLh := if comp then s.phaseN n.val Ob.Phase.dtLh else 0
  let dtHl := if comp then s.phaseN n.val Ob.Phase.dtHl else 0
  let after : OutState := if g.trLatched && bit g.set.ctrl 7 then .parked else .lsOn
  match g.rise, g.fall with
  | some a, some b =>
    if pos + dtLh < a then .lsOn else if pos < a then .dead else if pos < b then .hsOn
    else if pos < b + dtHl then .dead else after
  | _, _ => after

/-- The output state of a phase (R57), by the ranks of R74, at the beginning of the present frame. -/
def outState (s : State) (n : PhaseIx) : OutState :=
  let g := (s.phase n).gen
  match s.phaseRail n with
  | none => .disabled
  | some r =>
    match s.outCode n with
    | 0 => .disabled
    | 1 => .parked
    | 2 =>
      if (s.rail r).law.regime == .slamDown then .lsOn else s.pulseState n (s.frameTick - g.startTick)
    | 3 => match g.forceOn with
      | .off => .parked
      | .lsOn => .lsOn
      | .hsOn => .hsOn
      | _ => s.pulseState n (s.frameTick - g.startTick)
    | 4 => if g.crowbarAt.getD s.now ≤ s.now then .lsOn else .parked
    | 6 => g.frozen.getD .parked
    | _ => .disabled

/-- A trip of a phase (R75) with what it means for its rail: a skim aborts (R92), and a frozen phase takes the trip's state
until its engine resumes (R80). -/
def tripPhase (s : State) (n : PhaseIx) (tick : Nat) : State :=
  match s.phaseRail n with
  | none => s
  | some r =>
    let g := (s.phase n).gen
    match g.frozen with
    | some o =>
      if o == .hsOn && !g.trLatched then
        let s := (s.count Ob.clsPhase n.val Ob.Phase.trips).dropCarry n
        (s.abortSkim r).modGen n fun g => { g with
          trLatched := true, tripCount := min (g.tripCount + 1) 255, cleanRun := 0
          frozen := some (if bit g.set.ctrl 7 then .parked else .lsOn) }
      else s
    | none =>
      let t := s.tripInput n tick
      if (t.phase n).gen.trLatched && !g.trLatched then t.abortSkim r else t

/-- An input that is asserted as a period starts suppresses its rising edge (R75), once the blanking that the period before
left is over (R76). -/
def startTrip (s : State) (n : PhaseIx) : State :=
  let pos := s.blankCarry n
  if s.tripAsserted n && (s.blankEnds n).head? == some pos && !s.blanked n pos then
    s.tripPhase n ((s.phase n).gen.startTick + pos)
  else s

/-- The trips that levels still asserted at the end of a blanking give (R76). -/
def levelTrips (s : State) : State :=
  forEach allPhases (fun s n =>
    match s.phaseRail n with
    | none => s
    | some r =>
      let t := s.levelTrip n
      if (t.phase n).gen.trLatched && !(s.phase n).gen.trLatched then t.abortSkim r else t) s

/-- What a change of the force in effect does to a regulating rail (R73, R92, R93). -/
def forceChange (s : State) (n : PhaseIx) (r : RailIx) (was : Bool) : State :=
  let now := s.forced n
  if now && !was then
    let s := s.abortSkim r
    match (s.rail r).plc.passive with
    | some k => if k.phase == n then s.abortPassive r else s
    | none => s
  else if was && !now && s.regulating r then
    s.modSense n fun x => { x with shed := (s.rail r).law.regime != .slamUp, shedAt := s.now }
  else s

/-- The first start of a phase's schedule that is not past, as if its generator had never stopped (R81). -/
def nextOnSchedule (s : State) (n : PhaseIx) : State :=
  s.modGen n fun g =>
    let p := max g.thisPeriod 1
    { g with nextStart := if s.frameTick ≤ g.nextStart then g.nextStart else
        g.nextStart + (s.frameTick - g.nextStart + p - 1) / p * p }

/-- The rails of a control engine (R18). -/
def engineRails (s : State) (e : Nat) : List RailIx :=
  allRails.filter fun r => s.railEn r.val && s.railN r.val Ob.Rail.engine == e

/-- Is the engine of a rail halted (R37, R119)? -/
def halted (s : State) (r : RailIx) : Bool := s.dev.halted.toList.getD (s.railN r.val Ob.Rail.engine) false

end State

/-- CLEAN_RUN_LEAK (R77). -/
def execCleanRunLeak (n : PhaseIx) (s : State) : Out :=
  .next (if s.phaseN n.val Ob.Phase.tripLeak ≤ (s.phase n).gen.cleanRun then
    s.modGen n fun g => { g with tripCount := g.tripCount - 1, cleanRun := 0 } else s)

/-- TRIP_LATCH (R78): the phase latches; the last active phase of a regulating rail latches the rail too. -/
def execTripLatch (n : PhaseIx) (s : State) : Out :=
  match s.phaseRail n with
  | none => .next s
  | some r =>
    let g := (s.phase n).gen
    if g.tripped || decide (g.tripCount < s.phaseN n.val Ob.Phase.tripN) || decide (g.tripCount = 0) then .next s
    else
      let was := s.active n
      let s := (s.abortSkim r).latchPhase n r
      .next (if was && s.regulating r && (s.activeOf r).isEmpty then
        s.latchRail r .tripLatch Code.tripLatch Ob.clsRail r.val 0 (leBytes 1 n.val) else s)

/-- HSUNLOCK_EXPIRY (R72). -/
def execHsunlockExpiry (n : PhaseIx) (s : State) : Out :=
  match (s.phase n).gen.hsUnlock with
  | none => .next s
  | some t => .next (if elapsed s.now t (sFrames 1) then s.modGen n fun g => { g with hsUnlock := none } else s)

/-- DLCAL (R40): a calibration that spans one timebase cycle acts from the next reload point; one that does not fails. -/
def execDlcal (n : PhaseIx) (spans : Bool) (tap : Nat) (s : State) : Out :=
  if !s.framesRun || s.teleStale || (s.phaseRail n).isNone then .next s
  else
    let s := { s with clk := { s.clk with dlLast := n.val, dlTap := if spans then tap else s.clk.dlTap } }
    if spans then .next (s.modGen n fun g => { g with dlNew := some true, dlFail := false })
    else .next ((s.modGen n fun g => { g with dlFail := true }).record Code.dlcalFail Ob.clsPhase n.val 0 [])

/-- DEBUG_HALT (R79, R80): the phases of the engine's rails hold their levels; only while DBGEN is high and the committed
configuration permits debug. -/
def execDebugHalt (e : EngineIx) (s : State) : Out :=
  if !s.dev.dbgen || (s.obj Ob.clsDev 0 Ob.Dev.dbgPermit) == 0 || s.dev.halted.get e || !s.framesRun then .next s
  else
    let s := { s with dev := { s.dev with halted := vset s.dev.halted e true } }
    .next (forEach (s.engineRails e.val) (fun s r =>
      forEach (s.phasesOf r.val) (fun s n =>
        let o := s.outState n
        (s.dropCarry n).modGen n fun g => { g with frozen := some o }) s) s)

/-- DEBUG_RESUME (R81, R37): each frozen phase is Parked until its next period start; overrun counts are 0. -/
def execDebugResume (e : EngineIx) (s : State) : Out :=
  if !s.dev.halted.get e then .next s
  else
    let s := { s with dev := { s.dev with halted := vset s.dev.halted e false } }
    .next (forEach (s.engineRails e.val) (fun s r =>
      forEach (s.phasesOf r.val) (fun s n =>
        (s.modGen n fun g => { g with
          frozen := none, switching := false, rise := none, fall := none, te := 0, midDue := false
          trLatched := false, issued := false }).nextOnSchedule n)
        (s.modMeas r fun m => { m with ovrCount := 0 })) s)

end Sys2Proof.Machine
end

