-- ==== Sys2Proof/Machine/CurrentCmds.lean ====
section
/-! DEFINITION. The commands of phase current and placement (04): skims, gain calibration, lagging phases and the saving of the
charges. -/

namespace Sys2Proof.Machine
namespace State

/-- The oldest-skimmed of some phases; the lower number on a tie, and one never skimmed before any other (R90). -/
def oldestSkim (s : State) (l : List PhaseIx) : Option PhaseIx :=
  let age (n : PhaseIx) : Nat := match (s.phase n).sense.lastSkim with | none => 0 | some t => t + 1
  l.foldl (fun acc n => match acc with
    | none => some n
    | some m => if age n < age m then some n else acc) none

/-- IRATE × ISEN_GAIN of a phase in µV (R91). -/
def senseFull (s : State) (n : PhaseIx) : Rat :=
  (s.phaseN n.val Ob.Phase.irate : Rat) * (s.phaseN n.val Ob.Phase.isenGain : Rat) / 1000

/-- The result of a skim that ran its full length (R91, step 3). -/
def skimResult (s : State) (k : Skim) : State × SkimOut :=
  let n := k.phase
  let zero := (s.phase n).sense.zero
  let mean := k.sum / ((max k.count 1 : Nat) : Rat)
  if k.count < 16 then (s, .tooShort)
  else if s.senseFull n * 3 / 100 < absQ (mean - zero) then
    ((s.count Ob.clsPhase n.val Ob.Phase.skimRejects).record Code.skimReject Ob.clsPhase n.val 0
      (leBytes 4 (qWord mean) ++ leBytes 4 (qWord zero)), .rejected)
  else ((s.count Ob.clsPhase n.val Ob.Phase.skims).modSense n fun x => { x with zero := mean }, .done)

/-- A skim that ran its length ends: its outcome, the phase's last skim, and the rejoin at the next period start. -/
def endSkim (s : State) (r : RailIx) (k : Skim) (passive : Bool) : State :=
  let q := s.skimResult k
  let s := q.1.modSense k.phase fun x => { x with lastSkim := some q.1.now }
  let s := if q.2 == .done then s.saveZeros else s
  s.modPlc r fun x =>
    if passive then { x with passive := none, lastPhase := k.phase.val, lastOut := q.2 }
    else { x with skim := none, lastPhase := k.phase.val, lastOut := q.2, lastActiveEnd := s.now }

/-- Has a skim run its SKIM_LEN frames (R91)? -/
def skimOver (s : State) (r : RailIx) (k : Skim) : Bool :=
  match k.began with
  | none => false
  | some t => elapsed s.now t (s.railN r.val Ob.Rail.skimLen)

/-- The phases that a passive skim may take (R93): shed for at least SKIM_LEN frames. -/
def passiveReady (s : State) (r : RailIx) : List PhaseIx :=
  (s.phasesOf r.val).filter fun n =>
    s.available n && (s.phase n).sense.shed && elapsed s.now (s.phase n).sense.shedAt (s.railN r.val Ob.Rail.skimLen)

end State

/-- SKIM_START (R90). -/
def execSkimStart (r : RailIx) (s : State) : Out :=
  if s.skimReady r && !(s.rail r).lt.running && !s.teleStale then
    match s.oldestSkim (s.activeOf r) with
    | none => .next s
    | some n => .next (s.modPlc r fun x => { x with skim := some ⟨n, none, 0, false, 0, 0⟩ })
  else .next s

/-- SKIM_MEASURE_START (R91): the sense has decayed for 4 frames. -/
def execSkimMeasureStart (n : PhaseIx) (s : State) : Out :=
  match s.phaseRail n with
  | none => .next s
  | some r =>
    let go (k : Skim) : Skim := if k.phase == n && decide (4 ≤ k.decayRun) then { k with measuring := true } else k
    .next (s.modPlc r fun x => { x with skim := x.skim.map go, passive := x.passive.map go })

/-- SKIM_END (R91): SKIM_LEN frames have passed. -/
def execSkimEnd (n : PhaseIx) (s : State) : Out :=
  match s.phaseRail n with
  | none => .next s
  | some r =>
    let s := match (s.rail r).plc.skim with
      | some k => if k.phase == n && s.skimOver r k then s.endSkim r k false else s
      | none => s
    match (s.rail r).plc.passive with
    | some k => .next (if k.phase == n && s.skimOver r k then s.endSkim r k true else s)
    | none => .next s

/-- PASSIVE_SKIM_START (R93). -/
def execPassiveSkimStart (r : RailIx) (s : State) : Out :=
  let c := s.obj Ob.clsRail r.val Ob.Rail.plcCtrl
  if bit c 5 && bit c 2 && (s.rail r).plc.passive.isNone && s.lawRuns r && !s.teleStale then
    match s.oldestSkim (s.passiveReady r) with
    | none => .next s
    | some n => .next (s.modPlc r fun x => { x with passive := some ⟨n, some s.now, 0, false, 0, 0⟩ })
  else .next s

/-- GCAL_WINDOW_END (R95): a counting window moves each GAIN_CORR towards the fit by at most 0.1 %, within ±5 %. -/
def execGcalWindowEnd (r : RailIx) (s : State) : Out :=
  let x := (s.rail r).plc
  let on := bit (s.obj Ob.clsRail r.val Ob.Rail.plcCtrl) 3 && s.dev.part == .m
  if !on || !elapsed s.now x.gcalStart (msFrames (s.railN r.val Ob.Rail.skimPeriodMs)) then .next s
  else
    let mean := x.gcalSum / ((max x.gcalCount 1 : Nat) : Rat) * 1000
    let counts := x.gcalOk && decide (0 < x.gcalCount) && decide (s.irateSum r / 10 ≤ mean)
    let s := if counts then
        forEach (s.phasesOf r.val) (fun s n => s.modSense n fun y =>
          let goal : Rat := (Config.gainFit n.val x.gcalWindows : Rat) / 100000
          { y with gainCorr := clampQ (y.gainCorr + clampQ (goal - y.gainCorr) (-1 / 1000) (1 / 1000)) (-1 / 20) (1 / 20) }) s |>.saveZeros
      else s
    .next (s.modPlc r fun y => { y with
      gcalWindows := if counts then y.gcalWindows + 1 else y.gcalWindows
      gcalStart := s.now, gcalOk := true, gcalSum := 0, gcalCount := 0, metSum := 0, gcalSet := [] })

/-- PHASE_LAGGING (R98). -/
def execPhaseLagging (n : PhaseIx) (s : State) : Out :=
  let x := (s.phase n).sense
  if x.lagging || decide (x.limitRun < 2000) then .next s
  else
    let neg := decide (x.trim < 0)
    let s := s.modSense n fun y => { y with lagging := true, lagNeg := neg }
    .next ((s.count Ob.clsPhase n.val Ob.Phase.lagging).record Code.phaseLagging Ob.clsPhase n.val (flag neg 0) [])

/-- LAGGING_CLEAR (R98). -/
def execLaggingClear (n : PhaseIx) (s : State) : Out :=
  let x := (s.phase n).sense
  .next (if x.lagging && decide (2000 ≤ x.offRun) then s.modSense n fun y => { y with lagging := false } else s)

/-- QACC_SAVE (R101): every 10 min the charges are saved to MRAM. -/
def execQaccSave (s : State) : Out :=
  .next (if s.framesRun then s.saveQacc else s)

end Sys2Proof.Machine
end

