-- ==== Sys2Proof/Machine/Links.lean ====
section
/-! DEFINITION. The Wairel load link (08): the receiver and its frames, negotiation, voltage requests and their
acknowledgements, arbitration, positions and strokes, warnings, transmit queues and timers. -/

namespace Sys2Proof.Machine

/-! Frames (R163 … R168) -/

/-- VNAK reasons (R168). -/
abbrev Nak.notAuthority : Nat := 1
abbrev Nak.railOff : Nat := 2
abbrev Nak.superseded : Nat := 3
abbrev Nak.aborted : Nat := 4
abbrev Nak.sourceHost : Nat := 5
abbrev Nak.unmapped : Nat := 6

/-- TYPE and payload of a message of the device (R168). -/
def TxMsg.payload : TxMsg → Nat × List Byte
  | .hello major minor reply =>
    (0, leBytes 1 major ++ leBytes 1 minor ++ leBytes 1 (flag reply 0 + 2) ++ leBytes 2 0x4816 ++ [0x1E])
  | .vackStart tag clamped dup inForce tgt =>
    (2, leBytes 1 tag ++ leBytes 1 (flag clamped 0 + flag dup 1 + flag inForce 2) ++ leBytes 2 tgt)
  | .vackDone tag clamped dup v => (3, leBytes 1 tag ++ leBytes 1 (flag clamped 0 + flag dup 1) ++ leBytes 2 v)
  | .vnak tag reason => (4, leBytes 1 tag ++ leBytes 1 reason)
  | .warn cause feed holdup vbus episode =>
    (7, leBytes 1 cause ++ leBytes 1 feed ++ leBytes 2 holdup ++ leBytes 2 vbus ++ leBytes 1 episode ++ [0])
  | .status v tgt flags inForce feed =>
    (8, leBytes 2 v ++ leBytes 2 tgt ++ leBytes 1 flags ++ leBytes 1 inForce ++ leBytes 1 feed ++ [0])
  | .ping reply cookie => (9, leBytes 1 (flag reply 0) ++ leBytes 1 cookie)

/-- HDR, LEN and payload of a frame. -/
def frameBody (type seq : Nat) (pl : List Byte) : List Byte :=
  BitVec.ofNat 8 (16 * type + seq % 16) :: BitVec.ofNat 8 pl.length :: pl

/-- A frame on the line (R164): the CRC's most significant byte first. -/
def lineFrame (type seq : Nat) (pl : List Byte) : List Byte :=
  let body := frameBody type seq pl
  let c := crc16 body
  0xA5 :: body ++ [BitVec.ofNat 8 (c / 256), BitVec.ofNat 8 c]

/-- The class of a queued frame, by the order of R182. -/
def TxMsg.rank : TxMsg → Nat
  | .warn .. => 0
  | .vackStart .. => 1
  | .vackDone .. => 1
  | .vnak .. => 1
  | .hello .. => 2
  | .ping .. => 2
  | .status .. => 3

/-- The next frame of a queue: the oldest of the first class that is queued (R182). -/
def nextTx (q : List TxMsg) : Option TxMsg :=
  q.foldl (fun acc m => match acc with
    | none => some m
    | some a => if m.rank < a.rank then some m else acc) none

/-- Remove the oldest frame of a class, none if the queue holds none. -/
def dropRank (k : Nat) (q : List TxMsg) : Option (List TxMsg) :=
  if q.any fun m => m.rank == k then some (q.eraseP fun m => m.rank == k) else none

/-- The queue after a frame is to be queued, and how many frames were dropped (R182, R183). -/
def enqueueIn (q : List TxMsg) (m : TxMsg) : List TxMsg × Nat :=
  let q := if m.rank = 0 then q.filter fun x => x.rank != 0 else q
  if q.length < 8 then (q ++ [m], 0)
  else match m.rank with
    | 3 => (q, 1)
    | 2 => match dropRank 3 q with
      | some q => (q ++ [m], 1)
      | none => (q, 1)
    | _ => match dropRank 3 q with
      | some q => (q ++ [m], 1)
      | none => match dropRank 2 q with
        | some q => (q ++ [m], 1)
        | none => (q, 1)

namespace State

/-- Queue a frame on a port (R183). -/
def enqueue (s : State) (p : PortIx) (m : TxMsg) : State :=
  let q := enqueueIn (s.port p).queue m
  (s.modPort p fun x => { x with queue := q.1 }).countN Ob.clsPort p.val Ob.Port.drops q.2

/-- Queue an acknowledgement of the port's standing or latest request, which a duplicate of it repeats (R171). -/
def enqueueAck (s : State) (p : PortIx) (m : TxMsg) : State :=
  (s.enqueue p m).modPort p fun x => { x with lastAck := some m }

def portCtrl (s : State) (p : PortIx) : Word := s.obj Ob.clsPort p.val Ob.Port.ctrl
def portUp (s : State) (p : PortIx) : Bool := (s.port p).pstate == .wl1 || (s.port p).pstate == .wl2
def portOn (s : State) (p : PortIx) : Bool := (s.port p).pstate != .disabled && !s.linkSilent

/-- A value for a 16-bit field. -/
def mv16 (q : Rat) : Nat := (clampI (roundQ q) 0 65535).toNat

/-- The feed in WARN and STATUS. -/
def feedCode (s : State) : Nat := match s.feedOn with | some .a => 0 | some .b => 1 | none => 255

/-- CAUSE of a WARN and of an EWARN record: the bits of R180 while the warning stands, 0 once it has cleared. -/
def warnCauses (s : State) : Nat := if s.feeds.ewarn then s.feeds.cause else 0

/-- The WARN of the present warning (R180). -/
def warnMsg (s : State) : TxMsg :=
  .warn s.warnCauses s.feedCode s.feeds.holdup (min s.feeds.vbus 65535) (s.feeds.episode % 256)

/-- Queue a WARN on every WL2 port (R180). -/
def warnAll (s : State) : State :=
  forEach (allPorts.filter fun p => (s.port p).pstate == .wl2) (fun s p => s.enqueue p s.warnMsg) s

/-- RAIL_FLAGS of STATUS (R168). -/
def railFlags (s : State) (r : RailIx) : Nat :=
  let x := s.rail r
  let fitted := bit (s.obj Ob.clsRail r.val Ob.Rail.fuseCtrl) 0
  flag (s.regulating r) 0 + flag x.prof.done 1 + flag ((s.targetNow r).1 != (s.targetNow r).2) 2 + flag (x.law.loop != .voltage) 3
    + flag (x.law.regime != .linear) 4 + flag (if fitted then x.fuse.fstate == .on else s.regulating r) 5
    + flag s.feeds.ewarn 6

/-- The STATUS of a port's rail (R168). -/
def statusMsg (s : State) (p : PortIx) : TxMsg :=
  match s.portRail p with
  | none => .status 0 0 (flag s.feeds.ewarn 6) 255 s.feedCode
  | some r =>
    let x := s.rail r
    .status (mv16 (x.meas.v * 1000)) (s.targetNow r).2 (s.railFlags r) (match x.prof.linkReq with | some q => q.1 | none => 255) s.feedCode

/-! Requests (R171 … R176) -/

/-- POLICY of a rail is HIGHEST (R177). -/
def highest (s : State) (r : RailIx) : Bool := bit (s.obj Ob.clsRail r.val Ob.Rail.linkCtrl) 0

/-- May a port hold a standing request on its rail (R177)? -/
def permitted (s : State) (r : RailIx) (p : PortIx) : Bool := s.highest r || s.railN r.val Ob.Rail.linkAuth == p.val

/-- The arbitration over the requests that ports hold (R177): the port and its request before clamping. -/
def arbitrate (s : State) (r : RailIx) (held : PortIx → Option Standing) : Option (Nat × Nat) :=
  let ps := (s.portsOf r.val).filter fun p => s.permitted r p && (held p).isSome
  let mv (p : PortIx) : Nat := match held p with | some q => q.mv | none => 0
  let best := ps.foldl (fun m p => max m (mv p)) 0
  let top := ps.filter fun p => mv p == best
  let inForce := match (s.rail r).prof.linkReq with | some q => q.1 | none => 255
  match top.find? (fun p => p.val == inForce), top with
  | some p, _ => some (p.val, best)
  | none, p :: _ => some (p.val, best)
  | none, [] => none

/-- The request that stands on a port is gone (R169, R171, R178). -/
def withdraw (s : State) (p : PortIx) : State :=
  if (s.port p).standing.isNone then s.modPort p fun x => { x with arb := none, takeAt := none }
  else
    let s := s.modPort p fun x => { x with standing := none, arb := none, takeAt := none }
    match s.portRail p with
    | some r => s.count Ob.clsRail r.val Ob.Rail.withdrawals
    | none => s

/-- A port is emptied: its request withdrawn, its pending acknowledgement cancelled, its queue empty (R169). -/
def emptyPort (s : State) (p : PortIx) : State :=
  (s.withdraw p).modPort p fun x => { x with pending := none, queue := [], lastAck := none }

/-- Store a request, or withdraw: the profile takes the result at the edge of R174. -/
def storeReq (s : State) (p : PortIx) (q : Standing) (wd : Bool) : State :=
  let had := (s.port p).standing.isSome
  let s := s.modPort p fun x => { x with standing := if wd then none else some q, takeAt := some (s.now + 2) }
  match s.portRail p with
  | some r => s.countIf (wd && had) Ob.clsRail r.val Ob.Rail.withdrawals
  | none => s

/-- An accepted WL2 request (R172, R173, R175). -/
def acceptWl2 (s : State) (p : PortIx) (r : RailIx) (q : Standing) (wd : Bool) : State :=
  let s := match (s.port p).pending with
    | some k => (s.count Ob.clsRail r.val Ob.Rail.supersedes).enqueue p (.vnak k.tag Nak.superseded)
    | none => s
  let s := s.storeReq p q wd
  let win := s.arbitrate r fun p => (s.port p).standing
  let inForce := match win with | some w => w.1 == p.val | none => false
  let goal := if bit (s.obj Ob.clsRail r.val Ob.Rail.profCtrl) 0 then
    (match win with | some w => w.2 | none => s.railN r.val Ob.Rail.target) else s.railN r.val Ob.Rail.target
  let clamped := !wd && s.clampTarget r q.mv != q.mv
  let s := s.modPort p fun x => { x with
    reqTag := q.tag, ackPhase := 0, pending := some ⟨q.tag, wd, clamped, 0⟩ }
  (s.count Ob.clsRail r.val Ob.Rail.vreqs).enqueueAck p (.vackStart q.tag clamped false inForce (s.clampTarget r goal))

/-- A duplicate gets the last acknowledgement again (R171). -/
def repeatAck (s : State) (p : PortIx) : State :=
  match (s.port p).lastAck with
  | some (.vackStart t c _ i v) => s.enqueue p (.vackStart t c true i v)
  | some (.vackDone t c _ v) => s.enqueue p (.vackDone t c true v)
  | some m => s.enqueue p m
  | none => s

/-- A valid VREQ (R171): the first row that applies. -/
def vreqOn (s : State) (p : PortIx) (wl2 : Bool) (q : Standing) (wd : Bool) : State :=
  let nak (s : State) (reason : Nat) : State := if wl2 then s.enqueue p (.vnak q.tag reason) else s
  if 4 < ((s.port p).queue.filter isAck).length then s.count Ob.clsPort p.val Ob.Port.reqOverflows
  else match s.portRail p with
    | none => nak s Nak.unmapped
    | some r =>
      let same := match (s.port p).standing with
        | some k => if wl2 then k == q && !wd else k.mv == q.mv
        | none => false
      if same then (if wl2 then s.repeatAck p else s)
      else if !bit (s.obj Ob.clsRail r.val Ob.Rail.profCtrl) 0 then nak s Nak.sourceHost
      else if !s.permitted r p then nak s Nak.notAuthority
      else if !s.regulating r then
        let s := s.storeReq p q wd
        if wl2 then s.enqueueAck p (.vnak q.tag Nak.railOff) else s
      else if wl2 then s.acceptWl2 p r q wd
      else (s.storeReq p q wd).count Ob.clsRail r.val Ob.Rail.vreqs |>.modPort p fun x => { x with reqTag := 0, ackPhase := 0 }

/-! Receiving -/

/-- A valid frame was received: it is counted, the silence ends, and its SEQ is judged (R167). -/
def rxValid (s : State) (p : PortIx) (seq : Nat) : State :=
  let x := s.port p
  let s := s.count Ob.clsPort p.val Ob.Port.rxFrames
  let gap := match x.rxSeq with
    | some q => s.portUp p && (q + 1) % 16 != seq % 16
    | none => false
  let s := s.countIf gap Ob.clsPort p.val Ob.Port.seqGaps
  s.modPort p fun x => { x with lastValid := s.now, rxSeq := if s.portUp p then some (seq % 16) else none }

/-- A port enters WL1 or WL2 (R169): WLMAX is taken, the next frame is the starting SEQ. -/
def enterVersion (s : State) (p : PortIx) (st : PortSt) : State :=
  s.modPort p fun x => { x with
    pstate := st, rxSeq := none, lastValid := s.now, lastPing := s.now, lastStatus := s.now, lastWarn := s.now
    wlmax := bits (s.portCtrl p) 2 1 }

/-- HELLO from the load (R169). -/
def rxHello (s : State) (p : PortIx) (m : HelloMsg) : State :=
  if !s.portOn p then s
  else
    let s := s.rxValid p m.seq
    let s := s.modPort p fun x => { x with peerId := m.senderId, peerCaps := m.caps, peerMaj := m.major, peerMin := m.minor }
    let s := if s.portUp p then (s.emptyPort p).modPort p fun x => { x with pstate := .negotiating, rxSeq := none } else s
    if m.major = 0 then s
    else
      let ver := min m.major (bits (s.portCtrl p) 2 1)
      let s := s.enterVersion p (if 2 ≤ ver then .wl2 else .wl1)
      let s := if m.reply then s else s.enqueue p (.hello (s.port p).wlmax 0 true)
      let s := s.record Code.portVersion Ob.clsPort p.val (min ver 2) (leBytes 1 0 ++ leBytes 2 m.senderId)
      if 2 ≤ ver && s.feeds.ewarn then s.enqueue p s.warnMsg else s

/-- A valid VREQ or POS without a HELLO makes the port a WL1 port (R169). -/
def impliedWl1 (s : State) (p : PortIx) : State :=
  if s.portUp p then s
  else (s.enterVersion p .wl1).record Code.portVersion Ob.clsPort p.val 1 (leBytes 1 0 ++ leBytes 2 (s.port p).peerId)

/-- A VREQ (R168, R171). -/
def rxVreq (s : State) (p : PortIx) (m : VreqMsg) : State :=
  if !s.portOn p then s
  else
    let s := (s.rxValid p m.seq).impliedWl1 p
    if (s.port p).pstate == .wl2 then s.vreqOn p true ⟨m.mv, m.slew % 4, m.tag % 256⟩ m.withdraw
    else s.vreqOn p false ⟨m.mv, bits (s.portCtrl p) 5 4, 0⟩ false

/-- A POS (R179). -/
def rxPos (s : State) (p : PortIx) (seq position : Nat) : State :=
  if !s.portOn p then s
  else
    let s := (s.rxValid p seq).impliedWl1 p
    let s := s.modPort p fun x => { x with pos := position % 65536, posAt := some s.now }
    forEach (s.ffRails p) (fun s r => s.ffPos r (position % 65536)) s

/-- A STROKE whose fields are bad (R179). -/
def strokeBad (m : StrokeMsg) : Bool := 1 < m.kind || (m.kind = 0 && m.expectedMs = 0)

/-- A STROKE (R138, R179): a bad one is discarded and counted, and only a WL2 port carries a good one. -/
def rxStroke (s : State) (p : PortIx) (m : StrokeMsg) : State :=
  if !s.portOn p then s
  else if strokeBad m then s.count Ob.clsPort p.val Ob.Port.formatErrors
  else
    let s := s.rxValid p m.seq
    if (s.port p).pstate != .wl2 then s
    else forEach (s.ffRails p) (fun s r => if m.kind = 0 then s.strokeStart r m.id m.expectedMs else s.strokeEnd r m.id) s

/-- A STATUS of the load (R168): bytes not received read 0 (R187). -/
def rxStatus (s : State) (p : PortIx) (m : StatusMsg) : State :=
  if !s.portOn p then s
  else
    let s := s.rxValid p m.seq
    if (s.port p).pstate != .wl2 then s else s.modPort p fun x => { x with loadStat := m.data.take 8 }

/-- A PING (R184). -/
def rxPing (s : State) (p : PortIx) (seq : Nat) (reply : Bool) (cookie : Nat) : State :=
  if !s.portOn p then s
  else
    let s := s.rxValid p seq
    if (s.port p).pstate == .wl2 && !reply then s.enqueue p (.ping true (cookie % 256)) else s

/-- The lengths of R168 by TYPE, for a port in WL2 or not. -/
def lenOk (type len : Nat) (wl2 : Bool) : Bool :=
  match type with
  | 0 => len = 6
  | 1 => len = (if wl2 then 4 else 2)
  | 5 => len = 2
  | 6 => len = 4
  | 8 => len ≤ 32
  | 9 => len = 2
  | _ => true

/-- The STROKE of a payload (R168). -/
def strokeOf (seq : Nat) (pl : List Byte) : StrokeMsg := ⟨seq, byteAt pl 0, byteAt pl 1, leAt pl 2 2⟩

/-- A frame whose CRC is right (R168): discarded for its TYPE, its LEN or the fields of a
STROKE (R179), or taken. The flag says that it was taken. -/
def rxFrame (s : State) (p : PortIx) (hdr : Nat) (pl : List Byte) : State × Bool :=
  let type := hdr / 16
  let seq := hdr % 16
  let wl2 := (s.port p).pstate == .wl2
  let b (i : Nat) : Nat := byteAt pl i
  if 10 ≤ type || type = 2 || type = 3 || type = 4 || type = 7 then (s.count Ob.clsPort p.val Ob.Port.unknown, false)
  else if !lenOk type pl.length wl2 || (type = 6 && strokeBad (strokeOf seq pl)) then
    (s.count Ob.clsPort p.val Ob.Port.formatErrors, false)
  else
    (match type with
     | 0 => s.rxHello p ⟨seq, b 0, b 1, (b 2).testBit 0, leAt pl 3 2, b 5⟩
     | 1 => s.rxVreq p ⟨seq, leAt pl 0 2, b 2 % 4, (b 2).testBit 2, b 3⟩
     | 5 => s.rxPos p seq (leAt pl 0 2)
     | 6 => s.rxStroke p (strokeOf seq pl)
     | 8 => s.rxStatus p ⟨seq, pl⟩
     | _ => s.rxPing p seq ((b 0).testBit 0) (b 1), true)

/-- What the characters after a SYNC make: incomplete, abandoned at a gap with the characters that follow it, a framing or
LEN error, a CRC error, or a frame with the characters that follow it (R163, R166). -/
inductive RxOutcome where
  | incomplete
  | gap (rest : List RxChar)
  | format
  | crc
  | frame (hdr : Nat) (payload : List Byte) (rest : List RxChar)
deriving DecidableEq, Repr

/-- Take n characters of a frame; none where they are fewer, `inl` at a gap or framing error. -/
def takeChars : Nat → List RxChar → List Byte → Option (Except RxOutcome (List Byte × List RxChar))
  | 0, cs, acc => some (.ok (acc.reverse, cs))
  | _ + 1, [], _ => none
  | n + 1, c :: cs, acc =>
    if 1600 < c.idleNs then some (.error (.gap (c :: cs)))
    else if c.framing then some (.error .format)
    else takeChars n cs (c.byte :: acc)

/-- Judge the characters after a SYNC. -/
def rxAfterSync (cs : List RxChar) : RxOutcome :=
  match takeChars 2 cs [] with
  | none => .incomplete
  | some (.error e) => e
  | some (.ok (h, rest)) =>
    let len := byteAt h 1
    if 32 < len then .format
    else match takeChars (len + 2) rest [] with
      | none => .incomplete
      | some (.error e) => e
      | some (.ok (b, rest)) =>
        if crc16 (h ++ b) = 0 then .frame (byteAt h 0) (b.take len) rest else .crc

/-- The receiver over a run of characters (R166): hunting, frames, and what is counted; `gapEnd` says that a longer idle
follows the last of them (R163). -/
def rxChars (s : State) (p : PortIx) (gapEnd : Bool) : Nat → List RxChar → State
  | 0, _ => s
  | _ + 1, [] => s
  | n + 1, c :: cs =>
    let bad (s : State) (item : Nat) : State := s.count Ob.clsPort p.val item
    if c.framing || c.byte != 0xA5 then rxChars s p gapEnd n cs
    else match rxAfterSync cs with
      | .incomplete => if gapEnd then bad s Ob.Port.formatErrors else s
      | .gap rest => rxChars (bad s Ob.Port.formatErrors) p gapEnd n rest
      | .format => rxChars (bad s Ob.Port.formatErrors) p gapEnd n cs
      | .crc => rxChars (bad s Ob.Port.crcErrors) p gapEnd n cs
      | .frame hdr pl rest =>
        let q := s.rxFrame p hdr pl
        rxChars q.1 p gapEnd n (if q.2 then rest else cs)

/-! The port's part of a frame edge -/

/-- The new requests that the arbitration sees from this edge (R174). -/
def takeArb (s : State) : State :=
  forEach allPorts (fun s p =>
    match (s.port p).takeAt with
    | some t => if t ≤ s.now then s.modPort p fun x => { x with arb := x.standing, takeAt := none } else s
    | none => s) s

/-- The arbitration of a rail and the command it gives the profile (R127, R177). -/
def linkRail (s : State) (r : RailIx) : State :=
  let win := s.arbitrate r fun p => (s.port p).arb
  let s := s.modProf r fun x => { x with linkReq := win }
  let x := (s.rail r).prof
  let q := s.requested r
  if !s.regulating r then
    s.modProf r fun y => { y with reqMv := q.1, tgtMv := s.clampTarget r q.1, slew := q.2.1, tag := q.2.2.1, port := q.2.2.2 }
  else if q.2.2.2 = 255 then
    if x.port != 255 || (bit (s.obj Ob.clsRail r.val Ob.Rail.profCtrl) 0 && x.reqMv != q.1) then s.takeRequested r else s
  else if (x.reqMv, x.slew, x.tag, x.port) == q then s
  else s.takeRequested r

/-- The final acknowledgement of a request whose rail left regulation, and the frames held of R175. -/
def ackFrame (s : State) (p : PortIx) : State :=
  match (s.port p).pending, s.portRail p with
  | some k, some r =>
    if !s.regulating r then
      (s.enqueueAck p (.vnak k.tag Nak.aborted)).modPort p fun x => { x with pending := none }
    else
      let goal : Nat := match (s.port p).standing with | some q => s.clampTarget r q.mv | none => 0
      let high := s.highest r && !s.portInForce p &&
        decide ((goal : Rat) * 1000 - s.railQ r.val Ob.Rail.bandInUv ≤ (s.rail r).meas.v * 1000000)
      s.modPort p fun x => { x with pending := some { k with held := if high then k.held + 1 else 0 } }
  | _, _ => s

/-- A WARN follows when the hold-up moved by more than 10 % from the value last sent (R180). -/
def warnFrame (s : State) (p : PortIx) : State :=
  let sent := (s.port p).warnHoldup
  let diff := if sent ≤ s.feeds.holdup then s.feeds.holdup - sent else sent - s.feeds.holdup
  if (s.port p).pstate == .wl2 && s.feeds.ewarn && decide (sent < 10 * diff) &&
      !((s.port p).queue.any fun m => m == s.warnMsg) then s.enqueue p s.warnMsg else s

/-- The links over one frame edge. -/
def linkFrame (s : State) : State :=
  let s := s.takeArb
  let s := forEach (allRails.filter fun r => s.railEn r.val) State.linkRail s
  forEach allPorts (fun s p => (s.ackFrame p).warnFrame p) s

/-- At the edge of a write of LINK_CTRL or LINK_AUTH, ports that lost their permission are withdrawn (R178). -/
def linkPolicy (s : State) (r : RailIx) : State :=
  forEach ((s.portsOf r.val).filter fun p => !s.permitted r p) (fun s p =>
    let s := s.withdraw p
    match (s.port p).pending with
    | some k => (s.enqueueAck p (.vnak k.tag Nak.notAuthority)).modPort p fun x => { x with pending := none }
    | none => s) s

/-- The port becomes DISABLED (R169). -/
def disablePort (s : State) (p : PortIx) : State :=
  (s.emptyPort p).modPort p fun x => { x with pstate := .disabled, rxSeq := none }

/-- The port is enabled (R169): WLMAX is taken here. -/
def enablePort (s : State) (p : PortIx) : State :=
  let w := bits (s.portCtrl p) 2 1
  if w = 2 then
    (s.modPort p fun x => { x with pstate := .negotiating, wlmax := w, lastHello := s.now, rxSeq := none }).enqueue p (.hello w 0 false)
  else s.enterVersion p .wl1

end State

/-! The commands -/

/-- WAIREL_HELLO (R169). -/
def execWairelHello (p : PortIx) (m : HelloMsg) (s : State) : Out := .next (s.rxHello p m)
/-- VREQ (R171). -/
def execVreq (p : PortIx) (m : VreqMsg) (s : State) : Out := .next (s.rxVreq p m)
/-- POS (R179). -/
def execPos (p : PortIx) (seq position : Nat) (s : State) : Out := .next (s.rxPos p seq position)
/-- STROKE (R138, R179). -/
def execStroke (p : PortIx) (m : StrokeMsg) (s : State) : Out := .next (s.rxStroke p m)
/-- STATUS of a load (R168). -/
def execLoadStatus (p : PortIx) (m : StatusMsg) (s : State) : Out := .next (s.rxStatus p m)
/-- PING of a load (R184). -/
def execPing (p : PortIx) (seq : Nat) (reply : Bool) (cookie : Nat) (s : State) : Out := .next (s.rxPing p seq reply cookie)
/-- LINK_FRAME_DISCARDED (R166): the receiver over the characters of frames that are discarded. -/
def execLinkFrameDiscarded (p : PortIx) (chars : List RxChar) (s : State) : Out :=
  .next (if s.portOn p then s.rxChars p false chars.length chars else s)
/-- FRAME_GAP_TIMEOUT (R163): more than 1.6 µs of idle follow the characters received. -/
def execFrameGapTimeout (p : PortIx) (chars : List RxChar) (s : State) : Out :=
  .next (if s.portOn p then s.rxChars p true chars.length chars else s)

/-- VACK_DONE (R175): the final acknowledgement of a pending request whose condition holds. -/
def execVackDone (p : PortIx) (s : State) : Out :=
  match (s.port p).pending, s.portRail p with
  | some k, some r =>
    let x := (s.rail r).prof
    let inForce := s.portInForce p && x.port == p.val && x.tag == k.tag && x.done
    let held := s.highest r && !s.portInForce p && decide (s.railN r.val Ob.Rail.settle ≤ k.held)
    let gone := k.withdraw && (s.port p).takeAt.isNone
    .next (if !s.linkSilent && (gone || (!k.withdraw && (inForce || held))) then
      (s.enqueueAck p (.vackDone k.tag k.clamped false (State.mv16 ((s.rail r).meas.v * 1000)))).modPort p fun y =>
        { y with pending := none } else s)
  | _, _ => .next s

/-- Before a handover edge a frame is started only if it ends before that edge; it lasts (5 + LEN) × 400 ns (R164, R259). -/
def State.tooLate (s : State) (m : TxMsg) : Bool :=
  match s.twin.pendingHo with
  | none => false
  | some q => decide (q.2 < s.clk.frame + (4 * (5 + m.payload.2.length) + 4) / 5)

/-- LINK_FRAME_TRANSMIT (R182): the next queued frame starts; the outputs of a twin standby are high-impedance (R160). -/
def execLinkFrameTransmit (p : PortIx) (s : State) : Out :=
  let x := s.port p
  match nextTx x.queue with
  | none => .next s
  | some m =>
    if !s.portOn p || !s.twin.driving || s.tooLate m then .next s
    else
      let q := m.payload
      let s := s.count Ob.clsPort p.val Ob.Port.txFrames
      let s := match m, s.portRail p with
        | .vnak .., some r => s.count Ob.clsRail r.val Ob.Rail.naks
        | _, _ => s
      .next (s.modPort p fun y => { y with
        queue := y.queue.erase m, line := lineFrame q.1 y.txSeq q.2, txSeq := (y.txSeq + 1) % 16
        ackPhase := (match m with
          | .vackStart .. => 1
          | .vackDone .. => 2
          | .vnak tag reason => if tag == y.reqTag && (reason == Nak.aborted || reason == Nak.notAuthority) then 2 else y.ackPhase
          | _ => y.ackPhase)
        warnHoldup := (match m with | .warn _ _ h _ _ => h | _ => y.warnHoldup)
        lastWarn := (match m with | .warn .. => s.now | _ => y.lastWarn) })

/-- HELLO_RETRY (R169). -/
def execHelloRetry (p : PortIx) (s : State) : Out :=
  let x := s.port p
  .next (if !s.linkSilent && (x.pstate == .negotiating || x.pstate == .lost) && x.wlmax == 2 && elapsed s.now x.lastHello (msFrames 10) then
    (s.modPort p fun y => { y with lastHello := s.now }).enqueue p (.hello x.wlmax 0 false) else s)

/-- PORT_LOST (R169, R138). -/
def execPortLost (p : PortIx) (s : State) : Out :=
  let x := s.port p
  let t := s.portN p.val Ob.Port.timeoutMs
  if s.linkSilent || !s.portUp p || t = 0 || !elapsed s.now x.lastValid (msFrames t) then .next s
  else
    let s := (s.emptyPort p).modPort p fun y => { y with pstate := .lost, rxSeq := none }
    let s := (s.count Ob.clsPort p.val Ob.Port.lost).record Code.portLost Ob.clsPort p.val 0 []
    let s := forEach (s.ffRails p) State.strokeMismatch (s.irq Irq.port)
    .next (if x.wlmax = 2 then (s.modPort p fun y => { y with lastHello := s.now }).enqueue p (.hello 2 0 false) else s)

/-- PING_TIMER (R184): TIMEOUT_MS / 4 without a valid frame. -/
def execPingTimer (p : PortIx) (s : State) : Out :=
  let x := s.port p
  let t := s.portN p.val Ob.Port.timeoutMs
  .next (if !s.linkSilent && x.pstate == .wl2 && decide (0 < t) && elapsed s.now x.lastValid (500 * t) && elapsed s.now x.lastPing (500 * t) then
    (s.modPort p fun y => { y with lastPing := s.now }).enqueue p (.ping false 0) else s)

/-- STATUS_TIMER (R184). -/
def execStatusTimer (p : PortIx) (s : State) : Out :=
  let x := s.port p
  let t := s.portN p.val Ob.Port.statusMs
  .next (if !s.linkSilent && x.pstate == .wl2 && decide (0 < t) && elapsed s.now x.lastStatus (msFrames t) then
    (s.modPort p fun y => { y with lastStatus := s.now }).enqueue p (s.statusMsg p) else s)

/-- WARN_REPEAT (R180). -/
def execWarnRepeat (p : PortIx) (s : State) : Out :=
  let x := s.port p
  .next (if !s.linkSilent && x.pstate == .wl2 && s.feeds.ewarn && elapsed s.now x.lastWarn (msFrames (s.portN p.val Ob.Port.warnRepeatMs)) then
    (s.modPort p fun y => { y with lastWarn := s.now }).enqueue p s.warnMsg else s)

end Sys2Proof.Machine
end

