-- ==== Sys2Proof/Machine/Feeds.lean ====
section
/-! DEFINITION. Input feeds, selection, early warning and hold-up (R189 … R197), and the output fuses (R198 … R203). -/

namespace Sys2Proof.Machine

/-- The other feed. -/
def otherFeed : FeedId → FeedId | .a => .b | .b => .a

/-- The mean of the last four samples in mV, exactly (R189). -/
def mean4 (l : List Nat) : Rat := if l.isEmpty then 0 else (sumN l : Rat) / (l.length : Rat)

/-- The class of a feed from its level and its class before (R189). -/
def classify (old : FeedClass) (vin : Rat) (uvWarn uvFault ovFault hyst : Nat) (usable : Bool) : FeedClass :=
  let enter := decide (vin < uvFault) || decide ((ovFault : Rat) < vin) || !usable
  let leave := decide ((uvFault : Rat) + hyst ≤ vin) && decide (vin ≤ (ovFault : Rat) - hyst) && usable
  if enter || (old == .fault && !leave) then .fault
  else if vin < uvWarn ∨ (old = .warn ∧ vin < (uvWarn : Rat) + hyst) then .warn
  else .good

/-- One Euler step of the case temperature (R200): power in W, K/W and J/K, 500 ns. -/
def caseStep (tc p tamb rthCa cth : Rat) : Rat := tc + 1 / 2000000 / cth * (p - (tc - tamb) / rthCa)

/-- The transfer of TMON and FTMP inputs in °C (R227): V25 in mV and the slope in µV/°C. -/
def tmonTemp (xfer : Word) (uv : Rat) : Rat :=
  25 + (uv - (bits xfer 31 16 : Rat) * 1000) / ((max (bits xfer 15 0) 1 : Nat) : Rat)

namespace State

def busCtrl (s : State) : Word := s.obj Ob.clsFeed 2 Ob.Feed.busCtrl

/-- MODE of BUS_CTRL names this feed as the only one (R194). -/
def heldTo (s : State) : Option FeedId :=
  match bits s.busCtrl 1 0 with | 1 => some .a | 2 => some .b | _ => none

/-- The class of a feed as the selection sees it: under HOLD the other feed counts as FAULT (R194). -/
def selClass (s : State) (x : FeedId) : FeedClass :=
  match s.heldTo with
  | some h => if h == x then (s.feed x).cls else .fault
  | none => (s.feed x).cls

def selFault (s : State) (x : FeedId) : Bool := s.selClass x == .fault
def feedEn (s : State) (x : FeedId) : Bool := bit (s.obj Ob.clsFeed (feedInst x) Ob.Feed.ctrl) 0

/-- A feed's four-frame mean in mV. -/
def vinQ (s : State) (x : FeedId) : Rat := mean4 (s.feed x).hist
def vbusQ (s : State) : Rat := mean4 s.feeds.busHist

/-- The samples of a frame (R189, R226). -/
def feedSample (s : State) (i : FeedIn) : State :=
  let one (f : FeedOne) (v : Nat) (g : Int) : FeedOne :=
    let h := pushHist 4 v f.hist
    { f with hist := h, vin := (roundQ (mean4 h)).toNat, gate := g, means := pushHist 2001 (mean4 h) f.means }
  let b := pushHist 4 i.vbus s.feeds.busHist
  { s with feeds := { s.feeds with
      fa := one s.feeds.fa i.vinA i.gateA, fb := one s.feeds.fb i.vinB i.gateB
      busHist := b, vbus := (roundQ (mean4 b)).toNat } }

/-- The falling condition over FALL_WIN_US (R190). -/
def fallingNow (s : State) (x : FeedId) : Bool :=
  let w := s.feedN (feedInst x) Ob.Feed.fallWinUs
  let m := (s.feed x).means
  match m.head?, m[2 * w]? with
  | some a, some old => ((s.feedN (feedInst x) Ob.Feed.fallRate * w : Nat) : Rat) < 1000 * (old - a)
  | _, _ => false

/-- The classification of one feed in a frame (R189, R190). -/
def feedClassify (s : State) (x : FeedId) : State :=
  let n (item : Nat) : Nat := s.feedN (feedInst x) item
  let v := s.vinQ x
  let c := classify (s.feed x).cls v (n Ob.Feed.uvWarn) (n Ob.Feed.uvFault) (n Ob.Feed.ovFault) (n Ob.Feed.hystMv)
    (s.feedEn x && !s.gateFault x)
  let ov := decide ((n Ob.Feed.ovFault : Rat) < v) ||
    ((s.feed x).ov && !decide (v ≤ (n Ob.Feed.ovFault : Rat) - (n Ob.Feed.hystMv : Rat)))
  let falling := s.fallingNow x
  s.modFeed x fun f => { f with
    cls := c, ov := ov, falling := falling
    goodSince := if c == .good then some (f.goodSince.getD s.now) else none }

/-- A write to a FEED item, held while a changeover runs (R193). -/
def feedWrite (s : State) (w : ObjWrite) : State :=
  match s.feeds.sel with
  | .brk | .dead | .make => { s with feeds := { s.feeds with heldWrites := s.feeds.heldWrites ++ [w] } }
  | _ => s.setObj w.obj.cls w.obj.inst w.obj.item w.value

/-- The held writes take effect at the first frame edge in ON_A, ON_B or NONE (R193). -/
def releaseFeedWrites (s : State) : State :=
  match s.feeds.sel with
  | .brk | .dead | .make => s
  | _ =>
    let l := s.feeds.heldWrites
    forEach l (fun s w => s.setObj w.obj.cls w.obj.inst w.obj.item w.value)
      { s with feeds := { s.feeds with heldWrites := [] } }

/-- Enter a selection state from now. -/
def setSel (s : State) (x : SelState) : State :=
  let s := s.countIf (x == .none && s.feeds.sel != .none) Ob.clsFeed 2 Ob.Feed.noneEpisodes
  { s with feeds := { s.feeds with sel := x, selAt := s.now, confirmRun := 0 } }

/-- A break of the feed that is on, towards a target or none (R191). -/
def startBreak (s : State) (x : FeedId) (target : Option FeedId) (isReturn : Bool) : State :=
  let s := s.setSel .brk
  let s := { s with feeds := { s.feeds with fromFeed := some x, target := target, isReturn := isReturn } }
  let s := s.countIf isReturn Ob.clsFeed 2 Ob.Feed.returns
  s.countIf (target.isSome && !isReturn) Ob.clsFeed 2 Ob.Feed.changeovers

/-- The turn-on of a feed (R191, R195). -/
def startMake (s : State) (x : FeedId) (slow : Bool) : State :=
  let s := s.setSel .make
  { s with feeds := { s.feeds with target := some x, slow := slow } }

def feedRecord (s : State) (code : Nat) (x : FeedId) (sub : Nat) : State :=
  s.record code Ob.clsFeed (feedInst x) sub (leBytes 4 (s.feed x).vin)

/-- From NONE: the first feed of the table (R191). -/
def turnOnFeed (s : State) : State :=
  let pick : Option FeedId :=
    if s.selClass .a == .good then some .a
    else if s.selClass .b == .good then some .b
    else if s.selClass .a == .warn then some .a
    else if s.selClass .b == .warn then some .b
    else none
  match pick with
  | none => s
  | some x =>
    let s := { s with feeds := { s.feeds with fromFeed := none, isReturn := false } }
    s.startMake x (decide (s.vbusQ * 5 < s.vinQ x * 4))

/-- The decision rows for the feed that is on, in order (R191). -/
def onRows (s : State) (x : FeedId) : State :=
  let y := otherFeed x
  if (s.feed x).ov then
    if !s.selFault y then s.startBreak x (some y) false
    else (s.feedRecord Code.feedOff x 0).setSel .none
  else if !s.feedEn x && s.selFault y then (s.feedRecord Code.feedOff x 0).startBreak x none false
  else if s.selFault x && !s.selFault y then s.startBreak x (some y) false
  else if s.selClass x == .warn && s.selClass y == .good then s.startBreak x (some y) false
  else s

/-- No back-feed: VIN of the feed left at or above VBUS, or at least 300 mV below it (R192). -/
def noBackFeed (s : State) (x : FeedId) : Bool :=
  decide (s.vbusQ ≤ s.vinQ x) || decide (s.vinQ x + 300 ≤ s.vbusQ)

/-- The selection over one frame edge; a device that does not drive the shared gates selects nothing. -/
def selectFrame (s : State) : State :=
  if !s.twin.driving then s
  else match s.feeds.sel with
    | .none => s.turnOnFeed
    | .onA => s.onRows .a
    | .onB => s.onRows .b
    | .brk => match s.feeds.fromFeed with
      | none => s
      | some x =>
        let off := decide ((s.feed x).gate < 800) && s.noBackFeed x
        { s with feeds := { s.feeds with confirmRun := if off then s.feeds.confirmRun + 1 else 0 } }
    | _ => s

/-! Early warning (R196, R197) -/

/-- The active feed of R196. -/
def activeFeed (s : State) : Option FeedId :=
  match s.feeds.sel with
  | .onA => some .a
  | .onB => some .b
  | .brk | .dead => s.feeds.fromFeed
  | .make => s.feeds.target
  | .none => none

/-- Does a cause of the warning hold (R196)? -/
def warnCause (s : State) : Bool :=
  (match s.activeFeed with
   | some x => (s.feed x).cls != .good || (s.feed x).falling
   | none => false) ||
  s.feeds.sel == .none || (bit s.busCtrl 2 && s.feeds.sel == .onB)

/-- WARN CAUSE of a frame (R180). -/
def causeBits (s : State) : Nat :=
  let a : Nat := match s.activeFeed with
    | some x => flag ((s.feed x).cls == .warn) 0 + flag (s.feed x).falling 1 + flag ((s.feed x).cls == .fault) 2
    | none => 0
  let moving := s.feeds.sel == .brk || s.feeds.sel == .dead || s.feeds.sel == .make
  a + flag moving 3 + flag (s.feeds.sel == .onB) 4

/-- P of R197 in watts. -/
def loadPower (s : State) : Rat :=
  sumQ ((allRails.filter fun r => s.railEn r.val && s.regulating r).map s.pinF) + (s.feedN 2 Ob.Feed.pAuxMw : Rat) / 1000

/-- The predicted hold-up in 0.1 ms (R197). -/
def holdupNow (s : State) (p : Rat) : Nat :=
  let calm : Bool := match s.activeFeed with
    | some x => (s.feed x).cls == .good && !(s.feed x).falling
    | none => false
  let vmin : Rat := (s.feedN 2 Ob.Feed.vbusMin : Rat) / 1000
  let v := s.vbusV
  if calm then 65535
  else if v ≤ vmin then 0
  else if p = 0 then 65535
  else min ((s.feedN 2 Ob.Feed.cbusUf : Rat) * (v * v - vmin * vmin) / (200 * p)).floor.toNat 65534

def warnRecord (s : State) (sub : Nat) : State :=
  s.record Code.ewarn Ob.clsFeed 2 sub (leBytes 1 s.warnCauses ++ leBytes 1 s.feeds.episode ++ leBytes 2 s.feeds.holdup)

/-- The early warning over one frame edge (R196): it is raised at the edge at which the first cause appears. -/
def warnEdge (s : State) : State :=
  let p := s.loadPower
  let cause := s.warnCause
  let s := { s with feeds := { s.feeds with
    pload := p, holdup := s.holdupNow p, cause := s.causeBits, causeGone := if cause then s.now else s.feeds.causeGone } }
  if cause && !s.feeds.ewarn then
    let s := { s with feeds := { s.feeds with ewarn := true, episode := (s.feeds.episode + 1) % 256 } }
    let s := (s.count Ob.clsFeed 2 Ob.Feed.ewarns).irq Irq.ewarn
    (s.warnRecord 0).warnAll
  else s

/-- Feeds over one frame edge. -/
def feedFrame (s : State) (i : FeedIn) : State :=
  let s := (s.feedSample i).releaseFeedWrites
  ((s.feedClassify .a).feedClassify .b).selectFrame.warnEdge

/-- The gate-fault ending of a break or a make (R191). -/
def gateFails (s : State) (x : FeedId) (k code : Nat) : State :=
  let s := s.setObj Ob.clsFeed (feedInst x) Ob.Feed.faults ((s.obj Ob.clsFeed (feedInst x) Ob.Feed.faults) ||| BitVec.ofNat 32 (2 ^ k))
  let s := (s.count Ob.clsFeed (feedInst x) Ob.Feed.gateFaults).feedRecord code x 0
  ((s.setSel .none)).refreshFlt

/-- The feed being left and the one being made. -/
def feedFrom (s : State) : FeedId := s.feeds.fromFeed.getD .a
def feedTo (s : State) : FeedId := s.feeds.target.getD .a

/-! Output fuses -/

def fuseCtrl (s : State) (r : RailIx) : Word := s.obj Ob.clsRail r.val Ob.Rail.fuseCtrl
def fitted (s : State) (r : RailIx) : Bool := bit (s.fuseCtrl r) 0

/-- The gate is commanded off (R203). -/
def gateOff (s : State) (r : RailIx) : Bool :=
  match (s.rail r).fuse.fstate with | .off | .tripped | .latched => true | _ => false

/-- The pass-short threshold in mV (R203). -/
def psThreshold (s : State) (r : RailIx) : Nat :=
  let t := max 1000 ((s.targetNow r).2 / 10)
  if bit (s.fuseCtrl r) 3 then max t 4000 else t

/-- Ambient temperature of the model (R200). -/
def ambient (s : State) (r : RailIx) : Rat :=
  match s.temps.toList[bits (s.fuseCtrl r) 12 8]? with
  | some t => (t.value : Rat) / 100
  | none => 25

/-- A fuse trips (R201): 1 THERMAL, 2 INSERT_TIMEOUT. -/
def fuseTrip (s : State) (r : RailIx) (cause : Nat) : State :=
  let x := (s.rail r).fuse
  let s := s.modFuse r fun f => { f with
    fstate := .tripped, cause := cause, trippedAt := s.now, gateOffAt := s.now, psArmed := false, aboveRun := 0
    limiting := false, load := true }
  (s.count Ob.clsRail r.val Ob.Rail.fuseTrips).record Code.fuseTrip Ob.clsRail r.val cause
    (leBytes 1 x.retry ++ leBytes 2 (qWord (x.tj * 100)))

/-- A fuse begins to ramp (R198). -/
def fuseRamp (s : State) (r : RailIx) : State :=
  s.modFuse r fun f => { f with fstate := .ramp, rampAt := s.now, psArmed := false, aboveRun := 0 }

/-- A retry: the retry count goes up, in MRAM too, and the gate is charged (R198, R202). -/
def fuseAgain (s : State) (r : RailIx) : State :=
  ((s.modFuse r fun f => { f with retry := f.retry + 1 }).fuseRamp r).saveFuses

/-- The retry timer of a tripped fuse has expired (R198). -/
def fuseRested (s : State) (r : RailIx) : Bool :=
  (s.rail r).fuse.fstate == .tripped &&
    elapsed s.now (s.rail r).fuse.trippedAt (msFrames (s.railN r.val Ob.Rail.fuseRetryMs))

/-- A retry that expired while the rail did not regulate ramps at its next start (R198). -/
def fuseWaited (s : State) (r : RailIx) : State :=
  if s.fitted r && s.fuseRested r && decide ((s.rail r).fuse.retry < s.railN r.val Ob.Rail.fuseRetries) then s.fuseAgain r else s

/-- One frame of a fitted fuse (R199, R200, R203): the thermal model, the linear limit, and the pass-short count. -/
def fuseFrame (s : State) (r : RailIx) (fsrcMv : Nat) (ftmpUv : Int) : State :=
  if !s.fitted r then s
  else
    let x := s.rail r
    let q (item : Nat) : Rat := s.railQ r.val item / 100
    let p := (x.meas.v - (fsrcMv : Rat) / 1000) * x.meas.iRail
    let tc := if bit (s.fuseCtrl r) 2 then tmonTemp (s.obj Ob.clsRail r.val Ob.Rail.ftmpXfer) ftmpUv
      else caseStep x.fuse.tc p (s.ambient r) (q Ob.Rail.rthCa) (s.railQ r.val Ob.Rail.cth / 1000)
    let tj := tc + p * q Ob.Rail.rthJc
    let above := decide (s.psThreshold r < fsrcMv)
    let off := s.gateOff r
    let s := s.modFuse r fun f => { f with
      voutMv := fsrcMv, tc := tc, tj := tj
      limiting := f.fstate == .ramp && decide (s.railQ r.val Ob.Rail.inrushMa < x.meas.iRail * 1000)
      psArmed := off && (f.psArmed || !above)
      aboveRun := if off && above && f.psArmed then f.aboveRun + 1 else 0 }
    let hot := (x.fuse.fstate == .ramp || x.fuse.fstate == .on) && decide (q Ob.Rail.tjMax < tj)
    if hot then s.fuseTrip r 1 else s

end State

/-! The commands -/

/-- FEED_RETURN (R191, R193): A has been GOOD for RETURN_DELAY_MS, counted afresh from the end of a changeover. -/
def execFeedReturn (s : State) : Out :=
  .next (match (s.feed .a).goodSince with
    | none => s
    | some t =>
      if s.feeds.sel == .onB && s.twin.driving && s.selClass .a == .good &&
          elapsed s.now (max t s.feeds.selAt) (msFrames (s.feedN 2 Ob.Feed.returnDelayMs)) then
        s.startBreak .b (some .a) true
      else s)

/-- BREAK_CONFIRM (R192). -/
def execBreakConfirm (s : State) : Out :=
  .next (if s.feeds.sel == .brk && decide (2 ≤ s.feeds.confirmRun) then s.setSel .dead else s)

/-- BREAK_FAIL (R191). -/
def execBreakFail (s : State) : Out :=
  .next (if s.feeds.sel == .brk && decide (s.feeds.confirmRun < 2) &&
      elapsed s.now s.feeds.selAt (usFrames (s.feedN 2 Ob.Feed.confirmUs)) then
    s.gateFails s.feedFrom 0 Code.breakFail else s)

/-- DEAD_END (R191). -/
def execDeadEnd (s : State) : Out :=
  .next (if s.feeds.sel == .dead && elapsed s.now s.feeds.selAt (usFrames (s.feedN 2 Ob.Feed.deadUs)) then
    (match s.feeds.target with
     | some y => if !s.selFault y then s.startMake y false
       else if !s.selFault s.feedFrom then s.startMake s.feedFrom false else s.setSel .none
     | none => if !s.selFault s.feedFrom then s.startMake s.feedFrom false else s.setSel .none)
    else s)

/-- FEED_ON (R191): the make is confirmed. -/
def execFeedOn (s : State) : Out :=
  let x := s.feedTo
  .next (if s.feeds.sel == .make && decide (8000 ≤ (s.feed x).gate) &&
      (!s.feeds.slow || decide (s.vinQ x ≤ s.vbusQ + 1000)) then
    let sub := if s.feeds.fromFeed.isNone then 0 else if s.feeds.isReturn then 2 else 1
    let s := s.count Ob.clsFeed (feedInst x) Ob.Feed.turnOns
    (s.setSel (if x == .a then .onA else .onB)).feedRecord Code.feedOn x sub
    else s)

/-- MAKE_FAIL (R191): not confirmed in 20 µs (fast) or 100 ms (slow). -/
def execMakeFail (s : State) : Out :=
  .next (if s.feeds.sel == .make && elapsed s.now s.feeds.selAt (if s.feeds.slow then msFrames 100 else usFrames 20) then
    s.gateFails s.feedTo 1 Code.makeFail else s)

/-- EWARN_CLEAR (R196): no cause has held for EW_HOLD_MS. -/
def execEwarnClear (s : State) : Out :=
  .next (if s.feeds.ewarn && !s.warnCause && elapsed s.now s.feeds.causeGone (msFrames (s.feedN 2 Ob.Feed.ewHoldMs)) then
    let s := { s with feeds := { s.feeds with ewarn := false } }
    ((s.irq Irq.ewarn).warnRecord 1).warnAll
    else s)

/-- FUSE_RAMP_DONE (R198). -/
def execFuseRampDone (r : RailIx) (s : State) : Out :=
  let x := s.rail r
  .next (if x.fuse.fstate == .ramp &&
      decide (x.meas.v * 1000 - s.railQ r.val Ob.Rail.insDropMv ≤ (x.fuse.voutMv : Rat)) then
    s.modFuse r fun f => { f with fstate := .on, limiting := false } else s)

/-- FUSE_INSERT_TIMEOUT (R198, R201). -/
def execFuseInsertTimeout (r : RailIx) (s : State) : Out :=
  let x := (s.rail r).fuse
  .next (if x.fstate == .ramp && elapsed s.now x.rampAt (msFrames (s.railN r.val Ob.Rail.insTmoMs)) then s.fuseTrip r 2 else s)

/-- FUSE_RETRY (R198): the timer has expired; a retry waits for a regulating rail. -/
def execFuseRetry (r : RailIx) (s : State) : Out :=
  let x := (s.rail r).fuse
  .next (if s.fuseRested r then
    if s.railN r.val Ob.Rail.fuseRetries ≤ x.retry then
      (s.modFuse r fun f => { f with fstate := .latched }).record Code.fuseLatch Ob.clsRail r.val 0 (leBytes 1 x.retry)
    else if s.regulating r then s.fuseAgain r
    else s
    else s)

/-- PASS_SHORT (R203): VOUT stayed above the threshold for 200 frames with the gate commanded off. -/
def execPassShort (r : RailIx) (s : State) : Out :=
  let x := (s.rail r).fuse
  .next (if s.fitted r && x.fstate != .passShort && decide (200 ≤ x.aboveRun) then
    let s := s.latchRail r .passShort Code.passShort Ob.clsRail r.val 0 (leBytes 4 x.voutMv)
    s.modFuse r fun f => { f with fstate := .passShort, aboveRun := 0 } else s)

/-- PASS_SHORT_ARM (R203): PS_ARM_MS after the gate was commanded off. -/
def execPassShortArm (r : RailIx) (s : State) : Out :=
  let x := (s.rail r).fuse
  .next (if s.fitted r && s.gateOff r && elapsed s.now x.gateOffAt (msFrames (s.railN r.val Ob.Rail.psArmMs)) then
    s.modFuse r fun f => { f with psArmed := true } else s)

/-- LOAD_DETECT_CHANGE (R202): below 1.0 V the load is present, above 2.0 V absent. -/
def execLoadDetectChange (r : RailIx) (fsrcMv : Nat) (s : State) : Out :=
  let x := (s.rail r).fuse
  .next (if s.fitted r && bit (s.fuseCtrl r) 3 && (x.fstate == .tripped || x.fstate == .latched) then
    if fsrcMv < 1000 ∧ !x.load then
      (s.modFuse r fun f => { f with load := true }).record Code.loadInserted Ob.clsRail r.val 0 []
    else if 2000 < fsrcMv ∧ x.load then
      (s.modFuse r fun f => { f with load := false }).record Code.loadRemoved Ob.clsRail r.val 0 []
    else s
    else s)

end Sys2Proof.Machine
end

