-- ==== Sys2Proof/Machine/Domains.lean ====
section
/-! DEFINITION. Domains and sequencing (R236 … R247): requests, up and down steps, qualification, start failures, discharge
and retries. The state machine of R245 stands in Rails.lean, where latching also uses it. -/

namespace Sys2Proof.Machine
namespace State

/-- SRC of a domain is PIN (R236). -/
def srcPin (s : State) (d : DomainIx) : Bool := bit (s.obj Ob.clsDomain d.val Ob.Domain.ctrl) 0

/-- The EN pin that the PIN class maps to a domain (R353). -/
def enPinOf (s : State) (d : DomainIx) : Option (Fin 4) :=
  let k := bits (s.obj Ob.clsPin 0 Ob.Pin.enMap) (4 * d.val + 3) (4 * d.val)
  if h : k < 4 then some ⟨k, h⟩ else none

/-- A domain in OFF whose request is ON starts once nothing blocks or holds it (R237, R245). -/
def tryStart (s : State) (d : DomainIx) : State :=
  let x := s.domain d
  if x.dstate == .off && x.req && !s.deviceHold && !s.domBlocks d && !(s.railsOf d.val).isEmpty then s.enterUp d true else s

/-- The request of a domain (R236, R245). -/
def setReq (s : State) (d : DomainIx) (on : Bool) : State :=
  let x := s.domain d
  if x.req == on then s
  else
    let s := s.modDomain d fun y => { y with req := on }
    if on then s.tryStart d
    else match x.dstate with
      | .up | .on => s.enterDown d
      | .down => s.modDomain d fun y => { y with retryFlag := false }
      | .retryWait => (s.setDom d .off).settleDev
      | _ => s

/-- The request that a PIN domain takes from its pin; after LATCHED it stays OFF until the pin has read low and then high
(R236, R246). -/
def pinRequest (s : State) (d : DomainIx) : State :=
  if s.srcPin d then
    match s.enPinOf d with
    | some k => s.setReq d (s.dev.enLevel.getLsbD k.val && (s.domain d).pinArmed)
    | none => s.setReq d false
  else s

/-- A DEVICE action powers every domain down without changing its request (R214, R229, R245). -/
def powerDownAll (s : State) : State :=
  forEach allDomains (fun s d =>
    match (s.domain d).dstate with
    | .up | .on => s.enterDown d
    | _ => s) s

/-- After a DEVICE hold the domains whose on request stands start again (R214, R229). -/
def startStanding (s : State) : State := forEach allDomains tryStart s

/-- One of a rail's phases is forced to HS_ON (R72, R244). -/
def hsOnPhase (s : State) (r : RailIx) : Bool := (s.phasesOf r.val).any fun n => (s.phase n).gen.forceOn == .hsOn

/-- SEQ_CTRL.WAIT_PG and DIS_ACTIVE of a rail (R249). -/
def waitPg (s : State) (r : RailIx) : Bool := bit (s.obj Ob.clsRail r.val Ob.Rail.seqCtrl) 0
def disActive (s : State) (r : RailIx) : Bool := bit (s.obj Ob.clsRail r.val Ob.Rail.seqCtrl) 1

/-- The step of the rail after r is scheduled where its reference point is now (R244). -/
def schedAfter (s : State) (d : DomainIx) (r : RailIx) (qualified : Bool) : State :=
  match s.dueNext d (some r) with
  | none => s
  | some n =>
    if s.waitPg n == qualified && (s.rail n).seq.rseq == .off && (s.rail n).upDue.isNone then s.schedUp d n else s

/-- A rail enters RAMP (R238): the law starts unless a hold keeps its phases Disabled; the start then follows the hold. -/
def enterRamp (s : State) (r : RailIx) : State :=
  let s := s.modRail r fun x => { x with
    upDue := none
    seq := { x.seq with rseq := .ramp, good := false, qualStart := none, paused := false
                        upEnd := s.now + msFrames (s.railN r.val Ob.Rail.upTmoMs) } }
  ((s.startLaw r).fuseStart r).fuseWaited r

/-- The error of the current loop that sinks DIS_IMA (R241), in amperes. -/
def disError (s : State) (r : RailIx) : Rat := -(s.railQ r.val Ob.Rail.disIma) / 1000 - (s.rail r).meas.iRail

/-- The common duty of an active discharge begins at v / v_bus (R241). -/
def disStart (s : State) (r : RailIx) : State :=
  let d := clampQ (divBus (s.rail r).meas.v s.vbusV) 0 (s.dmaxQ r)
  let e := s.disError r
  s.modSeq r fun x => { x with disDuty := d, disErr1 := e, paused := false }

/-- A rail enters DISCHARGE (R238, R241): law, profile, skims, live tuning and the pattern stop, the levels of R216 end. -/
def enterDischarge (s : State) (r : RailIx) : State :=
  let s := ((s.strokeMismatch r).modFf r fun x => { x with dFF := 0, fade := none, applied := false })
  let s := ((s.abortSkim r).abortPassive r).abortTuneOn r 2
  let s := s.modRail r fun x => { x with
    dnDue := none
    law := { x.law with regime := .linear, armed := false, slamFrames := 0 }
    meas := { x.meas with dFF := 0 }
    lt := { x.lt with running := false, ending := false, window := [], windowFrames := 0, sine := 0, clearRun := 0 }
    prot := { x.prot with uvw := false, uvf := false, ovw := false, ovf := false, uvwRun := 0, uvfRun := 0, ovwRun := 0
                          ovfRun := 0, limRun := 0 }
    seq := { x.seq with rseq := .discharge, qualStart := none, disRun := 0
                        disEnd := s.now + msFrames (s.railN r.val Ob.Rail.disTmoMs) } }
  let s := forEach (s.phasesOf r.val) (fun s n => (s.modSense n fun y => { y with shed := false }).modGen n fun g =>
    { g with slamPark := false, wokeAt := some (g.wokeAt.getD s.now) }) s
  s.disStart r

/-- A rail's discharge has ended: it enters OFF, and the down-sequence goes on (R238, R244). -/
def enterOff (s : State) (r : RailIx) : State :=
  ((s.disablePhases r).leaveRegulation r false).railWentOff r

/-- One frame of a discharge (R238, R241): the level, the pause on a high bus, and the sinking current loop. -/
def disFrame (s : State) (r : RailIx) : State :=
  let x := s.rail r
  let low := decide (x.meas.vCoarse * 1000 < s.railQ r.val Ob.Rail.disMv)
  let s := s.modSeq r fun q => { q with disRun := if low then q.disRun + 1 else 0 }
  if !s.disActive r then s
  else if x.seq.paused then
    (if s.feeds.vbus + 1000 < s.railN r.val Ob.Rail.disVbusMv then s.disStart r else s)
  else if s.railN r.val Ob.Rail.disVbusMv ≤ s.feeds.vbus then
    forEach (s.phasesOf r.val) (fun s n => (s.dropCarry n).modGen n fun g =>
      { g with rise := none, fall := none, te := 0, switching := false }) (s.modSeq r fun q => { q with paused := true })
  else
    let e := s.disError r
    let k (item : Nat) : Rat := gain32 (s.obj Ob.clsRail r.val item)
    let d := clampQ (limitDemand (s.busNorm r) (k Ob.Rail.kpI) (k Ob.Rail.kiI) x.seq.disDuty e x.seq.disErr1) 0 (s.dmaxQ r)
    let w := dutyWord d (s.railN r.val Ob.Rail.dmax)
    let s := s.modSeq r fun q => { q with disDuty := d, disErr1 := e }
    (s.modLaw r fun l => { l with dRail := w, dSel := d }).commitPhases r fun _ => w

/-- A rail is good in a frame (R239); v and p of R105. -/
def goodNow (s : State) (r : RailIx) : Bool :=
  let x := s.rail r
  let win := max (x.prof.p * s.railQ r.val Ob.Rail.pgWin / 1000) (s.railQ r.val Ob.Rail.pgFloorMv)
  s.regulating r && !x.prof.softStart && !s.inHiccup r && decide (absQ (x.meas.v * 1000 - x.prof.p) ≤ win)

/-- GOOD and the qualify timer over one frame (R240). -/
def goodFrame (s : State) (r : RailIx) : State :=
  let g := s.goodNow r
  let q := (s.rail r).seq
  let s := s.countIf (q.rseq == .ramp && !g && q.qualStart.isSome) Ob.clsRail r.val Ob.Rail.qualifyRestarts
  s.modSeq r fun x => { x with
    good := g
    qualStart := if x.rseq == .ramp && g then some (x.qualStart.getD s.now) else none }

/-- The EN pins over one frame: how long a level differs from the filtered one (R236). -/
def enFrame (s : State) (pins : BitVec 4) : State :=
  { s with dev := { s.dev with
      enPins := pins
      enRun := Vector.ofFn fun k : Fin 4 =>
        if pins.getLsbD k.val != s.dev.enLevel.getLsbD k.val then s.dev.enRun.get k + 1 else 0 } }

end State

/-- EN_PIN_CHANGE (R236): a level that held for 40 frames becomes the request of the pin's domains. -/
def execEnPinChange (pin : Fin 4) (s : State) : Out :=
  .next (if s.framesRun && decide (40 ≤ s.dev.enRun.get pin) then
    let s := { s with dev := { s.dev with
      enLevel := s.dev.enLevel ^^^ BitVec.ofNat 4 (2 ^ pin.val), enRun := vset s.dev.enRun pin 0 } }
    forEach allDomains (fun s d =>
      if s.srcPin d && s.enPinOf d == some pin then (s.modDomain d fun x => { x with pinArmed := true }).pinRequest d else s) s
    else s)

/-- DOMAIN_UNBLOCKED (R237): nothing blocks the domain any more and its request stands. -/
def execDomainUnblocked (d : DomainIx) (s : State) : Out := .next (if s.framesRun then s.tryStart d else s)

/-- RAIL_UP_STEP (R244): due, past the minimum off time, with no phase in HS_ON. -/
def execRailUpStep (r : RailIx) (s : State) : Out :=
  match s.railDomain r, (s.rail r).upDue with
  | some d, some t =>
    .next (if s.framesRun && (s.domain d).dstate == .up && (s.rail r).seq.rseq == .off && decide (t ≤ s.now) &&
        decide ((s.rail r).seq.minOffEnd ≤ s.now) && !s.hsOnPhase r then
      (s.enterRamp r).schedAfter d r false
    else s)
  | _, _ => .next s

/-- RAIL_QUALIFIED (R240, R245): the rail is ON; with every rail ON, so is the domain. -/
def execRailQualified (r : RailIx) (s : State) : Out :=
  match s.railDomain r, (s.rail r).seq.qualStart with
  | some d, some t =>
    .next (if s.framesRun && (s.rail r).seq.rseq == .ramp && elapsed s.now t (usFrames (s.railN r.val Ob.Rail.qualUs)) then
      let s := s.modSeq r fun x => { x with rseq := .on, qualStart := none }
      let after := bit (s.fuseCtrl r) 0 && bit (s.fuseCtrl r) 1 && (s.rail r).fuse.fstate == .off
      let s := if after then s.fuseRamp r else s
      if (s.domain d).dstate != .up then s
      else if (s.railsOf d.val).all fun x => (s.rail x).seq.rseq == .on then
        let us := min ((s.now - (s.domain d).upStart) / 2) maxWord
        let s := (s.setDom d .on).modDomain d fun x => { x with upTimeUs := us, stepRail := 255 }
        s.record Code.domainOn Ob.clsDomain d.val 0 (leBytes 4 us)
      else s.schedAfter d r true
    else s)
  | _, _ => .next s

/-- START_FAIL (R245, R246): UP_TMO_MS in RAMP; the domain goes down to a retry or to LATCHED. -/
def execStartFail (r : RailIx) (s : State) : Out :=
  match s.railDomain r with
  | none => .next s
  | some d =>
    .next (if s.framesRun && (s.domain d).dstate == .up && (s.rail r).seq.rseq == .ramp &&
        decide ((s.rail r).seq.upEnd ≤ s.now) then
      let s := s.count Ob.clsRail r.val Ob.Rail.startFail
      let left := (s.domain d).retryLeft
      let s := s.modDomain d fun x => { x with failRail := r.val }
      if 0 < left then
        let s := s.modDomain d fun x => { x with retryLeft := left - 1, retryFlag := true }
        (s.record Code.startFail Ob.clsRail r.val 0 (leBytes 1 d.val ++ leBytes 1 (left - 1))).enterDown d
      else
        let s := s.modDomain d fun x => { x with latchFlag := true, latchRail := r.val, latchCause := .startFail }
        (s.recordSnap Code.startFail Ob.clsRail r.val 0 (leBytes 1 d.val ++ leBytes 1 0) r Latch.startFail.code).enterDown d
    else s)

/-- RAIL_DOWN_STEP (R244): the rail's discharge starts. -/
def execRailDownStep (r : RailIx) (s : State) : Out :=
  match (s.rail r).dnDue with
  | none => .next s
  | some t => .next (if s.framesRun && decide (t ≤ s.now) &&
      ((s.rail r).seq.rseq == .ramp || (s.rail r).seq.rseq == .on) then s.enterDischarge r else s)

/-- DISCHARGE_DONE (R238). -/
def execDischargeDone (r : RailIx) (s : State) : Out :=
  .next (if s.framesRun && (s.rail r).seq.rseq == .discharge && decide (4 ≤ (s.rail r).seq.disRun) then s.enterOff r else s)

/-- DISCHARGE_TIMEOUT (R238). -/
def execDischargeTimeout (r : RailIx) (s : State) : Out :=
  .next (if s.framesRun && (s.rail r).seq.rseq == .discharge && decide ((s.rail r).seq.disEnd ≤ s.now) then
    let s := s.count Ob.clsRail r.val Ob.Rail.dischargeTimeout
    (s.record Code.dischargeTimeout Ob.clsRail r.val 0 (leBytes 4 (State.qWord ((s.rail r).meas.vCoarse * 1000)))).enterOff r
  else s)

/-- DOMAIN_RETRY (R245): RETRY_MS elapsed in RETRY_WAIT. -/
def execDomainRetry (d : DomainIx) (s : State) : Out :=
  let x := s.domain d
  .next (if s.framesRun && x.dstate == .retryWait && decide (x.retryEnd ≤ s.now) && !s.deviceHold && !s.domBlocks d then
    s.enterUp d false else s)

end Sys2Proof.Machine
end

