-- ==== Sys2Proof/Machine/Protection.lean ====
section
/-! DEFINITION. Comparators (R207 … R215), rail levels, hiccup and input limits (R216 … R226), and temperatures
(R227 … R229): what a frame evaluates, and the commands. -/

namespace Sys2Proof.Machine
namespace State

/-! Comparators -/

def cmpCtrl (s : State) (c : CmpIx) : Word := s.obj Ob.clsCmp c.val Ob.Cmp.ctrl
def cmpEn (s : State) (c : CmpIx) : Bool := bit (s.cmpCtrl c) 0
def cmpMode (s : State) (c : CmpIx) : Nat := bits (s.cmpCtrl c) 7 5
def cmpLatch (s : State) (c : CmpIx) : Nat := bits (s.cmpCtrl c) 11 10

/-- A comparator runs: enabled, with the device running, and in SLEEP in SAMPLED_TICK mode only (R209). -/
def cmpRuns (s : State) (c : CmpIx) : Bool :=
  s.cmpEn c && (s.framesRun || (s.dev.dstate == .sleep && s.cmpMode c == 4))

/-- REFPH of a comparator, none for 0xFF (R233). -/
def refPhase (s : State) (c : CmpIx) : Option PhaseIx :=
  let n := s.cmpN c.val Ob.Cmp.refph
  if h : n < 48 then some ⟨n, h⟩ else none

/-- The positive input in µV of the comparison domain (R207). -/
def cmpInput (s : State) (c : CmpIx) (pinUv : Int) : Rat :=
  let k := s.cmpN c.val Ob.Cmp.insel
  if 48 ≤ k ∧ k < 64 then (pinUv : Rat) * 2400 / (s.fullScaleMv (k - 48) : Rat)
  else if 64 ≤ k ∧ k < 72 then (pinUv : Rat) / 30
  else (pinUv : Rat)

/-- V_ramp in µV at a tick (R208): from the rising high-side edge of REFPH to the end of its period; one tick is 1/12 800
of a microsecond. -/
def cmpRamp (s : State) (c : CmpIx) (tick : Nat) : Rat :=
  let w := s.obj Ob.clsCmp c.val Ob.Cmp.ramp
  if !bit w 15 then 0
  else match s.refPhase c with
    | none => 0
    | some n =>
      let g := (s.phase n).gen
      match g.rise with
      | none => 0
      | some a => if g.startTick + a ≤ tick ∧ tick < g.startTick + g.thisPeriod then (bits w 9 0 : Rat) * 250 * ((tick - g.startTick - a : Nat) : Rat) / 12800 else 0

/-- The negative input in µV (R208). -/
def cmpThreshold (s : State) (c : CmpIx) (tick : Nat) : Rat :=
  max ((s.cmpN c.val Ob.Cmp.dac : Rat) * 9375 / 4 - s.cmpRamp c tick) 0

/-- The hysteresis in µV (R210). -/
def cmpHyst (s : State) (c : CmpIx) : Rat := (2000 * bits (s.cmpCtrl c) 19 16 : Nat)

/-- Does an input assert the decision, and does it release it (R210)? Between the two lies the hysteresis band. -/
def cmpOver (s : State) (c : CmpIx) (x : Rat) (tick : Nat) : Bool :=
  if bit (s.cmpCtrl c) 13 then x < s.cmpThreshold c tick else s.cmpThreshold c tick < x
def cmpUnder (s : State) (c : CmpIx) (x : Rat) (tick : Nat) : Bool :=
  if bit (s.cmpCtrl c) 13 then s.cmpThreshold c tick + s.cmpHyst c < x else x < s.cmpThreshold c tick - s.cmpHyst c

/-- Is the output held by blanking at a tick (R212)? Blanking does not apply to the SAMPLED modes (R209). -/
def cmpBlanked (s : State) (c : CmpIx) (tick : Nat) : Bool :=
  let b := s.cmpN c.val Ob.Cmp.blank
  decide (0 < b) && decide (s.cmpMode c < 3) &&
  match s.refPhase c with
  | none => false
  | some n => (s.blankEdges n).any fun e => (s.phase n).gen.startTick + e ≤ tick && tick < (s.phase n).gen.startTick + e + b

/-- The rail that ROUTE names (R233). -/
def cmpRail (s : State) (c : CmpIx) : RailIx := ⟨bits (s.obj Ob.clsCmp c.val Ob.Cmp.route) 11 8 % 16, by omega⟩

def cmpRecord (s : State) (c : CmpIx) (sub : Nat) : State :=
  s.record Code.cmpAssert Ob.clsCmp c.val sub (leBytes 1 (s.cmpRail c).val)

/-- The protective action of an assertion (R214). -/
def cmpRoute (s : State) (c : CmpIx) : State :=
  let r := s.cmpRail c
  match bits (s.obj Ob.clsCmp c.val Ob.Cmp.route) 2 0 with
  | 1 => s.cmpRecord c 1
  | 2 => s.crowbar r 1 c.val
  | 3 => if s.inHiccup r then s.cmpRecord c 3 else s.modProt r fun p => { p with cmpHic := true }
  | 4 => s.latchRail r .cmp Code.cmpAssert Ob.clsCmp c.val 4 (leBytes 1 r.val)
  | 5 => (((s.cmpRecord c 5).modCmp c fun x => { x with device := true }).powerDownAll).refreshFlt
  | _ => s

/-- An assertion: it is counted and acts on TRIPSEL, ROUTE and the CMPO pins (R214). -/
def cmpFire (s : State) (c : CmpIx) (tick : Nat) : State :=
  let s := (s.modCmp c fun x => { x with
    out := true, outAt := tick, initHold := false, latched := s.cmpLatch c != 0 })
  let s := s.count Ob.clsCmp c.val Ob.Cmp.asserts
  let s := forEach (allPhases.filter fun n => bit (s.obj Ob.clsPhase n.val Ob.Phase.tripsel) c.val)
    (fun s n => s.tripPhase n tick) s
  s.cmpRoute c

/-- The decision asserts (R210 … R212): outside blanking the output asserts at once. -/
def cmpDecide (s : State) (c : CmpIx) (tick : Nat) : State :=
  let x := s.cmp c
  let s := s.modCmp c fun y => { y with decision := true }
  if (x.out && !x.initHold) || s.cmpBlanked c tick then s else s.cmpFire c tick

/-- The decision falls (R210, R213): a LEVEL output follows outside blanking; an output held at INIT is released. -/
def cmpRelease (s : State) (c : CmpIx) (tick : Nat) : State :=
  let s := s.modCmp c fun y => { y with decision := false }
  if (s.cmp c).initHold || (s.cmpLatch c == 0 && !s.cmpBlanked c tick) then
    s.modCmp c fun y => { y with out := false, initHold := false, latched := false }
  else s

/-- A comparator begins afresh under R211: after enable, or a write of CTRL or INSEL. -/
def cmpRestart (s : State) (c : CmpIx) : State :=
  let en := s.cmpEn c
  s.modCmp c fun x => { x with
    decision := false, decided := false, latched := false, initHold := en, out := en && bit (s.cmpCtrl c) 14
    outAt := s.frameTick }

/-- What blanking held back, as the frame edge finds it (R212). -/
def cmpFrame (s : State) : State :=
  forEach allCmps (fun s c =>
    let x := s.cmp c
    if !s.cmpRuns c || s.cmpBlanked c s.frameTick then s
    else if x.decision && (!x.out || x.initHold) then s.cmpFire c s.frameTick
    else if !x.decision && !x.initHold && x.out && s.cmpLatch c == 0 then s.modCmp c fun y => { y with out := false }
    else s) s

/-- A period start of REFPH clears the LATCH_PERIOD outputs; a decision still asserted asserts again (R213). -/
def cmpPeriod (s : State) (n : PhaseIx) : State :=
  let tick := (s.phase n).gen.startTick
  forEach allCmps (fun s c =>
    if s.refPhase c == some n && s.cmpLatch c == 2 && (s.cmp c).latched then
      let s := s.modCmp c fun x => { x with out := false, latched := false }
      if (s.cmp c).decision && !s.cmpBlanked c tick then s.cmpFire c tick else s
    else s) s

/-- A write of CLR (R213, R214): a LATCH_SW output clears, or asserts again; a DEVICE hold ends where the output was
deasserted. -/
def cmpClear (s : State) (c : CmpIx) : State :=
  let x := s.cmp c
  if x.out then
    if s.cmpLatch c == 1 && x.latched then
      (if x.decision then s.cmpFire c s.frameTick else s.modCmp c fun y => { y with out := false, latched := false })
    else s
  else if x.device then
    ((s.modCmp c fun y => { y with device := false }).startStanding).refreshFlt
  else s

/-! Rail levels (R216, R217) -/

/-- The distance of a level from p in mV (R216). -/
def levelDist (s : State) (r : RailIx) (l : Level) : Rat :=
  let p := (s.rail r).prof.p
  let q (item floor : Nat) : Rat := max (p * absQ (s.railI r.val item : Rat) / 1000) (s.railQ r.val floor)
  match l with
  | .uvWarn => q Ob.Rail.uvWarn Ob.Rail.warnFloorMv
  | .ovWarn => q Ob.Rail.ovWarn Ob.Rail.warnFloorMv
  | .uvFault => q Ob.Rail.uvFault Ob.Rail.faultFloorMv
  | .ovFault => q Ob.Rail.ovFault Ob.Rail.faultFloorMv

/-- Is v beyond a level (R216)? -/
def beyond (s : State) (r : RailIx) (l : Level) : Bool :=
  let v := (s.rail r).meas.v * 1000
  let p := (s.rail r).prof.p
  match l with
  | .uvWarn | .uvFault => v < p - s.levelDist r l
  | .ovWarn | .ovFault => p + s.levelDist r l < v

/-- The qualification count of a level (R217). -/
def levelQual (s : State) (r : RailIx) (l : Level) : Nat :=
  let w := s.obj Ob.clsRail r.val Ob.Rail.lvlQual
  match l with
  | .uvWarn | .uvFault => bits w 7 0
  | .ovWarn | .ovFault => bits w 15 8

/-- The run of frames that argue for a change of a crossing. -/
def runOf (crossed isBeyond : Bool) (run : Nat) : Nat := if crossed == isBeyond then 0 else run + 1

/-- The levels of a rail over one frame (R217): OV while it regulates, UV not in soft start, off times and holds; none in
DISCHARGE (R241). -/
def levelFrame (s : State) (r : RailIx) : State :=
  let x := s.rail r
  let ovOn := x.seq.rseq == .ramp || x.seq.rseq == .on
  let uvOn := ovOn && !x.prof.softStart && !s.inHiccup r && !s.heldOff r
  s.modProt r fun p => { p with
    ovwRun := if ovOn then runOf p.ovw (s.beyond r .ovWarn) p.ovwRun else 0
    ovfRun := if ovOn then runOf p.ovf (s.beyond r .ovFault) p.ovfRun else 0
    uvw := p.uvw && uvOn
    uvf := p.uvf && uvOn
    uvwRun := if uvOn then runOf p.uvw (s.beyond r .uvWarn) p.uvwRun else 0
    uvfRun := if uvOn then runOf p.uvf (s.beyond r .uvFault) p.uvfRun else 0 }

/-- Current-limited frames, episodes and the clean time of a rail over one frame (R223, R224). -/
def limitFrame (s : State) (r : RailIx) (lawRan : Bool) : State :=
  let lim := lawRan && (s.rail r).meas.sawLimit
  let s := s.countIf (lim && decide (64 ≤ (s.rail r).prot.notLimRun)) Ob.clsRail r.val Ob.Rail.ocEpisodes
  let clean := s.regulating r && !s.inHiccup r
  s.modProt r fun p => { p with
    limRun := if lim then p.limRun + 1 else 0
    notLimRun := if lim then 0 else p.notLimRun + 1
    hicClean := if clean then p.hicClean + 1 else p.hicClean }

/-- The input limits of a rail over one frame (R226), on the mean of VBUS. -/
def inputFrame (s : State) (r : RailIx) : State :=
  let w := s.obj Ob.clsRail r.val Ob.Rail.inLim
  let lo := bits w 15 0
  let hi := bits w 31 16
  let v := s.vbusQ
  let under := decide (0 < lo) && decide (v < (lo : Rat))
  let above := decide (0 < hi) && decide ((hi : Rat) < v)
  s.modProt r fun p =>
    let back := (!p.inuv || lo == 0 || decide ((lo : Rat) + 2000 ≤ v)) && (!p.inov || hi == 0 || decide (v ≤ (hi : Rat) - 2000))
    { p with
      inuvRun := if under then p.inuvRun + 1 else 0
      inovRun := if above then p.inovRun + 1 else 0
      inGoodSince := if (p.inuv || p.inov) && back then some (p.inGoodSince.getD s.now) else none }

/-- The hiccup of a comparator acts at the frame edge, with the frame's other causes (R214, R230). -/
def cmpHiccups (s : State) : State :=
  forEach allRails (fun s r => if (s.rail r).prot.cmpHic then s.hiccupRail r else s) s

/-- A rail whose off time and holds are over restarts through soft start (R223, R226, R229). -/
def restart (s : State) (r : RailIx) : State :=
  if ((s.rail r).seq.rseq == .ramp || (s.rail r).seq.rseq == .on) && !s.heldOff r && !s.inHiccup r then s.startLaw r else s

/-! Temperatures (R227 … R229) -/

/-- A remote diode's temperature in 0.01 °C from ΔV in nV and IDEALITY in UQ2.14 (R227). The manual gives the formula; the
values of q/k (11 604.5181 K/V) and ln 16 (2.772 588 72) are PRESUMED (log entry 19). -/
def diodeTemp (dvNv : Int) (ideality : Nat) : Rat :=
  let n : Rat := ((max ideality 1 : Nat) : Rat) / 16384
  (dvNv : Rat) / 10000000 * (116045181 / 10000) / (n * (277258872 / 100000000)) - 27315

/-- A reading of a sensor in 0.01 °C (R227): die sensors give it, TD inputs give ΔV in nV, TMON inputs their voltage in µV. -/
def tempValue (s : State) (i : TempIx) (reading : Int) : Int :=
  let w := s.obj Ob.clsTemp i.val Ob.Temp.xfer
  if i.val < 8 then reading
  else if i.val < 16 then roundQ (diodeTemp reading (bits w 15 0))
  else roundQ (tmonTemp w (reading : Rat) * 100)

/-- The rails a fault of a sensor acts on (R229): a TMON instance without RAILS takes the rails with phases in its bank. -/
def tempRails (s : State) (i : TempIx) : List RailIx :=
  let w := s.obj Ob.clsTemp i.val Ob.Temp.rails
  if 16 ≤ i.val && w == 0 then
    allRails.filter fun r => (s.phasesOf r.val).any fun n => n.val / 4 + 16 == i.val
  else allRails.filter fun r => bit w r.val

/-- The rate of rise from the 1 ms means, in 0.1 °C/s (R228): 0.01 °C per ms is 100 of them. -/
def rateOf (hist : List Rat) (win : Nat) : Int :=
  match hist.head?, hist[win]? with
  | some a, some b => roundQ ((a - b) * 100 / ((max win 1 : Nat) : Rat))
  | _, _ => 0

/-- The 1 ms means of a sensor and its rate of rise (R228). -/
def tempMean (s : State) (i : TempIx) (v : Int) : State :=
  let x := s.temp i
  let s := s.modTemp i fun y => { y with msSum := y.msSum + v, msCount := y.msCount + 1 }
  if elapsed s.now x.msStart 2000 || i.val < 16 then
    s.modTemp i fun y =>
      let h := pushHist 1001 ((y.msSum : Rat) / ((max y.msCount 1 : Nat) : Rat)) y.hist
      { y with hist := h, msStart := s.now, msSum := 0, msCount := 0, ror := rateOf h (s.tempN i.val Ob.Temp.rorWinMs) }
  else s

/-- What the write window sees of the die sensors (R337, R338), and TJ_HI and TJ_LO (R345). -/
def dieWindow (s : State) : State :=
  let ts := (s.temps.toList.take 8).map (·.value)
  let within (lo hi : Int) : Bool := ts.all fun t => lo ≤ t && t ≤ hi
  let hi := ts.foldl max s.dev.tjHi
  let lo := ts.foldl min s.dev.tjLo
  { s with
    dev := { s.dev with tjHi := hi, tjLo := lo }
    nvm := { s.nvm with
      window := s.nvm.window && within (-2500) 11500
      goodSince := if within (-2300) 11300 then some (s.nvm.goodSince.getD s.now) else none
      armGood := if within (-2200) 11200 then some (s.nvm.armGood.getD s.now) else none
      deferArmed := s.nvm.deferArmed || (s.nvm.window && !within (-2200) 11200) } }

/-- The action of a fault (R229), with its one TEMP_FAULT record, which under LATCH stands for the snapshots of all rails. -/
def tempAct (s : State) (i : TempIx) (sub : Nat) : State :=
  let data := leBytes 2 (intWord (s.temp i).value).toNat
  let rs := s.tempRails i
  let rec' (s : State) : State := s.record Code.tempFault Ob.clsTemp i.val sub data
  match bits (s.obj Ob.clsTemp i.val Ob.Temp.ctrl) 2 1 with
  | 1 =>
    let s := (rec' s).modTemp i fun x => { x with stops := x.stops ++ (rs.map (·.val)).filter fun k => !x.stops.contains k }
    forEach rs (fun s r => (s.disablePhases r).modProt r fun p => { p with thold := true }) s
  | 2 => s.latchRails rs .overtemp Code.tempFault Ob.clsTemp i.val sub data
  | 3 => (((rec' s).modTemp i fun x => { x with device := true }).powerDownAll).refreshFlt
  | _ => rec' s

/-- The levels of a sensor at an update (R228). -/
def tempLevels (s : State) (i : TempIx) : State :=
  let x := s.temp i
  let lv (item : Nat) : Int := (s.obj Ob.clsTemp i.val item).toInt
  let back := lv Ob.Temp.warn - lv Ob.Temp.hyst
  let failAct := x.fail && bit (s.obj Ob.clsTemp i.val Ob.Temp.ctrl) 3
  let lim := lv Ob.Temp.rorLim
  let fast := decide (lim ≠ 0) && decide (lim < x.ror)
  let low := decide (x.value ≤ back) && !failAct
  let level := decide (lv Ob.Temp.fault ≤ x.value) || failAct
  let warn := if x.warn then !low else decide (lv Ob.Temp.warn ≤ x.value) || failAct
  let fault := if x.fault then !(low && !fast) else level || fast
  let s := s.modTemp i fun y => { y with
    warn := warn, fault := fault, rate := fast, belowAt := if low then some (y.belowAt.getD s.now) else none }
  let s := s.countIf (warn && !x.warn) Ob.clsTemp i.val Ob.Temp.warns
  if fault && !x.fault then (s.count Ob.clsTemp i.val Ob.Temp.faults).tempAct i (if level then 0 else 1) else s

end State

/-! The commands -/

/-- CMP_ASSERT (R210, R214): at a tick of the frame the input passes the threshold. -/
def execCmpAssert (c : CmpIx) (pinUv : Int) (tick : Nat) (s : State) : Out :=
  .next (if s.cmpRuns c && (s.cmp c).decided && s.cmpOver c (s.cmpInput c pinUv) tick then s.cmpDecide c tick else s)

/-- CMP_DEASSERT (R210): the input falls back past the hysteresis. -/
def execCmpDeassert (c : CmpIx) (pinUv : Int) (s : State) : Out :=
  .next (if s.cmpRuns c && (s.cmp c).decided && s.cmpUnder c (s.cmpInput c pinUv) s.frameTick then s.cmpRelease c s.frameTick else s)

/-- CMP_FIRST_DECISION (R211): within the hysteresis band the output stays at INIT until the input leaves it. -/
def execCmpFirstDecision (c : CmpIx) (pinUv : Int) (s : State) : Out :=
  let x := s.cmpInput c pinUv
  .next (if s.cmpRuns c && !(s.cmp c).decided then
    let s := s.modCmp c fun y => { y with decided := true }
    if s.cmpOver c x s.frameTick then s.cmpDecide c s.frameTick
    else if s.cmpUnder c x s.frameTick then s.cmpRelease c s.frameTick
    else s
    else s)

/-- UV_WARN_CROSSING (R218). -/
def execUvWarnCrossing (r : RailIx) (s : State) : Out :=
  .next (if s.framesRun && !(s.rail r).prot.uvw && decide (s.levelQual r .uvWarn ≤ (s.rail r).prot.uvwRun) then
    let s := s.modProt r fun p => { p with uvw := true, uvwRun := 0 }
    (s.count Ob.clsRail r.val Ob.Rail.uvWarnCnt).recordIf (bit (s.obj Ob.clsRail r.val Ob.Rail.protCtrl) 3)
      Code.railUvWarn Ob.clsRail r.val 0 (s.levelData r)
  else s)

/-- OV_WARN_CROSSING (R218). -/
def execOvWarnCrossing (r : RailIx) (s : State) : Out :=
  .next (if s.framesRun && !(s.rail r).prot.ovw && decide (s.levelQual r .ovWarn ≤ (s.rail r).prot.ovwRun) then
    let s := s.modProt r fun p => { p with ovw := true, ovwRun := 0 }
    (s.count Ob.clsRail r.val Ob.Rail.ovWarnCnt).recordIf (bit (s.obj Ob.clsRail r.val Ob.Rail.protCtrl) 3)
      Code.railOvWarn Ob.clsRail r.val 0 (s.levelData r)
  else s)

/-- UV_FAULT_CROSSING (R219): with UVF_EN the rail hiccups, else the fault only reports. -/
def execUvFaultCrossing (r : RailIx) (s : State) : Out :=
  .next (if s.framesRun && s.regulating r && s.uvPending r then
    (if bit (s.obj Ob.clsRail r.val Ob.Rail.protCtrl) 0 then s.hiccupRail r else s.uvFaultReport r)
  else s)

/-- OV_FAULT_CROSSING (R220): with OVF_EN the rail is crowbarred, else the fault is recorded. -/
def execOvFaultCrossing (r : RailIx) (s : State) : Out :=
  .next (if s.framesRun && s.regulating r && !(s.rail r).prot.ovf && decide (s.levelQual r .ovFault ≤ (s.rail r).prot.ovfRun) then
    let s := (s.abortTuneOn r 4).modProt r fun p => { p with ovf := true, ovfRun := 0 }
    let s := s.count Ob.clsRail r.val Ob.Rail.ovFaultCnt
    if bit (s.obj Ob.clsRail r.val Ob.Rail.protCtrl) 1 then s.crowbar r 0 255
    else s.record Code.railOvFault Ob.clsRail r.val 0 (s.levelData r)
  else s)

/-- LEVEL_CROSSING_END (R217). -/
def execLevelCrossingEnd (r : RailIx) (l : Level) (s : State) : Out :=
  let p := (s.rail r).prot
  let n := s.levelQual r l
  .next (if !s.framesRun then s else match l with
    | .uvWarn => if p.uvw && decide (n ≤ p.uvwRun) then s.modProt r fun p => { p with uvw := false, uvwRun := 0 } else s
    | .ovWarn => if p.ovw && decide (n ≤ p.ovwRun) then s.modProt r fun p => { p with ovw := false, ovwRun := 0 } else s
    | .uvFault => if p.uvf && decide (n ≤ p.uvfRun) then s.modProt r fun p => { p with uvf := false, uvfRun := 0 } else s
    | .ovFault => if p.ovf && decide (n ≤ p.ovfRun) then s.modProt r fun p => { p with ovf := false, ovfRun := 0 } else s)

/-- HICCUP (R223): HIC_N consecutive current-limited frames. -/
def execHiccup (r : RailIx) (s : State) : Out :=
  .next (if s.framesRun && s.regulating r && decide (s.railN r.val Ob.Rail.hicN ≤ (s.rail r).prot.limRun) then s.hiccupRail r else s)

/-- HICCUP_RESTART (R223): the off time is over; a rail that is not held restarts through soft start. -/
def execHiccupRestart (r : RailIx) (s : State) : Out :=
  match (s.rail r).prot.hicEnd with
  | none => .next s
  | some t => .next (if s.framesRun && decide (t ≤ s.now) then (s.modProt r fun p => { p with hicEnd := none }).restart r else s)

/-- HIC_RUN_RESET (R224): 60 s of regulation without a hiccup. -/
def execHicRunReset (r : RailIx) (s : State) : Out :=
  .next (if sFrames 60 ≤ (s.rail r).prot.hicClean ∧ (s.rail r).prot.hicRun ≠ 0 then
    s.modProt r fun p => { p with hicRun := 0, hicClean := 0 } else s)

/-- INPUT_UV (R226). -/
def execInputUv (r : RailIx) (s : State) : Out :=
  .next (if s.framesRun && !(s.rail r).prot.inuv && decide (64 ≤ (s.rail r).prot.inuvRun) then
    ((s.disablePhases r).modProt r fun p => { p with inuv := true, inGoodSince := none }).record Code.inputUv Ob.clsRail r.val 0
      (leBytes 4 s.feeds.vbus)
  else s)

/-- INPUT_OV (R226). -/
def execInputOv (r : RailIx) (s : State) : Out :=
  .next (if s.framesRun && !(s.rail r).prot.inov && decide (2 ≤ (s.rail r).prot.inovRun) then
    ((s.disablePhases r).modProt r fun p => { p with inov := true, inGoodSince := none }).record Code.inputOv Ob.clsRail r.val 0
      (leBytes 4 s.feeds.vbus)
  else s)

/-- INPUT_HOLD_END (R226): VBUS has been back for 10 ms. -/
def execInputHoldEnd (r : RailIx) (s : State) : Out :=
  match (s.rail r).prot.inGoodSince with
  | none => .next s
  | some t => .next (if s.framesRun && elapsed s.now t (msFrames 10) then
      (s.modProt r fun p => { p with inuv := false, inov := false, inGoodSince := none }).restart r else s)

/-- TEMP_UPDATE (R227, R228): a reading, or none where the sensor reads open or shorted. A disabled sensor reads 25.00 °C. -/
def execTempUpdate (i : TempIx) (reading : Option Int) (s : State) : Out :=
  let en := bit (s.obj Ob.clsTemp i.val Ob.Temp.ctrl) 0
  .next (if !s.framesRun || s.teleStale then s
    else
      let s := if !en then s.modTemp i fun x => { x with value := 2500, fail := false }
        else match reading with
          | some q => s.modTemp i fun x => { x with value := s.tempValue i q, fail := false }
          | none => (s.modTemp i fun x => { x with fail := true }).recordIf (!(s.temp i).fail) Code.sensorFail Ob.clsTemp i.val 0 []
      let s := (s.tempMean i (s.temp i).value).tempLevels i
      if i.val < 8 then s.dieWindow else s)

/-- TEMP_STOP_CLEAR (R229): every sensor that stopped the rail has been at or below WARN − HYST for 1 s. -/
def execTempStopClear (r : RailIx) (s : State) : Out :=
  let causing := allTemps.filter fun i => (s.temp i).stops.contains r.val
  let cool (i : TempIx) : Bool := match (s.temp i).belowAt with
    | some t => elapsed s.now t (sFrames 1)
    | none => false
  .next (if s.framesRun && (s.rail r).prot.thold && causing.all cool then
    let s := forEach causing (fun s i => s.modTemp i fun x => { x with stops := x.stops.filter fun k => k != r.val }) s
    (s.modProt r fun p => { p with thold := false }).restart r
  else s)

/-- TEMP_DEVICE_CLEAR (R229): every sensor that acted on the device has been low for 10 s; standing requests start again. -/
def execTempDeviceClear (s : State) : Out :=
  let causing := allTemps.filter fun i => (s.temp i).device
  let cool (i : TempIx) : Bool := match (s.temp i).belowAt with
    | some t => elapsed s.now t (sFrames 10)
    | none => false
  .next (if s.framesRun && !causing.isEmpty && causing.all cool then
    ((forEach causing (fun s i => s.modTemp i fun x => { x with device := false }) s).startStanding).refreshFlt
  else s)

end Sys2Proof.Machine
end

