-- ==== Sys2Proof/Machine/Meter.lean ====
section
/-! DEFINITION. The sealed meter (13): the samples and counters, the meter's intervals, saves, audit log and mirror, and the
commands that are not requests of the mailbox. -/

namespace Sys2Proof.Machine

/-- The counter in seconds (R48). -/
def TimeState.seconds (t : TimeState) : Rat := (t.sec : Rat) + t.ns / 1000000000

/-- What one sample pair gives (R265): current in A, voltage in V, power in W, whether it was clipped and at no load. -/
structure MeterCalc where
  i : Rat
  v : Rat
  p : Rat
  clipped : Bool
  creep : Bool
deriving DecidableEq, Repr

/-- The arithmetic of R265 on the shunt voltage in nV and the divider voltage in µV, in the units of R276. -/
def meterCalc (m : MeterParams) (shuntNv dividerUv : Int) : MeterCalc :=
  let sh := clampI shuntNv (-62500000) 62500000
  let dv := clampI dividerUv 0 1200000
  let shunt : Rat := ((max m.shunt 1 : Nat) : Rat) / 1000000
  let i := ((sh : Rat) / 1000000000 - (m.iOfs : Rat) / 100000000) * (1 + (m.iGain : Rat) / 1000000) / shunt
  let v := ((dv : Rat) / 1000000 * ((m.div : Rat) / 16777216) - (m.vOfs : Rat) / 1000) * (1 + (m.vGain : Rat) / 1000000)
  let none' := decide (absQ i < (m.creep : Rat) / 100000 * (1 / 16 / shunt))
  ⟨i, v, if none' then 0 else v * i, decide (62500000 ≤ shuntNv.natAbs) || decide (1200000 ≤ dividerUv), none'⟩

/-- A point takes a sample: 250 µs of a watt are 5/72 µWh (R265). -/
def PointState.take (x : PointState) (c : MeterCalc) : PointState :=
  { x with
    imp := if 0 < c.p then x.imp + c.p * 5 / 72 else x.imp
    exp := if 0 < c.p then x.exp else x.exp - c.p * 5 / 72
    clipped := x.clipped || c.clipped
    clippedIv := x.clippedIv || c.clipped
    creepNow := c.creep
    vSum := x.vSum + c.v, iSum := x.iSum + c.i, pSum := x.pSum + c.p, n := x.n + 1 }

/-- A 64-bit counter in µWh (R265). -/
def energyWord (q : Rat) : Nat := q.floor.toNat % 18446744073709551616

/-- Flags of an interval record (R272). -/
abbrev IvFlag.unsure : Nat := 1
abbrev IvFlag.timeStep : Nat := 2
abbrev IvFlag.param : Nat := 4
abbrev IvFlag.powerFail : Nat := 8
abbrev IvFlag.over : Nat := 16

namespace State

def modMeter (s : State) (f : MeterState → MeterState) : State := { s with meter := f s.meter }

/-- The partition runs: a CPV4816M with its supply (R280). -/
def meterRuns (s : State) : Bool := s.dev.part == .m && s.dev.dstate != .unpowered

/-- The enabled points. -/
def meterPoints (s : State) : List PointIx := (List.finRange 16).filter fun i => (s.meter.points.get i).par.en

/-! Intervals (R271, R272) -/

/-- The record of one point's interval that ends at a meter time, without its number. -/
def ivRec (m : MeterState) (i : PointIx) (endAt : Rat) (flags : Nat) : IvRec :=
  let x := m.points.get i
  let unsure := m.ivUnsure || m.time.tstate != .locked
  ⟨m.ivNext, m.ivStart.floor.toNat, min (endAt - m.ivStart).floor.toNat 3600, i.val,
    (if unsure then IvFlag.unsure else 0) + (m.ivFlags ||| flags) + (if x.clippedIv then IvFlag.over else 0),
    (roundQ (x.imp - x.impAt)).toNat, (roundQ (x.exp - x.expAt)).toNat⟩

/-- One record into the ring of 10 240 (R272). -/
def pushIv (m : MeterState) (r : IvRec) : MeterState :=
  { m with
    intervals := (if 10240 ≤ m.intervals.length then m.intervals.drop 1 else m.intervals) ++ [r]
    ivNext := m.ivNext + 1 }

/-- Open a new interval at a meter time with its flags. -/
def openIv (m : MeterState) (startAt : Rat) (flags : Nat) : MeterState :=
  { m with
    ivStart := startAt, ivFlags := flags, ivUnsure := m.time.tstate != .locked
    points := m.points.map fun x => { x with impAt := x.imp, expAt := x.exp, clippedIv := false } }

/-- Close the open interval of every enabled point (R271). -/
def closeIv (s : State) (endAt : Rat) (flags : Nat) : State :=
  s.modMeter fun m => s.meterPoints.foldl (fun m i => pushIv m (ivRec m i endAt flags)) m

/-- Close and open at one instant: the time before and the time that then applies (R271). -/
def cutIv (s : State) (endAt startAt : Rat) (flags : Nat) : State :=
  (s.closeIv endAt flags).modMeter fun m => openIv m startAt flags

/-- The meter's counter takes a value; the open intervals end with TIME_STEP where it changed (R270, R271). -/
def meterTimeSet (s : State) (sec : Nat) (ns : Rat) : State :=
  let t := s.meter.time
  if t.sec = sec ∧ t.ns = ns then s
  else
    let s := s.closeIv t.seconds IvFlag.timeStep
    s.modMeter fun m =>
      let m := { m with time := { m.time with sec := sec, ns := ns } }
      openIv m m.time.seconds IvFlag.timeStep

/-! Audit log (R278) -/

/-- One audit record; the log of 2048 is never overwritten. -/
def auditAdd (s : State) (interval kind point old new : Nat) : State :=
  s.modMeter fun m =>
    if 2048 ≤ m.audit.length then m
    else { m with audit := m.audit ++ [⟨m.audit.length, m.sealCount, m.time.sec, interval, kind, point, old, new⟩] }

/-- The session ends and its staged writes are discarded (R276). -/
def abandonSession (s : State) : State :=
  if !s.meter.session then s
  else
    let n := s.meter.staged.length
    (s.auditAdd maxWord 0x82 255 0 n).modMeter fun m => { m with session := false, staged := [] }

/-! Saves (R267, R274) -/

/-- The save of the present counters, fractions and interval sums. -/
def meterSaved (s : State) (closed : Bool) : State :=
  s.modMeter fun m => { m with saved := ⟨m.points, m.ivStart, m.ivFlags, m.ivUnsure, m.time.seconds, closed⟩ }

/-- A write to meter memory failed in the spare region too (R274). -/
def meterMedia (s : State) : State :=
  if s.meter.media then s else (s.modMeter fun m => { m with media := true }).auditAdd maxWord 0x81 255 0 0

/-- The power-fail save (R267, R271): the intervals close with POWER_FAIL at this instant. -/
def meterPowerFail (s : State) : State :=
  if !s.meterRuns then s
  else (s.cutIv s.meter.time.seconds s.meter.time.seconds IvFlag.powerFail).meterSaved true

/-- The meter at boot after a loss of supply (R267, R271): the last complete save stands; an interval that was open then is
closed with POWER_FAIL at the saved instant; a new one opens with POWER_FAIL. -/
def meterBoot (s : State) : State :=
  if s.dev.part != .m then s
  else
    let v := s.meter.saved
    let s := s.modMeter fun m => { m with
      points := Vector.ofFn fun i => { v.points.get i with par := (m.points.get i).par }
      ivStart := v.ivStart, ivFlags := v.ivFlags, ivUnsure := v.ivUnsure
      time := {}, session := false, staged := [], sealLowSince := none, stale := true }
    let s := if v.closed then s else s.closeIv v.atTime IvFlag.powerFail
    (s.modMeter fun m => openIv m 0 IvFlag.powerFail).meterSaved false

/-! The mirror (R275) -/

/-- What the mirror shows of a point; a disabled one shows its values as 0 (R266). -/
def mirrorOf (x : PointState) : MirrorPoint :=
  if !x.par.en then { creep := x.par.creep }
  else
    let n : Rat := ((max x.n 1 : Nat) : Rat)
    { en := true, creepNow := x.creepNow, vMv := roundQ (x.vSum / n * 1000), iMa := roundQ (x.iSum / n * 1000)
      pMw := roundQ (x.pSum / n * 1000), imp := energyWord x.imp, exp := energyWord x.exp
      shunt := x.par.shunt, div := x.par.div, creep := x.par.creep }

/-- The publication of the mirror (R275); the means begin afresh. -/
def publish (s : State) : State :=
  s.modMeter fun m => { m with
    mirror := m.points.map mirrorOf
    mirrorAt := s.now, stale := false
    overMirror := ((List.finRange 16).filter fun i => (m.points.get i).clipped).map (·.val)
    points := m.points.map fun x => { x with vSum := 0, iSum := 0, pSum := 0, n := 0 } }

/-- The meter over one frame: TIME_UNSURE, and how long SEAL_N has been low (R271, R276). -/
def meterFrame (s : State) : State :=
  s.modMeter fun m => { m with
    ivUnsure := m.ivUnsure || m.time.tstate != .locked
    sealLowSince := if s.dev.sealN then none else some (m.sealLowSince.getD s.now) }

/-- Reading STAT of a point ends its OVERRANGE (R266). -/
def clearOver (s : State) (i : PointIx) : State :=
  s.modMeter fun m => { m with
    overMirror := m.overMirror.filter fun k => k != i.val
    points := vmod m.points i fun x => { x with clipped := false } }

end State

/-! The commands -/

/-- METER_SAMPLE (R265, R266): a disabled point is not converted; a firmware fault stops the accumulation (R274). -/
def execMeterSample (i : PointIx) (shuntNv dividerUv : Int) (s : State) : Out :=
  let x := s.meter.points.get i
  .next (if s.meterRuns && x.par.en && !s.meter.fwFault then
    s.modMeter fun m => { m with points := vmod m.points i fun x => x.take (meterCalc x.par shuntNv dividerUv) }
  else s)

/-- METER_SAVE (R267, R274): `ok` says whether the write, or its retry in the spare region, succeeded. -/
def execMeterSave (ok : Bool) (s : State) : Out :=
  .next (if !s.meterRuns then s else if ok then s.meterSaved false else s.meterMedia)

/-- INTERVAL_BOUNDARY (R271): a multiple of 60 × INTERVAL_MIN seconds lies after the opening of the interval. -/
def execIntervalBoundary (s : State) : Out :=
  let len := 60 * max s.meter.intervalMin 1
  let b : Rat := ((s.meter.time.sec / len * len : Nat) : Rat)
  .next (if s.meterRuns && decide (s.meter.ivStart < b) then s.cutIv b b 0 else s)

/-- METER_FW_CHECK (R274): a mismatch stops the accumulation and is audited. -/
def execMeterFwCheck (crc : Word) (s : State) : Out :=
  .next (if s.meterRuns && !s.meter.fwFault && crc != s.meter.fwCrc then
    (s.modMeter fun m => { m with fwFault := true }).auditAdd maxWord 0x80 255 s.meter.fwCrc.toNat crc.toNat
  else s)

/-- MIRROR_PUBLISH (R275). -/
def execMirrorPublish (s : State) : Out := .next (if s.meterRuns then s.publish else s)

/-- SESSION_TIMEOUT (R276): 10 min without a request. -/
def execSessionTimeout (s : State) : Out :=
  .next (if s.meter.session && elapsed s.now s.meter.sessionAt (sFrames 600) then s.abandonSession else s)

/-- SEAL_RELEASE (R276): SEAL_N goes high. -/
def execSealRelease (s : State) : Out :=
  .next (if s.meterRuns then
    ({ s with dev := { s.dev with sealN := true } }.modMeter fun m => { m with sealLowSince := none }).abandonSession
  else s)

/-- METER_CORE_WATCHDOG (R25): the mirror is stale until the next publication. -/
def execMeterCoreWatchdog (s : State) : Out :=
  .next (if s.meterRuns then s.modMeter fun m => { m with stale := true } else s)

end Sys2Proof.Machine
end

