-- ==== Sys2Proof/Machine/Clocks.lean ====
section
/-! DEFINITION. Frame source, carrier realignment and the time counter (R29 … R51): the tick of a frame, and the commands. -/

namespace Sys2Proof.Machine

/-- The frame frequency moves towards a value by at most 0.1 % per ms (R43). -/
def slewFreq (f target : Rat) : Rat := clampQ target (f - 1 / 2000000) (f + 1 / 2000000)

/-! The time counter (R48 … R51), for the main side and for the meter -/

/-- Time passes: dt in ns of the reference (R48). -/
def TimeState.advance (t : TimeState) (dt : Rat) : TimeState :=
  let n := t.ns + dt * (1 + t.rate / 1000000000)
  let carry := (n / 1000000000).floor.toNat
  { t with ns := n - (carry : Rat) * 1000000000, sec := (t.sec + carry) % 281474976710656, mono := t.mono + dt }

/-- The offset of the counter from the nearest whole second in ns (R49). -/
def TimeState.offset (t : TimeState) : Rat := if t.ns < 500000000 then t.ns else t.ns - 1000000000

/-- Is an edge at this moment within 100 µs of a predicted second (R49)? Before the first edge nothing is predicted. -/
def TimeState.edgeValid (t : TimeState) : Bool :=
  match t.lastPps with
  | none => true
  | some m =>
    let d := t.mono - m
    let k := (d / 1000000000 + 1 / 2).floor
    decide (0 < k) && decide (absQ (d - (k : Rat) * 1000000000) ≤ 100000)

/-- A valid PPS edge on a counter (R49): PPS_ERR, the new rate or the step, and the state. The rate that removes the error
is open within ±200 ppm (log entry 11). -/
def TimeState.ppsEdge (t : TimeState) (stepNs : Nat) (comp : Rat) : TimeState × Bool :=
  let e := t.offset
  let small := decide (absQ e ≤ (stepNs : Rat))
  let run := if absQ e ≤ 40 then t.ppsRun + 1 else 0
  let run := if t.setFresh then min run 1 else run
  let st : TimeSt :=
    if !t.wasSet then t.tstate
    else if 4 ≤ run then .locked
    else if t.tstate == .locked && !t.setFresh then .locked
    else .acquiring
  let rate := if small then clampQ (Config.ppsRate (roundQ e) t.rate) (-200000) 200000 else t.rate
  let t' := { t with
    ppsErr := roundQ e, ppsRun := run, lastPps := some t.mono, edgeComp := comp, setFresh := false
    tstate := st, rate := rate, learnt := if st == .locked then rate else t.learnt }
  if small then (t', false)
  else ({ t' with sec := if t.ns < 500000000 then t.sec else t.sec + 1, ns := 0 }, true)

/-- Two predicted edges have passed without a valid one (R49). -/
def TimeState.edgesLost (t : TimeState) : Bool :=
  match t.lastPps with
  | none => false
  | some m => (t.tstate == .locked || t.tstate == .acquiring) && decide (2000100000 < t.mono - m)

/-- HOLDOVER begins (R49, R50). -/
def TimeState.hold (t : TimeState) : TimeState := { t with tstate := .holdover, ppsRun := 0 }

namespace State

def modClk (s : State) (f : ClkState → ClkState) : State := { s with clk := f s.clk }
def modTime (s : State) (f : TimeState → TimeState) : State := { s with time := f s.time }

/-- comp(dT) of R50 in ppb, from the mean of the die sensors. -/
def crystalComp (s : State) : Rat :=
  let x (item : Nat) : Rat := ((s.obj Ob.clsClk 0 item).toInt : Rat)
  let dT : Rat := meanQ ((s.temps.toList.take 8).map fun t => (t.value : Rat) / 100) - 25
  x Ob.Clk.xtc0 + x Ob.Clk.xtc1 * dT / 1000 + x Ob.Clk.xtc2 * dT * dT / 1000 + x Ob.Clk.xtc3 * dT * dT * dT / 1000

/-- The rate of a counter in HOLDOVER (R50). -/
def holdRate (s : State) (t : TimeState) : TimeState :=
  if t.tstate == .holdover then { t with rate := t.learnt + s.crystalComp - t.edgeComp } else t

/-- Both counters pass a time (R48, R270). -/
def passTime (s : State) (dt : Rat) : State :=
  let s := s.modTime fun t => (s.holdRate t).advance dt
  if s.meterRuns then s.modMeter fun m => { m with time := (s.holdRate m.time).advance dt } else s

/-- The main counter takes a value by a TIME_SET or a step (R51): where it changes, STEPS counts, an anchor is written, and
the meter's counter takes the value at the same instant (R270). -/
def timeTo (s : State) (sec : Nat) (ns : Rat) (sub : Nat) : State :=
  if s.time.sec = sec ∧ s.time.ns = ns then s
  else
    let s := s.modTime fun t => { t with sec := sec, ns := ns }
    let s := (s.count Ob.clsTime 0 Ob.Time.steps).anchor sub
    if s.meterRuns then s.meterTimeSet sec ns else s

/-- PPS_EN and the polarity of TIME.CTRL (R54). -/
def ppsEn (s : State) : Bool := bit (s.obj Ob.clsTime 0 Ob.Time.ctrl) 0
def ppsFalling (s : State) : Bool := bit (s.obj Ob.clsTime 0 Ob.Time.ctrl) 1

/-- ISTAT.TIME where TIME.STAT.STATE changed from a former one (R306). -/
def timeIrq (s : State) (old : TimeSt) : State := s.irqIf (s.time.tstate != old) Irq.time

/-- A valid PPS edge on the main counter (R49), and the pending TIME_SET it ends (R48). -/
def mainPps (s : State) : State :=
  let stepNs := (s.obj Ob.clsTime 0 Ob.Time.stepNs).toNat
  let q := s.time.ppsEdge stepNs s.crystalComp
  match s.time.setPending with
  | some p =>
    let s := s.modTime fun _ => { q.1 with
      sec := s.time.sec, ns := s.time.ns, wasSet := true, setPending := none
      tstate := .acquiring, ppsRun := min q.1.ppsRun 1 }
    let s := s.modMeter fun m => { m with time := { m.time with wasSet := true } }
    (s.timeTo p.2.1 0 3).finishOpt p.1 St.ok []
  | none =>
    let s := s.modTime fun t => { q.1 with sec := t.sec, ns := t.ns }
    if q.2 then s.timeTo q.1.sec q.1.ns 2 else s

/-- A valid PPS edge on the meter's counter (R270); a value the main side sent at this instant stands. -/
def meterPps (s : State) (mainStepped : Bool) : State :=
  if !s.meterRuns then s
  else
    let q := s.meter.time.ppsEdge (s.obj Ob.clsTime 0 Ob.Time.stepNs).toNat s.crystalComp
    let s := s.modMeter fun m => { m with time := { q.1 with sec := m.time.sec, ns := m.time.ns } }
    if q.2 && !mainStepped then s.meterTimeSet q.1.sec q.1.ns else s

/-! The frame source -/

def syncEn (s : State) : Bool := bit (s.obj Ob.clsClk 0 Ob.Clk.ctrl) 2

/-- The frame's frequency over one frame (R42, R43). -/
def freqFrame (s : State) (err : Int) : State :=
  s.modClk fun c => match c.sync with
    | .acquiring | .locked =>
      { c with syncErr := err, freqOfs := slewFreq c.freqOfs c.syncFreq
               lockFrames := if err.natAbs ≤ 4 then c.lockFrames + 1 else 0 }
    | .returning => { c with freqOfs := slewFreq c.freqOfs 0 }
    | _ => c

/-- The tick of a frame edge (R29, R31, R44, R45): index, superframe, the marker seen, what waits for a superframe start. -/
def tick (s : State) (elapsedNs : Nat) (syncErr : Int) : State :=
  let s := { s with now := s.now + 1 }
  let s := s.passTime (elapsedNs : Rat)
  let super := if s.clk.sync == .own then (s.clk.frame + 1) % 281474976710656 % 64
    else if s.clk.sync == .locked && s.clk.markerNow then 0 else (s.clk.superframe + 1) % 64
  let align := decide (super = 0) && s.clk.alignReq
  let s := (s.freqFrame syncErr).modClk fun c => { c with
    frame := (c.frame + 1) % 281474976710656
    superframe := super
    markerSeen := if super = 0 then c.markerNow else c.markerSeen
    markerNow := if super = 0 then false else c.markerNow
    outDly := if super = 0 then s.clkN Ob.Clk.syncOutDly else c.outDly
    alignReq := c.alignReq && super != 0 }
  if align then s.alignCarriers else s

end State

/-- SYNC_IN_EDGE (R41, R44): a pulse, judged by its distance from the last valid edge and from its prediction; none stands
for an expected edge that did not arrive. -/
def execSyncInEdge (pulse : Option SyncPulse) (s : State) : Out :=
  if !s.framesRun then .next s
  else match pulse with
  | none => .next (s.modClk fun c => { c with validRun := 0, missRun := c.missRun + 1, present8 := pushHist 8 false c.present8 })
  | some p =>
    let near := decide (475000 ≤ p.sincePs) && decide (p.sincePs ≤ 525000)
    let inLock := s.clk.sync == .acquiring || s.clk.sync == .locked
    .next (s.modClk fun c =>
      if near || (inLock && decide (p.errPs.natAbs ≤ 25000)) then
        { c with
          validRun := c.validRun + 1, missRun := 0, present8 := pushHist 8 true c.present8
          syncFreq := if near then 500000 / (p.sincePs : Rat) - 1 else c.syncFreq
          markerNow := c.markerNow || decide (100 < p.widthNs) }
      else { c with validRun := 0 })

/-- SYNC_ACQUIRE (R42). -/
def execSyncAcquire (s : State) : Out :=
  let c := s.clk.sync
  .next (if s.framesRun && s.syncEn && decide (8 ≤ s.clk.validRun) && (c == .own || c == .holdover || c == .returning) then
    s.modClk fun c => { c with sync := .acquiring, lockFrames := 0, holdoverEnd := none, missRun := 0 } else s)

/-- SYNC_LOCK (R42). -/
def execSyncLock (s : State) : Out :=
  .next (if s.clk.sync == .acquiring && decide (64 ≤ s.clk.lockFrames) then s.modClk fun c => { c with sync := .locked } else s)

/-- SYNC_LOSS (R42): the last frequency is held. -/
def execSyncLoss (s : State) : Out :=
  .next (if (s.clk.sync == .acquiring || s.clk.sync == .locked) && decide (3 ≤ s.clk.missRun) then
    let s := s.modClk fun c => { c with
      sync := .holdover, validRun := 0, holdoverEnd := some (s.now + msFrames (s.clkN Ob.Clk.holdoverMs)) }
    (s.count Ob.clsClk 0 Ob.Clk.syncLosses).record Code.syncLoss Ob.clsClk 0 0 []
  else s)

/-- HOLDOVER_EXPIRY (R42). -/
def execHoldoverExpiry (s : State) : Out :=
  match s.clk.sync, s.clk.holdoverEnd with
  | .holdover, some t => .next (if t ≤ s.now then s.modClk fun c => { c with sync := .returning, holdoverEnd := none } else s)
  | _, _ => .next s

/-- RETURN_COMPLETE (R42). -/
def execReturnComplete (s : State) : Out :=
  .next (if s.clk.sync == .returning && s.clk.freqOfs == 0 then s.modClk fun c => { c with sync := .own } else s)

/-- ALIGN_COMPLETE (R45). -/
def execAlignComplete (s : State) : Out :=
  .next (if s.clk.alignBusy && !s.clk.alignReq && s.carriersAligned then s.modClk fun c => { c with alignBusy := false } else s)

/-- PPS_EDGE (R49): an edge of a polarity; it counts only where PPS_EN and PPS_FALLING make it the edge that counts. -/
def execPpsEdge (falling : Bool) (s : State) : Out :=
  if s.dev.dstate == .boot || s.dev.dstate == .unpowered || !s.ppsEn || falling != s.ppsFalling then .next s
  else
    let before := s.time.sec
    let beforeNs := s.time.ns
    let old := s.time.tstate
    let s := if s.time.edgeValid then s.mainPps else s
    let stepped := s.time.sec != before || s.time.ns != beforeNs
    let s := s.timeIrq old
    .next (if s.meter.time.edgeValid then s.meterPps stepped else s)

/-- PPS_LOSS (R49): two predicted edges did not arrive; the meter's counter judges its own (R270). -/
def execPpsLoss (s : State) : Out :=
  let s' := if s.time.edgesLost then
      (((s.modTime TimeState.hold).timeIrq s.time.tstate).count Ob.clsTime 0 Ob.Time.ppsLosses).record Code.ppsLoss Ob.clsTime 0 0 []
    else s
  .next (if s'.meterRuns && s'.meter.time.edgesLost then s'.modMeter fun m => { m with time := m.time.hold } else s')

/-- TIME_SET_TIMEOUT (R48): no valid edge within 1.5 s. -/
def execTimeSetTimeout (s : State) : Out :=
  match s.time.setPending with
  | none => .next s
  | some p => .next (if p.2.2 + 1500000000 ≤ s.time.mono then
      (s.modTime fun t => { t with setPending := none }).finishOpt p.1 St.aborted [] else s)

/-- PERIODIC_TIME_ANCHOR (R286). -/
def execPeriodicTimeAnchor (s : State) : Out :=
  .next (if s.framesRun && elapsed s.now s.time.lastAnchor (sFrames 60) then s.anchor 0 else s)

end Sys2Proof.Machine
end

