-- ==== Sys2Proof/Machine/Image.lean ====
section
/-! DEFINITION. Configuration images (R328 … R334): reading, checking, converting and writing an image, and the digest of
R256. -/

namespace Sys2Proof.Machine

/-- One TLV record of an image with its offset (R329). -/
structure Tlv where
  off : Nat
  tag : Nat
  val : List Byte
deriving DecidableEq, Repr

/-- The records of a byte sequence; a record that runs past the end gives its offset (R329). -/
def tlvs : Nat → Nat → List Byte → Except Nat (List Tlv)
  | 0, _, _ => .ok []
  | _ + 1, _, [] => .ok []
  | fuel + 1, off, bs =>
    let n := leAt bs 1 2
    if bs.length < 3 + n then .error off
    else match tlvs fuel (off + 3 + n) (bs.drop (3 + n)) with
      | .error e => .error e
      | .ok l => .ok (⟨off, byteAt bs 0, (bs.drop 3).take n⟩ :: l)

/-- What the records of an image hold so far: objects, tables, which record named each key last, and where topology was. -/
structure Build where
  objs : Store := []
  tables : List (Nat × Nat × Sparse) := []
  named : List (Nat × Nat) := []
  topo : List Nat := []
deriving DecidableEq, Repr

/-- May an image name an object with this value (R330 step 4)? -/
def imageValueOk (cls inst item : Nat) (v : Word) : Bool :=
  match rowAt cls inst item with
  | none => false
  | some row => (row.acc == .rw || row.acc == .rwl || row.acc == .rwa) && row.rng.ok inst (v &&& row.maskAt cls inst)

/-- One object of an image, its reserved bits ignored (R9). -/
def Build.put (b : Build) (off cls inst item : Nat) (v : Word) : Build :=
  let m := match rowAt cls inst item with | some row => row.maskAt cls inst | none => 0
  { b with
    objs := b.objs.setVal cls inst item (v &&& m)
    named := b.named.filter (fun q => q.1 != objKey cls inst item) ++ [(objKey cls inst item, off)] }

/-- Consecutive objects of a RUN record. -/
def Build.run (b : Build) (off cls inst : Nat) : Nat → List Byte → Nat → Option Build
  | _, _, 0 => some b
  | item, bs, n + 1 =>
    let v : Word := BitVec.ofNat 32 (leAt bs 0 4)
    if imageValueOk cls inst item v then (b.put off cls inst item v).run off cls inst (item + 1) (bs.drop 4) n else none

/-- A sparse table with consecutive entries replaced by signed 16-bit values. -/
def tableFill (t : Sparse) : Nat → List Byte → Nat → Sparse
  | _, _, 0 => t
  | i, bs, n + 1 => tableFill (t.put i (BitVec.ofNat 16 (leAt bs 0 2)).toInt) (i + 1) (bs.drop 2) n

/-- The table of a rail in a list. -/
def tableOf (l : List (Nat × Nat × Sparse)) (rail table : Nat) : Sparse :=
  ((l.find? fun q => q.1 == rail && q.2.1 == table).map (·.2.2)).getD []

/-- Entries of a table in an image: 256 of a pattern table, 128 of a legacy one (R143). -/
def imageTableLen (t : Nat) : Nat := if t < 2 then 256 else 128

def Build.table (b : Build) (off : Nat) (v : List Byte) : Option Build :=
  let rail := byteAt v 0
  let t := byteAt v 1
  let n := byteAt v 3
  if 16 ≤ rail ∨ 4 ≤ t ∨ n = 0 ∨ v.length ≠ 4 + 2 * n ∨ imageTableLen t < byteAt v 2 + n then none
  else
    let tab := tableFill (tableOf b.tables rail t) (byteAt v 2) (v.drop 4) n
    some { b with
      tables := b.tables.filter (fun q => !(q.1 == rail && q.2.1 == t)) ++ [(rail, t, tab)]
      named := b.named ++ [(objKey Ob.clsRail rail Ob.Rail.tblData, off)] }

/-- An object that only TOPOLOGY names. -/
def Build.putTopo (b : Build) (off cls inst item v : Nat) : Build :=
  { b with
    objs := b.objs.setVal cls inst item (BitVec.ofNat 32 v)
    named := b.named.filter (fun q => q.1 != objKey cls inst item) ++ [(objKey cls inst item, off)] }

/-- PHASE.RAIL and RAIL.DOMAIN from a TOPOLOGY record of np phases and nr rails; the others are 0xFF (R329, R333). -/
def Build.topology (b : Build) (off np nr : Nat) (v : List Byte) : Option Build :=
  if v.length ≠ np + nr then none
  else if !(v.take np).all (fun x => x.toNat < (if np = 48 then 16 else 4) || x.toNat == 255) then none
  else if !(v.drop np).all (fun x => x.toNat < 8 || x.toNat == 255) then none
  else
    let b := (List.range 48).foldl (fun (b : Build) n =>
      b.putTopo off Ob.clsPhase n Ob.Phase.rail (if n < np then byteAt v n else 255)) b
    let b := (List.range 16).foldl (fun (b : Build) r =>
      b.putTopo off Ob.clsRail r Ob.Rail.domain (if r < nr then byteAt v (np + r) else 255)) b
    some { b with topo := b.topo ++ [off] }
/-- One record of an image (R329); none where it is in error. -/
def Build.rec1 (b : Build) (cif1 : Bool) (t : Tlv) : Option Build :=
  let v := t.val
  match t.tag with
  | 1 =>
    let w : Word := BitVec.ofNat 32 (leAt v 4 4)
    if v.length = 8 ∧ byteAt v 3 = 0 ∧ imageValueOk (byteAt v 0) (byteAt v 1) (byteAt v 2) w then
      some (b.put t.off (byteAt v 0) (byteAt v 1) (byteAt v 2) w) else none
  | 2 =>
    let n := byteAt v 3
    if n = 0 ∨ 60 < n ∨ v.length ≠ 4 + 4 * n then none else b.run t.off (byteAt v 0) (byteAt v 1) (byteAt v 2) (v.drop 4) n
  | 3 => b.table t.off v
  | 4 => if cif1 then b.topology t.off 12 4 v else b.topology t.off 48 16 v
  | 5 =>
    if v.length = 4 ∧ byteAt v 0 ≤ 1 ∧ leAt v 1 3 = 0 then
      some { b with objs := b.objs.setVal Ob.clsDev 0 Ob.Dev.dbgPermit (BitVec.ofNat 32 (byteAt v 0)) } else none
  | k => if 128 ≤ k then some b else none

/-- All records in order; the first in error gives its offset (R330 step 4). -/
def buildAll (cif1 : Bool) : Build → List Tlv → Except Nat Build
  | b, [] => .ok b
  | b, t :: ts => match b.rec1 cif1 t with
    | none => .error t.off
    | some b => buildAll cif1 b ts

/-! Cross-checks with the objects they involve (R330 step 4) -/

/-- A key is one of these items of an instance of a class. -/
def keyIn (cls inst : Nat) (items : List Nat) (k : Nat) : Bool := items.any fun i => k == objKey cls inst i

/-- Topology keys of the phases and of one rail. -/
def keyTopo (r k : Nat) : Bool :=
  (List.range 48).any (fun n => k == objKey Ob.clsPhase n Ob.Phase.rail) || k == objKey Ob.clsRail r Ob.Rail.domain

def keySsc (k : Nat) : Bool := keyIn Ob.clsClk 0 [Ob.Clk.sscCtrl, Ob.Clk.sscRails] k

/-- Every cross-check of the object maps with its rule's objects. -/
def crossChecks (st : Store) : List (Bool × (Nat → Bool)) :=
  let cfg (r : Nat) (items : List Nat) (k : Nat) : Bool := keyIn Ob.clsRail r (Ob.Rail.cfg :: items) k
  (List.range 16).map (fun r => (st.memberOk r, fun k => cfg r [] k || keyTopo r k))
  ++ (List.range 16).map (fun r => (st.ditherOk r, fun k => cfg r [Ob.Rail.period] k || keySsc k))
  ++ [(st.sscOk, keySsc)]
  ++ (List.range 48).map (fun n => (st.phaseOk n, fun k =>
      keyIn Ob.clsPhase n [Ob.Phase.rail, Ob.Phase.ctrl, Ob.Phase.minH, Ob.Phase.minL, Ob.Phase.dtHl, Ob.Phase.dtLh] k
        || keyIn Ob.clsRail (st.pN n Ob.Phase.rail) [Ob.Rail.period] k || keySsc k))
  ++ (List.range 16).map (fun r => (st.placeOk r, fun k => cfg r [Ob.Rail.iadd, Ob.Rail.ished, Ob.Rail.minph] k || keyTopo r k))
  ++ (List.range 16).map (fun r => (st.bandOk r, cfg r [Ob.Rail.bandOutUv, Ob.Rail.bandInUv]))
  ++ (List.range 16).map (fun r => (st.coefOk r, cfg r [Ob.Rail.b0, Ob.Rail.b1, Ob.Rail.b2, Ob.Rail.a1, Ob.Rail.a2]))
  ++ (List.range 16).map (fun r => (st.vLimOk r, cfg r [Ob.Rail.vmin, Ob.Rail.vmax]))
  ++ (List.range 16).map (fun r => (st.ffOk r, fun k =>
      cfg r [Ob.Rail.ffCtrl, Ob.Rail.ffPort, Ob.Rail.patId, Ob.Rail.posMap, Ob.Rail.patPhase, Ob.Rail.patPeriod] k
        || keyIn Ob.clsPort (st.rN r Ob.Rail.ffPort) [Ob.Port.rail] k))
  ++ (List.range 2).map (fun x => (st.feedOk x, keyIn Ob.clsFeed x [Ob.Feed.uvFault, Ob.Feed.hystMv, Ob.Feed.uvWarn, Ob.Feed.ovFault]))
  ++ (List.range 32).map (fun c => (st.cmpOk c, keyIn Ob.clsCmp c [Ob.Cmp.refph, Ob.Cmp.ramp, Ob.Cmp.blank, Ob.Cmp.ctrl]))
  ++ (List.range 16).map (fun r => (st.levelOk r, keyIn Ob.clsRail r
      [Ob.Rail.uvWarn, Ob.Rail.uvFault, Ob.Rail.ovWarn, Ob.Rail.ovFault, Ob.Rail.warnFloorMv, Ob.Rail.faultFloorMv]))
  ++ (List.range 28).map (fun i => (st.tempOk i, keyIn Ob.clsTemp i [Ob.Temp.warn, Ob.Temp.fault, Ob.Temp.hyst]))
  ++ (List.range 8).map (fun d => (st.ranksOk d, fun k =>
      keyIn Ob.clsDomain d [Ob.Domain.ctrl] k || (List.range 16).any fun r =>
        keyIn Ob.clsRail r [Ob.Rail.cfg, Ob.Rail.domain, Ob.Rail.upRank, Ob.Rail.dnRank] k))

/-- The offset that a failing cross-check reports (R330 step 4). -/
def crossOffset (named : List (Nat × Nat)) (f : Nat → Bool) : Nat :=
  match (named.filter fun q => f q.1).map (·.2) with
  | [] => maxWord
  | a :: t => t.foldl max a

/-! Writing an image -/

/-- The header of an image (R328). -/
def imageHead (modified : Bool) (gen len : Nat) : List Byte :=
  [0x43, 0x50, 0x56, 0x43, 2, 0] ++ leBytes 2 (flag modified 0) ++ leBytes 4 gen ++ leBytes 4 len ++ leBytes 2 0x4816
    ++ List.replicate 14 0

/-- A configuration object: RW, RWL or RWA, but for the words and the loading of a key (R330, R331, R334, log entry 39). -/
def configKey (k : Nat) : Bool :=
  !(k / 65536 == Ob.clsAuth && k % 256 != Ob.Auth.keySel) &&
  match rowAt (k / 65536) (k / 256 % 256) (k % 256) with
  | some row => row.acc == .rw || row.acc == .rwl || row.acc == .rwa
  | none => false

/-- A configuration object that holds a value of its own: TBL_DATA is a window on a table (R143, log entry 39). -/
def heldKey (k : Nat) : Bool := configKey k && !(k / 65536 == Ob.clsRail && k % 256 == Ob.Rail.tblData)

/-- The records that a store serialises to: TOPOLOGY, DEVICE, the objects off their defaults, then tables (R334). -/
def imageBody (st : Store) (tables : List (Nat × Nat × Sparse)) : List Byte :=
  let topo := (List.range 48).map (fun n => (st.val Ob.clsPhase n Ob.Phase.rail).toNat)
    ++ (List.range 16).map fun r => (st.val Ob.clsRail r Ob.Rail.domain).toNat
  let entry (rail t i : Nat) (v : Int) : List Byte :=
    [3] ++ leBytes 2 6 ++ leBytes 1 rail ++ leBytes 1 t ++ leBytes 1 i ++ [1] ++ leBytes 2 (intWord v).toNat
  [4, 64, 0] ++ topo.flatMap (leBytes 1)
    ++ [5, 4, 0] ++ leBytes 1 (st.val Ob.clsDev 0 Ob.Dev.dbgPermit).toNat ++ [0, 0, 0]
    ++ (st.filter fun p => heldKey p.1).flatMap (fun p =>
      [1, 8, 0] ++ leBytes 1 (p.1 / 65536) ++ leBytes 1 (p.1 / 256) ++ leBytes 1 p.1 ++ [0] ++ wordBytes p.2)
    ++ tables.flatMap fun q => q.2.2.flatMap fun e => entry q.1 q.2.1 e.1 e.2

/-- A whole image with its check word (R328). -/
def imageBytes (modified : Bool) (gen : Nat) (st : Store) (tables : List (Nat × Nat × Sparse)) : List Byte :=
  let body := imageBody st tables
  let all := imageHead modified gen (36 + body.length) ++ body
  all ++ leBytes 4 (crc32 all)

/-! Checking an image (R330, R332) -/

/-- The outcome of the checks: REASON, ENGINE, BUDGET and the offset of the failing record (R315). -/
structure ImageFault where
  reason : Nat
  engine : Nat := 255
  budget : Nat := 0
  offset : Nat := maxWord
deriving DecidableEq, Repr

/-- Step 1 of R330 without the comparison of generations, and step 2. -/
def imageFrame (bs : List Byte) (len : Nat) : Option ImageFault :=
  let fmt := leAt bs 4 2
  let part := leAt bs 16 2
  if bs.take 4 ≠ [0x43, 0x50, 0x56, 0x43] ∨ !((fmt == 2 && part == 0x4816) || (fmt == 1 && part == 0x1204)) ∨
      leAt bs 12 4 ≠ len ∨ len < 40 ∨ 131072 < len ∨ leAt bs 8 4 = 0 then some { reason := 1 }
  else if leAt bs (len - 4) 4 ≠ crc32 (bs.take (len - 4)) then some { reason := 2 }
  else none

/-- Conversion of what a CIF1 image holds (R333): MODE 3 on rails with legacy tables. -/
def convertCif1 (b : Build) : Build :=
  { b with objs := (List.range 16).foldl (fun (st : Store) r =>
      if b.tables.any (fun q => q.1 == r && decide (2 ≤ q.2.1)) then
        st.setVal Ob.clsRail r Ob.Rail.ffCtrl (st.val Ob.clsRail r Ob.Rail.ffCtrl ||| 3)
      else st) b.objs }

/-- Steps 3 … 5 of R330 on an image whose frame stands. -/
def imageRead (bs : List Byte) (len : Nat) : Except ImageFault Image :=
  let cif1 := leAt bs 4 2 == 1
  match tlvs len 32 ((bs.take (len - 4)).drop 32) with
  | .error off => .error { reason := 3, offset := off }
  | .ok ts =>
    match buildAll cif1 {} ts with
    | .error off => .error { reason := 3, offset := off }
    | .ok b =>
      if !cif1 && b.topo.isEmpty then .error { reason := 3, offset := len - 4 }
      else if !cif1 && decide (1 < b.topo.length) then .error { reason := 3, offset := b.topo.getD 1 0 }
      else
        let b := if cif1 then convertCif1 b else b
        match (crossChecks b.objs).find? fun c => !c.1 with
        | some c => .error { reason := 3, offset := crossOffset b.named c.2 }
        | none =>
          match b.objs.overBudget with
          | some q => .error { reason := 4, engine := q.1, budget := q.2 }
          | none =>
            let gen := leAt bs 8 4
            .ok { bytes := if cif1 then imageBytes false gen b.objs b.tables else bs.take len
                  generation := gen, objs := b.objs, tables := b.tables, converted := cif1 }

/-- Is a stored copy valid under the running firmware (R332)? -/
def imageValid (bs : List Byte) : Bool :=
  let len := leAt bs 12 4
  (imageFrame bs len).isNone && (match imageRead bs len with | .ok _ => true | .error _ => false)

namespace State

/-- The generations of the valid copies (R330). -/
def copyGen (s : State) (k : Nat) : Nat :=
  match (if k = 0 then s.cfg.copy0 else s.cfg.copy1) with
  | some i => i.generation
  | none => 0

/-- All the checks of CFG_COMMIT on the staged bytes (R330 steps 1 … 5). -/
def checkStaged (s : State) (len : Nat) : Except ImageFault Image :=
  let bs := padTo len s.cfg.staging
  match imageFrame bs len with
  | some f => .error f
  | none =>
    if leAt bs 8 4 ≤ max (s.copyGen 0) (s.copyGen 1) then .error { reason := 1 } else imageRead bs len

/-- The running configuration as CFG_READ copy 2 gives it (R334). -/
def runImage (s : State) : List Byte := imageBytes s.cfg.modified s.cfg.genRun s.objs []

/-- The digest of the items of R16 (R256). -/
def cfgDigest (s : State) : Word :=
  Config.cfgDigest
    ((List.range 48).map (fun n => (s.obj Ob.clsPhase n Ob.Phase.rail).toNat)
    ++ (List.range 16).flatMap (fun r => [s.railN r Ob.Rail.domain, s.railN r Ob.Rail.engine,
        flag (s.railEn r) 0 + flag (bit (s.obj Ob.clsRail r Ob.Rail.tuneCtrl) 0) 1 + flag (bit (s.obj Ob.clsRail r Ob.Rail.tuneCtrl) 1) 2
          + flag (bit (s.obj Ob.clsRail r Ob.Rail.plcCtrl) 2) 3 + flag (s.objs.sscOn r) 4
          + 32 * bits (s.obj Ob.clsRail r Ob.Rail.ffCtrl) 1 0]))

/-- The CFG objects (R346) and TWIN.CFG_DIGEST (R264). -/
def viewCfg (s : State) (item : Nat) : Option Nat :=
  let x := s.cfg
  if item = Ob.Cfg.stat then
    some (flag x.copy0.isSome 0 + flag x.copy1.isSome 1 + 4 * x.runCopy + flag x.modified 4 + flag x.converted 5)
  else if item = Ob.Cfg.gen0 then some (s.copyGen 0)
  else if item = Ob.Cfg.gen1 then some (s.copyGen 1)
  else if item = Ob.Cfg.genRun then some x.genRun
  else if item = Ob.Cfg.staged then some x.staged
  else if item = Ob.Cfg.runLen then some s.runImage.length
  else if item = Ob.Cfg.lastReason then some x.lastReason
  else none

end State
end Sys2Proof.Machine
end

