-- ==== Sys2Proof/Machine/Access.lean ====
section
/-! DEFINITION. Object access (R9, R10): reads with what they latch or clear, the checks of a write, its effect, and which
writes wait for a frame edge; requests that name several objects (R317) and the edge at which they apply. -/

namespace Sys2Proof.Machine
namespace State

/-! Reads -/

/-- A read-only object as its chapter computes it; none for a stored object. -/
def viewObj (s : State) (o : Obj) : Option Nat :=
  let i := o.inst
  if o.cls = Ob.clsDev then s.viewDev o.item
  else if o.cls = Ob.clsClk then s.viewClk o.item
  else if o.cls = Ob.clsTime then s.viewTime o.item
  else if o.cls = Ob.clsPhase then (if h : i < 48 then s.viewPhase ⟨i, h⟩ o.item else none)
  else if o.cls = Ob.clsRail then (if h : i < 16 then s.viewRail ⟨i, h⟩ o.item else none)
  else if o.cls = Ob.clsDomain then (if h : i < 8 then s.viewDomain ⟨i, h⟩ o.item else none)
  else if o.cls = Ob.clsPort then (if h : i < 32 then s.viewPort ⟨i, h⟩ o.item else none)
  else if o.cls = Ob.clsFeed then s.viewFeed i o.item
  else if o.cls = Ob.clsCmp then (if h : i < 32 then s.viewCmp ⟨i, h⟩ o.item else none)
  else if o.cls = Ob.clsTemp then (if h : i < 28 then s.viewTemp ⟨i, h⟩ o.item else none)
  else if o.cls = Ob.clsRec then s.viewRec o.item
  else if o.cls = Ob.clsMeter then s.viewMeter i o.item
  else if o.cls = Ob.clsTwin then (if o.item = Ob.Twin.cfgDigest then some s.cfgDigest.toNat else s.viewTwin o.item)
  else if o.cls = Ob.clsTune then s.viewTune o.item
  else if o.cls = Ob.clsCfg then s.viewCfg o.item
  else if o.cls = Ob.clsAuth then s.viewAuth o.item
  else if o.cls = Ob.clsPin then s.viewPin o.item
  else none

/-- The row of an object that this part has: a CPV4816S has no METER object (R2). -/
def rowFor (s : State) (o : Obj) : Option Row :=
  if o.cls = Ob.clsMeter && s.dev.part == .s then none else rowAt o.cls o.inst o.item

/-- What a GET returns; none where there is no such object. A write-only object reads 0 (R10). -/
def getValue (s : State) (o : Obj) : Option Word :=
  match s.rowFor o with
  | none => none
  | some row =>
    if row.acc = .wo then some 0
    else if o.cls = Ob.clsRail && o.item = Ob.Rail.tblData then
      (if h : o.inst < 16 then some (s.tblRead ⟨o.inst, h⟩) else none)
    else match s.viewObj o with
      | some v => some (BitVec.ofNat 32 v)
      | none => some (s.obj o.cls o.inst o.item)

/-- FRAME_LO latches the upper frame-index bits (R52). -/
def latchFrame (s : State) : State := s.modClk fun x => { x with frameHi := x.frame / 4294967296 }

/-- SEC_LO latches the upper seconds and the nanoseconds (R52). -/
def latchSec (s : State) : State :=
  s.modTime fun x => { x with secHi := x.sec / 4294967296, nsLatch := x.ns.floor.toNat }

/-- FIRST_LO or LAST_LO latches the matching HI object (R299). -/
def latchRec (s : State) (which : RecLow) : State :=
  match which with
  | .first => s.modRec fun x => { x with firstHi := s.recFirst / 4294967296 }
  | .last => s.modRec fun x => { x with lastHi := s.recLast / 4294967296 }

/-- IMP_LO or EXP_LO latches the matching HI object (R279). -/
def latchEnergy (s : State) (i : PointIx) (dir : EnergyDir) : State :=
  let m := s.meter.mirror.get i
  match dir with
  | .imp => s.modMeter fun x => { x with impHi := vset x.impHi i (m.imp / 4294967296) }
  | .exp => s.modMeter fun x => { x with expHi := vset x.expHi i (m.exp / 4294967296) }

/-- Reading CEBUDn resets PEAK (R24). -/
def clearPeak (s : State) (e : EngineIx) : State := { s with dev := { s.dev with cePeak := vset s.dev.cePeak e 0 } }

/-- What a read of an object does besides returning its value. -/
def readEffect (s : State) (o : Obj) : State :=
  if o.cls = Ob.clsClk then (if o.item = Ob.Clk.frameLo then s.latchFrame else s)
  else if o.cls = Ob.clsTime then (if o.item = Ob.Time.secLo then s.latchSec else s)
  else if o.cls = Ob.clsRec then
    (if o.item = Ob.Rec.firstLo then s.latchRec .first else if o.item = Ob.Rec.lastLo then s.latchRec .last else s)
  else if o.cls = Ob.clsMeter then
    (if h : o.inst < 16 then
      (if o.item = Ob.Meter.impLo then s.latchEnergy ⟨o.inst, h⟩ .imp
       else if o.item = Ob.Meter.expLo then s.latchEnergy ⟨o.inst, h⟩ .exp
       else if o.item = Ob.Meter.stat then s.clearOver ⟨o.inst, h⟩ else s)
     else s)
  else if o.cls = Ob.clsDev then
    (if h : Ob.Dev.cebud0 ≤ o.item ∧ o.item < Ob.Dev.cebud0 + 4 then s.clearPeak ⟨o.item - Ob.Dev.cebud0, by omega⟩ else s)
  else if o.cls = Ob.clsRail && o.item = Ob.Rail.tblData then (if h : o.inst < 16 then s.tblAdvance ⟨o.inst, h⟩ else s)
  else s

/-- A read: the value, and the state after it. -/
def readObj (s : State) (o : Obj) : Option (State × Word) := (s.getValue o).map fun v => (s.readEffect o, v)

/-- The items of a GET_BLOCK in order: the state after them, the values, and whether each is valid (R315). -/
def readBlock (s : State) (cls inst : Nat) : Nat → Nat → State × List (Option Word)
  | _, 0 => (s, [])
  | item, n + 1 =>
    match (if item < 256 then s.readObj ⟨cls, inst, item⟩ else none) with
    | none => let q := s.readBlock cls inst (item + 1) n
              (q.1, none :: q.2)
    | some p => let q := p.1.readBlock cls inst (item + 1) n
                (q.1, some p.2 :: q.2)

/-! The checks of a write -/

/-- The written value without its reserved bits (R9). -/
def maskedValue (w : ObjWrite) : Word :=
  match rowAt w.obj.cls w.obj.inst w.obj.item with
  | some row => w.value &&& row.maskAt w.obj.cls w.obj.inst
  | none => 0

/-- KEY_SEL as it stands after the earlier members of a group (R321). -/
def keySelAfter (s : State) (prior : List ObjWrite) : Nat :=
  (prior.foldl (fun (k : Word) m => if m.obj = ⟨Ob.clsAuth, 0, Ob.Auth.keySel⟩ then m.value else k)
    (s.obj Ob.clsAuth 0 Ob.Auth.keySel)).toNat

/-- The key words written since the last apply, the earlier members of a group among them (R321). -/
def keyWordsAfter (s : State) (prior : List ObjWrite) : List Nat :=
  ((s.mb.keyWords.map (·.1)) ++ prior.filterMap fun m =>
    if m.obj.cls = Ob.clsAuth && Ob.Auth.keyW0 ≤ m.obj.item && m.obj.item < Ob.Auth.keyApply
    then some (m.obj.item - Ob.Auth.keyW0) else none).eraseDups

/-- Is a key slot provisioned? -/
def keyOf (s : State) (k : Nat) : Option (List Byte) :=
  if k = 2 then (if s.dev.part == .m then s.meter.key else none) else (s.mb.keys.find? fun q => q.1 == k).map (·.2)

/-- An unprovisioned slot 0 lets the key items be written without authorisation, for KEY_SEL = 0 only (R321). -/
def openKeys (s : State) (prior : List ObjWrite) (w : ObjWrite) : Bool :=
  w.obj.cls == Ob.clsAuth && (s.keyOf 0).isNone &&
    (if w.obj.item = Ob.Auth.keySel then w.value == 0 else s.keySelAfter prior == 0)

/-- The owner of an RWL object is on (R10): the phase's or the object's own rail regulates, the feed is on or changing. -/
def ownerOn (s : State) (o : Obj) : Bool :=
  if o.cls = Ob.clsPhase then
    (if h : o.inst < 48 then (match s.phaseRail ⟨o.inst, h⟩ with | some r => s.regulating r | none => false) else false)
  else if o.cls = Ob.clsRail then (if h : o.inst < 16 then s.regulating ⟨o.inst, h⟩ else false)
  else
    let x : FeedId := if o.inst = 0 then .a else .b
    s.feedOn == some x || (s.feeds.sel == .brk && s.feeds.fromFeed == some x) || (s.feeds.sel == .make && s.feeds.target == some x)

/-- A domain is OFF or LATCHED. -/
def domIdle (s : State) (d : Nat) : Bool :=
  if h : d < 8 then (s.domain ⟨d, h⟩).dstate == .off || (s.domain ⟨d, h⟩).dstate == .latched else true

/-- The domains whose EN_MAP field a write changes (R354). -/
def enMapBusy (s : State) (v : Word) : Bool :=
  let old := s.obj Ob.clsPin 0 Ob.Pin.enMap
  allDomains.any fun d => bits old (4 * d.val + 3) (4 * d.val) != bits v (4 * d.val + 3) (4 * d.val) && s.srcPin d && !s.domIdle d.val

/-- The state conditions on a write to a RAIL object beside RWL (R136, R141, R143, R243). -/
def railStateOk (s : State) (r : RailIx) (item : Nat) (v : Word) : Bool :=
  if item = Ob.Rail.upRank ∨ item = Ob.Rail.dnRank then s.domIdle (s.railN r.val Ob.Rail.domain)
  else if item = Ob.Rail.ffCtrl then
    !(s.regulating r && bits v 1 0 != bits (s.obj Ob.clsRail r.val Ob.Rail.ffCtrl) 1 0)
  else if item = Ob.Rail.tblData then !(s.tblInUse r || decide (tblLen (s.tblTable r) ≤ s.tblIndex r))
  else if item = Ob.Rail.ffCmd then
    v != 3 || ((s.savedPattern r).isSome && !(s.regulating r && s.ffBit r 5))
  else true

/-- A write of BUS_CTRL.MODE that names a feed other than the one that is on needs that feed not FAULT (R194). -/
def busModeOk (s : State) (v : Word) : Bool :=
  match bits v 1 0 with
  | 1 => s.feedOn == some .a || (s.feed .a).cls != .fault
  | 2 => s.feedOn == some .b || (s.feed .b).cls != .fault
  | _ => true

/-- Every state condition on a write, RWL aside. -/
def stateOk (s : State) (prior : List ObjWrite) (o : Obj) (v : Word) : Bool :=
  if o.cls = Ob.clsRail then (if h : o.inst < 16 then s.railStateOk ⟨o.inst, h⟩ o.item v else false)
  else if o.cls = Ob.clsPhase then !(o.item == Ob.Phase.force && v == 4 && s.ownerOn o)
  else if o.cls = Ob.clsDomain then o.item != Ob.Domain.ctrl || s.domIdle o.inst
  else if o.cls = Ob.clsPort then o.item != Ob.Port.rail || !bit (s.obj Ob.clsPort o.inst Ob.Port.ctrl) 0
  else if o.cls = Ob.clsFeed then !(o.inst == 2 && o.item == Ob.Feed.busCtrl) || s.busModeOk v
  else if o.cls = Ob.clsTune then o.item == Ob.Tune.stop || s.tune.tstate != .running
  else if o.cls = Ob.clsPin then o.item != Ob.Pin.enMap || !s.enMapBusy v
  else if o.cls = Ob.clsAuth then o.item != Ob.Auth.keyApply || decide (8 ≤ (s.keyWordsAfter prior).length)
  else true

/-- Why authorisation is missing for a write: an RWA object (R10), or FORCE := HS_ON on a phase whose HSUNLOCK is not armed
(R72). -/
def authMissing (s : State) (authed : Bool) (prior : List ObjWrite) (row : Row) (w : ObjWrite) : Bool :=
  (row.acc == .rwa && !authed && !s.openKeys prior w) ||
    (w.obj.cls == Ob.clsPhase && w.obj.item == Ob.Phase.force && w.value == 4 &&
      (if h : w.obj.inst < 48 then (s.phase ⟨w.obj.inst, h⟩).gen.hsUnlock.isNone else true))

/-- Is an object part of the stores that checks compare: not a command such as COEF_APPLY or STOP. -/
def storedAcc (a : Acc) : Bool := a == .rw || a == .rwl || a == .rwa

/-- The range conditions: the map's, and those between objects, on the store the write would give; `budget` says whether R23
is among them. -/
def rangeOk (s : State) (budget : Bool) (row : Row) (o : Obj) (v : Word) : Bool :=
  row.rng.ok o.inst v &&
    (if o.cls = Ob.clsRail && o.item = Ob.Rail.coefApply then s.objs.coefOk o.inst
     else if o.cls = Ob.clsPin && o.item = Ob.Pin.gpioDir then !(s.twin.enabled && bit v 15)
     else if storedAcc row.acc && o.cls != Ob.clsAuth then
       let st := s.objs.setVal o.cls o.inst o.item v
       st.objOk o.cls o.inst && (!budget || Store.budgetOk s.objs st)
     else true)

/-- The status of one write (R10, R314, R317): OK, or why it is refused. `prior` are the earlier members of its group, authed
says that the request carried a block that passed, and budget that R23 is checked for this write by itself. -/
def writeCode (s : State) (budget authed : Bool) (prior : List ObjWrite) (w : ObjWrite) : Nat :=
  match s.rowFor w.obj with
  | none => St.badObject
  | some row =>
    let v := maskedValue w
    if row.acc = .ro then St.badObject
    else if s.authMissing authed prior row ⟨w.obj, v⟩ then St.authRequired
    else if (row.acc == .rwl && s.ownerOn w.obj) || !s.stateOk prior w.obj v then St.state
    else if !s.rangeOk budget row w.obj v then St.range
    else if w.obj = ⟨Ob.clsAuth, 0, Ob.Auth.keyApply⟩ ∧ !s.nvm.window then St.media
    else St.ok

/-- The status of a write that stands alone: R23 is checked for it. -/
def writeStatus (s : State) (authed : Bool) (prior : List ObjWrite) (w : ObjWrite) : Nat := s.writeCode true authed prior w

/-! The effect of a write -/

/-- A SET of TARGET (R127, R130): under HOST a command with tag 0 and HSLEW, under LINK the fallback, which is a command
while it is the requested target. -/
def writeTarget (s : State) (r : RailIx) (v : Word) : State :=
  let s := s.setObj Ob.clsRail r.val Ob.Rail.target v
  if !s.regulating r then s
  else
    let ctrl := s.obj Ob.clsRail r.val Ob.Rail.profCtrl
    if !bit ctrl 0 then s.takeTarget r v.toNat (bits ctrl 2 1) 0 255
    else if (s.rail r).prof.linkReq.isNone then s.takeRequested r
    else s

/-- CTRL.SLAM_EN := 0 in a slam: preload and back to LINEAR, disarmed (R108). -/
def slamDisable (s : State) (r : RailIx) : State :=
  if (s.rail r).law.regime == .linear then s.modLaw r fun x => { x with armed := false }
  else
    let s := ((s.preloadNow r).slamReturn r).endPark r
    s.modLaw r fun x => { x with regime := .linear, armed := false, slamFrames := 0 }

/-- A write of CTRL (R108, R124). -/
def writeLawCtrl (s : State) (r : RailIx) (v : Word) : State :=
  let was := bit (s.obj Ob.clsRail r.val Ob.Rail.ctrl) 0
  let s := s.setObj Ob.clsRail r.val Ob.Rail.ctrl v
  if was && !bit v 0 then s.slamDisable r else s

/-- LT_RESET: k_lt := 1 (R157). -/
def ltReset (s : State) (r : RailIx) : State := s.modLt r fun x => { x with kLt := 1 }

/-- FF_CMD 1, 2, 3 (R141). -/
def ffCommand (s : State) (r : RailIx) (cmd : Nat) : State :=
  match cmd with
  | 1 => s.ffClear r
  | 2 => s.save (.pattern r.val (s.patSave r))
  | 3 => s.ffRestore r
  | _ => s

/-- The working coefficients become the values checked at acceptance, and k_lt 1 (R114, R157). -/
def useCoefs (s : State) (r : RailIx) (b0 b1 b2 a1 a2 : Word) : State :=
  (s.modLaw r fun x => { x with b0 := b0, b1 := b1, b2 := b2, a1 := a1, a2 := a2 }).ltReset r

/-- A write to a RAIL object. -/
def writeRail (s : State) (r : RailIx) (item : Nat) (raw v : Word) : State :=
  if item = Ob.Rail.target then s.writeTarget r v
  else if item = Ob.Rail.ctrl then s.writeLawCtrl r v
  else if item = Ob.Rail.tblData then s.tblWrite r v
  else if item = Ob.Rail.coefApply then s
  else if item = Ob.Rail.ffCmd then s.ffCommand r v.toNat
  else
    let s := s.setObj Ob.clsRail r.val item v
    if item = Ob.Rail.vmin ∨ item = Ob.Rail.vmax then s.reclamp r
    else if item = Ob.Rail.tuneCtrl then (if bit raw 2 then s.ltReset r else s)
    else if item = Ob.Rail.ltKmin ∨ item = Ob.Rail.ltKmax then s.ltClamp r
    else if item = Ob.Rail.linkCtrl ∨ item = Ob.Rail.linkAuth then s.linkPolicy r
    else s

/-- HSUNLOCK := 1 arms HS_ON (R72). -/
def armHs (s : State) (n : PhaseIx) (v : Word) : State :=
  if v == 1 then s.modGen n fun g => { g with hsUnlock := some s.now } else s

/-- FORCE and FORCE_DUTY: in effect from the first period start after this edge; a write of FORCE disarms HSUNLOCK
(R71, R72). -/
def writeForce (s : State) (n : PhaseIx) (v : Word) : State :=
  (s.setObj Ob.clsPhase n.val Ob.Phase.force v).modGen n fun g => { g with force := Force.ofCode v.toNat, hsUnlock := none }
def writeForceDuty (s : State) (n : PhaseIx) (v : Word) : State :=
  (s.setObj Ob.clsPhase n.val Ob.Phase.forceDuty v).modGen n fun g => { g with forceDuty := v.toNat }

def writePhase (s : State) (n : PhaseIx) (item : Nat) (v : Word) : State :=
  if item = Ob.Phase.force then s.writeForce n v
  else if item = Ob.Phase.forceDuty then s.writeForceDuty n v
  else if item = Ob.Phase.hsunlock then s.armHs n v
  else s.setObj Ob.clsPhase n.val item v

/-- CLK.ALIGN := 1; a further write while ALIGN_BUSY has no effect (R45). -/
def requestAlign (s : State) : State :=
  if s.clk.alignBusy then s else s.modClk fun x => { x with alignReq := true, alignBusy := true }

/-- SYNC_EN := 0 in ACQUIRING or LOCKED starts the return to the own reference (R42). -/
def disableSync (s : State) : State :=
  match s.clk.sync with
  | .acquiring | .locked => s.modClk fun x => { x with sync := .returning, validRun := 0, missRun := 0, lockFrames := 0 }
  | _ => s

def writeClk (s : State) (item : Nat) (v : Word) : State :=
  if item = Ob.Clk.align then s.requestAlign
  else
    let was := s.syncEn
    let s := s.setObj Ob.clsClk 0 item v
    if item = Ob.Clk.ctrl && was && !s.syncEn then s.disableSync else s

/-- PORT.CTRL.EN (R169). -/
def writePort (s : State) (p : PortIx) (item : Nat) (v : Word) : State :=
  let was := bit (s.portCtrl p) 0
  let s := s.setObj Ob.clsPort p.val item v
  if item = Ob.Port.ctrl then
    (if !was && bit v 0 then s.enablePort p else if was && !bit v 0 then s.disablePort p else s)
  else s

/-- FEED: FAULTS is cleared by ones (R205); everything else may have to wait for a changeover's end (R193). -/
def writeFeed (s : State) (o : Obj) (v : Word) : State :=
  if o.item = Ob.Feed.faults then
    (s.setObj Ob.clsFeed o.inst o.item (s.obj Ob.clsFeed o.inst o.item &&& ~~~v)).refreshFlt
  else s.feedWrite ⟨o, v⟩

/-- A CMP object: CTRL and INSEL begin the comparator afresh (R211), CLR clears it (R213). -/
def writeCmp (s : State) (c : CmpIx) (item : Nat) (v : Word) : State :=
  if item = Ob.Cmp.clr then s.cmpClear c
  else
    let s := s.setObj Ob.clsCmp c.val item v
    if item = Ob.Cmp.ctrl ∨ item = Ob.Cmp.insel then s.cmpRestart c else s

/-- KEY_APPLY: the eight words become the key of KEY_SEL (R321). -/
def applyKey (s : State) : State :=
  let k := s.keySelAfter []
  let key := (List.range 8).flatMap fun i => wordBytes (((s.mb.keyWords.find? fun q => q.1 == i).map (·.2)).getD 0)
  { s with mb := { s.mb with keys := s.mb.keys.filter (fun q => q.1 != k) ++ [(k, key)], keyWords := [] } }

def writeAuth (s : State) (item : Nat) (v : Word) : State :=
  if item = Ob.Auth.keySel then s.setObj Ob.clsAuth 0 item v
  else if item = Ob.Auth.keyApply then s.applyKey
  else
    let i := item - Ob.Auth.keyW0
    { s with mb := { s.mb with keyWords := s.mb.keyWords.filter (fun q => q.1 != i) ++ [(i, v)] } }

/-- A SET of a configuration object sets CFG.STAT.MODIFIED (R331, R346). -/
def markModified (s : State) (o : Obj) : State :=
  if configKey (objKey o.cls o.inst o.item) then { s with cfg := { s.cfg with modified := true } } else s

/-- The effect of an accepted write. -/
def applyWrite (s : State) (w : ObjWrite) : State :=
  let o := w.obj
  let v := maskedValue w
  let s := s.markModified o
  if o.cls = Ob.clsRail then (if h : o.inst < 16 then s.writeRail ⟨o.inst, h⟩ o.item w.value v else s)
  else if o.cls = Ob.clsPhase then (if h : o.inst < 48 then s.writePhase ⟨o.inst, h⟩ o.item v else s)
  else if o.cls = Ob.clsClk then s.writeClk o.item v
  else if o.cls = Ob.clsPort then (if h : o.inst < 32 then s.writePort ⟨o.inst, h⟩ o.item v else s)
  else if o.cls = Ob.clsFeed then s.writeFeed o v
  else if o.cls = Ob.clsCmp then (if h : o.inst < 32 then s.writeCmp ⟨o.inst, h⟩ o.item v else s)
  else if o.cls = Ob.clsTune && o.item = Ob.Tune.stop then s.abortTune 5
  else if o.cls = Ob.clsAuth then s.writeAuth o.item v
  else
    let s := s.setObj o.cls o.inst o.item v
    if o.cls = Ob.clsDomain then (if h : o.inst < 8 then s.pinRequest ⟨o.inst, h⟩ else s)
    else if o.cls = Ob.clsPin && o.item = Ob.Pin.enMap then forEach allDomains State.pinRequest s
    else s

/-- Does an accepted write of this object wait for the next frame edge (R20, R71, R114, R124, R129, R130, R141, R144, R157,
R178, R194, R235, R249, R354, R355)? -/
def edgeObj (o : Obj) (v : Word) : Bool :=
  if o.cls = Ob.clsRail then
    o.item == Ob.Rail.engine || o.item == Ob.Rail.target || (decide (0x12 ≤ o.item) && decide (o.item ≤ 0x19))
      || o.item == Ob.Rail.ctrl || o.item == Ob.Rail.coefApply || o.item == Ob.Rail.ffCmd
      || (o.item == Ob.Rail.tuneCtrl && bit v 2) || o.item == Ob.Rail.ltKmin || o.item == Ob.Rail.ltKmax
      || (decide (0x60 ≤ o.item) && decide (o.item ≤ 0x6E)) || o.item == Ob.Rail.linkCtrl || o.item == Ob.Rail.linkAuth
      || (decide (0x90 ≤ o.item) && decide (o.item ≤ 0x9E))
  else if o.cls = Ob.clsPhase then o.item == Ob.Phase.force || o.item == Ob.Phase.forceDuty
  else if o.cls = Ob.clsPin then
    o.item == Ob.Pin.enMap || o.item == Ob.Pin.gpioDir || o.item == Ob.Pin.gpioOd || o.item == Ob.Pin.gpioOut
  else if o.cls = Ob.clsFeed then o.inst == 2 && o.item == Ob.Feed.busCtrl
  else false

/-- Queue an effect for the next frame edge, behind those taken before (R310). -/
def atEdge (s : State) (a : EdgeAction) : State := { s with edgeQueue := s.edgeQueue ++ [a] }

/-- The active of a pair replicates an accepted command with the edge of its effect (R258). -/
def replicate (s : State) (r : Req) : State :=
  if s.twin.role == .active then s.toTwin (.command (s.clk.frame + 1) r) else s

/-- COEF_APPLY members of an accepted request: the shadow values as they stand now, for the edge (R114). -/
def queueCoefs (s : State) (ms : List ObjWrite) : State :=
  forEach ms (fun s m =>
    if m.obj.cls = Ob.clsRail && m.obj.item = Ob.Rail.coefApply then
      if h : m.obj.inst < 16 then
        s.atEdge (.coefs ⟨m.obj.inst, h⟩ (s.obj Ob.clsRail m.obj.inst Ob.Rail.b0) (s.obj Ob.clsRail m.obj.inst Ob.Rail.b1)
          (s.obj Ob.clsRail m.obj.inst Ob.Rail.b2) (s.obj Ob.clsRail m.obj.inst Ob.Rail.a1) (s.obj Ob.clsRail m.obj.inst Ob.Rail.a2))
      else s
    else s) s

/-- The command of a slot has been accepted and ends later, at an edge or with its outcome. -/
def startSlot (s : State) (k : SlotIx) : State :=
  s.modSlot k fun x => { x with taken := x.taken.map fun t => { t with started := true } }

/-- A SET that passed its checks: at once, or at the next frame edge with the response there (R310). -/
def acceptSet (s : State) (k : SlotIx) (w : ObjWrite) : State :=
  let s := s.replicate (.set w)
  if edgeObj w.obj w.value then ((s.atEdge (.write (some k) w)).queueCoefs [w]).startSlot k
  else (s.applyWrite w).finish k St.ok []

/-- A SET (R10, R317 with one member). -/
def doSet (s : State) (k : SlotIx) (authed : Bool) (w : ObjWrite) : State :=
  let st := s.writeStatus authed [] w
  if st = St.ok then s.acceptSet k w else s.finish k st []

/-! Several members (R317) -/

/-- The validation codes of the members, each as if it stood alone. -/
def memberCodes (s : State) (authed : Bool) : List ObjWrite → List ObjWrite → List Nat
  | _, [] => []
  | prior, m :: ms => s.writeStatus authed prior m :: s.memberCodes authed (prior ++ [m]) ms

/-- The store after every member that only stores a value. -/
def groupStore (st : Store) (ms : List ObjWrite) : Store :=
  ms.foldl (fun st m => match rowAt m.obj.cls m.obj.inst m.obj.item with
    | some row => if storedAcc row.acc && m.obj.cls != Ob.clsAuth then
        st.setVal m.obj.cls m.obj.inst m.obj.item (maskedValue m) else st
    | none => st) st

/-- The member that reports RANGE where only the group as a whole breaks R23: the first that raises the budget of an engine
whose budget after the group exceeds 360 cycles (R317). -/
def budgetCulprit (s : State) (ms : List ObjWrite) : Option Nat :=
  let after := groupStore s.objs ms
  if Store.budgetOk s.objs after then none
  else
    let above := (List.range 4).filter fun e => decide (360 < after.budget e)
    some (((List.range ms.length).find? fun i =>
      above.any fun e => decide ((groupStore s.objs (ms.take i)).budget e < (groupStore s.objs (ms.take (i + 1))).budget e)).getD 0)

/-- The codes of a refused group, none where it is accepted. -/
def groupRefusal (s : State) (authed : Bool) (ms : List ObjWrite) : Option (List Nat) :=
  let codes := s.memberCodes authed [] ms
  if codes.all (· == St.ok) then
    match s.budgetCulprit ms with
    | some i => some (codes.set i St.range)
    | none => none
  else some codes

/-- The first code that is not OK. -/
def firstBad (codes : List Nat) : Nat := (codes.find? fun c => c != St.ok).getD St.ok

def codesPayload (codes : List Nat) : List Byte := memberPayload false (codes.map fun c => (c, false))

/-- The writes of a PHASE_FORCE entry (R70). -/
def forceWrites (m : ForceMember) : List ObjWrite :=
  [⟨⟨Ob.clsPhase, m.phase, Ob.Phase.forceDuty⟩, BitVec.ofNat 32 m.duty⟩,
   ⟨⟨Ob.clsPhase, m.phase, Ob.Phase.force⟩, BitVec.ofNat 32 m.force⟩]

/-- One member's writes all together, or none: the code of the first that cannot be applied (R317). -/
def applyMember (s : State) (budget : Bool) (ws : List ObjWrite) : State × Nat :=
  match (ws.map fun w => s.writeCode budget true [] w).find? fun c => c != St.ok with
  | some c => (s, c)
  | none => (forEach ws State.applyWrite s, St.ok)

/-- Every member in the order listed, with its outcome; nothing is rolled back (R317). R23 covers the group as a whole: where
the whole group fits at that edge, `budget` is false and no member is held to it by itself (log entry 32). -/
def applyMembers (s : State) (budget : Bool) : List (List ObjWrite) → State × List Nat
  | [] => (s, [])
  | m :: ms =>
    let p := s.applyMember budget m
    let q := p.1.applyMembers budget ms
    (q.1, p.2 :: q.2)

/-- The response of a request whose members were applied (R317). -/
def finishGroup (s : State) (slot : Option SlotIx) (codes : List Nat) : State :=
  s.finishOpt slot (memberStatus (codes.map fun c => (c, false))) (codesPayload codes)

end State
end Sys2Proof.Machine
end

