-- ==== Sys2Proof/Machine/HostOps.lean ====
section
/-! DEFINITION. What accepted host commands do at a frame edge: RAIL_TARGET (R130, R318), RAIL_CLEAR_LATCH (R319),
DOMAIN_ON and DOMAIN_OFF (R237), REC_FREEZE (R289), CNT_CLEAR (R297), a configuration's installation (R331), and the edge
at which the queue applies (R310, R317). -/

namespace Sys2Proof.Machine
namespace State

/-! RAIL_TARGET -/

/-- The code of a RAIL_TARGET member in the order of R318; `twice` says that its rail was named before. -/
def targetCode (s : State) (m : TargetMember) (twice : Bool) : Nat :=
  if h : m.rail < 16 then
    let r : RailIx := ⟨m.rail, h⟩
    if !s.railEn m.rail then St.badObject
    else if bit (s.obj Ob.clsRail m.rail Ob.Rail.profCtrl) 0 then St.state
    else if 45000 < m.mv ∨ twice then St.range
    else if m.wait && !s.regulating r then St.state
    else St.ok
  else St.badObject

/-- The codes of all members. -/
def targetCodes (s : State) : List Nat → List TargetMember → List Nat
  | _, [] => []
  | seen, m :: ms => s.targetCode m (seen.contains m.rail) :: s.targetCodes (m.rail :: seen) ms

/-- One member at the frame edge (R130, R318): its outcome, unless it waits. -/
def applyTarget (s : State) (slot : Option SlotIx) (i : Nat) (m : TargetMember) : State :=
  let done (s : State) (code : Nat) (clamped : Bool) : State :=
    match slot with
    | some k => s.gatherSet k i code clamped
    | none => s
  let code := s.targetCode m false
  if h : m.rail < 16 ∧ code = St.ok then
    let r : RailIx := ⟨m.rail, h.1⟩
    let s := s.setObj Ob.clsRail m.rail Ob.Rail.target (BitVec.ofNat 32 m.mv)
    if !s.regulating r then done s St.ok (s.clampTarget r m.mv != m.mv)
    else
      let s := s.takeTarget r m.mv m.slew m.tag 255
      match m.wait, slot with
      | true, some k => s.modProf r fun x => { x with waiter := some (k, i) }
      | _, _ => done s St.ok (s.clampTarget r m.mv != m.mv)
  else done s code false

/-- Members from the i-th on. -/
def applyTargets (s : State) (slot : Option SlotIx) : Nat → List TargetMember → State
  | _, [] => s
  | i, m :: ms => (s.applyTarget slot i m).applyTargets slot (i + 1) ms

/-! RAIL_CLEAR_LATCH -/

/-- A rail has something to clear (R319). -/
def clearable (s : State) (r : RailIx) : Bool :=
  s.latchedOff r || (s.phasesOf r.val).any (fun n => (s.phase n).gen.tripped)
    || (s.rail r).fuse.fstate == .latched || (s.rail r).fuse.fstate == .passShort

/-- The effects of R319 in its order (R78, R198, R202, R221, R224, R245). -/
def clearLatch (s : State) (r : RailIx) (override : Bool) (key : Nat) : State :=
  let former := (s.rail r).prot.latch
  let s := (s.endCrowbar r).modProt r fun p => { p with latch := .none, hicRun := 0 }
  let s := forEach (s.phasesOf r.val) (fun s n =>
    if (s.phase n).gen.tripped then
      (s.modGen n fun g => { g with tripped := false, tripCount := 0, cleanRun := 0 }).modSense n fun x =>
        { x with shed := s.regulating r && (s.rail r).law.regime != .slamUp, shedAt := s.now }
    else s.modGen n fun g => { g with tripCount := 0, cleanRun := 0 }) s
  let s := s.modFuse r fun (f : FuseState) => { f with
    fstate := (if f.fstate == FuseSt.latched || f.fstate == FuseSt.passShort then FuseSt.off else f.fstate), retry := 0 }
  let s := s.saveFuses
  let s := match s.railDomain r with
    | none => s
    | some d =>
      if (s.domain d).dstate == DomSt.latched && (s.domain d).latchRail == r.val then
        ((s.setDom d .off).modDomain d fun x => { x with latchRail := 255 }).settleDev
      else s
  let s := s.record Code.latchCleared Ob.clsRail r.val key (leBytes 1 former.code ++ leBytes 1 (flag override 0))
  (s.count Ob.clsRail r.val Ob.Rail.latchClears).refreshFlt

/-! Domains -/

/-- The domains that a mask names. -/
def domainsIn (mask : BitVec 8) : List DomainIx := allDomains.filter fun d => mask.getLsbD d.val

/-- A named domain passes the check of R237. -/
def domainReqOk (s : State) (on : Bool) (d : DomainIx) : Bool :=
  !s.srcPin d && !(s.railsOf d.val).isEmpty && !(on && s.domBlocks d)

/-! Recorder and counters -/

/-- The recorder freezes, or its expiry starts again (R289, R290). -/
def freeze (s : State) : State :=
  (s.modRec fun x => { x with frozen := true, freezeEnd := s.now + sFrames 10 }).armRec

/-- Is a stored object a counter that CNT_CLEAR of a class and instance sets to 0 (R297)? -/
def clears (cls inst key : Nat) : Bool :=
  (cls == 255 || key / 65536 == cls) && (inst == 255 || key / 256 % 256 == inst) &&
    match rowAt (key / 65536) (key / 256 % 256) (key % 256) with
    | some row => row.clr
    | none => false

/-- CNT_CLEAR at the frame edge (R297). -/
def clearCounters (s : State) (cls inst key : Nat) : State :=
  let s := { s with objs := s.objs.filter fun p => !clears cls inst p.1 }
  s.record Code.cntCleared Ob.clsRec 0 key (leBytes 1 cls ++ leBytes 1 inst)

/-! Configuration -/

/-- What an image sets: the configuration objects, the topology and DBG_PERMIT (R331). -/
def imageKey (k : Nat) : Bool :=
  heldKey k || k == objKey Ob.clsDev 0 Ob.Dev.dbgPermit ||
    (k / 65536 == Ob.clsPhase && k % 256 == Ob.Phase.rail) || (k / 65536 == Ob.clsRail && k % 256 == Ob.Rail.domain)

/-- A store with an image's objects in place of its own (R331). -/
def withImage (st image : Store) : Store :=
  (image.filter fun p => imageKey p.1).foldl
    (fun st p => st.setVal (p.1 / 65536) (p.1 / 256 % 256) (p.1 % 256) p.2) (st.filter fun p => !imageKey p.1)

/-- MODE, PAT_PERIOD and PAT_ID of a rail are unchanged (R331). -/
def sameIdentity (old new : Store) (r : Nat) : Bool :=
  bits (old.val Ob.clsRail r Ob.Rail.ffCtrl) 1 0 == bits (new.val Ob.clsRail r Ob.Rail.ffCtrl) 1 0
    && old.rN r Ob.Rail.patPeriod == new.rN r Ob.Rail.patPeriod && old.rN r Ob.Rail.patId == new.rN r Ob.Rail.patId

/-- The shadow coefficients become the working ones (R331). -/
def loadCoefs (s : State) (r : RailIx) : State :=
  let w (item : Nat) : Word := s.obj Ob.clsRail r.val item
  s.useCoefs r (w Ob.Rail.b0) (w Ob.Rail.b1) (w Ob.Rail.b2) (w Ob.Rail.a1) (w Ob.Rail.a2)

/-- The tables of a rail after an image: kept where the identity is unchanged, else 0, then what the image holds. -/
def loadTables (s : State) (old : Store) (tables : List (Nat × Nat × Sparse)) (r : RailIx) : State :=
  let keep := sameIdentity old s.objs r.val
  let named (t : Nat) : Bool := tables.any fun q => q.1 == r.val && q.2.1 == t
  let tab (t : Nat) (x : Sparse) : Sparse := if named t then tableOf tables r.val t else x
  s.modFf r fun x => { x with
    t0 := tab 0 (if keep then x.t0 else []), t1 := tab 1 (if keep then x.t1 else [])
    fric := tab 2 [], cog := tab 3 []
    sums := if keep then x.sums else [], counts := if keep then x.counts else [], spoiled := if keep then x.spoiled else [] }

/-- The image's objects in effect (R331); what differs from the configuration before is started anew. -/
def install (s : State) (image : Store) (tables : List (Nat × Nat × Sparse)) : State :=
  let old := s.objs
  let s := { s with objs := withImage s.objs image }
  let s := forEach allRails (fun s r => (s.loadCoefs r).loadTables old tables r) s
  let s := forEach allPhases (fun s n =>
    let moved := (old.val Ob.clsPhase n.val Ob.Phase.rail) != (s.obj Ob.clsPhase n.val Ob.Phase.rail)
    s.modGen n fun g => { g with
      placed := g.placed && !moved
      force := Force.ofCode (s.phaseN n.val Ob.Phase.force), forceDuty := s.phaseN n.val Ob.Phase.forceDuty }) s
  let s := forEach allPorts (fun s p =>
    if (List.range 5).any (fun i => old.val Ob.clsPort p.val i != s.obj Ob.clsPort p.val i) then
      let s := if bit (old.val Ob.clsPort p.val Ob.Port.ctrl) 0 then s.disablePort p else s
      if bit (s.portCtrl p) 0 then s.enablePort p else s
    else s) s
  let s := forEach allRails State.linkPolicy s
  forEach allCmps (fun s c =>
    if (old.val Ob.clsCmp c.val Ob.Cmp.ctrl) != s.cmpCtrl c || (old.val Ob.clsCmp c.val Ob.Cmp.insel) != (s.obj Ob.clsCmp c.val Ob.Cmp.insel)
    then s.cmpRestart c else s) s

/-- The copy that a commit overwrites: an invalid one, else the one with the lower generation (R330). -/
def commitCopy (s : State) : Nat :=
  if s.cfg.copy0.isNone then 0 else if s.cfg.copy1.isNone then 1 else if s.copyGen 0 < s.copyGen 1 then 0 else 1

/-- The valid copy that carries a generation. -/
def copyWith (s : State) (gen : Nat) : Option (Nat × Image) :=
  match s.cfg.copy0, s.cfg.copy1 with
  | some a, some b => if a.generation = gen then some (0, a) else if b.generation = gen then some (1, b) else none
  | some a, none => if a.generation = gen then some (0, a) else none
  | none, some b => if b.generation = gen then some (1, b) else none
  | none, none => none

/-- A commit takes effect (R331). -/
def commitAt (s : State) (gen : Nat) : State :=
  match s.copyWith gen with
  | none => s
  | some q =>
    let s := s.install q.2.objs q.2.tables
    let s := { s with cfg := { s.cfg with
      runCopy := q.1, genRun := gen, converted := q.2.converted, modified := false, isDefault := false, lastReason := 0 } }
    let s := (s.count Ob.clsCfg 0 Ob.Cfg.commits).record Code.cfgCommit Ob.clsCfg 0 0 (leBytes 4 gen)
    forEach allDomains State.pinRequest s

/-- The response of a CFG_COMMIT (R315), with the generation where it passed; a field that its REASON gives no meaning to is
open (log entry 40). -/
def commitPayload (f : ImageFault) (gen : Option Nat) : List Byte :=
  leBytes 1 f.reason ++ leBytes 1 f.engine
    ++ leBytes 2 (if f.reason = 4 then f.budget else Config.commitField f.reason 2)
    ++ leBytes 4 (if f.reason = 3 then f.offset else Config.commitField f.reason 4)
    ++ leBytes 4 (gen.getD (Config.commitField f.reason 8))

/-! The queue at a frame edge -/

/-- One queued effect (R310, R317). A replicated effect names no slot (R258). -/
def applyEdge (s : State) (a : EdgeAction) : State :=
  match a with
  | .write slot w =>
    let c := s.writeStatus true [] w
    if c = St.ok then (s.applyWrite w).finishOpt slot St.ok [] else s.finishOpt slot c []
  | .group slot ms =>
    let q := s.applyMembers (s.budgetCulprit ms).isSome (ms.map fun m => [m])
    q.1.finishGroup slot q.2
  | .force slot ms =>
    let q := s.applyMembers true (ms.map forceWrites)
    q.1.finishGroup slot q.2
  | .domainReq slot mask on => (forEach (domainsIn mask) (fun s d => s.setReq d on) s).finishOpt slot St.ok []
  | .targets slot ms => s.applyTargets slot 0 ms
  | .clearLatch slot r override key =>
    let former := (s.rail r).prot.latch.code
    (s.clearLatch r override key).finishOpt slot St.ok (leBytes 1 former)
  | .tuneStart slot r auto =>
    match s.tuneRefusal r auto with
    | some c => s.finishOpt slot c []
    | none => s.tuneBegin slot r auto
  | .freeze slot => s.freeze.finishOpt slot St.ok (leBytes 6 s.recLast)
  | .cntClear slot cls inst key => (s.clearCounters cls inst key).finishOpt slot St.ok []
  | .commit slot gen => (s.commitAt gen).finishOpt slot St.ok (commitPayload { reason := 0 } (some gen))
  | .coefs r b0 b1 b2 a1 a2 => s.useCoefs r b0 b1 b2 a1 a2
  | .ffCmd slot r cmd => (s.ffCommand r cmd).finishOpt slot St.ok []

/-- Is an effect a sequencing transition, which comes before the members of a group (R317)? -/
def seqAction : EdgeAction → Bool
  | .domainReq .. => true
  | _ => false

/-- The queue at a frame edge: sequencing first, then every effect in the order in which its command was taken (R310, R317). -/
def applyQueue (s : State) : State :=
  let q := s.edgeQueue
  forEach (q.filter (fun a => !seqAction a)) State.applyEdge
    (forEach (q.filter seqAction) State.applyEdge { s with edgeQueue := [] })

end State
end Sys2Proof.Machine
end

