-- ==== Sys2Proof/Machine/Operands.lean ====
section
/-! DEFINITION. The requests of the opcode catalogue (R315): lengths, payload layouts, and the request that a taken slot
holds for its command. -/

namespace Sys2Proof.Machine

/-- Opcodes of R315. -/
abbrev Op.hello : Nat := 0x01
abbrev Op.identify : Nat := 0x02
abbrev Op.get : Nat := 0x03
abbrev Op.set : Nat := 0x04
abbrev Op.getBlock : Nat := 0x05
abbrev Op.setGroup : Nat := 0x06
abbrev Op.domainOn : Nat := 0x10
abbrev Op.domainOff : Nat := 0x11
abbrev Op.railTarget : Nat := 0x12
abbrev Op.railClearLatch : Nat := 0x13
abbrev Op.phaseForce : Nat := 0x14
abbrev Op.tuneStart : Nat := 0x20
abbrev Op.tuneRead : Nat := 0x21
abbrev Op.autotune : Nat := 0x22
abbrev Op.recRead : Nat := 0x30
abbrev Op.recFreeze : Nat := 0x31
abbrev Op.recThaw : Nat := 0x32
abbrev Op.recClear : Nat := 0x33
abbrev Op.snapRead : Nat := 0x34
abbrev Op.cntClear : Nat := 0x35
abbrev Op.authChallenge : Nat := 0x40
abbrev Op.cfgStage : Nat := 0x50
abbrev Op.cfgCommit : Nat := 0x51
abbrev Op.cfgRead : Nat := 0x52
abbrev Op.fwStage : Nat := 0x53
abbrev Op.fwActivate : Nat := 0x54
abbrev Op.twinHandover : Nat := 0x60
abbrev Op.twinArm : Nat := 0x61
abbrev Op.meterRead : Nat := 0x70
abbrev Op.meterIntervals : Nat := 0x71
abbrev Op.meterSession : Nat := 0x72
abbrev Op.timeSet : Nat := 0x78
abbrev Op.timeGet : Nat := 0x79
abbrev Op.sleep : Nat := 0x7E
abbrev Op.reset : Nat := 0x7F

/-- Every opcode (R315). -/
def opcodes : List Nat :=
  [Op.hello, Op.identify, Op.get, Op.set, Op.getBlock, Op.setGroup, Op.domainOn, Op.domainOff, Op.railTarget,
   Op.railClearLatch, Op.phaseForce, Op.tuneStart, Op.tuneRead, Op.autotune, Op.recRead, Op.recFreeze, Op.recThaw,
   Op.recClear, Op.snapRead, Op.cntClear, Op.authChallenge, Op.cfgStage, Op.cfgCommit, Op.cfgRead, Op.fwStage,
   Op.fwActivate, Op.twinHandover, Op.twinArm, Op.meterRead, Op.meterIntervals, Op.meterSession, Op.timeSet, Op.timeGet,
   Op.sleep, Op.reset]

/-- An object address in a payload. -/
def objBytes (b : List Byte) : Obj := ⟨byteAt b 0, byteAt b 1, byteAt b 2⟩

/-- An entry laid out as SET. -/
def writeBytes (b : List Byte) : ObjWrite := ⟨objBytes b, BitVec.ofNat 32 (leAt b 4 4)⟩

/-- An entry of RAIL_TARGET. -/
def targetBytes (b : List Byte) : TargetMember :=
  ⟨byteAt b 0, byteAt b 1 % 4, (byteAt b 1).testBit 2, byteAt b 2, leAt b 3 2⟩

/-- An entry of PHASE_FORCE. -/
def forceBytes (b : List Byte) : ForceMember := ⟨byteAt b 0, byteAt b 1, leAt b 2 2⟩

/-- A payload of COUNT entries of a stride: none where its length does not fit its COUNT. -/
def entries {α : Type} (stride : Nat) (f : List Byte → α) (b : List Byte) : Option (List α) :=
  let n := byteAt b 0
  if b.length = 1 + stride * n then some ((List.range n).map fun i => f ((b.drop (1 + stride * i)).take stride)) else none

/-- The request where a payload has the fixed length of its opcode. -/
def fixed (b : List Byte) (n : Nat) (r : Req) : Option Req := if b.length = n then some r else none

/-- METER_SESSION by its OP (R315). -/
def parseSession (b : List Byte) : Option Req :=
  if b.length < 4 then none
  else match byteAt b 0 with
    | 0 => some .meterOpen
    | 1 => if b.length = 8 then some (.meterStage (byteAt b 1) (byteAt b 2) (BitVec.ofNat 32 (leAt b 4 4))) else none
    | 2 => some .meterCommit
    | 3 => some .meterAbandon
    | 4 => if 9 ≤ b.length then some (.meterFwChunk (leAt b 4 4) (b.drop 8)) else none
    | 5 => if b.length = 36 then some (.meterKeyLoad (b.drop 4)) else none
    | k => some (.meterBadOp k)

/-- The request that an opcode and a payload without its block spell (R315); none where the length is wrong. -/
def parseReq (op : Nat) (b : List Byte) : Option Req :=
  if op = Op.hello then fixed b 4 (.hello (byteAt b 0) (byteAt b 1) (leAt b 2 2))
  else if op = Op.identify then fixed b 0 .identify
  else if op = Op.get then fixed b 3 (.get (objBytes b))
  else if op = Op.set then fixed b 8 (.set (writeBytes b))
  else if op = Op.getBlock then fixed b 4 (.getBlock (objBytes b) (byteAt b 3))
  else if op = Op.setGroup then (entries 8 writeBytes b).map .setGroup
  else if op = Op.domainOn then fixed b 1 (.domainOn (BitVec.ofNat 8 (byteAt b 0)))
  else if op = Op.domainOff then fixed b 1 (.domainOff (BitVec.ofNat 8 (byteAt b 0)))
  else if op = Op.railTarget then (entries 5 targetBytes b).map .railTarget
  else if op = Op.railClearLatch then fixed b 2 (.railClearLatch (byteAt b 0) ((byteAt b 1).testBit 0))
  else if op = Op.phaseForce then (entries 4 forceBytes b).map .phaseForce
  else if op = Op.tuneStart then fixed b 1 (.tuneStart (byteAt b 0))
  else if op = Op.tuneRead then fixed b 4 (.tuneRead (byteAt b 0) (leAt b 1 2) (byteAt b 3))
  else if op = Op.autotune then fixed b 1 (.autotune (byteAt b 0))
  else if op = Op.recRead then fixed b 6 (.recRead (leAt b 0 6))
  else if op = Op.recFreeze then fixed b 0 .recFreeze
  else if op = Op.recThaw then fixed b 0 .recThaw
  else if op = Op.recClear then fixed b 6 (.recClear (leAt b 0 6))
  else if op = Op.snapRead then fixed b 4 (.snapRead (byteAt b 0) (leAt b 1 2) (byteAt b 3))
  else if op = Op.cntClear then fixed b 2 (.cntClear (byteAt b 0) (byteAt b 1))
  else if op = Op.authChallenge then fixed b 1 (.authChallenge (byteAt b 0))
  else if op = Op.cfgStage then (if 5 ≤ b.length then some (.cfgStage (leAt b 0 4) (b.drop 4)) else none)
  else if op = Op.cfgCommit then fixed b 4 (.cfgCommit (leAt b 0 4))
  else if op = Op.cfgRead then fixed b 6 (.cfgRead (byteAt b 0) (leAt b 1 4) (byteAt b 5))
  else if op = Op.fwStage then (if 5 ≤ b.length then some (.fwStage (leAt b 0 4) (b.drop 4)) else none)
  else if op = Op.fwActivate then fixed b 1 (.fwActivate (byteAt b 0))
  else if op = Op.twinHandover then fixed b 0 .twinHandover
  else if op = Op.twinArm then fixed b 0 .twinArm
  else if op = Op.meterRead then fixed b 5 (.meterRead (byteAt b 0) (byteAt b 1) (leAt b 2 2) (byteAt b 4))
  else if op = Op.meterIntervals then fixed b 5 (.meterIntervals (leAt b 0 4) (byteAt b 4))
  else if op = Op.meterSession then parseSession b
  else if op = Op.timeSet then fixed b 11 (.timeSet (byteAt b 0) (leAt b 1 6) (leAt b 7 4))
  else if op = Op.timeGet then fixed b 0 .timeGet
  else if op = Op.sleep then fixed b 4 (.sleep (leAt b 0 4))
  else if op = Op.reset then fixed b 0 .reset
  else none

namespace State

/-- The request of a slot whose command has been taken and has not begun, with the key slot that authorised it. -/
def request (s : State) (k : SlotIx) : Option (Req × Option Nat) :=
  let x := s.slot k
  match x.taken with
  | some t =>
    if (x.st == .pending || x.st == .discard) && !t.started && x.reply.isNone then
      (parseReq t.op t.body).map fun r => (r, t.key)
    else none
  | none => none

/-- A mailbox command acts where its slot holds its request; any other event of that name leaves the state as it is. -/
def onRequest (s : State) (k : SlotIx) (r : Req) (f : Option Nat → State) : State :=
  match s.request k with
  | some q => if q.1 = r then f q.2 else s
  | none => s

/-- A GET (R10). -/
def doGet (s : State) (k : SlotIx) (o : Obj) : State :=
  match s.readObj o with
  | some q => q.1.finish k St.ok (wordBytes q.2)
  | none => s.finish k St.badObject []

end State
end Sys2Proof.Machine
end

