-- ==== Sys2Proof/Machine/Twin.lean ====
section
/-! DEFINITION. Twin pairing (12): roles, arming, alignment, replication, planned handover and takeover. -/

namespace Sys2Proof.Machine

/-- Codes of the states that an alignment record carries back into states (R257). -/
def Regime.ofCode : Nat → Regime | 1 => .slamUp | 2 => .slamDown | _ => .linear
def FuseSt.ofCode : Nat → FuseSt | 1 => .ramp | 2 => .on | 3 => .tripped | 4 => .latched | 5 => .passShort | _ => .off
def Rseq.ofCode : Nat → Rseq | 1 => .ramp | 2 => .on | 3 => .discharge | _ => .off
def SelState.ofCode : Nat → SelState | 1 => .onA | 2 => .onB | 3 => .brk | 4 => .dead | 5 => .make | _ => .none
def DomSt.ofCode : Nat → DomSt | 1 => .up | 2 => .on | 3 => .down | 4 => .retryWait | 5 => .latched | _ => .off

/-- The units of an alignment record (R257): duties and gains in 2^-32, electrical values in millionths, percents in 10^-5. -/
def duty32 (i : Int) : Rat := (i : Rat) / 4294967296
def micro (i : Int) : Rat := (i : Rat) / 1000000

namespace State

def modTwin (s : State) (f : TwinState → TwinState) : State := { s with twin := f s.twin }

/-- A role change (R255, R263): the record and ISTAT.TWIN. -/
def setRole (s : State) (x : TwinRole) : State :=
  let old := s.twin.role
  (((s.modTwin fun t => { t with role := x }).record Code.twinRole Ob.clsTwin 0 x.code (leBytes 1 old.code))).irq Irq.twin

/-- A pending handover ends before its edge (R259). -/
def abortHandover (s : State) : State :=
  match s.twin.pendingHo with
  | some q => (s.modTwin fun t => { t with pendingHo := none }).finish q.1 St.aborted []
  | none => s

/-- The end of an arming request with the reason, 0 where the device is armed (R256). -/
def endArm (s : State) : State :=
  match s.twin.armSlot with
  | some k => (s.modTwin fun t => { t with armSlot := none }).finish k St.ok (leBytes 1 s.twin.unarm.code)
  | none => s

/-- A standby becomes armed (R256, R263). -/
def arm (s : State) : State :=
  (((s.modTwin fun t => { t with armed := true, unarm := .none, resyncing := false }).record
    Code.twinArmed Ob.clsTwin 0 0 []).irq Irq.twin).endArm

/-- A device is unarmed, with the reason (R253, R257, R258, R261 … R263). -/
def unarmFor (s : State) (u : Unarm) : State :=
  let was := s.twin.armed
  let s := s.modTwin fun t => { t with armed := false, unarm := u, resyncing := false }
  let s := if was then
      ((s.count Ob.clsTwin 0 Ob.Twin.unarms).record Code.twinUnarmed Ob.clsTwin 0 u.code []).irq Irq.twin
    else s
  s.endArm.abortHandover

/-- Does the role keep step with an active (R255)? -/
def follows (s : State) : Bool := s.twin.role == .standby || s.twin.role == .monitor

/-- The first condition of R256 that does not hold, none where the standby can be armed. -/
def armReason (s : State) : Unarm :=
  let t := s.twin
  if !t.linkUp then .link
  else if !t.fsLock then .frameSync
  else if t.peerVer / 256 != 2 then .version
  else if t.peerDigest != s.cfgDigest.toNat then .config
  else if t.holdoffEnd.isSome then .holdoff
  else .none

/-- A resynchronisation begins (R256): the active sends its complete state. -/
def resync (s : State) : State := s.modTwin fun t => { t with resyncing := true, resyncOnly := false }

/-! Alignment (R257) -/

def adoptRail (s : State) (r : RailIx) (a : RailAlign) : State :=
  s.modRail r fun x => { x with
    law := { x.law with
      sV := duty32 a.sV, sI := duty32 a.sI, sP := duty32 a.sP, sT := duty32 a.sT
      e1 := micro a.e1, e2 := micro a.e2, f1 := duty32 a.f1, f2 := duty32 a.f2
      eI1 := some (micro a.eI1), eP1 := some (micro a.eP1), eT1 := some (micro a.eT1)
      regime := Regime.ofCode a.regime, armed := a.armed, slamFrames := a.slamFrames }
    lt := { x.lt with kLt := duty32 a.kLt }
    prof := { x.prof with
      p := (a.p : Rat) / 1000, v := (a.v : Rat) / 1000, a := (a.a : Rat)
      reqMv := a.reqMv, tgtMv := s.clampTarget r a.reqMv, slew := a.slew, tag := a.tag }
    prot := { x.prot with hicRun := a.hicRun, hicEnd := a.hicLeft.map (s.now + ·) }
    fuse := { x.fuse with fstate := FuseSt.ofCode a.fuseState, retry := a.fuseRetry }
    seq := { x.seq with rseq := Rseq.ofCode a.rseq } }

def adoptPhase (s : State) (n : PhaseIx) (a : PhaseAlign) : State :=
  (s.modSense n fun x => { x with shed := a.shed, trim := (a.trim : Rat) / 100000 }).modGen n fun g => { g with carry := a.carry }

/-- The record's values replace the standby's own (R257). -/
def adopt (s : State) (ar : AlignRec) : State :=
  let s := forEach allRails (fun s r => match ar.rails[r.val]? with | some a => s.adoptRail r a | none => s) s
  let s := forEach allPhases (fun s n => match ar.phases[n.val]? with | some a => s.adoptPhase n a | none => s) s
  let s := { s with feeds := { s.feeds with sel := SelState.ofCode ar.selState, episode := ar.episode } }
  forEach allDomains (fun s d => match ar.domains[d.val]? with
    | some c => s.modDomain d fun x => { x with dstate := DomSt.ofCode c }
    | none => s) s

/-- A record that arrived is adopted at this frame edge; more than 8 frames late unarms (R257). -/
def adoptFrame (s : State) : State :=
  match s.twin.align with
  | none => s
  | some ar =>
    let lag := (s.clk.frame + 281474976710656 - ar.edge % 281474976710656) % 281474976710656
    let s := (s.adopt ar).modTwin fun t => { t with align := none, lag := lag }
    if s.twin.armed && decide (8 < lag) then (s.unarmFor .lag).resync else s

/-! Replication (R258) -/

/-- Can the standby apply a replicated effect? -/
def replOk (s : State) (a : EdgeAction) : Bool :=
  match a with
  | .write _ w => s.writeStatus true [] w == St.ok
  | .group _ ms => (s.groupRefusal true ms).isNone
  | .force _ ms => ms.all fun m => (forceWrites m).all fun w => s.writeStatus true [] w == St.ok
  | .domainReq _ mask on => (domainsIn mask).all (s.domainReqOk on)
  | .targets _ ms => (s.targetCodes [] ms).all (· == St.ok)
  | .clearLatch _ r _ _ => s.clearable r
  | .tuneStart _ r auto => (s.tuneRefusal r auto).isNone
  | .commit _ gen => (s.copyWith gen).isSome
  | .ffCmd _ r cmd => s.railStateOk r Ob.Rail.ffCmd (BitVec.ofNat 32 cmd)
  | _ => true

/-- The effects named for this edge (R258). -/
def applyReplicated (s : State) : State :=
  let now := s.clk.frame
  let q := s.twin.repl.filter fun p => p.1 == now
  forEach (q.map (·.2)) State.applyEdge (s.modTwin fun t => { t with repl := t.repl.filter fun p => p.1 != now })

/-! The frame edge -/

/-- The outputs of a device that takes over are driven from here; its phases are Parked until their next period start
(R259, R260). -/
def drive (s : State) : State :=
  let s := s.modTwin fun t => { t with driving := true, driveAt := none }
  forEach allPhases (fun s n => (s.nextOnSchedule n).modGen n fun g =>
    { g with switching := false, rise := none, fall := none, te := 0, midDue := false }) s

/-- A cold claim: every domain that is not latched starts from OFF, its rails OFF (R255). -/
def coldStart (s : State) : State :=
  let s := forEach allRails (fun s r =>
    if s.regulating r then (s.disablePhases r).leaveRegulation r false else s.modRail r fun x => { x with upDue := none }) s
  let s := forEach allDomains (fun s d =>
    if (s.domain d).dstate == .latched then s
    else (s.setDom d .off).modDomain d fun x => { x with retryFlag := false, latchFlag := false, stepRail := 255 }) s
  s.settleDev.startStanding

/-- What a frame edge sends over the twin link as the active (R257). -/
def sendAlign (s : State) : State :=
  if s.twin.role != .active || s.linkSilent then s
  else
    let k := s.clk.frame
    let s := if k % 4 = 0 then s.toTwin (.align k) else s
    if k % 2000000 = 0 then s.toTwin (.pattern k) else s

/-- The pair over one frame edge: the lines and pulses read, what is sent, and what the standby adopts. -/
def twinFrame (s : State) (actN heartbeat twFs : Bool) : State :=
  if s.twin.role == .solo then s
  else
    let hb := heartbeat && !s.linkSilent
    let s := s.countIf (!hb && s.twin.partner) Ob.clsTwin 0 Ob.Twin.hbMisses
    let fol := s.follows
    let s := s.modTwin fun t => { t with
      outbox := [], actN := actN
      actHighRun := if actN then t.actHighRun + 1 else 0, actLowRun := if actN then 0 else t.actLowRun + 1
      hbMiss := if hb then 0 else t.hbMiss + 1, noHbRun := if hb then 0 else t.noHbRun + 1
      fsMiss := if fol && !twFs then t.fsMiss + 1 else 0, fsRun := if fol && twFs then t.fsRun + 1 else 0
      partner := t.partner && (hb || !fol || decide (t.hbMiss < 3)) }
    let s := s.modTwin fun t => { t with fsLock := fol && (t.fsLock || decide (72 ≤ t.fsRun)) }
    let s := s.sendAlign
    let s := match s.twin.driveAt with
      | some t => if t ≤ s.now then s.drive else s
      | none => s
    let s := match s.twin.role, s.twin.pendingHo with
      | .standby, some q => if q.2 < s.clk.frame then
          (s.modTwin fun t => { t with pendingHo := none }).finish q.1 St.ok (leBytes 6 q.2) else s
      | _, _ => s
    if fol then
      let s := s.adoptFrame.applyReplicated
      if s.twin.role == .standby && !s.twin.armed && !s.twin.resyncing && !s.twin.split
          && bit (s.obj Ob.clsTwin 0 Ob.Twin.ctrl) 1 && s.armReason == .none then s.resync else s
    else s

/-! The partner's frames on the ports -/

/-- The standby drops the frames that the active has started (R259, R260). -/
def dropStarted : Nat → List TxMsg → List TxMsg
  | 0, q => q
  | n + 1, q => match nextTx q with
    | some m => dropStarted n (q.erase m)
    | none => q

/-- The frames started on each port by the active since its last heartbeat. -/
def followStarted (s : State) (started : List Nat) : State :=
  let old := s.twin.partnerStarted
  let s := forEach allPorts (fun s p =>
    let n := started.getD p.val 0 - old.getD p.val 0
    s.modPort p fun x => { x with queue := dropStarted (min n x.queue.length) x.queue }) s
  s.modTwin fun t => { t with partnerStarted := started }

/-- An acknowledgement that the failed device may have sent is sent again with DUPLICATE (R260). -/
def markDuplicate (s : State) : State :=
  forEach allPorts (fun s p =>
    s.modPort p fun x => match nextTx x.queue with
      | some m => { x with queue := x.queue.map fun y => if y == m then (match y with
          | .vackStart tag c _ f mv => .vackStart tag c true f mv
          | .vackDone tag c _ mv => .vackDone tag c true mv
          | z => z) else y }
      | none => x) s

end State

/-! The commands -/

/-- TWIN_HEARTBEAT (R253): one that fails its check counts LINK_ERRORS; a valid one tells the partner's state, and ends a
split: the standby resynchronises, and is armed at its end with AUTO_ARM only (R261). -/
def execTwinHeartbeat (hb : Heartbeat) (s : State) : Out :=
  if s.twin.role == .solo || s.linkSilent || !s.framesRun then .next s
  else if !hb.valid then .next (s.count Ob.clsTwin 0 Ob.Twin.linkErrors)
  else
    let s := if s.follows then s.followStarted hb.started else s
    let was := s.twin.split
    let s := s.modTwin fun t => { t with
      partner := true, partnerHo := hb.handoverEdge, split := false
      unarm := if was then .notRequested else t.unarm
      resyncing := t.resyncing || was, resyncOnly := if was then !bit (s.obj Ob.clsTwin 0 Ob.Twin.ctrl) 1 else t.resyncOnly }
    let s := s.irqIf was Irq.twin
    .next (if s.twin.role == .active && s.twin.armed != hb.armed then
      (if hb.armed then (s.modTwin fun t => { t with armed := true, unarm := .none }).irq Irq.twin
       else (s.modTwin fun t => { t with armed := false }).irq Irq.twin |>.abortHandover)
    else s)

/-- TWIN_ALIGNMENT_RECORD (R257). -/
def execTwinAlignmentRecord (ar : AlignRec) (s : State) : Out :=
  .next (if s.follows && !s.linkSilent && s.framesRun then s.modTwin fun t => { t with align := some ar } else s)

/-- TWIN_TAKEOVER (R260). -/
def execTwinTakeover (s : State) : Out :=
  let t := s.twin
  if t.role == .standby && t.armed && decide (4 ≤ t.hbMiss) && t.actN then
    let s := s.modTwin fun t => { t with driveActN := true, armed := false, partner := false, unarm := .notRequested, resyncing := false }
    let s := s.setRole .active
    let s := (s.count Ob.clsTwin 0 Ob.Twin.takeovers).record Code.twinTakeover Ob.clsTwin 0 0 (leBytes 6 s.clk.frame)
    .next s.markDuplicate.drive
  else .next s

/-- TWIN_SPLIT (R261). -/
def execTwinSplit (s : State) : Out :=
  let t := s.twin
  if t.role == .standby && decide (4 ≤ t.hbMiss) && !t.actN && !t.split then
    let s := (s.modTwin fun t => { t with split := true }).unarmFor .split
    .next (((s.count Ob.clsTwin 0 Ob.Twin.splits).record Code.twinSplit Ob.clsTwin 0 0 (leBytes 6 s.clk.frame)).irq Irq.twin)
  else .next s

/-- TWIN_FRAME_SYNC_LOSS (R253). -/
def execTwinFrameSyncLoss (s : State) : Out :=
  .next (if s.follows && s.twin.fsLock && decide (3 ≤ s.twin.fsMiss) then
    (s.modTwin fun t => { t with fsLock := false }).unarmFor .frameSync else s)

/-- TWIN_LINK_UP (R254, R255, R262): the version is negotiated and the hold-off begins. -/
def execTwinLinkUp (major minor digest : Nat) (sameSeat : Bool) (s : State) : Out :=
  if s.twin.role == .solo || s.linkSilent || !s.framesRun then .next s
  else
    let s := s.modTwin fun t => { t with
      linkUp := true, sameSeat := sameSeat, peerVer := 256 * (major % 256) + minor % 256
      ver := if major = 2 then 512 + min minor 1 else 0, peerDigest := digest % 4294967296
      holdoffEnd := some (s.now + sFrames (s.obj Ob.clsTwin 0 Ob.Twin.rejoinS).toNat)
      unarm := if t.armed then t.unarm else .holdoff }
    match s.twin.role with
    | .listen => .next (if sameSeat then s.record Code.twinSeatConflict Ob.clsTwin 0 0 (leBytes 6 s.clk.frame) else s)
    | .standby => .next (if major = 2 then s else (s.unarmFor .version).setRole .monitor)
    | .monitor => .next (if major = 2 then s.setRole .standby else s)
    | _ => .next s

/-- TWIN_LINK_DOWN (R256, R262). -/
def execTwinLinkDown (s : State) : Out :=
  if !s.twin.linkUp then .next s
  else
    let s := s.modTwin fun t => { t with linkUp := false, sameSeat := false, holdoffEnd := none, align := none }
    .next (if s.follows then s.unarmFor .link else s)

/-- LISTEN_JOIN (R255). -/
def execListenJoin (s : State) : Out :=
  .next (if s.twin.role == .listen && decide (20 ≤ s.twin.actLowRun) then
    (s.modTwin fun t => { t with armed := false, unarm := .notRequested, fsLock := false, fsRun := 0 }).setRole .standby else s)

/-- LISTEN_CLAIM (R255): the device drives ACT_N, and every domain starts from OFF. -/
def execListenClaim (s : State) : Out :=
  let t := s.twin
  let need := if t.seatB then 4000 else 2000
  .next (if t.role == .listen && decide (need ≤ t.actHighRun) && !(t.linkUp && t.sameSeat) then
    ((s.coldStart.modTwin fun t => { t with driveActN := true }).setRole .active).drive else s)

/-- TWIN_PARTNER_LOST (R255, R261): an unarmed standby listens again; an active carries on. -/
def execTwinPartnerLost (s : State) : Out :=
  let t := s.twin
  let rec1 (s : State) : State := s.record Code.twinPartnerLost Ob.clsTwin 0 0 (leBytes 6 s.clk.frame)
  if s.follows && !t.armed && t.actN && decide (20000 ≤ t.noHbRun) then
    .next (((rec1 s).modTwin fun t => { t with partner := false, split := false, actHighRun := 0, actLowRun := 0 }).setRole .listen)
  else if t.role == .active && t.partner && decide (4 ≤ t.hbMiss) then
    let s := rec1 s
    let was := s.twin.armed
    .next (((s.modTwin fun t => { t with partner := false, armed := false }).irqIf was Irq.twin).abortHandover)
  else .next s

/-- TWIN_RESYNC_COMPLETE (R253, R256): the standby adopts the active's state and frame index at this edge and is armed; a
resynchronisation after a split without AUTO_ARM arms nothing (R261). -/
def execTwinResyncComplete (frame : Nat) (ar : AlignRec) (s : State) : Out :=
  if s.twin.role == .standby && s.twin.resyncing then
    let s := s.adopt ar
    if s.twin.resyncOnly then .next (s.modTwin fun t => { t with resyncing := false, resyncOnly := false }) else
    let f := frame % 281474976710656
    let stepped := s.clk.frame != f
    let s := s.modClk fun c => { c with frame := f, superframe := f % 64 }
    let s := if stepped then s.anchor 4 else s
    let why := s.armReason
    .next (if why == .none then s.arm else s.unarmFor .resync)
  else .next s

/-- HANDOVER_EDGE (R259): the old active releases, the standby becomes ACTIVE and drives from the edge after. -/
def execHandoverEdge (s : State) : Out :=
  match s.twin.role, s.twin.pendingHo, s.twin.partnerHo with
  | .active, some q, _ =>
    if s.clk.frame < q.2 then .next s
    else
      let s := s.modTwin fun t => { t with driving := false, driveActN := false, armed := true, unarm := .none }
      .next ((s.setRole .standby).count Ob.clsTwin 0 Ob.Twin.handovers)
  | .standby, _, some k =>
    if s.clk.frame < k || !s.twin.armed then .next s
    else
      let s := s.modTwin fun t => { t with driveActN := true, hoEdge := k, partnerHo := none, driveAt := some (s.now + 1) }
      .next ((s.setRole .active).count Ob.clsTwin 0 Ob.Twin.handovers)
  | _, _, _ => .next s

/-- REJOIN_HOLDOFF_END (R262). -/
def execRejoinHoldoffEnd (s : State) : Out :=
  match s.twin.holdoffEnd with
  | some t => .next (if t ≤ s.now then
      s.modTwin fun t => { t with holdoffEnd := none, unarm := if t.unarm == .holdoff then .notRequested else t.unarm } else s)
  | none => .next s

/-- PARTNER_RECORD (R293). -/
def execPartnerRecord (rr : RelayRec) (s : State) : Out :=
  if s.twin.role == .solo || s.linkSilent then .next s
  else
    let code := if rr.code = Code.logMediaFault then Code.nvmDegraded else rr.code
    .next (s.event ⟨code, Ob.clsTwin, 1, rr.sub,
      leBytes 1 rr.srcClass ++ leBytes 1 rr.srcInst ++ leBytes 6 rr.seq ++ padTo 8 rr.data, [], true⟩)

/-- TWIN_REPLICATED_COMMAND (R258): applied at its edge, or the standby unarms and resynchronises. -/
def execTwinReplicatedCommand (edge : Nat) (act : EdgeAction) (s : State) : Out :=
  if !s.follows || s.linkSilent then .next s
  else if s.clk.frame < edge && s.replOk act then .next (s.modTwin fun t => { t with repl := t.repl ++ [(edge, act)] })
  else .next (if s.twin.armed then (s.unarmFor .replication).resync else s)

/-- ACT_LINE_FAULT (R261). -/
def execActLineFault (s : State) : Out :=
  .next (if s.twin.role == .active && s.twin.driveActN && s.twin.actN then
    s.record Code.actLineFault Ob.clsTwin 0 0 (leBytes 6 s.clk.frame) else s)

/-- TWIN_HANDOVER (R259): the edge is the first superframe start at least 48 frames on. -/
def execTwinHandover (slot : SlotIx) (s : State) : Out :=
  .next (s.onRequest slot .twinHandover fun _ =>
    let sel := s.feeds.sel
    if s.twin.pendingHo.isSome then s.finish slot St.busy []
    else if s.twin.role != .active || !s.twin.armed || sel == .brk || sel == .dead || sel == .make || s.tune.tstate == .running
    then s.finish slot St.state []
    else
      let k := s.clk.frame + 48 + (64 - (s.clk.superframe + 48) % 64) % 64
      (s.modTwin fun t => { t with pendingHo := some (slot, k), hoEdge := k }).startSlot slot)

/-- TWIN_ARM (R256). -/
def execTwinArm (slot : SlotIx) (s : State) : Out :=
  .next (s.onRequest slot .twinArm fun _ =>
    match s.twin.role with
    | .monitor => s.finish slot St.version []
    | .standby =>
      if s.twin.armed then s.finish slot St.ok (leBytes 1 0)
      else if s.armReason == .none then (s.resync.modTwin fun t => { t with armSlot := some slot }).startSlot slot
      else
        let s := s.modTwin fun t => { t with unarm := s.armReason }
        s.finish slot St.ok (leBytes 1 s.twin.unarm.code)
    | _ => s.finish slot St.state [])

end Sys2Proof.Machine
end

