-- ==== Sys2Proof/Machine/Frame.lean ====
section
/-! DEFINITION. The frame edge (02): measurement, the law and everything else that a frame does, in one order; the commands
that a frame's counts make due for a rail (R36, R108, R131, R132, R136, R138, R142) and the reload points (R33). -/

namespace Sys2Proof.Machine
namespace State

/-- What a rail's converters gave, zeros where the list does not reach. -/
def railIn (inp : FrameIn) (r : RailIx) : RailIn := inp.rails.getD r.val ⟨[], 0, 0, 0, false⟩

/-- The error and the voltage of a rail over the frame that ends (R105, R106, R125): from the fine mean, or from the coarse
conversion where a fine one lies at the window limit. -/
def readVolts (s : State) (r : RailIx) (i : RailIn) : MeasState :=
  let x := s.rail r
  let code := s.objs.rangeCode r.val
  let p := x.prof.p / 1000 + s.refAdd r
  let vc := coarseLsbV code * (i.coarse : Rat)
  let out := i.fine.any fun c => decide (256 ≤ c.natAbs)
  let e := if out then p - vc else meanQ (i.fine.map fun c => (c : Rat)) * (fineLsbUv code : Rat) / 1000000
  { x.meas with e := e, v := p - e, pAt := x.prof.p, vCoarse := vc, outWin := out }

/-- The law's part of a frame for one rail (R32, R35, R36, R119): the law or the discharge runs on the samples of the frame
before, and the error and the voltage of the frame that ends wait for the next law; the pattern learns from that error, which
belongs to the position the frame ran at (R139). A late rail or one of a halted engine is held. -/
def railFrame (s : State) (r : RailIx) (i : RailIn) : State :=
  let m := s.readVolts r i
  let x := s.rail r
  let busy := s.lawRuns r || x.seq.rseq == .discharge
  let s :=
    if !busy then s
    else if s.halted r then s.holdCommit r
    else if i.late then
      ((s.holdCommit r).modMeas r fun m => { m with ovrCount := m.ovrCount + 1, sawLimit := false }).count
        Ob.clsRail r.val Ob.Rail.overruns
    else
      let s := s.modMeas r fun m => { m with ovrCount := 0 }
      if x.seq.rseq == .discharge then s.disFrame r else (s.ffFrame r m.e).lawFrame r
  s.modMeas r fun q => { q with e := m.e, v := m.v, pAt := m.pAt, vCoarse := m.vCoarse, outWin := m.outWin }

/-- The rail current, the input power and the stage temperature after the conversions of the frame (R89, R115, R120, R241). -/
def measureFrame (s : State) (r : RailIx) : State :=
  let x := s.rail r
  let amps := if x.seq.rseq == .discharge then
      sumQ ((s.availOf r).map fun n => (s.phase n).sense.iph) / 1000
    else s.railAmps r
  let pin := x.meas.v * amps * 32768 / s.railQ r.val Ob.Rail.eff
  s.modMeas r fun m => { m with
    iRail := amps, pIn := pin, pHist := pushHist 16 pin m.pHist, tStage := s.bankTemp r }

/-- Did the law of a rail run to its commit in this frame? -/
def lawRan (s : State) (r : RailIx) (i : RailIn) : Bool := s.lawRuns r && !s.halted r && !i.late

/-- A rail that slams down holds its low sides by the latest conversions (R110). -/
def slamFrame (s : State) (r : RailIx) (i : RailIn) : State :=
  if s.lawRan r i && (s.rail r).law.regime == .slamDown then s.parkSlam r else s

/-- The judgement of a rail over the frame: levels, limits, causes of hiccup, the profile and live tuning. -/
def railJudge (s : State) (r : RailIx) (i : RailIn) : State :=
  let ran := s.lawRan r i
  let s := (s.levelFrame r).limitFrame r ran
  if ran then (s.profileFrame r).ltFrame r else s

/-- Placement, skims, calibration and charge of a rail whose law runs; a calibration window in which it does not run does
not count (R95). -/
def railPlace (s : State) (r : RailIx) : State :=
  if s.lawRuns r then
    let s := if s.halted r then s else s.placement r
    (if s.teleStale then s else (s.skimFrames r).gcalFrame r).charge r
  else s.modPlc r fun x => { x with gcalOk := false }

/-- A row of the history of R295. -/
def historyRow (s : State) (r : RailIx) : HistRow :=
  let x := s.rail r
  { vUv := roundQ (x.meas.v * 1000000), iMa := roundQ (x.meas.iRail * 1000), dsel := x.law.dRail
    flags := x.law.regime.code + 4 * x.law.loop.code, nact := (s.activeOf r).length, eUv := roundQ (x.meas.e * 1000000) }

/-- The history of the last 128 frames, frozen while a snapshot of the rail waits (R294). -/
def historyFrame (s : State) (r : RailIx) : State :=
  let h := s.historyRow r
  s.modRail r fun x => if x.histFrozen then x else { x with hist := pushHist 128 h x.hist }

/-- The pins over a frame (R236, R354, R355): EN, GPIO inputs, SEAL_N, PGOOD. -/
def pinFrame (s : State) (inp : FrameIn) : State :=
  let s := s.enFrame inp.en
  let sel := (s.obj Ob.clsPin 0 Ob.Pin.pgSel)
  { s with dev := { s.dev with
      gpioIn := inp.gpio, sealN := inp.sealN
      pgood := sel != 0 && allRails.all fun r => !bit sel r.val || s.pg r } }

/-- The cycles that the control engines used (R24). -/
def peakFrame (s : State) (cycles : List Nat) : State :=
  { s with dev := { s.dev with cePeak := Vector.ofFn fun e : Fin 4 => max (s.dev.cePeak.get e) (cycles.getD e.val 0) } }

/-- Engines that a watchdog stopped are back (R25): port timeouts count from the restart of the link engine. -/
def engineBack (s : State) : State :=
  let s := match s.dev.hkBack with
    | some t => if t ≤ s.now then { s with dev := { s.dev with hkBack := none } } else s
    | none => s
  match s.dev.linkBack with
  | some t =>
    if t ≤ s.now then
      forEach allPorts (fun s p => s.modPort p fun x => { x with lastValid := s.now }) { s with dev := { s.dev with linkBack := none } }
    else s
  | none => s

/-- The rails that are enabled. -/
def enabledRails (s : State) : List RailIx := allRails.filter fun r => s.railEn r.val

/-- First part of a frame edge: the tick, what commands wait for, each rail's law on the samples of the frame before, then the
conversions of the frame that ends (R32 … R36). -/
def frameLaw (s : State) (inp : FrameIn) : State :=
  let s := (s.tick inp.elapsedNs inp.syncErr).engineBack
  let s := s.applyQueue.twinFrame inp.actN inp.heartbeat inp.twFs
  let s := forEach s.enabledRails (fun s r => s.railFrame r (railIn inp r)) s
  let s := s.sense inp.convs
  let s := forEach s.enabledRails State.measureFrame s
  forEach s.enabledRails (fun s r => s.slamFrame r (railIn inp r)) s

/-- Second part: judgement, placement, injection, shares (R217, R99, R148, R120). -/
def frameJudge (s : State) (inp : FrameIn) : State :=
  let held := (List.finRange 16).any fun r => r.val == s.tune.rail && (s.halted r || (railIn inp r).late)
  let s := s.tuneFrame held
  let s := forEach s.enabledRails (fun s r => s.railJudge r (railIn inp r)) s
  let s := s.injectFrame.cmpHiccups
  let s := forEach allRails State.scaleFrame s
  let s := forEach s.enabledRails State.railPlace s
  if s.teleStale then s else s.arbiter

/-- Third part: feeds, links, fuses, power good, comparators, pins, meter. -/
def frameRest (s : State) (inp : FrameIn) : State :=
  let s := s.feedFrame inp.feeds
  let s := forEach s.enabledRails State.inputFrame s
  let s := if s.linkSilent then s else s.linkFrame
  let s := forEach s.enabledRails (fun s r => s.fuseFrame r (railIn inp r).fsrcMv (railIn inp r).ftmpUv) s
  let s := forEach s.enabledRails State.goodFrame s
  let s := s.levelTrips.cmpFrame
  (((s.pinFrame inp).peakFrame inp.cycles).meterFrame).assignSlots

/-- Last part: domains whose blocks have ended start (R237), histories, status words, and the frame's records in order
(R282). -/
def frameEnd (s : State) : State :=
  let s := forEach s.enabledRails State.historyFrame s
  let s := s.refreshFlt.refreshPg.closeBatch
  s.refreshFlt.refreshFstat

/-- The frame edge of a device whose engines run. -/
def frame (s : State) (inp : FrameIn) : State :=
  ((((s.openBatch.frameLaw inp).frameJudge inp).frameRest inp).frameEnd)

end State

/-- FRAME_EDGE (R32). In RECOVERY only the clock and the status words advance (R322). -/
def execFrameEdge (inp : FrameIn) (s : State) : Out :=
  .next (if s.framesRun then s.frame inp
    else if s.dev.dstate == .recovery then (s.tick inp.elapsedNs inp.syncErr).refreshFstat
    else s)

/-- PERIOD_START (R33): a reload point of a phase, at its period start or in the middle of its period. A period start of
REFPH clears LATCH_PERIOD outputs (R213). -/
def execPeriodStart (n : PhaseIx) (mid : Bool) (s : State) : Out :=
  match s.phaseRail n with
  | none => .next s
  | some r =>
    if !s.framesRun || (s.phase n).gen.frozen.isSome then .next s
    else
      let s := s.placeCarrier n r
      let g := (s.phase n).gen
      if mid then
        .next (if g.midDue && decide (g.startTick + g.thisPeriod / 2 < s.frameTick + 6400) then s.midReload n else s)
      else if s.startDue n then
        let was := s.forced n
        let s := (s.startPeriod n r).forceChange n r was
        .next ((if s.regulating r || s.forced n then s.cmpPeriod n else s).startTrip n)
      else .next s

/-- OVERRUN (R36): the consecutive-overrun count has reached OVR_LIMIT. -/
def execOverrun (r : RailIx) (s : State) : Out :=
  .next (if s.framesRun && s.regulating r && !s.latchedOff r && decide (s.clkN Ob.Clk.ovrLimit ≤ (s.rail r).meas.ovrCount)
      && decide (0 < (s.rail r).meas.ovrCount) then
    s.latchRail r .overrun Code.overrun Ob.clsRail r.val 0
      (leBytes 1 (s.railN r.val Ob.Rail.engine) ++ leBytes 1 (s.clkN Ob.Clk.ovrLimit))
  else s)

/-- SLAM_TIMEOUT (R108). -/
def execSlamTimeout (r : RailIx) (s : State) : Out :=
  let l := (s.rail r).law
  .next (if l.regime != .linear && decide (s.railN r.val Ob.Rail.slamMax ≤ l.slamFrames) && s.lawRuns r then
    let s := (s.slamDisable r).count Ob.clsRail r.val Ob.Rail.slamTimeouts
    s.record Code.slamTimeout Ob.clsRail r.val l.regime.code []
  else s)

/-- COMMAND_DONE (R131). -/
def execCommandDone (r : RailIx) (s : State) : Out :=
  let x := (s.rail r).prof
  .next (if s.lawRuns r && !x.done && s.atTarget r && decide (s.railN r.val Ob.Rail.settle ≤ x.inBand) then
    (s.modProf r fun y => { y with done := true }).endWait r St.ok else s)

/-- SOFTSTART_END (R132): the profile comes to rest for the first time. -/
def execSoftstartEnd (r : RailIx) (s : State) : Out :=
  .next (if (s.rail r).prof.softStart && s.atTarget r && s.lawRuns r then
    s.modProf r fun y => { y with softStart := false } else s)

/-- FF_FADE_END (R136): the 64 frames of a fade are over. -/
def execFfFadeEnd (r : RailIx) (s : State) : Out :=
  match (s.rail r).ff.fade with
  | some (_, 0) => .next (s.modFf r fun x => { x with fade := none })
  | _ => .next s

/-- STROKE_TIMEOUT (R138). -/
def execStrokeTimeout (r : RailIx) (s : State) : Out := .next (if s.strokeLate r then s.strokeMismatch r else s)

/-- POS_STALE (R142): no position for 10 ms. -/
def execPosStale (r : RailIx) (s : State) : Out :=
  let x := (s.rail r).ff
  .next (if x.mode == 3 && x.pos.isSome && !x.stale && elapsed s.now x.posAt (msFrames 10) then
    s.modFf r fun y => { y with stale := true } else s)

end Sys2Proof.Machine
end

