-- ==== Sys2Proof/Machine/Mailbox.lean ====
section
/-! DEFINITION. Host transports and the mailbox (15): the address space and its window registers, the slots, and the checks of
a taken request (R300 … R314). -/

namespace Sys2Proof.Machine
namespace State

def modMb (s : State) (f : MbState → MbState) : State := { s with mb := f s.mb }

/-- The device has its supply: the hardware window answers (R300). -/
def powered (s : State) : Bool := s.dev.dstate != .unpowered

/-- A discarded access or slot operation (R306). -/
def hostErr (s : State) : State := s.irq Irq.hostErr

/-- The condition of IRQ_N low (R306). -/
def irqActive (s : State) : Bool := (s.mb.istat &&& s.mb.imask) != 0

/-- ALERT_N is driven low (R306). -/
def alertActive (s : State) : Bool := s.irqActive && bit s.mb.hostcfg 0 && !s.mb.alertHeld

/-! The window registers (R304) -/

/-- ID of R304. -/
def idWord (s : State) : Nat := match s.dev.part with | .m => 0x4816B14D | .s => 0x4816B153

/-- SLOTSTATE: four bits a slot (R304). -/
def slotStates (s : State) : Nat :=
  (s.slot 0).st.code + 16 * (s.slot 1).st.code + 256 * (s.slot 2).st.code + 4096 * (s.slot 3).st.code

/-- What a window register reads (R304). A write-only register and an offset that is not listed read 0. -/
def windowReg (s : State) (off : Nat) : Nat :=
  if off = 0x00 then s.idWord
  else if off = 0x04 then 0x102
  else if off = 0x08 then s.mb.fstat.toNat
  else if off = 0x0C then s.mb.istat.toNat
  else if off = 0x10 then s.mb.imask.toNat
  else if off = 0x14 then s.mb.pgmap.toNat
  else if off = 0x18 then s.mb.fltmap.toNat
  else if off = 0x20 then s.slotStates
  else if off = 0x28 then s.mb.hostcfg.toNat
  else if h : 0x40 ≤ off ∧ off < 0x80 then (s.mb.evcnt.get ⟨(off - 0x40) / 4, by omega⟩).toNat
  else 0

/-- ISTAT: each 1 written clears its bit (R306). -/
def istatClear (s : State) (v : Word) : State := s.modMb fun m => { m with istat := m.istat &&& ~~~v }

/-- A DOORBELL bit (R308). -/
def ringSlot (s : State) (k : SlotIx) : State :=
  if (s.slot k).st == .free then
    (s.modSlot k fun x => { x with st := .posted }).modMb fun m => { m with order := m.order ++ [k] }
  else s.hostErr

/-- A write of DOORBELL, in ascending slot order (R310); it cancels an entry into SLEEP (R340). -/
def ring (s : State) (v : Word) : State :=
  let s := s.modMb fun m => { m with arming := m.arming.filter fun a => a.cause != 0 }
  forEach ((List.finRange 4).filter fun k => bit v k.val) State.ringSlot s

/-- The host gives a slot back: what RESET, FW_ACTIVATE or SLEEP armed there acts now (R320, R340). -/
def armingNow (s : State) (k : SlotIx) : State :=
  s.modMb fun m => { m with arming := m.arming.map fun a => if a.slot == k then { a with due := some s.now } else a }

/-- A RELEASE bit (R308). -/
def releaseSlot (s : State) (k : SlotIx) : State :=
  match (s.slot k).st with
  | .free => s.hostErr
  | .posted => (s.modSlot k fun x => { x with st := .free }).modMb fun m => { m with order := m.order.filter (· != k) }
  | .pending => s.modSlot k fun x => { x with st := .discard }
  | .ready | .read => (s.modSlot k fun x => { x with st := .free, resp := List.replicate 256 0 }).armingNow k
  | .discard => s

def releaseSlots (s : State) (v : Word) : State :=
  forEach ((List.finRange 4).filter fun k => bit v k.val) State.releaseSlot s

/-- A write of a whole window register (R301, R304, R306); one that is RO or not listed is discarded. -/
def writeReg (s : State) (off : Nat) (v : Word) : State :=
  if off = 0x0C then s.istatClear v
  else if off = 0x10 then s.modMb fun m => { m with imask := v &&& 0xFFFF }
  else if off = 0x1C then s.ring v
  else if off = 0x24 then s.releaseSlots v
  else if off = 0x28 then s.modMb fun m => { m with hostcfg := v &&& 1 }
  else s.hostErr

/-! The address space (R300) -/

/-- The end of the region that holds an address: the window, each slot, and what lies between. -/
def regionEnd (a : Nat) : Nat :=
  if a < 0x100 then 0x100
  else if a < 0x1000 then 0x1000
  else if a < 0x1400 then a / 256 * 256 + 256
  else if a < 0x2000 then 0x2000
  else if a < 0x2400 then a / 256 * 256 + 256
  else 0x10000

/-- The slot of an address in a region of four slots. -/
def slotAt (region a : Nat) : Option SlotIx :=
  if h : region ≤ a ∧ a < region + 0x400 then some ⟨(a - region) / 256, by omega⟩ else none

/-- The registers that a window write touches, ascending: one it covers whole acts at its byte 3, any other is discarded
(R301). -/
def writeWindow (s : State) (a : Nat) (data : List Byte) : State :=
  let stop := min (a + data.length) 0x100
  forEach ((List.range 64).filter fun i => decide (a < 4 * i + 4) && decide (4 * i < stop)) (fun s i =>
    if a ≤ 4 * i ∧ 4 * i + 4 ≤ stop then s.writeReg (4 * i) (BitVec.ofNat 32 (leAt data (4 * i - a) 4)) else s.hostErr) s

/-- Request bytes at an offset of a slot; bytes past its end are discarded (R300, R308). -/
def writeRequest (s : State) (k : SlotIx) (off : Nat) (data : List Byte) : State :=
  if (s.slot k).st == .free then
    s.modSlot k fun x => { x with req := (x.req.take off ++ data ++ x.req.drop (off + data.length)).take 256 }
  else s.hostErr

/-- A write of at least one byte in the address space (R300, R301, R308). -/
def hostWrite (s : State) (a : Nat) (data : List Byte) : State :=
  if data.isEmpty then s
  else if a < 0x100 then s.writeWindow a data
  else match slotAt 0x1000 a with
    | some k => s.writeRequest k (a % 256) data
    | none => s.hostErr

/-- What a header read returns, and the slot after it (R309). -/
def headerRead (s : State) (k : SlotIx) : State × List Byte :=
  let x := s.slot k
  match x.st with
  | .free => (s, padTo 256 (leBytes 1 St.state))
  | .posted | .pending | .discard => (s, padTo 256 (leBytes 1 St.pending ++ (x.req.drop 1).take 1))
  | .ready => (s.modSlot k fun y => { y with st := .read }, padTo 256 x.resp)
  | .read => (s, x.resp.take 3 ++ leBytes 1 1 ++ (padTo 256 x.resp).drop 4)

/-- The bytes of a region from an address to the region's end, and the state after a read of n of them (R300, R301,
R309). -/
def readRegion (s : State) (a n : Nat) : State × List Byte :=
  if a < 0x100 then
    (s, ((List.range 64).flatMap fun i => leBytes 4 (s.windowReg (4 * i))).drop a)
  else match slotAt 0x1000 a, slotAt 0x2000 a with
    | some k, _ => (s, (s.slot k).req.drop (a % 256))
    | none, some k =>
      if a % 256 = 0 ∧ 0 < n then s.headerRead k
      else if (s.slot k).st == .ready || (s.slot k).st == .read then (s, (s.slot k).resp.drop (a % 256))
      else (s, [])
    | none, none => (s, [])

/-- A read of n bytes from an address; past the region's end bytes read 0 (R300). -/
def hostRead (s : State) (a n : Nat) : State × List Byte :=
  let q := s.readRegion a n
  (q.1, padTo n q.2)

/-! The checks of a taken request (R314) -/

/-- The opcodes of an MP1 session (R312). -/
def mp1Ops : List Nat :=
  [Op.hello, Op.identify, Op.get, Op.set, Op.domainOn, Op.domainOff, Op.railTarget, Op.railClearLatch, Op.recRead,
   Op.authChallenge, Op.cfgStage, Op.cfgCommit, Op.cfgRead]

/-- Is an opcode outside the session's protocol (R311, R312)? -/
def wrongVersion (s : State) (op count : Nat) : Bool :=
  match s.mb.mp with
  | 0 => !([Op.hello, Op.identify, Op.get].contains op)
  | 1 => !mp1Ops.contains op || (op == Op.railTarget && count != 1)
  | _ => false

/-- The key slots permitted for a write of KEY_APPLY under a KEY_SEL (R321). -/
def applySlots (sel : Nat) : List Nat := if sel = 0 then [0, 3] else [0]

/-- The key slots of a list of writes (R314, R321). -/
def writeSlots (s : State) (ms : List ObjWrite) : List Nat :=
  if ms.any fun m => m.obj == ⟨Ob.clsAuth, 0, Ob.Auth.keyApply⟩ then
    applySlots (s.keySelAfter (ms.takeWhile fun m => m.obj != ⟨Ob.clsAuth, 0, Ob.Auth.keyApply⟩))
  else [0, 1, 3]

/-- The key slots permitted for a request (R315, R319, R321). A block on a command that needs none may come under any slot
but the meter's. -/
def keySlots (s : State) (r : Req) : List Nat :=
  match r with
  | .set w => s.writeSlots [w]
  | .setGroup ms => s.writeSlots ms
  | .railClearLatch _ true => [1, 3]
  | .cntClear _ _ | .twinHandover | .timeSet _ _ _ => [0, 1]
  | .fwActivate _ => [0, 3]
  | .meterOpen | .meterStage _ _ _ | .meterCommit | .meterAbandon | .meterFwChunk _ _ | .meterKeyLoad _ | .meterBadOp _ => [2]
  | _ => [0, 1, 3]

/-- Does a request need authorisation whatever it names (R315)? RWA objects are checked member by member. -/
def needsAuth (s : State) (r : Req) : Bool :=
  match r with
  | .railClearLatch _ _ | .recClear _ | .cntClear _ _ | .cfgCommit _ | .fwActivate _ | .twinHandover | .timeSet _ _ _ | .reset
  | .meterOpen | .meterStage _ _ _ | .meterCommit | .meterAbandon | .meterFwChunk _ _ | .meterBadOp _ => true
  | .meterKeyLoad _ => (s.keyOf 2).isSome
  | _ => false

/-- The outstanding nonce while it has not expired (R313). -/
def liveNonce (s : State) : Option (Nat × List Byte) :=
  match s.mb.nonce with
  | some q => if elapsed s.now q.2.2 (sFrames 10) then none else some (q.1, q.2.1)
  | none => none

/-- The MAC of R313 under a key. -/
def macOf (key nonce : List Byte) (op : Nat) (body : List Byte) : List Byte :=
  (hmacSha256 key (nonce ++ leBytes 1 op ++ body)).take 16

/-- The check of an authorisation block against the nonce (R313, R314). -/
def blockOk (s : State) (r : Req) (op : Nat) (body block : List Byte) : Bool :=
  let k := byteAt block 0
  match s.liveNonce, s.keyOf k with
  | some q, some key => q.1 == k && (s.keySlots r).contains k && block.drop 1 == macOf key q.2 op body
  | _, _ => false

/-- A request answered AUTH_FAILED (R314): counted, recorded, ISTAT.AUTH; the third in a row starts the lockout. -/
def authFailed (s : State) (keySlot op : Nat) : State :=
  let s := ((s.count Ob.clsAuth 0 Ob.Auth.fails).record Code.authFailed Ob.clsAuth 0 keySlot (leBytes 1 op)).irq Irq.auth
  s.modMb fun m =>
    if 3 ≤ m.fails + 1 then { m with fails := 0, lockEnd := some (s.now + sFrames 10) } else { m with fails := m.fails + 1 }

/-- Step 4 of R314: the state after the check, and the status where it fails. The nonce is consumed by the check (R313). -/
def authCheck (s : State) (r : Req) (op : Nat) (body : List Byte) (block : Option (List Byte)) : State × Option Nat :=
  match block with
  | none => (s, if s.needsAuth r then some St.authRequired else none)
  | some b =>
    let ok := s.blockOk r op body b
    let s := s.modMb fun m => { m with nonce := none }
    if ok then ((s.count Ob.clsAuth 0 Ob.Auth.passes).modMb fun m => { m with fails := 0 }, none)
    else (s.authFailed (byteAt b 0) op, some St.authFailed)

/-- The opcodes that a standby accepts (R258). -/
def standbyOps : List Nat :=
  [Op.hello, Op.identify, Op.get, Op.getBlock, Op.tuneRead, Op.recRead, Op.recFreeze, Op.recThaw, Op.recClear, Op.snapRead,
   Op.cntClear, Op.meterRead, Op.meterIntervals, Op.timeGet, Op.authChallenge, Op.twinArm, Op.fwStage, Op.fwActivate, Op.reset]

/-- The opcodes served in RECOVERY (R322). -/
def recoveryOps : List Nat := [Op.hello, Op.identify, Op.authChallenge, Op.fwStage, Op.fwActivate, Op.reset]

/-- Why the state of the device refuses a command of any kind: RECOVERY (R322), a standby (R258), the interval of a planned
handover (R259, R310). -/
def barred (s : State) (op : Nat) : Option Nat :=
  if s.dev.dstate == .recovery && !recoveryOps.contains op then some St.state
  else if s.follows && !standbyOps.contains op then some St.state
  else if s.twin.role == .active && s.twin.pendingHo.isSome then some St.busy
  else none

/-- The request of a slot as it stands: opcode, body without its block, and the block (R307, R313). -/
def slotParts (s : State) (k : SlotIx) : Nat × List Byte × Option (List Byte) :=
  let q := (s.slot k).req
  let len := byteAt q 2
  let pl := (q.drop 4).take len
  if (byteAt q 3).testBit 0 then (byteAt q 0, pl.take (len - 17), some (pl.drop (len - 17))) else (byteAt q 0, pl, none)

/-- A request whose first three checks of R314 pass; else the status. -/
def readRequest (s : State) (k : SlotIx) : Except Nat Req :=
  let q := (s.slot k).req
  let parts := s.slotParts k
  let op := parts.1
  if !opcodes.contains op then .error St.badOpcode
  else if s.wrongVersion op (byteAt parts.2.1 0) then .error St.version
  else if 252 < byteAt q 2 ∨ (parts.2.2.isSome ∧ byteAt q 2 < 17) then .error St.badLength
  else match parseReq op parts.2.1 with
    | some r => .ok r
    | none => .error St.badLength

/-- What the supervisor does with the request of a slot that it takes (R314): the state after the checks, and the status of a
refusal. -/
def checkRequest (s : State) (k : SlotIx) : State × Option Nat :=
  match s.readRequest k with
  | .error c => (s, some c)
  | .ok r =>
    let p := s.slotParts k
    let q := s.authCheck r p.1 p.2.1 p.2.2
    match q.2 with
    | some c => (q.1, some c)
    | none => (q.1, match q.1.barred p.1 with
      | some c => some c
      | none => match r with
        | .timeSet m _ ns => if 1 < m ∨ (m = 0 ∧ ns ≠ 0) then some St.range else none
        | .meterBadOp _ => some St.range
        | _ => none)

/-- The slot becomes PENDING with its request, or with the answer of a failed check (R308, R314). -/
def takeSlot (s : State) (k : SlotIx) : State :=
  let p := s.slotParts k
  let q := s.checkRequest k
  let s := q.1.modMb fun m => { m with order := m.order.filter (· != k) }
  let s := s.modSlot k fun x => { x with
    st := .pending, reply := none
    taken := some ⟨p.1, BitVec.ofNat 8 (byteAt x.req 1), p.2.1, p.2.2.map fun b => byteAt b 0, q.2.isSome⟩ }
  match q.2 with
  | some c => s.finish k c []
  | none => s

/-- The command of a slot ends: the response becomes READY, or is discarded (R308). -/
def respond (s : State) (k : SlotIx) : State :=
  let x := s.slot k
  match x.reply, x.taken with
  | some r, some t =>
    if x.st == .discard then
      (s.modSlot k fun x => { x with st := .free, taken := none, reply := none }).armingNow k
    else
      let head := leBytes 1 r.status ++ [t.tag] ++ leBytes 1 (min r.payload.length 252) ++ [0]
      let s := s.modSlot k fun x => { x with
        st := .ready, taken := none, reply := none, resp := padTo 256 (head ++ r.payload.take 252) }
      let s := s.modMb fun m => { m with arming := m.arming.map fun a =>
        if a.slot == k then { a with due := some (s.now + (if a.cause = 0 then msFrames 1 else msFrames 100)) } else a }
      s.irq (Irq.slot k)
  | _, _ => s

/-- The bytes that an I²C pointer counts on, with the stop at the end of a region (R300, R303). -/
def advance (s : State) (n : Nat) : State :=
  if s.mb.i2cStop then s
  else
    let stop := regionEnd s.mb.i2cPtr
    s.modMb fun m => { m with i2cPtr := min (m.i2cPtr + n) stop % 65536, i2cStop := decide (stop ≤ m.i2cPtr + n) }

/-- The write part of an I²C transaction (R303): the pointer, then data. -/
def i2cWrite (s : State) (bs : List Byte) : State :=
  match bs with
  | h :: l :: data =>
    let a := 256 * h.toNat + l.toNat
    let s := s.modMb fun m => { m with i2cPtr := a, i2cStop := false }
    (s.hostWrite a data).advance data.length
  | _ => s

/-- The read part of an I²C transaction: from the pointer on (R303). -/
def i2cRead (s : State) (n : Nat) : State :=
  if n = 0 then s.modMb fun m => { m with i2cOut := some [] }
  else
    let q := if s.mb.i2cStop then (s, padTo n []) else s.hostRead s.mb.i2cPtr n
    (q.1.modMb fun m => { m with i2cOut := some q.2 }).advance n

end State

/-! The commands -/

/-- SPI_TRANSACTION (R302). What is seen of MISO is FSTAT 7 … 0 while INSTR is shifted in, and the bytes behind the dummy byte
of a read. -/
def execSpiTransaction (mosi : List Byte) (s : State) : Out :=
  if !s.powered then .next s
  else match mosi with
  | [] => .next s
  | i :: rest =>
    let first := leBytes 1 s.mb.fstat.toNat
    let a := 256 * byteAt rest 0 + byteAt rest 1
    if i.toNat = 2 then
      .next ((if 2 ≤ rest.length then s.hostWrite a (rest.drop 2) else s).modMb fun m => { m with spiOut := first })
    else if i.toNat = 3 then
      let q := if 3 < rest.length then s.hostRead a (rest.length - 3) else (s, [])
      .next (q.1.modMb fun m => { m with spiOut := first ++ q.2 })
    else .next (s.hostErr.modMb fun m => { m with spiOut := first })

/-- I2C_TRANSACTION (R303): any other target address, the general call among them, is not answered. -/
def execI2cTransaction (addr : Nat) (written : List Byte) (readLen : Nat) (s : State) : Out :=
  .next (if !s.powered then s
    else if addr = s.mb.i2cAddr then (s.i2cWrite written).i2cRead readLen
    else s.modMb fun m => { m with i2cOut := none })

/-- ALERT_RESPONSE (R306): a device that drives ALERT_N and wins the arbitration answers and releases it. -/
def execAlertResponse (won : Bool) (s : State) : Out :=
  .next (if s.powered && s.alertActive && won then
      s.modMb fun m => { m with alertHeld := true, i2cOut := some (leBytes 1 (2 * m.i2cAddr)) }
    else s.modMb fun m => { m with i2cOut := none })

/-- WINDOW_REGISTER_WRITE (R301). -/
def execWindowRegisterWrite (off : Nat) (data : List Byte) (s : State) : Out :=
  .next (if s.powered && decide (off < 0x100) then s.hostWrite off data else s)

/-- ISTAT_CLEAR (R306). -/
def execIstatClear (v : Word) (s : State) : Out := .next (if s.powered then s.istatClear v else s)

/-- DOORBELL (R308, R310). -/
def execDoorbell (v : Word) (s : State) : Out := .next (if s.powered then s.ring v else s)

/-- RELEASE (R308). -/
def execRelease (v : Word) (s : State) : Out := .next (if s.powered then s.releaseSlots v else s)

/-- HEADER_READ (R309). -/
def execHeaderRead (slot : SlotIx) (s : State) : Out := .next (if s.powered then (s.headerRead slot).1 else s)

/-- REQUEST_SLOT_WRITE (R308). -/
def execRequestSlotWrite (slot : SlotIx) (off : Nat) (data : List Byte) (s : State) : Out :=
  .next (if s.powered && decide (off < 256) then s.hostWrite (0x1000 + 256 * slot.val + off) data else s)

/-- SLOT_TAKEN (R308, R310, R314): the slot whose doorbell came first. -/
def execSlotTaken (slot : SlotIx) (s : State) : Out :=
  .next (if s.ready && s.mb.order.head? == some slot && (s.slot slot).st == .posted then s.takeSlot slot else s)

/-- RESPONSE_READY (R308). -/
def execResponseReady (slot : SlotIx) (s : State) : Out :=
  .next (if (s.slot slot).st == .pending || (s.slot slot).st == .discard then s.respond slot else s)

/-- AUTH_LOCK_END (R314). -/
def execAuthLockEnd (s : State) : Out :=
  match s.mb.lockEnd with
  | some t => .next (if t ≤ s.now then s.modMb fun m => { m with lockEnd := none } else s)
  | none => .next s

/-- NONCE_EXPIRY (R313). -/
def execNonceExpiry (s : State) : Out :=
  .next (if s.liveNonce.isNone then s.modMb fun m => { m with nonce := none } else s)

end Sys2Proof.Machine
end

