-- ==== Sys2Proof/Machine/HostCmds.lean ====
section
/-! DEFINITION. The requests of the mailbox (R315) but for TWIN_* and METER_*: each row's effect once SLOT_TAKEN has taken
its slot. -/

namespace Sys2Proof.Machine
namespace State

/-! Who holds what (R310) -/

/-- Another slot is POSTED or PENDING (R311, R340). -/
def othersWait (s : State) (k : SlotIx) : Bool :=
  (List.finRange 4).any fun j => j != k && ((s.slot j).st == .posted || (s.slot j).st == .pending)

/-- An accepted commit waits for its edge. -/
def commitWaits (s : State) : Bool := s.edgeQueue.any fun a => match a with | .commit _ _ => true | _ => false

/-- An accepted session waits for its edge, or a session runs (R146). -/
def tuneHeld (s : State) : Bool :=
  s.tune.tstate == .running || (s.tune.auto && s.tune.slot.isSome) ||
    s.edgeQueue.any fun a => match a with | .tuneStart _ _ _ => true | _ => false

/-- A PENDING FW_ACTIVATE holds the firmware slots. -/
def firmwareHeld (s : State) : Bool := s.mb.arming.any fun a => a.cause == 5 && (s.slot a.slot).st == .pending

/-- The command of a slot is accepted for the next frame edge (R310). -/
def acceptEdge (s : State) (k : SlotIx) (r : Req) (a : EdgeAction) : State := ((s.replicate r).atEdge a).startSlot k

/-- The domain requests of R237. -/
def domainReq (s : State) (k : SlotIx) (r : Req) (mask : BitVec 8) (on : Bool) : State :=
  if (domainsIn mask).all (s.domainReqOk on) then s.acceptEdge k r (.domainReq (some k) mask on)
  else s.finish k St.state []

/-! Recorder reading (R287) -/

/-- Insert a record by its number. -/
def insertRec (x : Rec × Bool) : List (Rec × Bool) → List (Rec × Bool)
  | [] => [x]
  | a :: t => if x.1.seq < a.1.seq then x :: a :: t else a :: insertRec x t

/-- Up to seven records from a number on, each with whether it is held only in the RAM ring. -/
def recordsFrom (s : State) (n : Nat) : List (Rec × Bool) :=
  let some7 (l : List Rec) (inRam : Bool) : List (Rec × Bool) := ((l.filter fun r => n ≤ r.seq).take 7).map fun r => (r, inRam)
  ((some7 s.recd.ring false ++ some7 s.recd.spare false ++ some7 s.recd.ram true).foldl (fun l x => insertRec x l) []).take 7

/-- REC_CLEAR (R291): every record up to a number goes, from MRAM and the RAM ring, and CLEARED is written. -/
def clearRecords (s : State) (n key : Nat) : State × Nat :=
  let gone := (s.recAll.filter fun r => r.seq ≤ n).length
  let keep (l : List Rec) : List Rec := l.filter fun r => n < r.seq
  let s := s.modRec fun x => { x with ring := keep x.ring, spare := keep x.spare, ram := keep x.ram }
  let s := s.count Ob.clsRec 0 Ob.Rec.clears
  let s := s.record Code.cleared Ob.clsRec 0 key (leBytes 6 n ++ leBytes 4 gone)
  (s.disarmRec, gone)

/-! Configuration and firmware -/

/-- Bytes written over a buffer at an offset; bytes never written read 0. -/
def overwrite (buf : List Byte) (off : Nat) (data : List Byte) : List Byte :=
  let b := padTo (max buf.length off) buf
  b.take off ++ data ++ b.drop (off + data.length)

/-- A refused CFG_COMMIT (R330, R346). -/
def rejectCommit (s : State) (k : SlotIx) (status : Nat) (f : Option ImageFault) : State :=
  let s := { s with cfg := { s.cfg with lastReason := match f with | some x => x.reason | none => 0 } }
  (s.count Ob.clsCfg 0 Ob.Cfg.rejects).finish k status (match f with | some x => commitPayload x none | none => [])

/-- A staged image that passed its checks is written over its copy and waits for the frame edge (R330, R331). -/
def storeCommit (s : State) (k : SlotIx) (r : Req) (i : Image) : State :=
  let c := s.commitCopy
  let s := { s with cfg := { s.cfg with
    copy0 := if c = 0 then some i else s.cfg.copy0, copy1 := if c = 0 then s.cfg.copy1 else some i, staged := 0 } }
  s.acceptEdge k r (.commit (some k) i.generation)

/-- CFG_COMMIT (R330). The armed standby's own check is the partner's (log entry 22). -/
def commitStaged (s : State) (k : SlotIx) (len : Nat) : State :=
  if s.commitWaits then s.finish k St.busy []
  else if !allDomains.all (fun d => s.domIdle d.val) then s.rejectCommit k St.state none
  else match s.checkStaged len with
  | .error f => s.rejectCommit k St.range (some f)
  | .ok i =>
    let paired := s.twin.role == .active && s.twin.armed
    let agrees := !paired || Config.standbyAgrees s.free
    let s := if paired then { s with free := s.free + 1 } else s
    if !agrees then s.rejectCommit k St.range (some { reason := 5 })
    else if !s.nvm.window then s.rejectCommit k St.media none
    else s.storeCommit k (.cfgCommit len) i

/-- The bytes that CFG_READ reads, none for a copy that is not valid (R334). -/
def cfgBytes (s : State) (copy : Nat) : Option (List Byte) :=
  if copy = 0 then s.cfg.copy0.map (·.bytes) else if copy = 1 then s.cfg.copy1.map (·.bytes) else some s.runImage

/-- The firmware slot that FW_STAGE writes: the one that did not boot, in RECOVERY slot A (R325, R326). -/
def stageSlot (s : State) : Nat := if s.fw.running = 0 then 1 else 0

def fwImage (s : State) (k : Nat) : FwImage := if k = 0 then s.fw.slotA else s.fw.slotB

def setFwImage (s : State) (k : Nat) (i : FwImage) : State :=
  if k = 0 then { s with fw := { s.fw with slotA := i } } else { s with fw := { s.fw with slotB := i } }

/-- Does an image in a slot verify (R325, R326)? -/
def fwVerifies : FwImage → Bool
  | .empty => false
  | .delivered => true
  | .staged bs =>
    let len := leAt bs 8 4
    bs.take 4 == [0x43, 0x50, 0x56, 0x46] && leAt bs 6 2 == 0 && decide (76 ≤ len) && decide (len ≤ 1048576)
      && Config.firmwareVerifies (padTo len bs)

/-- The release of an image (R326). -/
def fwRelease : FwImage → Nat
  | .staged bs => leAt bs 4 2
  | _ => 516

/-- The slot's answer is OK and the device resets, or sleeps, once the host has let go of it (R320, R340). -/
def armSlot (s : State) (k : SlotIx) (cause : Nat) : State :=
  (s.modMb fun m => { m with arming := m.arming ++ [⟨k, cause, none⟩] }).finish k St.ok []

/-! Time -/

/-- The state of a counter after a TIME_SET NOW (R48, R54): FREE unless PPS discipline runs. -/
def setNow (t : TimeState) : TimeState :=
  { t with wasSet := true, setFresh := true, setPending := none
           tstate := if t.tstate == .acquiring || t.tstate == .locked then t.tstate else .free }

/-- A TIME_SET that waits for its edge is replaced (R48). -/
def supersedeSet (s : State) : State :=
  match s.time.setPending with
  | some p => (s.modTime fun t => { t with setPending := none }).finishOpt p.1 St.superseded []
  | none => s

/-- TIME_SET NOW (R48, R51, R270). -/
def timeNow (s : State) (sec ns : Nat) : State :=
  let old := s.time.tstate
  let s := (s.supersedeSet.timeTo sec (ns : Rat) 3).modTime setNow
  let s := if s.meterRuns then s.modMeter fun m => { m with time := setNow m.time } else s
  s.timeIrq old

/-- The conditions of SLEEP (R340). -/
def sleepOk (s : State) (k : SlotIx) : Bool :=
  allDomains.all (fun d => s.domIdle d.val && !(s.domain d).req) && s.tune.tstate != .running && !s.twin.enabled
    && !bit (s.obj Ob.clsTwin 0 Ob.Twin.ctrl) 0 && !s.othersWait k

end State

/-! The commands -/

/-- HELLO (R311). -/
def execHello (slot : SlotIx) (major minor hostId : Nat) (s : State) : Out :=
  .next (s.onRequest slot (.hello major minor hostId) fun _ =>
    if major = 0 then s.finish slot St.version []
    else if s.othersWait slot then s.finish slot St.busy []
    else
      let mp := if major = 1 then 1 else 2
      let mi := if major = 1 then 0 else if major = 2 then min minor 4 else 4
      (s.modMb fun m => { m with mp := mp, minor := mi }).finish slot St.ok
        (leBytes 1 mp ++ leBytes 1 mi ++ leBytes 2 0x102 ++ leBytes 1 252))

/-- IDENTIFY (R1, R315, R325). -/
def execIdentify (slot : SlotIx) (s : State) : Out :=
  .next (s.onRequest slot .identify fun _ =>
    s.finish slot St.ok (leBytes 4 s.idWord ++ leBytes 2 s.fw.release ++ leBytes 1 s.fw.running ++ leBytes 1 (flag s.twin.seatB 0)
      ++ leBytes 4 s.cfg.genRun ++ leBytes 8 Config.uniqueDeviceNumber.toNat
      ++ leBytes 4 (if s.dev.part == .m then s.meter.fwCrc.toNat else 0)))

/-- GET (R10). -/
def execGet (slot : SlotIx) (o : Obj) (s : State) : Out := .next (s.onRequest slot (.get o) fun _ => s.doGet slot o)

/-- SET (R10). -/
def execSet (slot : SlotIx) (o : Obj) (v : Word) (s : State) : Out :=
  .next (s.onRequest slot (.set ⟨o, v⟩) fun key => s.doSet slot key.isSome ⟨o, v⟩)

/-- GET_BLOCK (R315). -/
def execGetBlock (slot : SlotIx) (o : Obj) (count : Nat) (s : State) : Out :=
  .next (s.onRequest slot (.getBlock o count) fun _ =>
    if count = 0 ∨ 60 < count then s.finish slot St.range []
    else
      let q := s.readBlock o.cls o.inst o.item count
      let valid := (List.range count).filter fun i => (q.2.getD i none).isSome
      q.1.finish slot
        (if valid.isEmpty then St.badObject else if valid.length = count then St.ok else St.partialDone)
        (leBytes 8 (maskOf valid) ++ q.2.flatMap fun v => wordBytes (v.getD 0)))

/-- SET_GROUP (R317). -/
def execSetGroup (slot : SlotIx) (ms : List ObjWrite) (s : State) : Out :=
  .next (s.onRequest slot (.setGroup ms) fun key =>
    if ms.isEmpty ∨ 31 < ms.length then s.finish slot St.range []
    else match s.groupRefusal key.isSome ms with
    | some codes => s.finish slot (State.firstBad codes) (State.codesPayload codes)
    | none => ((s.replicate (.setGroup ms)).atEdge (.group (some slot) ms)).queueCoefs ms |>.startSlot slot)

/-- DOMAIN_ON (R237). -/
def execDomainOn (slot : SlotIx) (mask : BitVec 8) (s : State) : Out :=
  .next (s.onRequest slot (.domainOn mask) fun _ => s.domainReq slot (.domainOn mask) mask true)

/-- DOMAIN_OFF (R237). -/
def execDomainOff (slot : SlotIx) (mask : BitVec 8) (s : State) : Out :=
  .next (s.onRequest slot (.domainOff mask) fun _ => s.domainReq slot (.domainOff mask) mask false)

/-- RAIL_TARGET (R130, R317, R318); MP1 ignores WAIT (R312). -/
def execRailTarget (slot : SlotIx) (ms : List TargetMember) (s : State) : Out :=
  .next (s.onRequest slot (.railTarget ms) fun _ =>
    if ms.isEmpty ∨ 16 < ms.length then s.finish slot St.range []
    else
      let ws := if s.mb.mp = 1 then ms.map fun m => { m with wait := false } else ms
      let codes := s.targetCodes [] ws
      if codes.all (· == St.ok) then
        let s := s.modMb fun m => { m with gathers := m.gathers ++ [⟨slot, ws.map fun _ => (none, false), true⟩] }
        s.acceptEdge slot (.railTarget ws) (.targets (some slot) ws)
      else s.finish slot (State.firstBad codes) (State.memberPayload true (codes.map fun c => (c, false))))

/-- RAIL_CLEAR_LATCH (R319). -/
def execRailClearLatch (slot : SlotIx) (rail : Nat) (override : Bool) (s : State) : Out :=
  .next (s.onRequest slot (.railClearLatch rail override) fun key =>
    if h : rail < 16 then
      let r : RailIx := ⟨rail, h⟩
      if !s.clearable r || ((s.rail r).fuse.fstate == FuseSt.passShort && !override) then s.finish slot St.state []
      else s.acceptEdge slot (.railClearLatch rail override) (.clearLatch (some slot) r override (key.getD 0))
    else s.finish slot St.badObject [])

/-- PHASE_FORCE (R70, R71, R72, R317). -/
def execPhaseForce (slot : SlotIx) (ms : List ForceMember) (s : State) : Out :=
  .next (s.onRequest slot (.phaseForce ms) fun key =>
    if ms.isEmpty ∨ 48 < ms.length then s.finish slot St.range []
    else
      let codes := ms.map fun m => State.firstBad ((State.forceWrites m).map (s.writeStatus key.isSome []))
      if codes.all (· == St.ok) then s.acceptEdge slot (.phaseForce ms) (.force (some slot) ms)
      else s.finish slot (State.firstBad codes) (State.codesPayload codes))

/-- TUNE_START and AUTOTUNE (R146, R152). -/
def State.startTune (s : State) (slot : SlotIx) (r : Req) (rail : Nat) (auto : Bool) : State :=
  if h : rail < 16 then
    if s.tuneHeld then s.finish slot St.busy []
    else match s.tuneRefusal ⟨rail, h⟩ auto with
    | some c => s.finish slot c []
    | none => s.acceptEdge slot r (.tuneStart (some slot) ⟨rail, h⟩ auto)
  else s.finish slot St.badObject []

/-- TUNE_START (R147). -/
def execTuneStart (slot : SlotIx) (rail : Nat) (s : State) : Out :=
  .next (s.onRequest slot (.tuneStart rail) fun _ => s.startTune slot (.tuneStart rail) rail false)

/-- AUTOTUNE (R152). -/
def execAutotune (slot : SlotIx) (rail : Nat) (s : State) : Out :=
  .next (s.onRequest slot (.autotune rail) fun _ => s.startTune slot (.autotune rail) rail true)

/-- TUNE_READ (R151). Samples stand newest first in the capture memory. -/
def execTuneRead (slot : SlotIx) (what first count : Nat) (s : State) : Out :=
  .next (s.onRequest slot (.tuneRead what first count) fun _ =>
    let t := s.tune
    if t.tstate != .done then s.finish slot St.state []
    else if what = 0 then
      (if count = 0 ∨ 15 < count ∨ t.results.length < first + count then s.finish slot St.range []
       else s.finish slot St.ok (((t.results.drop first).take count).flatMap State.resultBytes))
    else if what ≤ 2 then
      let l := (if what = 1 then t.recA else t.recB).reverse
      (if count = 0 ∨ 62 < count ∨ l.length < first + count then s.finish slot St.range []
       else s.finish slot St.ok (((l.drop first).take count).flatMap fun i => wordBytes (intWord i)))
    else s.finish slot St.range [])

/-- REC_READ (R287). -/
def execRecRead (slot : SlotIx) (n : Nat) (s : State) : Out :=
  .next (s.onRequest slot (.recRead n) fun _ =>
    let l := s.recordsFrom n
    s.finish slot St.ok (leBytes 6 s.recLast ++ leBytes 1 l.length ++ [0] ++ l.flatMap fun q => q.1.bytes q.2))

/-- REC_FREEZE (R289): at the next frame edge. -/
def execRecFreeze (slot : SlotIx) (s : State) : Out :=
  .next (s.onRequest slot .recFreeze fun _ => (s.atEdge (.freeze (some slot))).startSlot slot)

/-- REC_THAW (R290). -/
def execRecThaw (slot : SlotIx) (s : State) : Out :=
  .next (s.onRequest slot .recThaw fun _ => s.thaw.finish slot St.ok [])

/-- REC_CLEAR (R291, R337). -/
def execRecClear (slot : SlotIx) (n : Nat) (s : State) : Out :=
  .next (s.onRequest slot (.recClear n) fun key =>
    if s.recd.frozen then s.finish slot St.state []
    else if s.recLast < n then s.finish slot St.range []
    else if !s.nvm.window then s.finish slot St.media []
    else
      let q := s.clearRecords n (key.getD 0)
      q.1.finish slot St.ok (leBytes 4 q.2))

/-- SNAP_READ (R295, R315). -/
def execSnapRead (slot : SlotIx) (snap offset len : Nat) (s : State) : Out :=
  .next (s.onRequest slot (.snapRead snap offset len) fun _ =>
    match s.recd.snaps.toList.getD snap none with
    | none => s.finish slot St.state []
    | some q =>
      if len = 0 ∨ 240 < len ∨ 2812 < offset + len then s.finish slot St.range []
      else s.finish slot St.ok ((q.bytes.drop offset).take len))

/-- CNT_CLEAR (R297). -/
def execCntClear (slot : SlotIx) (cls inst : Nat) (s : State) : Out :=
  .next (s.onRequest slot (.cntClear cls inst) fun key =>
    let known := (List.range 128).any fun c =>
      (cls == 255 || c == cls) && !(rowsOf c 0).isEmpty && (inst == 255 || decide (inst < instCount c))
    if known then (s.atEdge (.cntClear (some slot) cls inst (key.getD 0))).startSlot slot
    else s.finish slot St.badObject [])

/-- AUTH_CHALLENGE (R313, R314, R280): the meter core answers for slot 2 with a nonce of its own. -/
def execAuthChallenge (slot : SlotIx) (key : Nat) (s : State) : Out :=
  .next (s.onRequest slot (.authChallenge key) fun _ =>
    if s.mb.lockEnd.isSome then s.finish slot St.busy []
    else if (s.keyOf key).isNone then s.finish slot St.state []
    else
      let n := padTo 16 (Config.nonce s.mb.nonces)
      (s.modMb fun m => { m with nonce := some (key, n, s.now), nonces := m.nonces + 1 }).finish slot St.ok n)

/-- CFG_STAGE (R334). -/
def execCfgStage (slot : SlotIx) (offset : Nat) (data : List Byte) (s : State) : Out :=
  .next (s.onRequest slot (.cfgStage offset data) fun _ =>
    if s.commitWaits then s.finish slot St.busy []
    else if 131072 < offset + data.length then s.finish slot St.range []
    else if !s.nvm.window then s.finish slot St.media []
    else
      let s := s.replicate (.cfgStage offset data)
      { s with cfg := { s.cfg with
        staging := State.overwrite s.cfg.staging offset data, staged := max s.cfg.staged (offset + data.length) } }
        |>.finish slot St.ok [])

/-- CFG_COMMIT (R330). -/
def execCfgCommit (slot : SlotIx) (length : Nat) (s : State) : Out :=
  .next (s.onRequest slot (.cfgCommit length) fun _ => s.commitStaged slot length)

/-- CFG_READ (R334). -/
def execCfgRead (slot : SlotIx) (copy offset len : Nat) (s : State) : Out :=
  .next (s.onRequest slot (.cfgRead copy offset len) fun _ =>
    if 2 < copy then s.finish slot St.range []
    else match s.cfgBytes copy with
    | none => s.finish slot St.state []
    | some bs =>
      if len = 0 ∨ 248 < len ∨ bs.length < offset + len then s.finish slot St.range []
      else s.finish slot St.ok ((bs.drop offset).take len))

/-- FW_STAGE (R325, R326, R337). -/
def execFwStage (slot : SlotIx) (offset : Nat) (data : List Byte) (s : State) : Out :=
  .next (s.onRequest slot (.fwStage offset data) fun _ =>
    if s.firmwareHeld then s.finish slot St.busy []
    else if 1048576 < offset + data.length then s.finish slot St.range []
    else if !s.nvm.window then s.finish slot St.media []
    else
      let k := s.stageSlot
      let old := match s.fwImage k with | .staged bs => bs | _ => []
      (s.setFwImage k (.staged (State.overwrite old offset data))).finish slot St.ok [])

/-- FW_ACTIVATE (R320, R327, R337). -/
def execFwActivate (slot : SlotIx) (fwSlot : Nat) (s : State) : Out :=
  .next (s.onRequest slot (.fwActivate fwSlot) fun _ =>
    if s.firmwareHeld then s.finish slot St.busy []
    else if 1 < fwSlot then s.finish slot St.range []
    else if !State.fwVerifies (s.fwImage fwSlot) then s.finish slot St.state []
    else if !s.nvm.window then s.finish slot St.media []
    else
      let s := { s with fw := { s.fw with preferred := fwSlot, trialNext := true } }
      (s.record Code.fwActivate Ob.clsDev 0 fwSlot (leBytes 2 (State.fwRelease (s.fwImage fwSlot)))).armSlot slot 5)

/-- TIME_SET AT_PPS (R48). -/
def execTimeSetAtPps (slot : SlotIx) (sec : Nat) (s : State) : Out :=
  .next (s.onRequest slot (.timeSet 0 sec 0) fun _ =>
    if !s.ppsEn then s.finish slot St.state []
    else
      let s := (s.replicate (.timeSet 0 sec 0)).supersedeSet
      (s.modTime fun t => { t with setPending := some (some slot, sec, s.time.mono) }).startSlot slot)

/-- TIME_SET NOW (R48). -/
def execTimeSetNow (slot : SlotIx) (sec ns : Nat) (s : State) : Out :=
  .next (s.onRequest slot (.timeSet 1 sec ns) fun _ =>
    if 999999999 < ns then s.finish slot St.range []
    else ((s.replicate (.timeSet 1 sec ns)).timeNow sec ns).finish slot St.ok [])

/-- TIME_GET (R52). -/
def execTimeGet (slot : SlotIx) (s : State) : Out :=
  .next (s.onRequest slot .timeGet fun _ =>
    s.finish slot St.ok (leBytes 6 s.time.sec ++ leBytes 4 s.time.ns.floor.toNat ++ leBytes 6 s.clk.frame
      ++ leBytes 1 s.time.tstate.code))

/-- SLEEP (R340). -/
def execSleep (slot : SlotIx) (wakeMs : Nat) (s : State) : Out :=
  .next (s.onRequest slot (.sleep wakeMs) fun _ =>
    if s.sleepOk slot then { s with dev := { s.dev with wakeMs := wakeMs } }.armSlot slot 0 else s.finish slot St.state [])

/-- RESET (R320). -/
def execReset (slot : SlotIx) (s : State) : Out := .next (s.onRequest slot .reset fun _ => s.armSlot slot 2)

end Sys2Proof.Machine
end

