-- ==== Sys2Proof/Machine/MeterCmds.lean ====
section
/-! DEFINITION. METER_READ, METER_INTERVALS and METER_SESSION (R275 … R280, R315). -/

namespace Sys2Proof.Machine

/-! The metrological parameters (R276) -/

/-- A point parameter by its KIND. -/
def MeterParams.word (m : MeterParams) (kind : Nat) : Word :=
  match kind with
  | 0 => BitVec.ofNat 32 (flag m.en 0)
  | 1 => BitVec.ofNat 32 m.shunt
  | 2 => BitVec.ofNat 32 m.div
  | 3 => intWord m.iGain
  | 4 => intWord m.vGain
  | 5 => intWord m.iOfs
  | 6 => intWord m.vOfs
  | _ => BitVec.ofNat 32 m.creep

/-- A point's parameters with one of them changed. -/
def MeterParams.setWord (m : MeterParams) (kind : Nat) (v : Word) : MeterParams :=
  match kind with
  | 0 => { m with en := v != 0 }
  | 1 => { m with shunt := v.toNat }
  | 2 => { m with div := v.toNat }
  | 3 => { m with iGain := v.toInt }
  | 4 => { m with vGain := v.toInt }
  | 5 => { m with iOfs := v.toInt }
  | 6 => { m with vOfs := v.toInt }
  | _ => { m with creep := v.toNat }

/-- The ranges of R276: KIND 0 … 7 at a point, 8 INTERVAL_MIN. -/
def meterRange (kind point : Nat) (v : Word) : Bool :=
  let n := v.toNat
  let i := v.toInt
  (kind == 8 || decide (point < 16)) &&
  match kind with
  | 0 => decide (n ≤ 1)
  | 1 => decide (50 ≤ n) && decide (n ≤ 100000)
  | 2 => decide (16777216 ≤ n) && decide (n ≤ 1677721600)
  | 3 | 4 => decide (-20000 ≤ i) && decide (i ≤ 20000)
  | 5 => decide (-10000 ≤ i) && decide (i ≤ 10000)
  | 6 => decide (-100 ≤ i) && decide (i ≤ 100)
  | 7 => decide (10 ≤ n) && decide (n ≤ 1000)
  | 8 => [1, 5, 15, 30, 60].contains n
  | _ => false

/-- One record of R272. -/
def IvRec.bytes (r : IvRec) : List Byte :=
  let b := leBytes 4 r.number ++ leBytes 6 r.startS ++ leBytes 2 r.durS ++ leBytes 1 r.point ++ leBytes 1 r.flags ++ [0, 0]
    ++ leBytes 6 r.imp ++ leBytes 6 r.exp
  b ++ leBytes 4 (crc32 b)

/-- One record of R278. -/
def AuditRec.bytes (r : AuditRec) : List Byte :=
  let b := leBytes 2 r.index ++ leBytes 4 r.sealCount ++ leBytes 6 r.timeS ++ leBytes 4 r.interval ++ leBytes 1 r.kind
    ++ leBytes 1 r.point ++ leBytes 4 r.old ++ leBytes 4 r.new ++ [0, 0]
  b ++ leBytes 4 (crc32 b)

/-- The staged parameters, each (KIND, POINT) once with its last value, in the order of first staging (R276). -/
def stagedParams (l : List Staged) : List (Nat × Nat × Word) :=
  l.foldl (fun acc x => match x with
    | .param k p v =>
      if acc.any fun q => q.1 == k && q.2.1 == p then acc.map fun q => if q.1 == k && q.2.1 == p then (k, p, v) else q
      else acc ++ [(k, p, v)]
    | _ => acc) []

/-- The staged meter image, none where no chunk was staged (R273). -/
def stagedFw (l : List Staged) : Option (List Byte) :=
  l.foldl (fun acc x => match x with
    | .chunk off d => some (State.overwrite (acc.getD []) off d)
    | _ => acc) none

/-- The staged key: the last one (R277). -/
def stagedKey (l : List Staged) : Option (List Byte) :=
  l.foldl (fun acc x => match x with | .key k => some k | _ => acc) none

namespace State

/-- SEAL_N has been low for 100 ms (R276). -/
def sealed (s : State) : Bool :=
  match s.meter.sealLowSince with
  | some t => elapsed s.now t (msFrames 100)
  | none => false

/-- The answer of METER_SESSION: SEAL_COUNT with OK (R315). -/
def meterAnswer (s : State) (k : SlotIx) (status : Nat) : State :=
  s.finish k status (if status = St.ok then leBytes 4 s.meter.sealCount else [])

/-- The value that a parameter has now. -/
def meterOld (s : State) (kind point : Nat) : Word :=
  if kind = 8 then BitVec.ofNat 32 s.meter.intervalMin
  else if h : point < 16 then (s.meter.points.get ⟨point, h⟩).par.word kind else 0

/-- The staged parameters whose value changes (R276). -/
def meterChanges (s : State) : List (Nat × Nat × Word) :=
  (stagedParams s.meter.staged).filter fun q => s.meterOld q.1 q.2.1 != q.2.2

/-- One step of SEAL_COUNT with its audit record (R276, R277). -/
def sealStep (s : State) (interval kind point old new : Nat) : State :=
  (s.modMeter fun m => { m with sealCount := m.sealCount + 1 }).auditAdd interval kind point old new

/-- A changed parameter takes effect (R276). The record names the interval record that closed for its point; for the
partition the last one that closed. -/
def meterApply (first : Nat) (closed : List PointIx) (s : State) (q : Nat × Nat × Word) : State :=
  let old := s.meterOld q.1 q.2.1
  let at' : Nat :=
    if q.1 = 8 then (if closed.isEmpty then maxWord else first + closed.length - 1)
    else if closed.any (fun i => i.val == q.2.1) then first + (closed.filter fun i => decide (i.val < q.2.1)).length
    else maxWord
  let s := s.modMeter fun m =>
    if q.1 = 8 then { m with intervalMin := q.2.2.toNat }
    else if h : q.2.1 < 16 then
      { m with points := vmod m.points ⟨q.2.1, h⟩ fun x => { x with par := x.par.setWord q.1 q.2.2 } }
    else m
  s.sealStep at' q.1 (if q.1 = 8 then 255 else q.2.1) old.toNat q.2.2.toNat

/-- A new meter image (R273, R276). -/
def meterImage (s : State) (interval : Nat) (bs : List Byte) : State :=
  let old := s.meter.fwCrc.toNat
  let s := s.modMeter fun m => { m with
    fwImage := bs, fwVer := (Config.meterImageVersion bs).toNat, fwCrc := BitVec.ofNat 32 (crc32 bs), fwFault := false }
  s.sealStep interval 9 255 old (crc32 bs)

/-- The commit of a session whose checks passed: the changes together, then a key, and the session ends (R276, R277). -/
def meterCommit (s : State) : State :=
  let changes := s.meterChanges
  let image := stagedFw s.meter.staged
  let key := stagedKey s.meter.staged
  let first := s.meter.ivNext
  let closed := s.meterPoints
  let cut := !changes.isEmpty || image.isSome
  let s := if cut then s.closeIv s.meter.time.seconds IvFlag.param else s
  let s := changes.foldl (meterApply first closed) s
  let s := match image with
    | some bs => s.meterImage (if closed.isEmpty then maxWord else first + closed.length - 1) bs
    | none => s
  let s := if cut then s.modMeter fun m => openIv m m.time.seconds IvFlag.param else s
  let s := match key with
    | some k => (s.modMeter fun m => { m with key := some k }).sealStep maxWord 10 255 0 0
    | none => s
  s.modMeter fun m => { m with session := false, staged := [] }

/-- How many changes a commit would count. -/
def meterSteps (s : State) : Nat :=
  s.meterChanges.length + (if (stagedFw s.meter.staged).isSome then 1 else 0) + (if (stagedKey s.meter.staged).isSome then 1 else 0)

/-- A request of the session (R276): STATE on a CPV4816S and without an open session; it starts the 10 min again. -/
def inSession (s : State) (k : SlotIx) (f : State → State) : State :=
  if s.dev.part != .m || !s.meter.session then s.meterAnswer k St.state
  else f (s.modMeter fun m => { m with sessionAt := s.now })

/-- Stage one write. -/
def meterStage (s : State) (k : SlotIx) (x : Staged) : State :=
  (s.modMeter fun m => { m with staged := m.staged ++ [x] }).meterAnswer k St.ok

/-- The parameters of a point in METER_READ. -/
def paramBytes (m : MeterParams) : List Byte := (List.range 8).flatMap fun kind => wordBytes (m.word kind)

/-- The counters of a point in METER_READ; a disabled one shows 0 (R266). -/
def energyBytes (x : PointState) : List Byte :=
  if x.par.en then leBytes 8 (energyWord x.imp) ++ leBytes 8 (energyWord x.exp) else leBytes 16 0

/-- The block of METER_READ (R275, R315); none where it is out of range. -/
def meterBlock (s : State) (what first index count : Nat) : Option (List Byte) :=
  let m := s.meter
  let pts := (m.points.toList.drop first).take count
  if what = 0 then
    if count = 0 ∨ 14 < count ∨ 16 < first + count then none
    else some (leBytes 6 m.time.sec ++ leBytes 4 m.time.ns.floor.toNat ++ pts.flatMap energyBytes)
  else if what = 1 then
    if count = 0 ∨ 7 < count ∨ 16 < first + count then none else some (pts.flatMap fun x => paramBytes x.par)
  else if what = 2 then
    if count = 0 ∨ 7 < count ∨ m.audit.length < index + count then none
    else some (((m.audit.drop index).take count).flatMap AuditRec.bytes)
  else if what = 3 then
    some (leBytes 2 m.fwVer ++ leBytes 4 m.fwCrc.toNat ++ leBytes 4 m.sealCount ++ leBytes 2 m.audit.length
      ++ leBytes 1 m.intervalMin)
  else none

end State

/-! The commands -/

/-- METER_READ (R275, R2). -/
def execMeterRead (slot : SlotIx) (what first index count : Nat) (s : State) : Out :=
  .next (s.onRequest slot (.meterRead what first index count) fun _ =>
    if s.dev.part != .m then s.finish slot St.state []
    else match s.meterBlock what first index count with
    | some b => s.finish slot St.ok b
    | none => s.finish slot St.range [])

/-- METER_INTERVALS (R272, R2). -/
def execMeterIntervals (slot : SlotIx) (number max : Nat) (s : State) : Out :=
  .next (s.onRequest slot (.meterIntervals number max) fun _ =>
    if s.dev.part != .m then s.finish slot St.state []
    else if max = 0 ∨ 7 < max then s.finish slot St.range []
    else
      let l := (s.meter.intervals.filter fun r => number ≤ r.number).take max
      s.finish slot St.ok (leBytes 1 l.length ++ [0, 0, 0] ++ l.flatMap IvRec.bytes))

/-- METER_SESSION with OP = OPEN (R276). -/
def execMeterSessionOpen (slot : SlotIx) (s : State) : Out :=
  .next (s.onRequest slot .meterOpen fun _ =>
    if s.dev.part != .m || s.meter.session || !s.sealed || decide (2048 < s.meter.audit.length + 16) then
      s.meterAnswer slot St.state
    else (s.modMeter fun m => { m with session := true, sessionAt := s.now, staged := [] }).meterAnswer slot St.ok)

/-- METER_SESSION with OP = STAGE (R276). -/
def execMeterSessionStage (slot : SlotIx) (param point : Nat) (value : Word) (s : State) : Out :=
  .next (s.onRequest slot (.meterStage param point value) fun _ =>
    s.inSession slot fun s =>
      if meterRange param point value then s.meterStage slot (.param param (if param = 8 then 255 else point) value)
      else s.meterAnswer slot St.range)

/-- METER_SESSION with OP = COMMIT (R273, R276). -/
def execMeterSessionCommit (slot : SlotIx) (s : State) : Out :=
  .next (s.onRequest slot .meterCommit fun _ =>
    s.inSession slot fun s =>
      if maxWord ≤ s.meter.sealCount ∨ maxWord < s.meter.sealCount + s.meterSteps
          ∨ 2048 < s.meter.audit.length + s.meterSteps then s.meterAnswer slot St.state
      else if ((stagedFw s.meter.staged).map Config.meterImageVerifies).getD true then s.meterCommit.meterAnswer slot St.ok
      else s.meterAnswer slot St.range)

/-- METER_SESSION with OP = ABANDON (R276). -/
def execMeterSessionAbandon (slot : SlotIx) (s : State) : Out :=
  .next (s.onRequest slot .meterAbandon fun _ => s.inSession slot fun s => s.abandonSession.meterAnswer slot St.ok)

/-- METER_SESSION with OP = FW_CHUNK (R273). -/
def execMeterSessionFwChunk (slot : SlotIx) (offset : Nat) (data : List Byte) (s : State) : Out :=
  .next (s.onRequest slot (.meterFwChunk offset data) fun _ =>
    s.inSession slot fun s =>
      if 98304 < offset + data.length then s.meterAnswer slot St.range else s.meterStage slot (.chunk offset data))

/-- METER_SESSION with OP = KEY_LOAD (R277): at once into an empty slot 2, else staged in the session. -/
def execMeterSessionKeyLoad (slot : SlotIx) (key : List Byte) (s : State) : Out :=
  .next (s.onRequest slot (.meterKeyLoad key) fun _ =>
    if s.meter.key.isSome then s.inSession slot fun s => s.meterStage slot (.key key)
    else if s.dev.part != .m || !s.sealed || decide (maxWord ≤ s.meter.sealCount) || decide (2048 ≤ s.meter.audit.length) then
      s.meterAnswer slot St.state
    else ((s.modMeter fun m => { m with key := some key }).sealStep maxWord 10 255 0 0).meterAnswer slot St.ok)

end Sys2Proof.Machine
end

