-- ==== Sys2Proof/Machine/ObjectCmds.lean ====
section
/-! DEFINITION. The rows of the table that are a GET or a SET of one object with an effect of its own: each acts where its slot
holds that request. -/

namespace Sys2Proof.Machine
namespace State

/-- A slot's GET of an object. -/
def onGet (s : State) (k : SlotIx) (o : Obj) : State := s.onRequest k (.get o) fun _ => s.doGet k o

/-- A slot's SET of an object. -/
def onSet (s : State) (k : SlotIx) (o : Obj) (v : Word) : State :=
  s.onRequest k (.set ⟨o, v⟩) fun key => s.doSet k key.isSome ⟨o, v⟩

end State

/-- FRAME_LO_READ (R52). -/
def execFrameLoRead (slot : SlotIx) (s : State) : Out := .next (s.onGet slot ⟨Ob.clsClk, 0, Ob.Clk.frameLo⟩)

/-- SEC_LO_READ (R52). -/
def execSecLoRead (slot : SlotIx) (s : State) : Out := .next (s.onGet slot ⟨Ob.clsTime, 0, Ob.Time.secLo⟩)

/-- REC_FIRST_LAST_LO_READ (R299). -/
def execRecFirstLastLoRead (slot : SlotIx) (which : RecLow) (s : State) : Out :=
  .next (s.onGet slot ⟨Ob.clsRec, 0, match which with | .first => Ob.Rec.firstLo | .last => Ob.Rec.lastLo⟩)

/-- METER_LO_READ (R279). -/
def execMeterLoRead (slot : SlotIx) (point : PointIx) (dir : EnergyDir) (s : State) : Out :=
  .next (s.onGet slot ⟨Ob.clsMeter, point.val, match dir with | .imp => Ob.Meter.impLo | .exp => Ob.Meter.expLo⟩)

/-- CEBUD_READ (R24). -/
def execCebudRead (slot : SlotIx) (e : EngineIx) (s : State) : Out :=
  .next (s.onGet slot ⟨Ob.clsDev, 0, Ob.Dev.cebud0 + e.val⟩)

/-- METER_STAT_READ (R266). -/
def execMeterStatRead (slot : SlotIx) (point : PointIx) (s : State) : Out :=
  .next (s.onGet slot ⟨Ob.clsMeter, point.val, Ob.Meter.stat⟩)

/-- TBL_DATA_ACCESS (R143). -/
def execTblDataAccess (slot : SlotIx) (r : RailIx) (acc : TblAccess) (s : State) : Out :=
  match acc with
  | .read => .next (s.onGet slot ⟨Ob.clsRail, r.val, Ob.Rail.tblData⟩)
  | .write v => .next (s.onSet slot ⟨Ob.clsRail, r.val, Ob.Rail.tblData⟩ v)

/-- ALIGN (R45). -/
def execAlign (slot : SlotIx) (v : Word) (s : State) : Out := .next (s.onSet slot ⟨Ob.clsClk, 0, Ob.Clk.align⟩ v)

/-- COEF_APPLY (R114). -/
def execCoefApply (slot : SlotIx) (r : RailIx) (v : Word) (s : State) : Out :=
  .next (s.onSet slot ⟨Ob.clsRail, r.val, Ob.Rail.coefApply⟩ v)

/-- TUNE_STOP (R147). -/
def execTuneStop (slot : SlotIx) (v : Word) (s : State) : Out := .next (s.onSet slot ⟨Ob.clsTune, 0, Ob.Tune.stop⟩ v)

/-- CMP_CLR (R213). -/
def execCmpClr (slot : SlotIx) (c : CmpIx) (v : Word) (s : State) : Out :=
  .next (s.onSet slot ⟨Ob.clsCmp, c.val, Ob.Cmp.clr⟩ v)

/-- HSUNLOCK (R72). -/
def execHsunlock (slot : SlotIx) (n : PhaseIx) (v : Word) (s : State) : Out :=
  .next (s.onSet slot ⟨Ob.clsPhase, n.val, Ob.Phase.hsunlock⟩ v)

/-- LT_RESET (R157): a write of TUNE_CTRL with its bit LT_RESET. -/
def execLtReset (slot : SlotIx) (r : RailIx) (v : Word) (s : State) : Out :=
  .next (if bit v 2 then s.onSet slot ⟨Ob.clsRail, r.val, Ob.Rail.tuneCtrl⟩ v else s)

/-- KEY_APPLY (R321). -/
def execKeyApply (slot : SlotIx) (v : Word) (s : State) : Out :=
  .next (s.onSet slot ⟨Ob.clsAuth, 0, Ob.Auth.keyApply⟩ v)

/-- FF_CMD_CLEAR (R141). -/
def execFfCmdClear (slot : SlotIx) (r : RailIx) (s : State) : Out := .next (s.onSet slot ⟨Ob.clsRail, r.val, Ob.Rail.ffCmd⟩ 1)

/-- FF_CMD_SAVE (R141). -/
def execFfCmdSave (slot : SlotIx) (r : RailIx) (s : State) : Out := .next (s.onSet slot ⟨Ob.clsRail, r.val, Ob.Rail.ffCmd⟩ 2)

/-- FF_CMD_RESTORE (R141). -/
def execFfCmdRestore (slot : SlotIx) (r : RailIx) (s : State) : Out := .next (s.onSet slot ⟨Ob.clsRail, r.val, Ob.Rail.ffCmd⟩ 3)

/-- TARGET_WRITE (R130). -/
def execTargetWrite (slot : SlotIx) (r : RailIx) (v : Word) (s : State) : Out :=
  .next (s.onSet slot ⟨Ob.clsRail, r.val, Ob.Rail.target⟩ v)

/-- FORCE_WRITE (R71). -/
def execForceWrite (slot : SlotIx) (n : PhaseIx) (field : ForceField) (v : Word) (s : State) : Out :=
  .next (s.onSet slot ⟨Ob.clsPhase, n.val, match field with | .force => Ob.Phase.force | .duty => Ob.Phase.forceDuty⟩ v)

/-- BUS_MODE_WRITE (R194). -/
def execBusModeWrite (slot : SlotIx) (v : Word) (s : State) : Out :=
  .next (s.onSet slot ⟨Ob.clsFeed, 2, Ob.Feed.busCtrl⟩ v)

/-- PORT_ENABLE (R169): a write of PORT.CTRL with EN = 1. -/
def execPortEnable (slot : SlotIx) (p : PortIx) (v : Word) (s : State) : Out :=
  .next (if bit v 0 then s.onSet slot ⟨Ob.clsPort, p.val, Ob.Port.ctrl⟩ v else s)

/-- PORT_DISABLE (R169): a write of PORT.CTRL with EN = 0. -/
def execPortDisable (slot : SlotIx) (p : PortIx) (v : Word) (s : State) : Out :=
  .next (if bit v 0 then s else s.onSet slot ⟨Ob.clsPort, p.val, Ob.Port.ctrl⟩ v)

/-- LINK_CTRL_WRITE (R178). -/
def execLinkCtrlWrite (slot : SlotIx) (r : RailIx) (field : LinkField) (v : Word) (s : State) : Out :=
  .next (s.onSet slot ⟨Ob.clsRail, r.val, match field with | .ctrl => Ob.Rail.linkCtrl | .auth => Ob.Rail.linkAuth⟩ v)

/-- SLAM_DISABLE (R108): a write of CTRL with SLAM_EN = 0. -/
def execSlamDisable (slot : SlotIx) (r : RailIx) (v : Word) (s : State) : Out :=
  .next (if bit v 0 then s else s.onSet slot ⟨Ob.clsRail, r.val, Ob.Rail.ctrl⟩ v)

/-- SYNC_DISABLE (R42): a write of CLK.CTRL with SYNC_EN = 0. -/
def execSyncDisable (slot : SlotIx) (v : Word) (s : State) : Out :=
  .next (if bit v 2 then s else s.onSet slot ⟨Ob.clsClk, 0, Ob.Clk.ctrl⟩ v)

end Sys2Proof.Machine
end

