-- ==== Sys2Proof/Machine/RecorderCmds.lean ====
section
/-! DEFINITION. The timed commands of the recorder, the snapshots and the counters (R290 … R296). -/

namespace Sys2Proof.Machine
namespace State

/-- A snapshot reaches its slot of the MRAM ring (R294, R296, R306). -/
def storeSnap (s : State) (q : Snap) : State :=
  let k := s.recd.snapNext
  let s := s.modRec fun x => { x with
    snaps := if h : k < 8 then vset x.snaps ⟨k, h⟩ (some q) else x.snaps
    newest := k, snapNext := (k + 1) % 8 }
  (s.irq Irq.snap).saveCounters

/-- The history of a snapshot's rail runs on once no other snapshot of it is due (R294). -/
def thawHistory (s : State) (q : Snap) : State :=
  let rail := byteAt q.bytes 12
  if s.recd.due.any fun x => byteAt x.bytes 12 == rail then s
  else if h : rail < 16 then s.modRail ⟨rail, h⟩ fun x => { x with histFrozen := false } else s

/-- The first due snapshot leaves the engines' histories: into MRAM, or to wait in retention RAM (R294). -/
def takeDue (s : State) (ok : Bool) : State :=
  match s.recd.due with
  | [] => s
  | q :: rest =>
    let s := (s.modRec fun x => { x with due := rest }).thawHistory q
    if ok && s.canWrite then s.storeSnap q else s.modRec fun x => { x with waiting := some q }

/-- The waiting snapshot is written (R294). -/
def storeWaiting (s : State) : State :=
  match s.recd.waiting with
  | some q => if s.canWrite then (s.modRec fun x => { x with waiting := none }).storeSnap q else s
  | none => s

/-- The oldest waiting records move into the spare region as far as it has room (R292). -/
def moveToSpare (s : State) : State × Nat :=
  let room := 256 - s.recd.spare.length
  let s := s.count Ob.clsRec 0 Ob.Rec.writeFaults
  let n := min room s.recd.ram.length
  (s.modRec fun x => { x with spare := x.spare ++ x.ram.take n, ram := x.ram.drop n }, n)

/-- LOG_MEDIA_RECOVERED (R292). -/
def mediaBack (s : State) (moved : Nat) : State :=
  s.record Code.logMediaRecovered Ob.clsRec 0 0 (leBytes 4 moved)

/-- The oldest waiting record is tried again, in the ring and then in the spare region (R292). -/
def mediaRetry (s : State) : State :=
  if s.recd.ringOk then s.drainRam.mediaBack s.recd.ram.length
  else if s.recd.spareOk && decide (s.recd.spare.length < 256) then
    let q := s.moveToSpare
    (q.1.modRec fun x => { x with mediaFault := !x.ram.isEmpty }).disarmRec.mediaBack q.2
  else s.countN Ob.clsRec 0 Ob.Rec.writeFaults 2

end State

/-- FREEZE_EXPIRY (R290). -/
def execFreezeExpiry (s : State) : Out :=
  .next (if s.recd.frozen && decide (s.recd.freezeEnd ≤ s.now) then s.thaw else s)

/-- RECORDER_MEDIA_RETRY (R292): the operands say whether writes to the ring and to the spare region verify from now on. -/
def execRecorderMediaRetry (ringOk spareOk : Bool) (s : State) : Out :=
  let s := s.modRec fun x => { x with ringOk := ringOk, spareOk := spareOk }
  .next (if s.recd.mediaFault && s.canWrite && !s.recd.ram.isEmpty then s.mediaRetry else s)

/-- SNAPSHOT_STORE (R294): `ok` says whether the write verifies. -/
def execSnapshotStore (ok : Bool) (s : State) : Out := .next (s.takeDue ok)

/-- SNAPSHOT_RETRY (R294). -/
def execSnapshotRetry (ok : Bool) (s : State) : Out := .next (if ok then s.storeWaiting else s)

/-- COUNTER_SAVE (R296). -/
def execCounterSave (s : State) : Out := .next (if s.ready then s.saveCounters else s)

end Sys2Proof.Machine
end

