-- ==== Sys2Proof/Machine/Boot.lean ====
section
/-! DEFINITION. Resets, boot, watchdogs, SLEEP and wake, the supply, and the upkeep of the memories (R19, R25, R39,
R320 … R344). -/

namespace Sys2Proof.Machine
/-- What makes a save belong to a rail (R141). -/
def PatSave.identity (k : PatSave) : Nat × Nat × Nat := (k.mode, k.period, k.ids)

namespace State

/-! Reset (R304, R324, R339) -/

/-- What a reset leaves of a rail: the pattern tables in retention RAM. -/
def railKept (x : RailState) : RailState := { ff := { t0 := x.ff.t0, t1 := x.ff.t1 } }

/-- What a reset leaves of the recorder: MRAM, and the waiting records in retention RAM. The freeze ends; a snapshot that was
not stored is lost with the engines' histories. -/
def recKept (x : RecState) : RecState :=
  { x with frozen := false, due := [], firstHi := 0, lastHi := 0, batch := none }

/-- What a reset leaves of the mailbox: keys, and the strapped I²C address; the window registers take their defaults. -/
def mbKept (x : MbState) : MbState := { i2cAddr := x.i2cAddr, nonces := x.nonces, keys := x.keys }

/-- What a reset leaves of the device level: pins, and what the watchdogs count. -/
def devKept (x : DevState) (cause : Nat) : DevState :=
  { part := x.part, cause := cause, wdPending := x.wdPending, boots := x.boots, wdStamps := x.wdStamps, sealN := x.sealN
    dbgen := x.dbgen, gpioIn := x.gpioIn, enPins := x.enPins }

/-- A reset of any cause into BOOT: MRAM, retention RAM and the meter keep what they hold; a sealed session ends (R276). -/
def resetTo (s : State) (cause : Nat) : State :=
  let s := s.abandonSession
  { pending := s.pending, now := s.now, free := s.free
    rails := s.rails.map railKept
    meter := s.meter
    recd := recKept s.recd
    mb := mbKept s.mb
    cfg := { copy0 := s.cfg.copy0, copy1 := s.cfg.copy1, staging := s.cfg.staging, staged := s.cfg.staged }
    fw := s.fw
    nvm := { s.nvm with goodSince := none, armGood := none }
    twin := { seatB := s.twin.seatB, actN := s.twin.actN }
    dev := devKept s.dev cause }

/-- Retention RAM is lost (R339): VIN fell below the UVLO falling level. -/
def loseRetention (s : State) : State :=
  let s := { s with rails := s.rails.map fun _ => {} }
  let s := s.modRec fun x => { x with
    ram := [], hold := [], keptHold := none, keptRam := none, keptReserve := none, waiting := none }
  s.modNvm fun x => { x with queue := [], marker := false }

/-- A reset by the supervisor watchdog or a failed step 3 ends a trial in favour of the other slot (R327). -/
def trialFailed (s : State) : State :=
  if s.fw.trial then { s with fw := { s.fw with trial := false, preferred := 1 - s.fw.preferred } } else s

/-! Boot (R324) -/

/-- The slot that boots (R325): the preferred one, then the other; none where neither verifies. -/
def bootSlot (s : State) : Option Nat :=
  if fwVerifies (s.fwImage s.fw.preferred) then some s.fw.preferred
  else if fwVerifies (s.fwImage (1 - s.fw.preferred)) then some (1 - s.fw.preferred)
  else none

/-- Step 3 with the slot that booted (R325, R327). -/
def bootFirmware (s : State) (k : Nat) : State :=
  let onTrial := (s.fw.trial || s.fw.trialNext) && k == s.fw.preferred
  { s with fw := { s.fw with
      running := k, preferred := if s.fw.trial || s.fw.trialNext then k else s.fw.preferred
      release := fwRelease (s.fwImage k), trial := onTrial, trialNext := false } }

/-- The valid copy that boot loads: the one with the higher generation (R332). -/
def bootCopy (s : State) : Option (Nat × Image) :=
  match s.cfg.copy0, s.cfg.copy1 with
  | some a, some b => if a.generation < b.generation then some (1, b) else some (0, a)
  | some a, none => some (0, a)
  | none, some b => some (1, b)
  | none, none => none

/-- The factory defaults (R332). -/
def factoryStore : Store :=
  let off (st : Store) (x : Nat) : Store :=
    st.setVal Ob.clsFeed x Ob.Feed.ctrl (st.val Ob.clsFeed x Ob.Feed.ctrl &&& ~~~1)
  off (off [] 0) 1

/-- Tables of a rail at boot: what retention RAM kept, else the image's, then a matching save (R141, R339). -/
def bootTables (tables : List (Nat × Nat × Sparse)) (s : State) (r : RailIx) : State :=
  let tab (t : Nat) : Sparse := tableOf tables r.val t
  let s := s.modFf r fun x => { x with
    t0 := if s.nvm.marker then x.t0 else tab 0, t1 := if s.nvm.marker then x.t1 else tab 1, fric := tab 2, cog := tab 3 }
  match s.savedPattern r with
  | none => s
  | some k =>
    let same := k.identity == (s.patSave r).identity
    (if same then s.ffRestore r else s).modFf r fun x => { x with savedFlag := true, restored := same }

/-- Step 4: configuration (R332). -/
def bootConfig (s : State) : State :=
  let q := s.bootCopy
  let s := match q with
    | some (k, i) => { s with
        objs := withImage [] i.objs
        cfg := { s.cfg with runCopy := k, genRun := i.generation, converted := i.converted } }
    | none => { s with objs := factoryStore, cfg := { s.cfg with runCopy := 3, isDefault := true } }
  let tables := match q with | some (_, i) => i.tables | none => []
  let s := forEach allRails (fun s r => bootTables tables (s.loadCoefs r) r) s
  let s := forEach allPhases (fun s n => s.modGen n fun g => { g with
    force := Force.ofCode (s.phaseN n.val Ob.Phase.force), forceDuty := s.phaseN n.val Ob.Phase.forceDuty }) s
  let s := forEach allPorts (fun s p => if bit (s.portCtrl p) 0 then s.enablePort p else s) s
  let ctrl := s.obj Ob.clsTwin 0 Ob.Twin.ctrl
  { s with
    clk := { s.clk with refsel := bit (s.obj Ob.clsClk 0 Ob.Clk.ctrl) 0, outDly := s.clkN Ob.Clk.syncOutDly }
    twin := { s.twin with
      enabled := bit ctrl 0, role := if bit ctrl 0 then .listen else .solo, driving := !bit ctrl 0 } }

/-- Saved current-sense values serve only the ISEN_GAIN they were measured with (R84). -/
def bootZero (l : List (Nat × Rat × Rat)) (s : State) (n : PhaseIx) : State :=
  match l[n.val]? with
  | none => s
  | some q =>
    if q.1 = s.phaseN n.val Ob.Phase.isenGain then s.modSense n fun x => { x with zero := q.2.1, gainCorr := q.2.2 } else s

/-- Step 4: the saved states (R84, R101, R202, R296). -/
def bootStates (s : State) : State :=
  let m := s.nvm
  let put (st : Store) (p : Nat × Word) : Store := st.setVal (p.1 / 65536) (p.1 / 256 % 256) (p.1 % 256) p.2
  let s := { s with objs := m.counters.foldl put s.objs }
  let s := forEach allPhases (fun s n => (bootZero m.zeros s n).modSense n fun x => { x with qacc := m.qacc.getD n.val 0 }) s
  let s := forEach allRails (fun s r => s.modFuse r fun x => { x with retry := m.fuseRetry.getD r.val 0 }) s
  s.count Ob.clsDev 0 Ob.Dev.resets

/-- The restarts of an engine in the last 60 s (R25, R284): 1 supervisor, 2 housekeeping, 3 link. -/
def restarts (s : State) (e : Nat) : Nat :=
  (s.dev.wdStamps.filter fun q => q.1 == e && decide (s.now < q.2 + sFrames 60)).length

/-- A restart of an engine is noted; those older than 60 s no longer count. -/
def noteRestart (s : State) (e : Nat) : State :=
  { s with dev := { s.dev with
      wdStamps := (s.dev.wdStamps.filter fun q => decide (s.now < q.2 + sFrames 60)) ++ [(e, s.now)] } }

/-- What a boot whose retention RAM was lost reports (R290, R339). -/
def bootLost (s : State) (intact : Bool) : State :=
  if intact then s
  else
    let s := s.recordIf (s.nvm.recArmed || s.nvm.deferArmed) Code.recordsLost Ob.clsRec 0 2 (leBytes 4 maxWord)
    let s := s.recordIf s.nvm.deferArmed Code.nvmWritesLost Ob.clsDev 0 0 (leBytes 4 maxWord)
    s.irqIf s.nvm.deferArmed Irq.nvm

/-- The held records of a freeze that the reset ended (R290). -/
def bootHeld (s : State) : State := (s.modRec fun x => { x with frozen := true }).thaw

/-- Step 5: the records of R285, then what was held and what waits. -/
def bootRecords (s : State) (intact : Bool) : State :=
  let s := s.modRec fun x => { x with next := s.reserve }
  let s := s.recordIf s.dev.wdPending Code.watchdog Ob.clsDev 1 (s.restarts 1) []
  let copy := if s.cfg.runCopy = 3 then 255 else s.cfg.runCopy
  let s := s.record Code.boot Ob.clsDev 0 s.dev.cause
    (leBytes 2 s.fw.release ++ leBytes 1 s.fw.running ++ leBytes 1 copy ++ leBytes 4 s.cfg.genRun)
  let s := ((s.anchor 1).bootLost intact).bootHeld
  let s := s.recordIf s.cfg.isDefault Code.cfgDefault Ob.clsCfg 0 0 []
  if s.canWrite && !s.recd.mediaFault then s.drainRam else s.disarmRec

/-- Frames pass during boot, on the clock and on both time counters. -/
def bootTime (s : State) (n : Nat) : State :=
  ({ s with now := s.now + n }.modClk fun c => { c with frame := (c.frame + n) % two48, superframe := (c.frame + n) % 64 }).passTime
    (500 * n)

/-- The meter's identification, and its return after a loss of supply (R267, R273). -/
def bootMeter (s : State) : State :=
  if s.dev.part != .m then s
  else
    let s := s.modMeter fun m => if m.fwImage.isEmpty then
      { m with fwVer := Config.meterFwVersion.toNat, fwCrc := Config.meterFwCrc } else m
    if s.dev.cause = 0 then s.meterBoot else s

/-- Steps 4 … 6 under a firmware slot. -/
def bootFull (s : State) (k : Nat) : State :=
  let intact := s.nvm.marker
  let s := (s.bootFirmware k).bootMeter.bootTime (Config.bootFrames s.dev.boots)
  let s := (s.bootConfig.bootStates).modNvm fun x => { x with marker := true }
  let s := forEach allCmps State.cmpRestart (s.bootRecords intact)
  let s := s.bootTime (Config.bootTail s.dev.boots)
  let s := { s with
    dev := { s.dev with dstate := .standby, retIntact := intact, readyAt := s.now, wdPending := false }
    fw := { s.fw with trialEnd := s.now + sFrames 60 } }
  let s := if s.canWrite then s.flushSaves else s
  (s.refreshFlt.refreshPg.irq Irq.boot).refreshFstat

/-- No firmware slot verifies (R322, R325). -/
def bootRecovery (s : State) : State :=
  let s := s.bootTime (Config.bootFrames s.dev.boots)
  let s := { s with
    fw := { s.fw with running := 255, release := 0, trial := false, trialNext := false }
    dev := { s.dev with dstate := .recovery, readyAt := s.now } }
  (s.irq Irq.boot).refreshFstat

/-- The whole boot sequence (R324). -/
def bootNow (s : State) : State :=
  let s := { s with dev := { s.dev with boots := s.dev.boots + 1 } }
  match s.bootSlot with
  | some k => s.bootFull k
  | none => s.bootRecovery

/-! SLEEP (R340 … R342) -/

/-- The device enters SLEEP. -/
def enterSleep (s : State) : State :=
  let low := s.faultLow
  let s := (s.modMb fun m => { m with arming := m.arming.filter fun a => a.cause != 0 }).thaw
  let s := forEach allCmps (fun s c =>
    if s.cmpMode c == 4 then s else s.modCmp c fun x => { x with out := false, decision := false, latched := false }) s
  let s := s.modClk fun c => { c with sync := .own, freqOfs := 0, validRun := 0, missRun := 0 }
  { s with
    feeds := { s.feeds with ewarn := false, cause := 0 }
    dev := { s.dev with dstate := .sleep, faultAtSleep := low, sleepAt := s.now, sleptFrom := s.clk.frame } }.refreshFstat

/-- Frames pass in SLEEP: only the crystal's time runs (R340). -/
def sleepTime (s : State) (n : Nat) : State := { s with now := s.now + n }.passTime (500 * n)

/-- The device leaves SLEEP (R342). -/
def wakeNow (s : State) (src : Nat) : State :=
  let s := { s with dev := { s.dev with dstate := .standby, wakeSrc := 2 ^ src, enRun := Vector.replicate 4 0 } }
  let f := (s.dev.sleptFrom + (s.now - s.dev.sleepAt)) % two48
  let s := s.modClk fun c => { c with frame := f, superframe := f % 64 }
  let s := forEach allCmps State.cmpRestart s
  (forEach allPorts (fun s p => s.modPort p fun x => { x with
    lastValid := s.now, lastHello := s.now, lastPing := s.now, lastStatus := s.now }) s).refreshFstat

/-- Has a wake source its event (R341): a posted slot, a mapped EN pin, an enabled port, a comparator with WAKE? -/
def wakeCause (s : State) (src : Nat) : Bool :=
  bit (s.obj Ob.clsDev 0 Ob.Dev.wakeCtrl) src && match src with
    | 0 => !s.mb.order.isEmpty
    | 1 => allDomains.any fun d => (s.enPinOf d).isSome
    | 2 => allPorts.any fun p => bit (s.portCtrl p) 0
    | 3 => allCmps.any fun c => bit (s.cmpCtrl c) 15 && (s.cmp c).out
    | _ => false

/-! Watchdogs (R25) -/

/-- An engine other than the supervisor is restarted by it within 1 ms (log entry 21). -/
def engineLag (s : State) : Nat := min (Config.engineRestart s.free) 2000

/-! Retention RAM under ECC (R339) -/

/-- One lost region: 0 … 15 a rail's pattern tables, 16 the hold queue, 17 the RAM ring, 18 the deferral queue, 19 the
meter mirror. -/
def loseRegion (s : State) (k : Nat) : State :=
  let lostRecs (s : State) (n : Nat) : State :=
    s.recordIf (decide (0 < n)) Code.recordsLost Ob.clsRec 0 1 (leBytes 4 n)
  if h : k < 16 then
    s.modFf ⟨k, h⟩ fun x => { x with
      t0 := [], t1 := [], sums := [], counts := [], spoiled := [], fade := if x.applied then some (x.dFF, 64) else x.fade }
  else if k = 16 then
    let n := s.recd.hold.length
    lostRecs ((s.modRec fun x => { x with hold := [] }).countLost n) n
  else if k = 17 then
    let n := s.recd.ram.length
    lostRecs ((s.modRec fun x => { x with ram := [] }).countLost n) n
  else if k = 18 then
    let n := s.deferTotal
    (s.modNvm fun x => { x with queue := [] }).recordIf (decide (0 < n)) Code.nvmWritesLost Ob.clsDev 0 0 (leBytes 4 n)
  else if k = 19 then s.modMeter fun m => { m with stale := true }
  else s

end State

/-! The commands -/

/-- CLOCK_FAULT (R39): the reference stopped, or the PLL lost lock, which it cannot in SLEEP. -/
def execClockFault (unlocked : Bool) (s : State) : Out :=
  .next (if s.ready || (s.dev.dstate == .sleep && !unlocked) then
    (s.record Code.clockFault Ob.clsDev 0 (flag unlocked 0) []).resetTo 4 else s)

/-- SUPERVISOR_WATCHDOG (R25, R327). -/
def execSupervisorWatchdog (s : State) : Out :=
  .next (if s.ready then
    let s := (s.noteRestart 1).trialFailed
    { s with dev := { s.dev with wdPending := true } }.resetTo 3
  else s)

/-- HOUSEKEEPING_WATCHDOG (R25): the third restart within 60 s powers every domain down. -/
def execHousekeepingWatchdog (s : State) : Out :=
  .next (if s.framesRun && !s.teleStale then
    let s := s.noteRestart 2
    let s := { s with free := s.free + 1, dev := { s.dev with hkBack := some (s.now + s.engineLag) } }
    let n := s.restarts 2
    let s := s.record Code.watchdog Ob.clsDev 2 n []
    if 3 ≤ n then ({ s with dev := { s.dev with wdDown := true } }.powerDownAll).refreshFlt else s
  else s)

/-- LINK_ENGINE_WATCHDOG (R25). -/
def execLinkEngineWatchdog (s : State) : Out :=
  .next (if s.framesRun && !s.linkSilent then
    let s := s.noteRestart 3
    let s := { s with free := s.free + 1, dev := { s.dev with linkBack := some (s.now + s.engineLag) } }
    s.record Code.watchdog Ob.clsDev 3 (s.restarts 3) []
  else s)

/-- UVLO_RELEASE (R324): the hardware window answers, with READY at 0. -/
def execUvloRelease (s : State) : Out :=
  .next (if s.dev.dstate == .unpowered then { s with dev := { s.dev with dstate := .boot, cause := 0 } } else s)

/-- UVLO_RESET (R339, R344). -/
def execUvloReset (s : State) : Out :=
  .next (if s.powered then
    let s := (s.resetTo 0).loseRetention
    { s with dev := { s.dev with dstate := .unpowered } }
  else s)

/-- RESET_N (R324). -/
def execResetN (s : State) : Out := .next (if s.powered then s.resetTo 1 else s)

/-- BOOT (R324). -/
def execBoot (s : State) : Out := .next (if s.dev.dstate == .boot then s.bootNow else s)

/-- COMMAND_RESET_EXECUTE (R320): the reset that an accepted RESET or FW_ACTIVATE armed is due. -/
def execCommandResetExecute (s : State) : Out :=
  match s.mb.arming.find? fun a => a.cause != 0 && (match a.due with | some t => decide (t ≤ s.now) | none => false) with
  | some a => .next (s.resetTo a.cause)
  | none => .next s

/-- SLEEP_ENTRY (R340). -/
def execSleepEntry (s : State) : Out :=
  let due := s.mb.arming.any fun a => a.cause == 0 && (match a.due with | some t => decide (t ≤ s.now) | none => false)
  .next (if due && s.dev.dstate == .standby then s.enterSleep else s)

/-- WAKE (R341, R342): source 0 MBOX, 1 EN, 2 LINK, 3 CMP, with the frames that passed since the last slow tick. -/
def execWake (source : Nat) (elapsedFrames : Nat) (s : State) : Out :=
  .next (if s.dev.dstate == .sleep && decide (source < 4) && s.wakeCause source then (s.sleepTime elapsedFrames).wakeNow source
    else s)

/-- WAKE_TIMER (R341). -/
def execWakeTimer (s : State) : Out :=
  .next (if s.dev.dstate == .sleep && bit (s.obj Ob.clsDev 0 Ob.Dev.wakeCtrl) 4 && s.dev.wakeMs != 0
      && elapsed s.now s.dev.sleepAt (msFrames s.dev.wakeMs) then s.wakeNow 4 else s)

/-- SLOW_TICK (R305): in SLEEP time passes and FSTAT is refreshed. -/
def execSlowTick (elapsedFrames : Nat) (s : State) : Out :=
  .next (if s.dev.dstate == .sleep then (s.sleepTime elapsedFrames).refreshFstat else s)

/-- POWER_FAIL_WARNING (R267, R296, R344). -/
def execPowerFailWarning (s : State) : Out :=
  .next (if s.powered then (if s.ready then s.meterPowerFail.saveCounters else s.meterPowerFail) else s)

/-- WINDOW_OPEN (R337): records wait for a failed medium's own retry. -/
def execWindowOpen (s : State) : Out :=
  match s.nvm.goodSince with
  | some t =>
    .next (if s.powered && !s.nvm.window && elapsed s.now t (sFrames 1) then
      let s := (s.modNvm fun x => { x with window := true }).flushSaves
      (if s.recd.mediaFault then s else s.drainRam).storeWaiting
    else s)
  | none => .next s

/-- DEFER_ARMED_CLEAR (R338). -/
def execDeferArmedClear (s : State) : Out :=
  match s.nvm.armGood with
  | some t =>
    .next (if elapsed s.now t (sFrames 10) && s.nvm.queue.isEmpty then s.modNvm fun x => { x with deferArmed := false } else s)
  | none => .next s

/-- NVM_REFRESH (R336): blocks rewritten and blocks moved to spare ones; rewrites wait for the window. -/
def execNvmRefresh (rewritten remapped : Nat) (s : State) : Out :=
  .next (if s.ready && s.nvm.window then
    (s.countN Ob.clsDev 0 Ob.Dev.nvmRefreshes rewritten).countN Ob.clsDev 0 Ob.Dev.nvmRemaps remapped
  else s)

/-- ECC_SCRUB (R339): single-bit errors corrected, and the regions of the uncorrectable ones. -/
def execEccScrub (corrected : Nat) (lost : List Nat) (s : State) : Out :=
  .next (if s.powered then
    forEach lost (fun s k => (s.count Ob.clsDev 0 Ob.Dev.eccUncorr).loseRegion k)
      (s.countN Ob.clsDev 0 Ob.Dev.eccCorr corrected)
  else s)

/-- TRIAL_END (R327). -/
def execTrialEnd (s : State) : Out :=
  .next (if s.fw.trial && s.ready && decide (s.fw.trialEnd ≤ s.now) then { s with fw := { s.fw with trial := false } } else s)

end Sys2Proof.Machine
end

