-- ==== Sys2Proof/Machine/Dispatch.lean ====
section
/-! DEFINITION. One arm per command: each calls its meaning. -/

namespace Sys2Proof.Machine

/-- The effect of a command on everything but the queue. -/
def exec (i : Instr) (s : State) : Host.Outcome State Fault Refusal :=
  match i with
  | .hello slot major minor hostId => Sys2Proof.Machine.execHello slot major minor hostId s
  | .identify slot => Sys2Proof.Machine.execIdentify slot s
  | .get slot o => Sys2Proof.Machine.execGet slot o s
  | .set slot o v => Sys2Proof.Machine.execSet slot o v s
  | .getBlock slot o count => Sys2Proof.Machine.execGetBlock slot o count s
  | .setGroup slot ms => Sys2Proof.Machine.execSetGroup slot ms s
  | .domainOn slot mask => Sys2Proof.Machine.execDomainOn slot mask s
  | .domainOff slot mask => Sys2Proof.Machine.execDomainOff slot mask s
  | .railTarget slot ms => Sys2Proof.Machine.execRailTarget slot ms s
  | .railClearLatch slot rail override => Sys2Proof.Machine.execRailClearLatch slot rail override s
  | .phaseForce slot ms => Sys2Proof.Machine.execPhaseForce slot ms s
  | .tuneStart slot rail => Sys2Proof.Machine.execTuneStart slot rail s
  | .tuneRead slot what first count => Sys2Proof.Machine.execTuneRead slot what first count s
  | .autotune slot rail => Sys2Proof.Machine.execAutotune slot rail s
  | .recRead slot n => Sys2Proof.Machine.execRecRead slot n s
  | .recFreeze slot => Sys2Proof.Machine.execRecFreeze slot s
  | .recThaw slot => Sys2Proof.Machine.execRecThaw slot s
  | .recClear slot n => Sys2Proof.Machine.execRecClear slot n s
  | .snapRead slot snap offset len => Sys2Proof.Machine.execSnapRead slot snap offset len s
  | .cntClear slot cls inst => Sys2Proof.Machine.execCntClear slot cls inst s
  | .authChallenge slot key => Sys2Proof.Machine.execAuthChallenge slot key s
  | .cfgStage slot offset data => Sys2Proof.Machine.execCfgStage slot offset data s
  | .cfgCommit slot length => Sys2Proof.Machine.execCfgCommit slot length s
  | .cfgRead slot copy offset len => Sys2Proof.Machine.execCfgRead slot copy offset len s
  | .fwStage slot offset data => Sys2Proof.Machine.execFwStage slot offset data s
  | .fwActivate slot fwSlot => Sys2Proof.Machine.execFwActivate slot fwSlot s
  | .twinHandover slot => Sys2Proof.Machine.execTwinHandover slot s
  | .twinArm slot => Sys2Proof.Machine.execTwinArm slot s
  | .meterRead slot what first index count => Sys2Proof.Machine.execMeterRead slot what first index count s
  | .meterIntervals slot number max => Sys2Proof.Machine.execMeterIntervals slot number max s
  | .meterSessionOpen slot => Sys2Proof.Machine.execMeterSessionOpen slot s
  | .meterSessionStage slot param point value => Sys2Proof.Machine.execMeterSessionStage slot param point value s
  | .meterSessionCommit slot => Sys2Proof.Machine.execMeterSessionCommit slot s
  | .meterSessionAbandon slot => Sys2Proof.Machine.execMeterSessionAbandon slot s
  | .meterSessionFwChunk slot offset data => Sys2Proof.Machine.execMeterSessionFwChunk slot offset data s
  | .meterSessionKeyLoad slot key => Sys2Proof.Machine.execMeterSessionKeyLoad slot key s
  | .timeSetAtPps slot sec => Sys2Proof.Machine.execTimeSetAtPps slot sec s
  | .timeSetNow slot sec ns => Sys2Proof.Machine.execTimeSetNow slot sec ns s
  | .timeGet slot => Sys2Proof.Machine.execTimeGet slot s
  | .sleep slot wakeMs => Sys2Proof.Machine.execSleep slot wakeMs s
  | .reset slot => Sys2Proof.Machine.execReset slot s
  | .spiTransaction mosi => Sys2Proof.Machine.execSpiTransaction mosi s
  | .i2cTransaction addr written readLen => Sys2Proof.Machine.execI2cTransaction addr written readLen s
  | .alertResponse won => Sys2Proof.Machine.execAlertResponse won s
  | .windowRegisterWrite off data => Sys2Proof.Machine.execWindowRegisterWrite off data s
  | .istatClear v => Sys2Proof.Machine.execIstatClear v s
  | .doorbell v => Sys2Proof.Machine.execDoorbell v s
  | .release v => Sys2Proof.Machine.execRelease v s
  | .headerRead slot => Sys2Proof.Machine.execHeaderRead slot s
  | .requestSlotWrite slot off data => Sys2Proof.Machine.execRequestSlotWrite slot off data s
  | .slotTaken slot => Sys2Proof.Machine.execSlotTaken slot s
  | .responseReady slot => Sys2Proof.Machine.execResponseReady slot s
  | .frameLoRead slot => Sys2Proof.Machine.execFrameLoRead slot s
  | .secLoRead slot => Sys2Proof.Machine.execSecLoRead slot s
  | .recFirstLastLoRead slot which => Sys2Proof.Machine.execRecFirstLastLoRead slot which s
  | .meterLoRead slot point dir => Sys2Proof.Machine.execMeterLoRead slot point dir s
  | .cebudRead slot e => Sys2Proof.Machine.execCebudRead slot e s
  | .meterStatRead slot point => Sys2Proof.Machine.execMeterStatRead slot point s
  | .tblDataAccess slot r acc => Sys2Proof.Machine.execTblDataAccess slot r acc s
  | .align slot v => Sys2Proof.Machine.execAlign slot v s
  | .coefApply slot r v => Sys2Proof.Machine.execCoefApply slot r v s
  | .tuneStop slot v => Sys2Proof.Machine.execTuneStop slot v s
  | .cmpClr slot c v => Sys2Proof.Machine.execCmpClr slot c v s
  | .hsunlock slot n v => Sys2Proof.Machine.execHsunlock slot n v s
  | .ltReset slot r v => Sys2Proof.Machine.execLtReset slot r v s
  | .keyApply slot v => Sys2Proof.Machine.execKeyApply slot v s
  | .ffCmdClear slot r => Sys2Proof.Machine.execFfCmdClear slot r s
  | .ffCmdSave slot r => Sys2Proof.Machine.execFfCmdSave slot r s
  | .ffCmdRestore slot r => Sys2Proof.Machine.execFfCmdRestore slot r s
  | .targetWrite slot r v => Sys2Proof.Machine.execTargetWrite slot r v s
  | .forceWrite slot n field v => Sys2Proof.Machine.execForceWrite slot n field v s
  | .busModeWrite slot v => Sys2Proof.Machine.execBusModeWrite slot v s
  | .portEnable slot p v => Sys2Proof.Machine.execPortEnable slot p v s
  | .portDisable slot p v => Sys2Proof.Machine.execPortDisable slot p v s
  | .linkCtrlWrite slot r field v => Sys2Proof.Machine.execLinkCtrlWrite slot r field v s
  | .slamDisable slot r v => Sys2Proof.Machine.execSlamDisable slot r v s
  | .syncDisable slot v => Sys2Proof.Machine.execSyncDisable slot v s
  | .frameEdge inp => Sys2Proof.Machine.execFrameEdge inp s
  | .overrun r => Sys2Proof.Machine.execOverrun r s
  | .slamTimeout r => Sys2Proof.Machine.execSlamTimeout r s
  | .periodStart n mid => Sys2Proof.Machine.execPeriodStart n mid s
  | .cleanRunLeak n => Sys2Proof.Machine.execCleanRunLeak n s
  | .cmpAssert c pinUv tick => Sys2Proof.Machine.execCmpAssert c pinUv tick s
  | .tripLatch n => Sys2Proof.Machine.execTripLatch n s
  | .cmpFirstDecision c pinUv => Sys2Proof.Machine.execCmpFirstDecision c pinUv s
  | .clockFault unlocked => Sys2Proof.Machine.execClockFault unlocked s
  | .dlcal n spans tap => Sys2Proof.Machine.execDlcal n spans tap s
  | .syncInEdge pulse => Sys2Proof.Machine.execSyncInEdge pulse s
  | .syncAcquire => Sys2Proof.Machine.execSyncAcquire s
  | .syncLock => Sys2Proof.Machine.execSyncLock s
  | .syncLoss => Sys2Proof.Machine.execSyncLoss s
  | .holdoverExpiry => Sys2Proof.Machine.execHoldoverExpiry s
  | .returnComplete => Sys2Proof.Machine.execReturnComplete s
  | .alignComplete => Sys2Proof.Machine.execAlignComplete s
  | .ppsEdge falling => Sys2Proof.Machine.execPpsEdge falling s
  | .ppsLoss => Sys2Proof.Machine.execPpsLoss s
  | .timeSetTimeout => Sys2Proof.Machine.execTimeSetTimeout s
  | .periodicTimeAnchor => Sys2Proof.Machine.execPeriodicTimeAnchor s
  | .supervisorWatchdog => Sys2Proof.Machine.execSupervisorWatchdog s
  | .housekeepingWatchdog => Sys2Proof.Machine.execHousekeepingWatchdog s
  | .linkEngineWatchdog => Sys2Proof.Machine.execLinkEngineWatchdog s
  | .debugHalt e => Sys2Proof.Machine.execDebugHalt e s
  | .debugResume e => Sys2Proof.Machine.execDebugResume e s
  | .skimStart r => Sys2Proof.Machine.execSkimStart r s
  | .skimMeasureStart n => Sys2Proof.Machine.execSkimMeasureStart n s
  | .skimEnd n => Sys2Proof.Machine.execSkimEnd n s
  | .passiveSkimStart r => Sys2Proof.Machine.execPassiveSkimStart r s
  | .gcalWindowEnd r => Sys2Proof.Machine.execGcalWindowEnd r s
  | .phaseLagging n => Sys2Proof.Machine.execPhaseLagging n s
  | .laggingClear n => Sys2Proof.Machine.execLaggingClear n s
  | .qaccSave => Sys2Proof.Machine.execQaccSave s
  | .commandDone r => Sys2Proof.Machine.execCommandDone r s
  | .softstartEnd r => Sys2Proof.Machine.execSoftstartEnd r s
  | .ffFadeEnd r => Sys2Proof.Machine.execFfFadeEnd r s
  | .strokeTimeout r => Sys2Proof.Machine.execStrokeTimeout r s
  | .posStale r => Sys2Proof.Machine.execPosStale r s
  | .tuneSettleEnd => Sys2Proof.Machine.execTuneSettleEnd s
  | .tuneDone => Sys2Proof.Machine.execTuneDone s
  | .autotuneDesignEnd => Sys2Proof.Machine.execAutotuneDesignEnd s
  | .ltWindowEnd r => Sys2Proof.Machine.execLtWindowEnd r s
  | .ltResume r => Sys2Proof.Machine.execLtResume r s
  | .wairelHello p m => Sys2Proof.Machine.execWairelHello p m s
  | .vreq p m => Sys2Proof.Machine.execVreq p m s
  | .vackDone p => Sys2Proof.Machine.execVackDone p s
  | .pos p seq position => Sys2Proof.Machine.execPos p seq position s
  | .stroke p m => Sys2Proof.Machine.execStroke p m s
  | .loadStatus p m => Sys2Proof.Machine.execLoadStatus p m s
  | .ping p seq reply cookie => Sys2Proof.Machine.execPing p seq reply cookie s
  | .linkFrameDiscarded p chars => Sys2Proof.Machine.execLinkFrameDiscarded p chars s
  | .frameGapTimeout p chars => Sys2Proof.Machine.execFrameGapTimeout p chars s
  | .linkFrameTransmit p => Sys2Proof.Machine.execLinkFrameTransmit p s
  | .helloRetry p => Sys2Proof.Machine.execHelloRetry p s
  | .portLost p => Sys2Proof.Machine.execPortLost p s
  | .pingTimer p => Sys2Proof.Machine.execPingTimer p s
  | .statusTimer p => Sys2Proof.Machine.execStatusTimer p s
  | .warnRepeat p => Sys2Proof.Machine.execWarnRepeat p s
  | .feedReturn => Sys2Proof.Machine.execFeedReturn s
  | .breakConfirm => Sys2Proof.Machine.execBreakConfirm s
  | .breakFail => Sys2Proof.Machine.execBreakFail s
  | .deadEnd => Sys2Proof.Machine.execDeadEnd s
  | .feedOn => Sys2Proof.Machine.execFeedOn s
  | .makeFail => Sys2Proof.Machine.execMakeFail s
  | .ewarnClear => Sys2Proof.Machine.execEwarnClear s
  | .fuseRampDone r => Sys2Proof.Machine.execFuseRampDone r s
  | .fuseInsertTimeout r => Sys2Proof.Machine.execFuseInsertTimeout r s
  | .fuseRetry r => Sys2Proof.Machine.execFuseRetry r s
  | .passShort r => Sys2Proof.Machine.execPassShort r s
  | .passShortArm r => Sys2Proof.Machine.execPassShortArm r s
  | .loadDetectChange r fsrcMv => Sys2Proof.Machine.execLoadDetectChange r fsrcMv s
  | .uvWarnCrossing r => Sys2Proof.Machine.execUvWarnCrossing r s
  | .ovWarnCrossing r => Sys2Proof.Machine.execOvWarnCrossing r s
  | .uvFaultCrossing r => Sys2Proof.Machine.execUvFaultCrossing r s
  | .ovFaultCrossing r => Sys2Proof.Machine.execOvFaultCrossing r s
  | .levelCrossingEnd r l => Sys2Proof.Machine.execLevelCrossingEnd r l s
  | .hiccup r => Sys2Proof.Machine.execHiccup r s
  | .hiccupRestart r => Sys2Proof.Machine.execHiccupRestart r s
  | .hicRunReset r => Sys2Proof.Machine.execHicRunReset r s
  | .inputUv r => Sys2Proof.Machine.execInputUv r s
  | .inputOv r => Sys2Proof.Machine.execInputOv r s
  | .inputHoldEnd r => Sys2Proof.Machine.execInputHoldEnd r s
  | .tempUpdate sensor reading => Sys2Proof.Machine.execTempUpdate sensor reading s
  | .tempStopClear r => Sys2Proof.Machine.execTempStopClear r s
  | .tempDeviceClear => Sys2Proof.Machine.execTempDeviceClear s
  | .enPinChange pin => Sys2Proof.Machine.execEnPinChange pin s
  | .domainUnblocked d => Sys2Proof.Machine.execDomainUnblocked d s
  | .railUpStep r => Sys2Proof.Machine.execRailUpStep r s
  | .railQualified r => Sys2Proof.Machine.execRailQualified r s
  | .startFail r => Sys2Proof.Machine.execStartFail r s
  | .railDownStep r => Sys2Proof.Machine.execRailDownStep r s
  | .dischargeDone r => Sys2Proof.Machine.execDischargeDone r s
  | .dischargeTimeout r => Sys2Proof.Machine.execDischargeTimeout r s
  | .domainRetry d => Sys2Proof.Machine.execDomainRetry d s
  | .twinHeartbeat hb => Sys2Proof.Machine.execTwinHeartbeat hb s
  | .twinAlignmentRecord ar => Sys2Proof.Machine.execTwinAlignmentRecord ar s
  | .twinTakeover => Sys2Proof.Machine.execTwinTakeover s
  | .twinSplit => Sys2Proof.Machine.execTwinSplit s
  | .twinFrameSyncLoss => Sys2Proof.Machine.execTwinFrameSyncLoss s
  | .twinLinkUp major minor digest sameSeat => Sys2Proof.Machine.execTwinLinkUp major minor digest sameSeat s
  | .listenJoin => Sys2Proof.Machine.execListenJoin s
  | .listenClaim => Sys2Proof.Machine.execListenClaim s
  | .twinPartnerLost => Sys2Proof.Machine.execTwinPartnerLost s
  | .twinResyncComplete frame ar => Sys2Proof.Machine.execTwinResyncComplete frame ar s
  | .handoverEdge => Sys2Proof.Machine.execHandoverEdge s
  | .rejoinHoldoffEnd => Sys2Proof.Machine.execRejoinHoldoffEnd s
  | .partnerRecord rr => Sys2Proof.Machine.execPartnerRecord rr s
  | .meterSample point shuntNv dividerUv => Sys2Proof.Machine.execMeterSample point shuntNv dividerUv s
  | .meterSave ok => Sys2Proof.Machine.execMeterSave ok s
  | .powerFailWarning => Sys2Proof.Machine.execPowerFailWarning s
  | .intervalBoundary => Sys2Proof.Machine.execIntervalBoundary s
  | .meterFwCheck crc => Sys2Proof.Machine.execMeterFwCheck crc s
  | .mirrorPublish => Sys2Proof.Machine.execMirrorPublish s
  | .sessionTimeout => Sys2Proof.Machine.execSessionTimeout s
  | .sealRelease => Sys2Proof.Machine.execSealRelease s
  | .freezeExpiry => Sys2Proof.Machine.execFreezeExpiry s
  | .recorderMediaRetry ringOk spareOk => Sys2Proof.Machine.execRecorderMediaRetry ringOk spareOk s
  | .snapshotStore ok => Sys2Proof.Machine.execSnapshotStore ok s
  | .snapshotRetry ok => Sys2Proof.Machine.execSnapshotRetry ok s
  | .counterSave => Sys2Proof.Machine.execCounterSave s
  | .windowOpen => Sys2Proof.Machine.execWindowOpen s
  | .deferArmedClear => Sys2Proof.Machine.execDeferArmedClear s
  | .nvmRefresh rewritten remapped => Sys2Proof.Machine.execNvmRefresh rewritten remapped s
  | .eccScrub corrected lost => Sys2Proof.Machine.execEccScrub corrected lost s
  | .trialEnd => Sys2Proof.Machine.execTrialEnd s
  | .authLockEnd => Sys2Proof.Machine.execAuthLockEnd s
  | .nonceExpiry => Sys2Proof.Machine.execNonceExpiry s
  | .hsunlockExpiry n => Sys2Proof.Machine.execHsunlockExpiry n s
  | .uvloRelease => Sys2Proof.Machine.execUvloRelease s
  | .uvloReset => Sys2Proof.Machine.execUvloReset s
  | .resetN => Sys2Proof.Machine.execResetN s
  | .boot => Sys2Proof.Machine.execBoot s
  | .commandResetExecute => Sys2Proof.Machine.execCommandResetExecute s
  | .sleepEntry => Sys2Proof.Machine.execSleepEntry s
  | .wake source elapsedFrames => Sys2Proof.Machine.execWake source elapsedFrames s
  | .wakeTimer => Sys2Proof.Machine.execWakeTimer s
  | .meterCoreWatchdog => Sys2Proof.Machine.execMeterCoreWatchdog s
  | .twinLinkDown => Sys2Proof.Machine.execTwinLinkDown s
  | .twinReplicatedCommand edge act => Sys2Proof.Machine.execTwinReplicatedCommand edge act s
  | .sweepStepEnd => Sys2Proof.Machine.execSweepStepEnd s
  | .slowTick elapsedFrames => Sys2Proof.Machine.execSlowTick elapsedFrames s
  | .cmpDeassert c pinUv => Sys2Proof.Machine.execCmpDeassert c pinUv s
  | .actLineFault => Sys2Proof.Machine.execActLineFault s

end Sys2Proof.Machine
end

