-- ==== Sys2Proof/Machine/Pins.lean ====
section
/-! DEFINITION. What the output pins show: read views of the state, by R57, R215, R231, R252, R306, R324, R340, R349, R354 and
R355. No command reads them; they are where the outside meets the machine. -/

namespace Sys2Proof.Machine

/-- The level of an output. An open-drain pin that is released is high-impedance. -/
inductive PinLevel where
  | low | high | hiZ
deriving DecidableEq, Repr

/-- How a gate output is driven against its source. -/
inductive GateDrive where
  | hiZ | off | charge | sink | on
deriving DecidableEq, Repr

namespace State

/-- The device holds its outputs as the column Early of R349: it has not reached step 4 of its boot. -/
def earlyPins (s : State) : Bool := s.dev.dstate == .unpowered || s.dev.dstate == .boot || s.dev.dstate == .recovery

/-- The shared outputs are high-impedance (R252, R324). -/
def sharedReleased (s : State) : Bool := s.earlyPins || !s.twin.driving

/-- An open-drain output: low, or released. A pin without its supply is high-impedance (R349). -/
def openDrain (s : State) (low : Bool) : PinLevel := if s.powered && low then .low else .hiZ

/-- PWMHn and PWMLn at the beginning of the frame (R57, R58): a stage that wakes keeps PWMHn high-impedance. -/
def pwmPins (s : State) (n : PhaseIx) : PinLevel × PinLevel :=
  if s.sharedReleased then (.hiZ, .hiZ)
  else
    let comp := bits (s.obj Ob.clsPhase n.val Ob.Phase.ctrl) 1 0 == 1
    match s.outState n with
    | .hsOn => (.high, if comp then .low else .high)
    | .lsOn => (.low, .high)
    | .dead => (.low, .low)
    | .parked => if comp then (.low, .low) else (.hiZ, .high)
    | .disabled => (if comp then .low else .hiZ, .low)

/-- GATEr (R198, R199). -/
def fuseGate (s : State) (r : RailIx) : GateDrive :=
  if s.sharedReleased then .hiZ
  else if !s.fitted r then .off
  else match (s.rail r).fuse.fstate with
    | .ramp => if (s.rail r).fuse.limiting then .sink else .charge
    | .on => .on
    | _ => .off

/-- GATEA and GATEB (R191 … R195): at most one of them is on. -/
def feedGate (s : State) (x : FeedId) : GateDrive :=
  if s.sharedReleased then .hiZ
  else match s.feeds.sel with
    | .onA => if x = .a then .on else .off
    | .onB => if x = .b then .on else .off
    | .make => if s.feeds.target = some x then (if s.feeds.slow then .charge else .on) else .off
    | _ => .off

/-- LLp_TX while no frame is on the line: it idles high (R160, R340). The characters of a frame stand in PortState.line. -/
def txPin (s : State) : PinLevel := if s.sharedReleased then .hiZ else .high

/-- FAULT_N (R231). -/
def faultPin (s : State) : PinLevel := s.openDrain s.faultLow

/-- EWARN_N (R196): each device of a pair pulls it by itself (R252). -/
def ewarnPin (s : State) : PinLevel := s.openDrain s.feeds.ewarn

/-- PGOOD (R354); low until boot is over (R324). -/
def pgoodPin (s : State) : PinLevel := s.openDrain (s.earlyPins || !s.dev.pgood)

/-- IRQ_N and ALERT_N (R306). -/
def irqPin (s : State) : PinLevel := s.openDrain s.irqActive
def alertPin (s : State) : PinLevel := s.openDrain s.alertActive

/-- ACT_N (R252). -/
def actPin (s : State) : PinLevel := s.openDrain s.twin.driveActN

/-- CMPOk: high while any comparator of its selection asserts (R215). -/
def cmpoPin (s : State) (k : Fin 8) : PinLevel :=
  if !s.powered then .hiZ
  else if (List.finRange 32).any fun c => bit (s.obj Ob.clsPin 0 (Ob.Pin.cmpoSel0 + k.val)) c.val && (s.cmp c).out then .high
  else .low

/-- GPIOk (R355): the seat strap of a pair is an input. -/
def gpioPin (s : State) (k : Fin 16) : PinLevel :=
  let of (item : Nat) : Bool := bit (s.obj Ob.clsPin 0 item) k.val
  if s.earlyPins || !of Ob.Pin.gpioDir || (s.twin.enabled && k.val == 15) then .hiZ
  else if !of Ob.Pin.gpioOut then .low
  else if of Ob.Pin.gpioOd then .hiZ else .high

/-- The pulse on SYNC_OUT after the present frame edge (R44): its delay in ticks and its width in ns. -/
def syncOutPulse (s : State) : Option (Nat × Nat) :=
  let ctrl := s.obj Ob.clsClk 0 Ob.Clk.ctrl
  if s.sharedReleased || !s.framesRun || !bit ctrl 3 then none
  else some (s.clk.outDly, if s.clk.superframe = 0 && bit ctrl 1 then 150 else 50)

end State
end Sys2Proof.Machine
end

