-- ==== Sys2Proof/Safety.lean ====
section
/-! DEFINITION. What claims mean: a safe step, a command that completes, what a command may change, and the forms that
data of the machine keeps. -/

namespace Sys2Proof

open Machine

/-- A step is safe where it answers a next state: no fault and no refusal. -/
def Safe (s : State) : Prop := ∃ t, step s = .next t

/-- The queue with a command in front. -/
def withFront (c : Instr) (s : State) : State := { s with pending := c :: s.pending }

/-- A command completes: exec answers a next state, and that state has the effect. -/
def Completes (c : Instr) (s : State) (effect : State → Prop) : Prop := ∃ t, exec c s = .next t ∧ effect t

/-- The request that waits in a slot for its effect, taken and not yet begun, whatever key authorised it. -/
def Asks (s : State) (k : SlotIx) (r : Req) : Prop := (s.request k).map Prod.fst = some r

/-- The command of a slot has ended with this status and payload; RESPONSE_READY will write them. -/
def Answers (t : State) (k : SlotIx) (status : Nat) (payload : List Byte) : Prop :=
  (t.slot k).reply = some ⟨status, payload⟩

/-- The command of a slot has been accepted and ends later: it is started and has no outcome yet. -/
def Waits (t : State) (k : SlotIx) : Prop :=
  (t.slot k).reply = none ∧ (t.slot k).taken.map (·.started) = some true

/-- The areas of State. -/
inductive Area where
  | pending | now | free | objs | edgeQueue | clk | time | phases | rails | ports | domains | feeds | cmps | temps | tune
  | twin | meter | recd | mb | cfg | fw | nvm | dev
deriving DecidableEq, Repr

/-- One area stands in both states. -/
def Area.Same (p : Area) (s t : State) : Prop :=
  match p with
  | .pending => t.pending = s.pending
  | .now => t.now = s.now
  | .free => t.free = s.free
  | .objs => t.objs = s.objs
  | .edgeQueue => t.edgeQueue = s.edgeQueue
  | .clk => t.clk = s.clk
  | .time => t.time = s.time
  | .phases => t.phases = s.phases
  | .rails => t.rails = s.rails
  | .ports => t.ports = s.ports
  | .domains => t.domains = s.domains
  | .feeds => t.feeds = s.feeds
  | .cmps => t.cmps = s.cmps
  | .temps => t.temps = s.temps
  | .tune => t.tune = s.tune
  | .twin => t.twin = s.twin
  | .meter => t.meter = s.meter
  | .recd => t.recd = s.recd
  | .mb => t.mb = s.mb
  | .cfg => t.cfg = s.cfg
  | .fw => t.fw = s.fw
  | .nvm => t.nvm = s.nvm
  | .dev => t.dev = s.dev

/-- Nothing but the named areas differs between two states. -/
structure SameBut (ps : List Area) (s t : State) : Prop where
  same : ∀ p, p ∉ ps → p.Same s t

/-- Only one of a group of like things differs between two states. -/
def RailsBut (r : RailIx) (s t : State) : Prop := ∀ q, q ≠ r → t.rail q = s.rail q
def PhasesBut (n : PhaseIx) (s t : State) : Prop := ∀ m, m ≠ n → t.phase m = s.phase m
def PortsBut (p : PortIx) (s t : State) : Prop := ∀ q, q ≠ p → t.port q = s.port q
def DomainsBut (d : DomainIx) (s t : State) : Prop := ∀ e, e ≠ d → t.domain e = s.domain e
def CmpsBut (c : CmpIx) (s t : State) : Prop := ∀ e, e ≠ c → t.cmp e = s.cmp e
def TempsBut (i : TempIx) (s t : State) : Prop := ∀ j, j ≠ i → t.temp j = s.temp j
def SlotsBut (k : SlotIx) (s t : State) : Prop := ∀ j, j ≠ k → t.slot j = s.slot j

/-- No stored object differs between two states but those named (class, instance, item). -/
def ObjsBut (os : List (Nat × Nat × Nat)) (s t : State) : Prop :=
  ∀ c i k, (∀ o ∈ os, objKey c i k ≠ objKey o.1 o.2.1 o.2.2) → t.obj c i k = s.obj c i k

/-- Nothing but one slot differs between two states. -/
def OnlySlot (k : SlotIx) (s t : State) : Prop :=
  t.mb = { s.mb with slots := t.mb.slots } ∧ SlotsBut k s t ∧ SameBut [.mb] s t

/-- Nothing but one slot and the named areas differs between two states. -/
def OnlySlotBut (ps : List Area) (k : SlotIx) (s t : State) : Prop :=
  t.mb = { s.mb with slots := t.mb.slots } ∧ SlotsBut k s t ∧ SameBut (.mb :: ps) s t

/-- Nothing of the mailbox but one slot differs between two states. -/
def MbButSlot (k : SlotIx) (s t : State) : Prop := t.mb = { s.mb with slots := t.mb.slots } ∧ SlotsBut k s t

/-- A request that is answered at once and does nothing else. -/
def JustAnswers (c : Instr) (s : State) (k : SlotIx) (status : Nat) (payload : List Byte) : Prop :=
  Completes c s fun t => Answers t k status payload ∧ OnlySlot k s t

/-- A request that is accepted for the next frame edge: its effects stand in the edge queue behind those taken before, the
slot waits, and nothing else changes but what an active twin sends its partner (R258, R310). -/
def QueuesAtEdge (c : Instr) (s : State) (k : SlotIx) (as : List EdgeAction) : Prop :=
  Completes c s fun t => t.edgeQueue = s.edgeQueue ++ as ∧ (t.slot k).taken.map (·.started) = some true ∧
    t.slot k = { s.slot k with taken := (t.slot k).taken } ∧ MbButSlot k s t ∧
    (t.twin = s.twin ∨ ∃ m, t.twin = { s.twin with outbox := s.twin.outbox ++ [m] }) ∧
    SameBut [.edgeQueue, .twin, .mb] s t

/-- A slot holds a SET that passes every check (R10, R314). -/
def MaySet (s : State) (k : SlotIx) (o : Obj) (v : Word) : Prop :=
  ∃ key, s.request k = some (.set ⟨o, v⟩, key) ∧ s.writeStatus key.isSome [] ⟨o, v⟩ = St.ok

/-- An event is recorded: the recorder of the second state is the first one's after the event (R282). -/
def Logs (s t : State) (code cls inst sub : Nat) (data : List Byte) : Prop :=
  ∃ u : State, u.recd = s.recd ∧ u.nvm = s.nvm ∧ t.recd = (u.record code cls inst sub data).recd

/-- An event with a snapshot of a rail is recorded (R294). -/
def LogsSnap (s t : State) (code cls inst sub : Nat) (data : List Byte) (r : RailIx) (cause : Latch) : Prop :=
  ∃ u : State, u.recd = s.recd ∧ u.nvm = s.nvm ∧ t.recd = (u.recordSnap code cls inst sub data r cause.code).recd

/-- A stored counter has counted one event (R296). -/
def Counts (s t : State) (cls inst item : Nat) : Prop := t.obj cls inst item = satWord ((s.obj cls inst item).toNat + 1)

/-- The object store in its canonical form: keys strictly rising, no entry equal to the default of its object. -/
def StoreOk (st : Store) : Prop := st.Pairwise (fun a b => a.1 < b.1) ∧ ∀ p ∈ st, p.2 ≠ keyDflt p.1

/-- A sparse table in its canonical form: indexes strictly rising, no entry 0. -/
def SparseOk (t : Sparse) : Prop := t.Pairwise (fun a b => a.1 < b.1) ∧ ∀ p ∈ t, p.2 ≠ 0

/-- What every state of a run keeps: the object store is canonical, and no log is longer than its memory (R272, R278, R287,
R289, R292). -/
structure Orderly (s : State) : Prop where
  store : StoreOk s.objs
  ring : s.recd.ring.length ≤ 16384
  spare : s.recd.spare.length ≤ 256
  ram : s.recd.ram.length ≤ 512
  hold : s.recd.hold.length ≤ 256
  intervals : s.meter.intervals.length ≤ 10240
  audit : s.meter.audit.length ≤ 2048

/-- The metrological evidence of one state stands in a later one: SEAL_COUNT and the interval numbers have not gone back, and
the audit log has only grown (R272, R276, R278). -/
def EvidenceStands (a b : MeterState) : Prop :=
  a.sealCount ≤ b.sealCount ∧ a.ivNext ≤ b.ivNext ∧ a.audit <+: b.audit

end Sys2Proof
end

