-- ==== Sys2Proof/Certificates/Slice0/Obligations.lean ====
section
/-! DEFINITION. What is to be proved of the model: one Prop for each obligation of OBLIGATIONS.json. -/

open Sys2Proof Sys2Proof.Machine

/-- A step takes the command at the front of the queue and runs it on the state with the queue's rest; with nothing
queued the block idles (log entry 3). -/
def Obligations.StepRunsTheFrontCommand : Prop :=
  (∀ (c : Instr) (s : State), step (withFront c s) = exec c s) ∧ ∀ s : State, s.pending = [] → step s = .next s

/-- No command stops the machine, and none touches the queue of waiting commands: whatever the state, a step answers a
next state whose queue is the rest of the queue. -/
def Obligations.NoCommandStops : Prop :=
  (∀ (c : Instr) (s : State), Completes c s fun t => t.pending = s.pending) ∧ (∀ s : State, Safe s) ∧
    ∀ s t : State, step s = .next t → t.pending = s.pending.tail

/-- Right after a power-on reset: BOOT, every slot FREE, ISTAT, IMASK, HOSTCFG and every EVCNT 0, no protocol agreed,
the I²C pointer 0 (R304, R308, R324). The state after reset is orderly: its object store is canonical and every log is
within its memory. -/
def Obligations.WhatResetLeaves : Prop :=
  (State.reset.dev.dstate = .boot ∧ (∀ k, (State.reset.slot k).st = .free) ∧ State.reset.mb.istat = 0 ∧
     State.reset.mb.imask = 0 ∧ State.reset.mb.hostcfg = 0 ∧ (∀ k, State.reset.mb.evcnt.get k = 0) ∧ State.reset.mb.mp = 0 ∧
     State.reset.mb.i2cPtr = 0 ∧ State.reset.pending = []) ∧
  (Orderly State.reset)

/-- Order is kept: from every orderly state, a step gives an orderly state. No record ring, hold queue, RAM ring,
interval log or audit log ever outgrows its memory, and the object store stays canonical, so that equal registers are
equal data. -/
def Obligations.StepKeepsOrder : Prop :=
  ∀ s t : State, Orderly s → step s = .next t → Orderly t

/-- Metrological evidence stands: no step, whatever the command and the state, takes SEAL_COUNT or the interval
numbering back, and the audit log only grows at its end: no reset, power failure, configuration or firmware command
rewrites it. -/
def Obligations.StepKeepsEvidence : Prop :=
  ∀ s t : State, step s = .next t → EvidenceStands s.meter t.meter

/-- A stored object reads what was last written to it, and no other object changes. -/
def Obligations.ObjectsReadBack : Prop :=
  ∀ (s : State) (cls inst item : Nat) (v : Word), Orderly s →
    (s.setObj cls inst item v).obj cls inst item = v ∧ ObjsBut [(cls, inst, item)] s (s.setObj cls inst item v)

/-- A counter counts every event and stays at 0xFFFF FFFF once it is there. -/
def Obligations.CountersSaturate : Prop :=
  ∀ (s : State) (cls inst item : Nat), Orderly s →
    ((s.count cls inst item).obj cls inst item).toNat = min ((s.obj cls inst item).toNat + 1) 4294967295 ∧
      ObjsBut [(cls, inst, item)] s (s.count cls inst item)

/-- A write that covers a whole window register takes effect on it: ISTAT is cleared by ones, IMASK and HOSTCFG keep
their defined bits; a write to a register that is RO sets HOST_ERR and does nothing else, and so does a write that
does not cover all four bytes (R301, R304, R306). Nothing outside the mailbox changes. DOORBELL posts a FREE slot,
behind those posted before, and RELEASE gives a POSTED, READY or read slot back and marks a PENDING one for
discarding; a doorbell on a slot that is not FREE, and a release of a FREE one, set HOST_ERR and leave the slot as it
is. Other slots stand (R308, R310). -/
def Obligations.WindowWritesAct : Prop :=
  (∀ (s : State) (v : Word), s.powered = true →
     (∀ off ∈ [0x0C, 0x10, 0x28], Completes (.windowRegisterWrite off (wordBytes v)) s fun t =>
       t.mb = (if off = 0x0C then { s.mb with istat := s.mb.istat &&& ~~~v }
         else if off = 0x10 then { s.mb with imask := v &&& 0xFFFF } else { s.mb with hostcfg := v &&& 1 }) ∧
       SameBut [.mb] s t) ∧
     (∀ off ∈ [0x00, 0x04, 0x08, 0x14, 0x18, 0x20, 0x40, 0x7C], Completes (.windowRegisterWrite off (wordBytes v)) s fun t =>
       t = s.irq Irq.hostErr) ∧
     (∀ off ∈ [0x0C, 0x10, 0x28], ∀ b : Byte, Completes (.windowRegisterWrite off [b]) s fun t => t = s.irq Irq.hostErr) ∧
     Completes (.istatClear v) s fun t => t.mb = { s.mb with istat := s.mb.istat &&& ~~~v } ∧ SameBut [.mb] s t) ∧
  (∀ (s : State) (k : SlotIx), s.powered = true →
     (Completes (.doorbell (BitVec.ofNat 32 (2 ^ k.val))) s fun t => SlotsBut k s t ∧ SameBut [.mb] s t ∧
       (if (s.slot k).st = .free then t.slot k = { s.slot k with st := .posted } ∧ t.mb.order = s.mb.order ++ [k]
        else t.slot k = s.slot k ∧ t.mb.order = s.mb.order ∧ t.mb.istat = s.mb.istat ||| 0x2000)) ∧
     (Completes (.release (BitVec.ofNat 32 (2 ^ k.val))) s fun t => SlotsBut k s t ∧ SameBut [.mb] s t ∧
       (match (s.slot k).st with
        | .free => t.slot k = s.slot k ∧ t.mb.istat = s.mb.istat ||| 0x2000
        | .posted => t.slot k = { s.slot k with st := .free } ∧ t.mb.order = s.mb.order.filter (· != k)
        | .pending => t.slot k = { s.slot k with st := .discard }
        | .discard => t.slot k = s.slot k
        | _ => (t.slot k).st = .free ∧ (t.slot k).resp = List.replicate 256 0)))

/-- The host may fill the request of a FREE slot; the bytes land where they are written, the rest of the slot and
every other slot stand. In any other state of the slot nothing is stored and HOST_ERR is set (R308). A header read of
a READY slot marks it as read; of a slot in any other state it changes nothing (R309). -/
def Obligations.SlotsAreReadAndWritten : Prop :=
  (∀ (s : State) (k : SlotIx) (off : Nat) (b : Byte), s.powered = true → off < 256 → (s.slot k).req.length = 256 →
     Completes (.requestSlotWrite k off [b]) s fun t => SlotsBut k s t ∧ SameBut [.mb] s t ∧
       (if (s.slot k).st = .free then
         t.slot k = { s.slot k with req := (s.slot k).req.set off b } ∧ t.mb = { s.mb with slots := t.mb.slots }
        else t = s.irq Irq.hostErr)) ∧
  (∀ (s : State) (k : SlotIx), s.powered = true →
     Completes (.headerRead k) s fun t => OnlySlot k s t ∧
       t.slot k = if (s.slot k).st = .ready then { s.slot k with st := .read } else s.slot k)

/-- SPI: while INSTR is shifted in, MISO gives FSTAT 7 … 0; a WRITE of data stores it at its address, a READ gives the
bytes behind the dummy byte, and any other INSTR sets HOST_ERR (R302). I²C: at the strapped address a write of two
bytes sets the pointer, a read then gives the bytes from the pointer on; at any other address nothing answers and
nothing changes. The alert response is answered by a device that drives ALERT_N and wins, and releases it (R303,
R306). -/
def Obligations.SerialTransports : Prop :=
  (∀ (s : State) (h l : Byte), s.powered = true →
     (∀ data : List Byte, Completes (.spiTransaction (2 :: h :: l :: data)) s fun t =>
       t.mb.spiOut = leBytes 1 s.mb.fstat.toNat ∧ t.mb = { (s.hostWrite (256 * h.toNat + l.toNat) data).mb with spiOut := t.mb.spiOut }
         ∧ SameBut [.mb] s t) ∧
     (∀ (dummy : Byte) (clocked : List Byte), clocked ≠ [] →
       Completes (.spiTransaction (3 :: h :: l :: dummy :: clocked)) s fun t =>
         t.mb.spiOut = leBytes 1 s.mb.fstat.toNat ++ (s.hostRead (256 * h.toNat + l.toNat) clocked.length).2
           ∧ t.mb.spiOut.length = 1 + clocked.length ∧ SameBut [.mb] s t) ∧
     ∀ (i : Byte) (rest : List Byte), i.toNat ≠ 2 → i.toNat ≠ 3 → Completes (.spiTransaction (i :: rest)) s fun t =>
       t.mb = { (s.irq Irq.hostErr).mb with spiOut := leBytes 1 s.mb.fstat.toNat } ∧ SameBut [.mb] s t) ∧
  (∀ s : State, s.powered = true →
     (∀ h l : Byte, Completes (.i2cTransaction s.mb.i2cAddr [h, l] 0) s fun t =>
       t.mb.i2cPtr = 256 * h.toNat + l.toNat ∧ t.mb.i2cStop = false ∧ t.mb.slots = s.mb.slots ∧ SameBut [.mb] s t) ∧
     (∀ n, 0 < n → s.mb.i2cStop = false → Completes (.i2cTransaction s.mb.i2cAddr [] n) s fun t =>
       t.mb.i2cOut = some (s.hostRead s.mb.i2cPtr n).2 ∧ SameBut [.mb] s t) ∧
     (∀ addr bs n, addr ≠ s.mb.i2cAddr → Completes (.i2cTransaction addr bs n) s fun t =>
       t.mb = { s.mb with i2cOut := none } ∧ SameBut [.mb] s t) ∧
     (s.alertActive = true → Completes (.alertResponse true) s fun t =>
       t.mb = { s.mb with alertHeld := true, i2cOut := some (leBytes 1 (2 * s.mb.i2cAddr)) } ∧ t.alertActive = false ∧
         SameBut [.mb] s t))

/-- SLOT_TAKEN takes the slot whose doorbell came first, and no other (R308, R310). The slot becomes PENDING and
leaves the order. A request without a block that passes the checks of R314 waits for its effect; one that needs a
block has its answer AUTH_REQUIRED, and one that cannot be read has the status that R314 gives. Nothing else changes.
-/
def Obligations.SlotsAreTakenInOrder : Prop :=
  ∀ (s : State) (k : SlotIx), s.ready = true → s.mb.order.head? = some k → (s.slot k).st = .posted →
    (∀ j, j ≠ k → Completes (.slotTaken j) s fun t => t = s) ∧
    ((s.slotParts k).2.2 = none → Completes (.slotTaken k) s fun t =>
      (t.slot k).st = .pending ∧ t.mb.order = s.mb.order.filter (· != k) ∧ SlotsBut k s t ∧ SameBut [.mb] s t ∧
        t.mb.nonce = s.mb.nonce ∧
        match s.readRequest k with
        | .error c => Answers t k c []
        | .ok r =>
          if s.needsAuth r = true then Answers t k St.authRequired []
          else match s.barred (s.slotParts k).1 with
            | some c => Answers t k c []
            | none => (∀ m sec ns, r ≠ .timeSet m sec ns) → (∀ op, r ≠ .meterBadOp op) → Asks t k r)

/-- Authorisation (R313, R314): the check of a block consumes the nonce. A block that passes lets the request through
and ends the row of failures; one that fails answers AUTH_FAILED, sets ISTAT.AUTH, and the third failure in a row
begins the lockout of 10 s. AUTH_CHALLENGE, AUTH_LOCK_END and NONCE_EXPIRY: a provisioned slot gets a nonce and every
earlier one is void; a lockout refuses with BUSY; the lockout ends when its time has come and the nonce 10 s after it
was issued (R313, R314). The nonce's value is free (log entry 2). -/
def Obligations.Authorisation : Prop :=
  (∀ (s : State) (k : SlotIx) (r : Req) (b : List Byte), s.ready = true → s.mb.order.head? = some k →
     (s.slot k).st = .posted → s.readRequest k = .ok r → (s.slotParts k).2.2 = some b →
     Completes (.slotTaken k) s fun t => t.mb.nonce = none ∧ SlotsBut k s t ∧
       if s.blockOk r (s.slotParts k).1 (s.slotParts k).2.1 b = true then t.mb.fails = 0 ∧ t.mb.lockEnd = s.mb.lockEnd
       else Answers t k St.authFailed [] ∧ t.mb.istat = s.mb.istat ||| 0x4000 ∧
         if s.mb.fails < 2 then t.mb.fails = s.mb.fails + 1 ∧ t.mb.lockEnd = s.mb.lockEnd
         else t.mb.fails = 0 ∧ t.mb.lockEnd = some (s.now + 20000000)) ∧
  ((∀ (s : State) (k : SlotIx) (key : Nat), Asks s k (.authChallenge key) →
     if s.mb.lockEnd.isSome then JustAnswers (.authChallenge k key) s k St.busy []
     else if (s.keyOf key).isNone then JustAnswers (.authChallenge k key) s k St.state []
     else Completes (.authChallenge k key) s fun t => Answers t k St.ok (padTo 16 (Config.nonce s.mb.nonces)) ∧
       t.mb = { s.mb with slots := t.mb.slots, nonces := s.mb.nonces + 1,
                          nonce := some (key, padTo 16 (Config.nonce s.mb.nonces), s.now) } ∧
       SlotsBut k s t ∧ SameBut [.mb] s t) ∧
   (∀ (s : State) (e : Nat), s.mb.lockEnd = some e → Completes .authLockEnd s fun t =>
     t.mb = { s.mb with lockEnd := if e ≤ s.now then none else some e } ∧ SameBut [.mb] s t) ∧
   ∀ (s : State) (key issued : Nat) (n : List Byte), s.mb.nonce = some (key, n, issued) →
     Completes .nonceExpiry s fun t =>
       t.mb = { s.mb with nonce := if issued + 20000000 ≤ s.now then none else s.mb.nonce } ∧ SameBut [.mb] s t)

/-- RESPONSE_READY: the response of a PENDING slot becomes READY with status, the request's TAG, the payload's length
and the payload, and its ISTAT bit is set; a slot marked for discarding becomes FREE and no response appears (R307,
R308). -/
def Obligations.ResponsesBecomeReady : Prop :=
  ∀ (s : State) (k : SlotIx) (r : Reply) (x : Taken), (s.slot k).reply = some r → (s.slot k).taken = some x →
    r.payload.length ≤ 252 →
    ((s.slot k).st = .pending → Completes (.responseReady k) s fun t =>
      (t.slot k).st = .ready ∧ (t.slot k).reply = none ∧ (t.slot k).taken = none ∧
        (t.slot k).resp = padTo 256 (leBytes 1 r.status ++ [x.tag] ++ leBytes 1 r.payload.length ++ [0] ++ r.payload) ∧
        bit t.mb.istat k.val = true ∧ SlotsBut k s t ∧ SameBut [.mb] s t) ∧
    ((s.slot k).st = .discard → Completes (.responseReady k) s fun t =>
      (t.slot k).st = .free ∧ (t.slot k).reply = none ∧ (t.slot k).taken = none ∧ (t.slot k).resp = (s.slot k).resp ∧
        t.mb.istat = s.mb.istat ∧ SlotsBut k s t ∧ SameBut [.mb] s t)

/-- HELLO: major 0 is refused with VERSION; while another slot waits the answer is BUSY; else the session takes the
lower of the two versions, major 1 with minor 0, and the response carries them with the window layout and the largest
payload (R311). The requests that only read: each answers what the state holds and changes nothing but its own slot
(R1, R52, R151, R272, R275, R287, R295, R315, R334). -/
def Obligations.HelloAndReads : Prop :=
  (∀ (s : State) (k : SlotIx) (major minor hostId : Nat), Asks s k (.hello major minor hostId) →
     if major = 0 then JustAnswers (.hello k major minor hostId) s k St.version []
     else if s.othersWait k = true then JustAnswers (.hello k major minor hostId) s k St.busy []
     else Completes (.hello k major minor hostId) s fun t =>
       t.mb.mp = min major 2 ∧ t.mb.minor = (if major = 1 then 0 else if major = 2 then min minor 4 else 4) ∧
         Answers t k St.ok (leBytes 1 t.mb.mp ++ leBytes 1 t.mb.minor ++ leBytes 2 0x102 ++ leBytes 1 252) ∧
         t.mb = { s.mb with slots := t.mb.slots, mp := t.mb.mp, minor := t.mb.minor } ∧ SlotsBut k s t ∧ SameBut [.mb] s t) ∧
  (∀ (s : State) (k : SlotIx),
     (Asks s k .timeGet → JustAnswers (.timeGet k) s k St.ok
       (leBytes 6 s.time.sec ++ leBytes 4 s.time.ns.floor.toNat ++ leBytes 6 s.clk.frame ++ leBytes 1 s.time.tstate.code)) ∧
     (Asks s k .identify → ∃ p, p.length = 24 ∧ p.take 4 = leBytes 4 s.idWord ∧
       (p.drop 4).take 2 = leBytes 2 s.fw.release ∧ JustAnswers (.identify k) s k St.ok p) ∧
     (∀ n, Asks s k (.recRead n) → ∃ p, p.take 6 = leBytes 6 s.recLast ∧ p.length = 8 + 32 * (s.recordsFrom n).length ∧
       (∀ q ∈ s.recordsFrom n, n ≤ q.1.seq) ∧ (s.recordsFrom n).length ≤ 7 ∧ JustAnswers (.recRead k n) s k St.ok p) ∧
     (∀ i : Fin 8, ∀ q off len, Asks s k (.snapRead i.val off len) → s.recd.snaps.get i = some q →
       if len = 0 ∨ 240 < len ∨ 2812 < off + len then JustAnswers (.snapRead k i.val off len) s k St.range []
       else JustAnswers (.snapRead k i.val off len) s k St.ok ((q.bytes.drop off).take len)) ∧
     (∀ i off len, Asks s k (.snapRead i off len) → s.recd.snaps.toList.getD i none = none →
       JustAnswers (.snapRead k i off len) s k St.state []) ∧
     (∀ copy off len bs, Asks s k (.cfgRead copy off len) → copy ≤ 2 → s.cfgBytes copy = some bs →
       if len = 0 ∨ 248 < len ∨ bs.length < off + len then JustAnswers (.cfgRead k copy off len) s k St.range []
       else JustAnswers (.cfgRead k copy off len) s k St.ok ((bs.drop off).take len)) ∧
     (∀ first count, Asks s k (.tuneRead 0 first count) →
       if s.tune.tstate ≠ .done then JustAnswers (.tuneRead k 0 first count) s k St.state []
       else if count = 0 ∨ 15 < count ∨ s.tune.results.length < first + count then
         JustAnswers (.tuneRead k 0 first count) s k St.range []
       else JustAnswers (.tuneRead k 0 first count) s k St.ok
         (((s.tune.results.drop first).take count).flatMap State.resultBytes)) ∧
     (∀ what first index count, Asks s k (.meterRead what first index count) →
       if s.dev.part = .s then JustAnswers (.meterRead k what first index count) s k St.state []
       else match s.meterBlock what first index count with
         | some b => JustAnswers (.meterRead k what first index count) s k St.ok b
         | none => JustAnswers (.meterRead k what first index count) s k St.range []) ∧
     (∀ number most, Asks s k (.meterIntervals number most) → s.dev.part = .m → 1 ≤ most → most ≤ 7 →
       ∃ l : List IvRec, l.length ≤ most ∧ (∀ r ∈ l, number ≤ r.number ∧ r ∈ s.meter.intervals) ∧
         JustAnswers (.meterIntervals k number most) s k St.ok (leBytes 1 l.length ++ [0, 0, 0] ++ l.flatMap IvRec.bytes)))

/-- GET answers the object's value, or BAD_OBJECT where there is none; GET_BLOCK with a COUNT outside 1 … 60 is RANGE.
A read never changes a rail, a phase, a stored object of another class, or the outside world: only what R24, R52,
R143, R266, R279 and R299 latch or clear on it (R9, R10). -/
def Obligations.GetsReadObjects : Prop :=
  ∀ (s : State) (k : SlotIx) (o : Obj),
    (Asks s k (.get o) →
      match s.getValue o with
      | none => JustAnswers (.get k o) s k St.badObject []
      | some v => Completes (.get k o) s fun t => Answers t k St.ok (wordBytes v) ∧ MbButSlot k s t ∧
          SameBut [.objs, .clk, .time, .meter, .recd, .mb, .dev] s t ∧ (o.cls ≠ Ob.clsRail → t.objs = s.objs)) ∧
    (∀ n, Asks s k (.getBlock o n) →
      if n = 0 ∨ 60 < n then JustAnswers (.getBlock k o n) s k St.range []
      else Completes (.getBlock k o n) s fun t => MbButSlot k s t ∧
        SameBut [.objs, .clk, .time, .meter, .recd, .mb, .dev] s t ∧
        ∃ st p, Answers t k st p ∧ p.length = 8 + 4 * n ∧ (st = St.ok ∨ st = St.partialDone ∨ st = St.badObject))

/-- The read of a low half latches its high half, so that the two reads give one value: FRAME_LO, SEC_LO with the
nanoseconds, FIRST_LO and LAST_LO, IMP_LO and EXP_LO (R52, R279, R299). Reading CEBUDn resets its PEAK (R24), reading
a point's STAT clears its OVERRANGE (R266), and reading TBL_DATA advances the index with wrap-around (R143). -/
def Obligations.ReadsThatLatch : Prop :=
  ∀ (s : State) (k : SlotIx),
    (Asks s k (.get ⟨Ob.clsClk, 0, Ob.Clk.frameLo⟩) → Completes (.frameLoRead k) s fun t =>
      Answers t k St.ok (leBytes 4 s.clk.frame) ∧ t.clk = { s.clk with frameHi := s.clk.frame / 4294967296 } ∧
        MbButSlot k s t ∧ SameBut [.clk, .mb] s t) ∧
    (Asks s k (.get ⟨Ob.clsTime, 0, Ob.Time.secLo⟩) → Completes (.secLoRead k) s fun t =>
      Answers t k St.ok (leBytes 4 s.time.sec) ∧
        t.time = { s.time with secHi := s.time.sec / 4294967296, nsLatch := s.time.ns.floor.toNat } ∧
        MbButSlot k s t ∧ SameBut [.time, .mb] s t) ∧
    (Asks s k (.get ⟨Ob.clsRec, 0, Ob.Rec.firstLo⟩) → Completes (.recFirstLastLoRead k .first) s fun t =>
      Answers t k St.ok (leBytes 4 s.recFirst) ∧ t.recd = { s.recd with firstHi := s.recFirst / 4294967296 } ∧
        MbButSlot k s t ∧ SameBut [.recd, .mb] s t) ∧
    (Asks s k (.get ⟨Ob.clsRec, 0, Ob.Rec.lastLo⟩) → Completes (.recFirstLastLoRead k .last) s fun t =>
      Answers t k St.ok (leBytes 4 s.recLast) ∧ t.recd = { s.recd with lastHi := s.recLast / 4294967296 } ∧
        MbButSlot k s t ∧ SameBut [.recd, .mb] s t) ∧
    (∀ i : PointIx, s.dev.part = .m → Asks s k (.get ⟨Ob.clsMeter, i.val, Ob.Meter.impLo⟩) →
      Completes (.meterLoRead k i .imp) s fun t =>
        Answers t k St.ok (leBytes 4 (s.meter.mirror.get i).imp) ∧
          t.meter.impHi.get i = (s.meter.mirror.get i).imp / 4294967296 ∧ t.meter = { s.meter with impHi := t.meter.impHi } ∧
          MbButSlot k s t ∧ SameBut [.meter, .mb] s t) ∧
    (∀ i : PointIx, s.dev.part = .m → Asks s k (.get ⟨Ob.clsMeter, i.val, Ob.Meter.expLo⟩) →
      Completes (.meterLoRead k i .exp) s fun t =>
        Answers t k St.ok (leBytes 4 (s.meter.mirror.get i).exp) ∧
          t.meter.expHi.get i = (s.meter.mirror.get i).exp / 4294967296 ∧ t.meter = { s.meter with expHi := t.meter.expHi } ∧
          MbButSlot k s t ∧ SameBut [.meter, .mb] s t) ∧
    (∀ i : PointIx, s.dev.part = .m → Asks s k (.get ⟨Ob.clsMeter, i.val, Ob.Meter.stat⟩) →
      Completes (.meterStatRead k i) s fun t => (t.meter.points.get i).clipped = false ∧ i.val ∉ t.meter.overMirror ∧
        (∀ j, j ≠ i → t.meter.points.get j = s.meter.points.get j) ∧ MbButSlot k s t ∧ SameBut [.meter, .mb] s t) ∧
    (∀ e : EngineIx, Asks s k (.get ⟨Ob.clsDev, 0, Ob.Dev.cebud0 + e.val⟩) → Completes (.cebudRead k e) s fun t =>
      t.dev.cePeak.get e = 0 ∧ (∀ g, g ≠ e → t.dev.cePeak.get g = s.dev.cePeak.get g) ∧
        t.dev = { s.dev with cePeak := t.dev.cePeak } ∧ MbButSlot k s t ∧ SameBut [.dev, .mb] s t) ∧
    (∀ r : RailIx, Orderly s → Asks s k (.get ⟨Ob.clsRail, r.val, Ob.Rail.tblData⟩) →
      Completes (.tblDataAccess k r .read) s fun t => Answers t k St.ok (wordBytes (s.tblRead r)) ∧
        t.tblTable r = s.tblTable r ∧ t.tblIndex r = (s.tblIndex r + 1) % State.tblLen (s.tblTable r) ∧
        ObjsBut [(Ob.clsRail, r.val, Ob.Rail.tblSel)] s t ∧ MbButSlot k s t ∧ SameBut [.objs, .mb] s t)

/-- A SET that fails a check is answered with the status of the first that fails, and changes nothing; one that passes
is answered OK, at once or at the next frame edge, where its object is one of those whose effect waits for it (R10,
R310, R314). -/
def Obligations.SetsAreCheckedFirst : Prop :=
  ∀ (s : State) (k : SlotIx) (o : Obj) (v : Word) (key : Option Nat), s.request k = some (.set ⟨o, v⟩, key) →
    if s.writeStatus key.isSome [] ⟨o, v⟩ ≠ St.ok then
      JustAnswers (.set k o v) s k (s.writeStatus key.isSome [] ⟨o, v⟩) []
    else if State.edgeObj o v = true then
      Completes (.set k o v) s fun t => Waits t k ∧ .write (some k) ⟨o, v⟩ ∈ t.edgeQueue ∧ t.objs = s.objs ∧
        t.rails = s.rails ∧ t.phases = s.phases
    else Completes (.set k o v) s fun t => Answers t k St.ok []

/-- SET_GROUP applies all its members at the next frame edge or none: the first code that is not OK is the status of a
refused group, which changes nothing (R317). -/
def Obligations.GroupsAreAllOrNothing : Prop :=
  ∀ (s : State) (k : SlotIx) (ms : List ObjWrite) (key : Option Nat), s.request k = some (.setGroup ms, key) →
    if ms = [] ∨ 31 < ms.length then JustAnswers (.setGroup k ms) s k St.range []
    else match s.groupRefusal key.isSome ms with
      | some codes => JustAnswers (.setGroup k ms) s k (State.firstBad codes) (State.codesPayload codes)
      | none => ∃ cs, (∀ a ∈ cs, ∃ r b0 b1 b2 a1 a2, a = .coefs r b0 b1 b2 a1 a2) ∧
          QueuesAtEdge (.setGroup k ms) s k (.group (some k) ms :: cs)

/-- The rows of the table that are a SET whose effect waits for the next frame edge: the accepted write stands in the
edge queue behind those taken before (R71, R108, R114, R130, R141, R157, R178, R194, R310). The requests accepted for
the next frame edge: DOMAIN_ON and DOMAIN_OFF where every named domain takes host requests, has a rail and, to be
started, nothing that blocks it, RAIL_CLEAR_LATCH where there is something to clear, PHASE_FORCE where every member
passes, TUNE_START and AUTOTUNE where the session may begin, REC_FREEZE and CNT_CLEAR (R70, R146, R237, R289, R297,
R310, R319). Where a condition fails the answer is the status of the spec and nothing changes. -/
def Obligations.EdgeEffectsWait : Prop :=
  (∀ (s : State) (k : SlotIx),
     (∀ r v, MaySet s k ⟨Ob.clsRail, r.val, Ob.Rail.target⟩ v →
       QueuesAtEdge (.targetWrite k r v) s k [.write (some k) ⟨⟨Ob.clsRail, r.val, Ob.Rail.target⟩, v⟩]) ∧
     (∀ r v, MaySet s k ⟨Ob.clsRail, r.val, Ob.Rail.coefApply⟩ v →
       QueuesAtEdge (.coefApply k r v) s k [.write (some k) ⟨⟨Ob.clsRail, r.val, Ob.Rail.coefApply⟩, v⟩,
         .coefs r (s.obj Ob.clsRail r.val Ob.Rail.b0) (s.obj Ob.clsRail r.val Ob.Rail.b1) (s.obj Ob.clsRail r.val Ob.Rail.b2)
           (s.obj Ob.clsRail r.val Ob.Rail.a1) (s.obj Ob.clsRail r.val Ob.Rail.a2)]) ∧
     (∀ r, MaySet s k ⟨Ob.clsRail, r.val, Ob.Rail.ffCmd⟩ 1 →
       QueuesAtEdge (.ffCmdClear k r) s k [.write (some k) ⟨⟨Ob.clsRail, r.val, Ob.Rail.ffCmd⟩, 1⟩]) ∧
     (∀ r, MaySet s k ⟨Ob.clsRail, r.val, Ob.Rail.ffCmd⟩ 2 →
       QueuesAtEdge (.ffCmdSave k r) s k [.write (some k) ⟨⟨Ob.clsRail, r.val, Ob.Rail.ffCmd⟩, 2⟩]) ∧
     (∀ r, MaySet s k ⟨Ob.clsRail, r.val, Ob.Rail.ffCmd⟩ 3 →
       QueuesAtEdge (.ffCmdRestore k r) s k [.write (some k) ⟨⟨Ob.clsRail, r.val, Ob.Rail.ffCmd⟩, 3⟩]) ∧
     (∀ r v, bit v 2 = true → MaySet s k ⟨Ob.clsRail, r.val, Ob.Rail.tuneCtrl⟩ v →
       QueuesAtEdge (.ltReset k r v) s k [.write (some k) ⟨⟨Ob.clsRail, r.val, Ob.Rail.tuneCtrl⟩, v⟩]) ∧
     (∀ r v, bit v 0 = false → MaySet s k ⟨Ob.clsRail, r.val, Ob.Rail.ctrl⟩ v →
       QueuesAtEdge (.slamDisable k r v) s k [.write (some k) ⟨⟨Ob.clsRail, r.val, Ob.Rail.ctrl⟩, v⟩]) ∧
     (∀ r v, MaySet s k ⟨Ob.clsRail, r.val, Ob.Rail.linkCtrl⟩ v →
       QueuesAtEdge (.linkCtrlWrite k r .ctrl v) s k [.write (some k) ⟨⟨Ob.clsRail, r.val, Ob.Rail.linkCtrl⟩, v⟩]) ∧
     (∀ r v, MaySet s k ⟨Ob.clsRail, r.val, Ob.Rail.linkAuth⟩ v →
       QueuesAtEdge (.linkCtrlWrite k r .auth v) s k [.write (some k) ⟨⟨Ob.clsRail, r.val, Ob.Rail.linkAuth⟩, v⟩]) ∧
     (∀ n v, MaySet s k ⟨Ob.clsPhase, n.val, Ob.Phase.force⟩ v →
       QueuesAtEdge (.forceWrite k n .force v) s k [.write (some k) ⟨⟨Ob.clsPhase, n.val, Ob.Phase.force⟩, v⟩]) ∧
     (∀ n v, MaySet s k ⟨Ob.clsPhase, n.val, Ob.Phase.forceDuty⟩ v →
       QueuesAtEdge (.forceWrite k n .duty v) s k [.write (some k) ⟨⟨Ob.clsPhase, n.val, Ob.Phase.forceDuty⟩, v⟩]) ∧
     (∀ v, MaySet s k ⟨Ob.clsFeed, 2, Ob.Feed.busCtrl⟩ v →
       QueuesAtEdge (.busModeWrite k v) s k [.write (some k) ⟨⟨Ob.clsFeed, 2, Ob.Feed.busCtrl⟩, v⟩])) ∧
  (∀ (s : State) (k : SlotIx),
     (∀ mask, Asks s k (.domainOn mask) →
       if ∀ d : DomainIx, mask.getLsbD d.val = true →
           s.srcPin d = false ∧ s.railsOf d.val ≠ [] ∧ s.domBlocks d = false then
         QueuesAtEdge (.domainOn k mask) s k [.domainReq (some k) mask true]
       else JustAnswers (.domainOn k mask) s k St.state []) ∧
     (∀ mask, Asks s k (.domainOff mask) →
       if ∀ d : DomainIx, mask.getLsbD d.val = true → s.srcPin d = false ∧ s.railsOf d.val ≠ [] then
         QueuesAtEdge (.domainOff k mask) s k [.domainReq (some k) mask false]
       else JustAnswers (.domainOff k mask) s k St.state []) ∧
     (∀ (r : RailIx) (override : Bool) (key : Option Nat), s.request k = some (.railClearLatch r.val override, key) →
       if s.clearable r = true ∧ ((s.rail r).fuse.fstate = .passShort → override = true) then
         QueuesAtEdge (.railClearLatch k r.val override) s k [.clearLatch (some k) r override (key.getD 0)]
       else JustAnswers (.railClearLatch k r.val override) s k St.state []) ∧
     (∀ ms key, s.request k = some (.phaseForce ms, key) → ms ≠ [] → ms.length ≤ 48 →
       (∀ m ∈ ms, ∀ w ∈ State.forceWrites m, s.writeStatus key.isSome [] w = St.ok) →
       QueuesAtEdge (.phaseForce k ms) s k [.force (some k) ms]) ∧
     (∀ r : RailIx, s.tuneHeld = false → s.tuneRefusal r false = none → Asks s k (.tuneStart r.val) →
       QueuesAtEdge (.tuneStart k r.val) s k [.tuneStart (some k) r false]) ∧
     (∀ r : RailIx, s.tuneHeld = false → s.tuneRefusal r true = none → Asks s k (.autotune r.val) →
       QueuesAtEdge (.autotune k r.val) s k [.tuneStart (some k) r true]) ∧
     (Asks s k .recFreeze → QueuesAtEdge (.recFreeze k) s k [.freeze (some k)]) ∧
     (∀ key, s.request k = some (.cntClear 255 255, key) →
       QueuesAtEdge (.cntClear k 255 255) s k [.cntClear (some k) 255 255 (key.getD 0)]))

/-- The rows of the table that are a SET with an effect at once: ALIGN asks for the alignment unless one is busy
(R45), STOP aborts a running session with reason 5 (R147), HSUNLOCK := 1 arms the phase (R72), KEY_APPLY makes the
eight words the key of KEY_SEL (R321), and TBL_DATA stores an entry and advances the index (R143). PORT.CTRL and
CLK.CTRL (R42, R169): enabling a port starts it at NEGOTIATING with a HELLO to send where WLMAX is 2 and at WL1 where
it is 1; disabling it leaves it DISABLED with nothing queued and no request; disabling SYNC while it acquires or is
locked begins the return to the own reference. CMP.CLR ends a latched output whose decision has gone (R213). -/
def Obligations.WritesAtOnce : Prop :=
  (∀ (s : State) (k : SlotIx) (v : Word),
     (MaySet s k ⟨Ob.clsClk, 0, Ob.Clk.align⟩ v → Completes (.align k v) s fun t => Answers t k St.ok [] ∧
       t.clk = { s.clk with alignReq := s.clk.alignReq || !s.clk.alignBusy, alignBusy := true } ∧ MbButSlot k s t ∧
         SameBut [.clk, .twin, .mb] s t) ∧
     (MaySet s k ⟨Ob.clsTune, 0, Ob.Tune.stop⟩ v → s.tune.slot = none → Completes (.tuneStop k v) s fun t =>
       Answers t k St.ok [] ∧ MbButSlot k s t ∧ SameBut [.objs, .tune, .twin, .mb] s t ∧
         if s.tune.tstate = .running then t.tune.tstate = .aborted ∧ t.tune.reason = 5 ∧ t.tune.recording = false
         else t.tune = s.tune ∧ t.objs = s.objs) ∧
     (∀ n, MaySet s k ⟨Ob.clsPhase, n.val, Ob.Phase.hsunlock⟩ v → Completes (.hsunlock k n v) s fun t =>
       Answers t k St.ok [] ∧ (t.phase n).sense = (s.phase n).sense ∧
         (t.phase n).gen = { (s.phase n).gen with hsUnlock := if v = 1 then some s.now else (s.phase n).gen.hsUnlock } ∧
         PhasesBut n s t ∧ MbButSlot k s t ∧ SameBut [.phases, .twin, .mb, .cfg] s t) ∧
     (s.keySelAfter [] ≠ 2 → MaySet s k ⟨Ob.clsAuth, 0, Ob.Auth.keyApply⟩ v → Completes (.keyApply k v) s fun t =>
       Answers t k St.ok [] ∧ t.mb.keyWords = [] ∧ SlotsBut k s t ∧ SameBut [.twin, .mb] s t ∧
         (∀ j, j ≠ s.keySelAfter [] → t.keyOf j = s.keyOf j) ∧
         t.keyOf (s.keySelAfter []) = some ((List.range 8).flatMap fun i =>
           wordBytes (((s.mb.keyWords.find? fun q => q.1 == i).map (·.2)).getD 0))) ∧
     (∀ r, Orderly s → MaySet s k ⟨Ob.clsRail, r.val, Ob.Rail.tblData⟩ v → Completes (.tblDataAccess k r (.write v)) s fun t =>
       Answers t k St.ok [] ∧ t.tblTable r = s.tblTable r ∧
         t.tblIndex r = (s.tblIndex r + 1) % State.tblLen (s.tblTable r) ∧
         (s.tblTable r = 0 → (t.rail r).ff.t0 = (s.rail r).ff.t0.put (s.tblIndex r) (v.setWidth 16).toInt) ∧
         RailsBut r s t ∧ ObjsBut [(Ob.clsRail, r.val, Ob.Rail.tblSel)] s t ∧ MbButSlot k s t ∧
         SameBut [.objs, .rails, .twin, .mb, .cfg] s t)) ∧
  (∀ (s : State) (k : SlotIx) (v : Word), Orderly s →
     (∀ p, bit v 0 = true → bit (s.portCtrl p) 0 = false → MaySet s k ⟨Ob.clsPort, p.val, Ob.Port.ctrl⟩ v →
       Completes (.portEnable k p v) s fun t => Answers t k St.ok [] ∧ PortsBut p s t ∧ MbButSlot k s t ∧
         bit (t.portCtrl p) 0 = true ∧ SameBut [.objs, .ports, .twin, .mb, .cfg] s t ∧
         (t.port p).pstate = if bits v 2 1 = 2 then .negotiating else .wl1) ∧
     (∀ p, bit v 0 = false → bit (s.portCtrl p) 0 = true → MaySet s k ⟨Ob.clsPort, p.val, Ob.Port.ctrl⟩ v →
       Completes (.portDisable k p v) s fun t => Answers t k St.ok [] ∧ PortsBut p s t ∧ MbButSlot k s t ∧
         bit (t.portCtrl p) 0 = false ∧ (t.port p).pstate = .disabled ∧ (t.port p).queue = [] ∧
         (t.port p).standing = none ∧ (t.port p).pending = none ∧ SameBut [.objs, .ports, .twin, .mb, .cfg] s t) ∧
     (bit v 2 = false → s.syncEn = true → MaySet s k ⟨Ob.clsClk, 0, Ob.Clk.ctrl⟩ v →
       Completes (.syncDisable k v) s fun t => Answers t k St.ok [] ∧ t.syncEn = false ∧ MbButSlot k s t ∧
         SameBut [.objs, .clk, .twin, .mb, .cfg] s t ∧
         t.clk.sync = (if s.clk.sync = .acquiring ∨ s.clk.sync = .locked then .returning else s.clk.sync)) ∧
     (∀ c, (s.cmp c).out = true → (s.cmp c).latched = true → (s.cmp c).decision = false → s.cmpLatch c = 1 →
       MaySet s k ⟨Ob.clsCmp, c.val, Ob.Cmp.clr⟩ v → Completes (.cmpClr k c v) s fun t => Answers t k St.ok [] ∧
         t.cmp c = { s.cmp c with out := false, latched := false } ∧ CmpsBut c s t ∧ MbButSlot k s t ∧
         SameBut [.cmps, .twin, .mb] s t))

/-- RAIL_TARGET: with COUNT 0 or above 16 RANGE; where a member fails, its status in the order of R318 and no effect;
else the targets wait for the next frame edge and the slot for the outcome of each member (R130, R317, R318). A
repeated rail is RANGE for the later member (R318). -/
def Obligations.RailTargetsAreChecked : Prop :=
  ∀ (s : State) (k : SlotIx) (ms : List TargetMember), Asks s k (.railTarget ms) → s.mb.mp = 2 →
    if ms = [] ∨ 16 < ms.length then JustAnswers (.railTarget k ms) s k St.range []
    else if (s.targetCodes [] ms).all (· == St.ok) then
      Completes (.railTarget k ms) s fun t => Waits t k ∧ t.edgeQueue = s.edgeQueue ++ [.targets (some k) ms] ∧
        t.mb.gathers = s.mb.gathers ++ [⟨k, ms.map fun _ => (none, false), true⟩] ∧ SlotsBut k s t ∧
        SameBut [.edgeQueue, .twin, .mb] s t
    else ∃ p, JustAnswers (.railTarget k ms) s k (State.firstBad (s.targetCodes [] ms)) p ∧ p.length = 1 + 2 * ms.length

/-- What the queued effects do at the frame edge: working coefficients become the values checked at acceptance and
k_lt 1 (R114, R157); CLEAR empties the pattern and RESTORE loads the saved one (R141); a freeze runs 10 s (R289); the
request of each named domain becomes that of the command (R236); an emptied queue remains (R310). -/
def Obligations.EdgeEffects : Prop :=
  ∀ (s : State) (k : SlotIx) (r : RailIx),
    (∀ b0 b1 b2 a1 a2 : Word, let t := s.applyEdge (.coefs r b0 b1 b2 a1 a2);
      (t.rail r).law = { (s.rail r).law with b0 := b0, b1 := b1, b2 := b2, a1 := a1, a2 := a2 } ∧
        (t.rail r).lt = { (s.rail r).lt with kLt := 1 } ∧ RailsBut r s t ∧ SameBut [.rails] s t) ∧
    (let t := s.ffCommand r 1;
      (t.rail r).ff.t0 = [] ∧ (t.rail r).ff.t1 = [] ∧ RailsBut r s t ∧ SameBut [.rails] s t) ∧
    (∀ p, s.savedPattern r = some p → let t := s.ffCommand r 3;
      (t.rail r).ff = { (s.rail r).ff with t0 := p.t0, t1 := p.t1 } ∧ RailsBut r s t ∧ SameBut [.rails] s t) ∧
    (s.canWrite = true → let t := s.ffCommand r 2;
      t.savedPattern r = some (s.patSave r) ∧ RailsBut r s t ∧ SameBut [.rails, .nvm] s t) ∧
    (let t := s.applyEdge (.freeze (some k));
      t.recd = { s.recd with frozen := true, freezeEnd := s.now + 20000000 } ∧ t.nvm.recArmed = true ∧
        Answers t k St.ok (leBytes 6 s.recLast) ∧ SameBut [.recd, .nvm, .mb] s t) ∧
    (∀ (n : PhaseIx) (v : Word), Orderly s → let t := s.writeForce n v;
      (t.phase n).gen.force = Force.ofCode v.toNat ∧ (t.phase n).gen.hsUnlock = none ∧
        t.obj Ob.clsPhase n.val Ob.Phase.force = v ∧ PhasesBut n s t ∧ SameBut [.objs, .phases] s t) ∧
    (∀ v : Word, s.regulating r = true → bit (s.obj Ob.clsRail r.val Ob.Rail.profCtrl) 0 = false → Orderly s →
      (s.rail r).prof.waiter = none → let t := s.writeTarget r v;
      t.obj Ob.clsRail r.val Ob.Rail.target = v ∧ (t.rail r).prof.reqMv = v.toNat ∧ (t.rail r).prof.tag = 0 ∧
        (t.rail r).prof.tgtMv = s.clampTarget r v.toNat ∧
        (t.rail r).prof.slew = bits (s.obj Ob.clsRail r.val Ob.Rail.profCtrl) 2 1 ∧ RailsBut r s t ∧
        SameBut [.objs, .rails] s t) ∧
    (∀ (d : DomainIx) (on : Bool), ((s.setReq d on).domain d).req = on) ∧
    s.applyQueue.edgeQueue = []

/-- Staging (R325, R326, R334): CFG_STAGE stores its bytes in the staging buffer, and CFG.STAGED is one more than the
highest byte written; FW_STAGE stores them in the slot that did not boot. A full buffer is RANGE, a closed window
MEDIA. CFG_COMMIT (R330, R331): refused with STATE unless every domain is OFF or LATCHED, with RANGE and the reason
where a check of the image fails, with MEDIA while the window is closed; each refusal counts REJECTS and the running
configuration stands. An image that passes is written over the invalid or older copy, the other copy stands, and it
takes effect at the next edge. -/
def Obligations.StagingAndCommits : Prop :=
  (∀ (s : State) (k : SlotIx) (off : Nat) (data : List Byte),
     (Asks s k (.cfgStage off data) → s.commitWaits = false →
       if 131072 < off + data.length then JustAnswers (.cfgStage k off data) s k St.range []
       else if s.nvm.window = false then JustAnswers (.cfgStage k off data) s k St.media []
       else Completes (.cfgStage k off data) s fun t => Answers t k St.ok [] ∧
         t.cfg = { s.cfg with staging := t.cfg.staging, staged := max s.cfg.staged (off + data.length) } ∧
         (t.cfg.staging.drop off).take data.length = data ∧
         (∀ i, i < off ∨ off + data.length ≤ i → t.cfg.staging.getD i 0 = s.cfg.staging.getD i 0) ∧
         MbButSlot k s t ∧ SameBut [.twin, .mb, .cfg] s t) ∧
     (Asks s k (.fwStage off data) → s.firmwareHeld = false →
       if 1048576 < off + data.length then JustAnswers (.fwStage k off data) s k St.range []
       else if s.nvm.window = false then JustAnswers (.fwStage k off data) s k St.media []
       else Completes (.fwStage k off data) s fun t => Answers t k St.ok [] ∧ MbButSlot k s t ∧ SameBut [.mb, .fw] s t ∧
         t.fwImage (if s.fw.running = 0 then 0 else 1) = s.fwImage (if s.fw.running = 0 then 0 else 1) ∧
         ∃ bs, t.fwImage s.stageSlot = .staged bs ∧ (bs.drop off).take data.length = data)) ∧
  (∀ (s : State) (k : SlotIx) (len : Nat), Orderly s → Asks s k (.cfgCommit len) → s.commitWaits = false →
     if ∃ d, (s.domain d).dstate ≠ .off ∧ (s.domain d).dstate ≠ .latched then
       Completes (.cfgCommit k len) s fun t => Answers t k St.state [] ∧ t.cfg = { s.cfg with lastReason := 0 } ∧
         Counts s t Ob.clsCfg 0 Ob.Cfg.rejects ∧ ObjsBut [(Ob.clsCfg, 0, Ob.Cfg.rejects)] s t ∧ SameBut [.objs, .mb, .cfg] s t
     else match s.checkStaged len with
       | .error f => Completes (.cfgCommit k len) s fun t => Answers t k St.range (State.commitPayload f none) ∧
           t.cfg = { s.cfg with lastReason := f.reason } ∧ Counts s t Ob.clsCfg 0 Ob.Cfg.rejects ∧
           ObjsBut [(Ob.clsCfg, 0, Ob.Cfg.rejects)] s t ∧ SameBut [.objs, .mb, .cfg] s t
       | .ok i => s.twin.role ≠ .active →
           if s.nvm.window = false then Completes (.cfgCommit k len) s fun t => Answers t k St.media [] ∧
             Counts s t Ob.clsCfg 0 Ob.Cfg.rejects ∧ SameBut [.objs, .mb, .cfg] s t
           else Completes (.cfgCommit k len) s fun t => Waits t k ∧
             t.edgeQueue = s.edgeQueue ++ [.commit (some k) i.generation] ∧ t.cfg.staged = 0 ∧
             (if s.commitCopy = 0 then t.cfg.copy0 = some i ∧ t.cfg.copy1 = s.cfg.copy1
              else t.cfg.copy1 = some i ∧ t.cfg.copy0 = s.cfg.copy0) ∧
             t.cfg.genRun = s.cfg.genRun ∧ SameBut [.edgeQueue, .twin, .mb, .cfg] s t)

/-- The requests after which the device goes down: RESET, FW_ACTIVATE and SLEEP answer OK and act once the host has
let go of the slot (R320, R327, R340). A slot whose image does not verify is STATE, and so is SLEEP unless everything
rests. -/
def Obligations.RequestsThatGoDown : Prop :=
  ∀ (s : State) (k : SlotIx),
    (Asks s k .reset → Completes (.reset k) s fun t => Answers t k St.ok [] ∧
      t.mb = { s.mb with slots := t.mb.slots, arming := s.mb.arming ++ [⟨k, 2, none⟩] } ∧ SlotsBut k s t ∧
      SameBut [.mb] s t) ∧
    (∀ ms, Asks s k (.sleep ms) →
      if s.sleepOk k = true then Completes (.sleep k ms) s fun t => Answers t k St.ok [] ∧
        t.dev = { s.dev with wakeMs := ms } ∧
        t.mb = { s.mb with slots := t.mb.slots, arming := s.mb.arming ++ [⟨k, 0, none⟩] } ∧ SlotsBut k s t ∧
        SameBut [.mb, .dev] s t
      else JustAnswers (.sleep k ms) s k St.state []) ∧
    (∀ i, Asks s k (.fwActivate i) → s.firmwareHeld = false → i ≤ 1 →
      if State.fwVerifies (s.fwImage i) = false then JustAnswers (.fwActivate k i) s k St.state []
      else if s.nvm.window = false then JustAnswers (.fwActivate k i) s k St.media []
      else Completes (.fwActivate k i) s fun t => Answers t k St.ok [] ∧
        t.fw = { s.fw with preferred := i, trialNext := true } ∧
        t.mb = { s.mb with slots := t.mb.slots, arming := s.mb.arming ++ [⟨k, 5, none⟩] } ∧ SlotsBut k s t ∧
        Logs s t Code.fwActivate Ob.clsDev 0 i (leBytes 2 (State.fwRelease (s.fwImage i))) ∧
        SameBut [.objs, .rails, .twin, .recd, .mb, .fw, .nvm] s t)

/-- TIME_SET (R48): NOW sets the counter at once and a PPS set waits for its edge, replacing one that waits, whose
slot is answered SUPERSEDED; AT_PPS without PPS_EN is STATE and NOW with more than 999 999 999 ns is RANGE. A pending
set that finds no edge within 1.5 s ends as ABORTED. PPS and anchors (R48, R49, R286): an edge with PPS_EN off, or of
the polarity that does not count, changes nothing; a valid edge ends a pending TIME_SET, whose value the counter takes
with state ACQUIRING and whose slot is answered OK; the loss of two predicted edges brings HOLDOVER, counts PPS_LOSSES
and writes PPS_LOSS; every 60 s an anchor is written. -/
def Obligations.TheTimeCounter : Prop :=
  ((∀ (s : State) (k : SlotIx) (sec ns : Nat), Asks s k (.timeSet 1 sec ns) →
     if 999999999 < ns then JustAnswers (.timeSetNow k sec ns) s k St.range []
     else Completes (.timeSetNow k sec ns) s fun t => Answers t k St.ok [] ∧ t.time.sec = sec ∧ t.time.ns = ns ∧
       t.time.wasSet = true ∧ t.time.setPending = none ∧
       (t.time.tstate = if s.time.tstate = .acquiring ∨ s.time.tstate = .locked then s.time.tstate else .free) ∧
       SameBut [.objs, .time, .rails, .twin, .meter, .recd, .mb, .nvm] s t) ∧
   (∀ (s : State) (k : SlotIx) (sec : Nat), Asks s k (.timeSet 0 sec 0) →
     if s.ppsEn = false then JustAnswers (.timeSetAtPps k sec) s k St.state []
     else Completes (.timeSetAtPps k sec) s fun t => t.time = { s.time with setPending := some (some k, sec, s.time.mono) } ∧
       (t.slot k).taken.map (·.started) = some true ∧
       (∀ j p, s.time.setPending = some (some j, p) → j ≠ k → Answers t j St.superseded []) ∧
       SameBut [.time, .twin, .mb] s t) ∧
   ∀ (s : State) (k : SlotIx) (sec : Nat) (since : Rat), s.time.setPending = some (some k, sec, since) →
     Completes .timeSetTimeout s fun t =>
       if since + 1500000000 ≤ s.time.mono then
         t.time = { s.time with setPending := none } ∧ Answers t k St.aborted [] ∧ OnlySlotBut [.time] k s t
       else t = s) ∧
  (∀ s : State,
     (∀ f, s.ppsEn = false ∨ f ≠ s.ppsFalling → Completes (.ppsEdge f) s fun t => t = s) ∧
     (∀ k sec since, s.dev.dstate = .run → s.ppsEn = true → s.time.edgeValid = true → s.time.setPending = some (some k, sec, since) →
       Completes (.ppsEdge s.ppsFalling) s fun t => t.time.sec = sec ∧ t.time.ns = 0 ∧ t.time.setPending = none ∧
         t.time.wasSet = true ∧ t.time.tstate = .acquiring ∧ Answers t k St.ok [] ∧
         SameBut [.objs, .time, .rails, .twin, .meter, .recd, .mb, .nvm] s t) ∧
     (s.time.edgesLost = true → Completes .ppsLoss s fun t => t.time = { s.time with tstate := .holdover, ppsRun := 0 } ∧
       Logs s t Code.ppsLoss Ob.clsTime 0 0 [] ∧ SameBut [.objs, .time, .rails, .twin, .meter, .recd, .mb, .nvm] s t ∧
       (Orderly s → Counts s t Ob.clsTime 0 Ob.Time.ppsLosses)) ∧
     (s.framesRun = true → s.time.lastAnchor + 120000000 ≤ s.now → Completes .periodicTimeAnchor s fun t =>
       t.time = { s.time with lastAnchor := s.now } ∧
       Logs s t Code.timeAnchor Ob.clsTime 0 0
         (leBytes 6 s.time.sec ++ leBytes 4 s.time.ns.floor.toNat ++ leBytes 6 s.clk.frame) ∧
       SameBut [.objs, .time, .rails, .twin, .recd, .nvm] s t))

/-- TWIN_HANDOVER and TWIN_ARM (R256, R259): a handover begins only on an armed active with the selector at rest and
no tuning session, for the first superframe start at least 48 frames on; a second one is BUSY. TWIN_ARM on a standby
that may be armed starts the resynchronisation, on one that may not it answers OK with the reason, on an armed one OK
with 0, on MONITOR VERSION and elsewhere STATE. -/
def Obligations.TwinRequests : Prop :=
  ∀ (s : State) (k : SlotIx),
    (Asks s k .twinHandover →
      if s.twin.pendingHo.isSome then JustAnswers (.twinHandover k) s k St.busy []
      else if s.twin.role = .active ∧ s.twin.armed = true ∧ s.feeds.sel ≠ .brk ∧ s.feeds.sel ≠ .dead ∧ s.feeds.sel ≠ .make ∧
          s.tune.tstate ≠ .running then
        Completes (.twinHandover k) s fun t => Waits t k ∧ SameBut [.twin, .mb] s t ∧
          ∃ e, t.twin = { s.twin with pendingHo := some (k, e), hoEdge := e } ∧ s.clk.frame + 48 ≤ e ∧
            e < s.clk.frame + 112 ∧ (s.clk.superframe + (e - s.clk.frame)) % 64 = 0
      else JustAnswers (.twinHandover k) s k St.state []) ∧
    (Asks s k .twinArm →
      match s.twin.role with
      | .monitor => JustAnswers (.twinArm k) s k St.version []
      | .standby =>
        if s.twin.armed = true then JustAnswers (.twinArm k) s k St.ok [0]
        else if s.armReason = .none then Completes (.twinArm k) s fun t => Waits t k ∧
          t.twin = { s.twin with resyncing := true, resyncOnly := false, armSlot := some k } ∧ MbButSlot k s t ∧ SameBut [.twin, .mb] s t
        else Completes (.twinArm k) s fun t => Answers t k St.ok (leBytes 1 s.armReason.code) ∧
          t.twin = { s.twin with unarm := s.armReason } ∧ MbButSlot k s t ∧ SameBut [.twin, .mb] s t
      | _ => JustAnswers (.twinArm k) s k St.state [])

/-- METER_SESSION (R273, R276, R277): OPEN needs a CPV4816M, the seal broken for 100 ms, no open session and room for
sixteen audit records; STAGE and FW_CHUNK only stage, in range; ABANDON ends the session with an audit record; a key
goes at once into an empty slot, with one step of SEAL_COUNT. No session changes a stored interval or takes an energy
counter back. COMMIT of a sealed session (R276): each parameter whose value changes, a new image and a key each step
SEAL_COUNT by one with an audit record; the session ends; an image that does not verify is RANGE and nothing of the
session takes effect; a commit that SEAL_COUNT or the audit log could not take is STATE. Energy counters stand. -/
def Obligations.SealedSessions : Prop :=
  (∀ (s : State) (k : SlotIx),
     (Asks s k .meterOpen →
       if s.dev.part = .m ∧ s.meter.session = false ∧ s.sealed = true ∧ s.meter.audit.length + 16 ≤ 2048 then
         Completes (.meterSessionOpen k) s fun t => Answers t k St.ok (leBytes 4 s.meter.sealCount) ∧
           t.meter = { s.meter with session := true, sessionAt := s.now, staged := [] } ∧ MbButSlot k s t ∧
           SameBut [.meter, .mb] s t
       else JustAnswers (.meterSessionOpen k) s k St.state []) ∧
     (s.dev.part = .m → s.meter.session = true →
       (∀ kind pt v, Asks s k (.meterStage kind pt v) → meterRange kind pt v = true →
         Completes (.meterSessionStage k kind pt v) s fun t => Answers t k St.ok (leBytes 4 s.meter.sealCount) ∧
           t.meter = { s.meter with
             sessionAt := s.now, staged := s.meter.staged ++ [.param kind (if kind = 8 then 255 else pt) v] } ∧
           MbButSlot k s t ∧ SameBut [.meter, .mb] s t) ∧
       (∀ kind pt v, Asks s k (.meterStage kind pt v) → meterRange kind pt v = false →
         Completes (.meterSessionStage k kind pt v) s fun t => Answers t k St.range [] ∧
           t.meter = { s.meter with sessionAt := s.now } ∧ SameBut [.meter, .mb] s t) ∧
       (∀ off data, Asks s k (.meterFwChunk off data) → off + data.length ≤ 98304 →
         Completes (.meterSessionFwChunk k off data) s fun t => Answers t k St.ok (leBytes 4 s.meter.sealCount) ∧
           t.meter = { s.meter with sessionAt := s.now, staged := s.meter.staged ++ [.chunk off data] } ∧
           MbButSlot k s t ∧ SameBut [.meter, .mb] s t) ∧
       (Asks s k .meterAbandon → s.meter.audit.length < 2048 →
         Completes (.meterSessionAbandon k) s fun t => Answers t k St.ok (leBytes 4 s.meter.sealCount) ∧
           t.meter.session = false ∧ t.meter.staged = [] ∧ t.meter.sealCount = s.meter.sealCount ∧
           (t.meter.audit = s.meter.audit ++ [⟨s.meter.audit.length, s.meter.sealCount, s.meter.time.sec, maxWord, 0x82, 255, 0,
             s.meter.staged.length⟩]) ∧ t.meter.points = s.meter.points ∧ t.meter.intervals = s.meter.intervals ∧
           SameBut [.meter, .mb] s t)) ∧
     (∀ key, Asks s k (.meterKeyLoad key) → s.meter.key = none → s.dev.part = .m → s.sealed = true →
       s.meter.sealCount < maxWord → s.meter.audit.length < 2048 →
       Completes (.meterSessionKeyLoad k key) s fun t => Answers t k St.ok (leBytes 4 (s.meter.sealCount + 1)) ∧
         t.meter.key = some key ∧ t.meter.sealCount = s.meter.sealCount + 1 ∧
         (t.meter.audit = s.meter.audit ++ [⟨s.meter.audit.length, s.meter.sealCount + 1, s.meter.time.sec, maxWord, 10, 255, 0,
           0⟩]) ∧ t.meter.points = s.meter.points ∧ MbButSlot k s t ∧ SameBut [.meter, .mb] s t)) ∧
  (∀ (s : State) (k : SlotIx), Asks s k .meterCommit → s.dev.part = .m → s.meter.session = true →
     if maxWord < s.meter.sealCount + s.meterSteps ∨ maxWord ≤ s.meter.sealCount ∨
         2048 < s.meter.audit.length + s.meterSteps then
       Completes (.meterSessionCommit k) s fun t => Answers t k St.state [] ∧
         t.meter = { s.meter with sessionAt := s.now } ∧ SameBut [.meter, .mb] s t
     else if (stagedFw s.meter.staged).map Config.meterImageVerifies = some false then
       Completes (.meterSessionCommit k) s fun t => Answers t k St.range [] ∧
         t.meter = { s.meter with sessionAt := s.now } ∧ SameBut [.meter, .mb] s t
     else Completes (.meterSessionCommit k) s fun t =>
       Answers t k St.ok (leBytes 4 (s.meter.sealCount + s.meterSteps)) ∧ t.meter.session = false ∧ t.meter.staged = [] ∧
         t.meter.sealCount = s.meter.sealCount + s.meterSteps ∧
         t.meter.audit.length = s.meter.audit.length + s.meterSteps ∧
         (∀ i : PointIx, (t.meter.points.get i).imp = (s.meter.points.get i).imp ∧
           (t.meter.points.get i).exp = (s.meter.points.get i).exp) ∧
         (∀ key, stagedKey s.meter.staged = some key → t.meter.key = some key) ∧
         (stagedKey s.meter.staged = none → t.meter.key = s.meter.key) ∧ SameBut [.meter, .mb] s t)

/-- Energy (R265, R266): a sample pair of an enabled point adds its energy to the import counter where the power flows
outwards and to the export counter where it flows back, and neither counter ever decreases; a disabled point, or any
point after a firmware fault, takes none (R274). Intervals (R271, R272): a boundary closes one record for each enabled
point and opens the next interval at the boundary; the energies of a record are what the counters gained since the
interval opened; numbers rise by one. -/
def Obligations.EnergyAndIntervals : Prop :=
  (∀ (s : State) (i : PointIx) (nv uv : Int),
     (s.meterRuns = true → (s.meter.points.get i).par.en = true → s.meter.fwFault = false →
       Completes (.meterSample i nv uv) s fun t =>
         let c := meterCalc (s.meter.points.get i).par nv uv
         let x := s.meter.points.get i
         let y := t.meter.points.get i;
         y.imp = x.imp + max c.p 0 * 5 / 72 ∧ y.exp = x.exp + max (-c.p) 0 * 5 / 72 ∧ x.imp ≤ y.imp ∧ x.exp ≤ y.exp ∧
           y.clipped = (x.clipped || c.clipped) ∧ y.par = x.par ∧
           (∀ j, j ≠ i → t.meter.points.get j = s.meter.points.get j) ∧
           t.meter = { s.meter with points := t.meter.points } ∧ SameBut [.meter] s t) ∧
     ((s.meter.points.get i).par.en = false ∨ s.meter.fwFault = true → Completes (.meterSample i nv uv) s fun t => t = s)) ∧
  (∀ s : State, s.meterRuns = true → s.meter.intervals.length + 16 ≤ 10240 →
     let len := 60 * max s.meter.intervalMin 1
     let b : Rat := ((s.meter.time.sec / len * len : Nat) : Rat)
     if s.meter.ivStart < b then
       Completes .intervalBoundary s fun t => t.meter.ivStart = b ∧ t.meter.ivNext = s.meter.ivNext + s.meterPoints.length ∧
         (∃ l, t.meter.intervals = s.meter.intervals ++ l ∧ l.length = s.meterPoints.length ∧
           ∀ j, ∀ h : j < l.length, ∀ h' : j < s.meterPoints.length, l[j].number = s.meter.ivNext + j ∧
             l[j].point = (s.meterPoints[j]).val ∧ l[j].startS = s.meter.ivStart.floor.toNat) ∧
         (∀ i : PointIx, (t.meter.points.get i).imp = (s.meter.points.get i).imp ∧
           (t.meter.points.get i).impAt = (s.meter.points.get i).imp ∧
           (t.meter.points.get i).expAt = (s.meter.points.get i).exp) ∧
         t.meter.audit = s.meter.audit ∧ SameBut [.meter] s t
     else Completes .intervalBoundary s fun t => t = s)

/-- The meter's other events: a save keeps counters and interval sums (R267) and one that fails twice raises the media
fault (R274); a check sum that does not match stops the accumulation with an audit record (R274); a publication puts
the counters in the mirror (R275); ten minutes without a request, and the seal's return, abandon a session (R276); a
restart of the meter core makes the mirror stale (R25). -/
def Obligations.MeterEvents : Prop :=
  ∀ s : State, s.meterRuns = true →
    (Completes (.meterSave true) s fun t =>
      t.meter = { s.meter with saved := ⟨s.meter.points, s.meter.ivStart, s.meter.ivFlags, s.meter.ivUnsure,
        s.meter.time.seconds, false⟩ } ∧ SameBut [.meter] s t) ∧
    (Completes (.meterSave false) s fun t => t.meter.media = true ∧ t.meter.points = s.meter.points ∧
      t.meter.saved = s.meter.saved ∧ SameBut [.meter] s t) ∧
    (∀ crc, s.meter.fwFault = false → crc ≠ s.meter.fwCrc → s.meter.audit.length < 2048 →
      Completes (.meterFwCheck crc) s fun t => t.meter.fwFault = true ∧ SameBut [.meter] s t ∧
        t.meter.audit = s.meter.audit ++ [⟨s.meter.audit.length, s.meter.sealCount, s.meter.time.sec, maxWord, 0x80, 255,
          s.meter.fwCrc.toNat, crc.toNat⟩]) ∧
    (Completes .mirrorPublish s fun t => t.meter.stale = false ∧ t.meter.mirrorAt = s.now ∧ SameBut [.meter] s t ∧
      ∀ i : PointIx, (t.meter.points.get i).imp = (s.meter.points.get i).imp ∧
        ((s.meter.points.get i).par.en = true → (t.meter.mirror.get i).imp = energyWord (s.meter.points.get i).imp ∧
          (t.meter.mirror.get i).exp = energyWord (s.meter.points.get i).exp) ∧
        ((s.meter.points.get i).par.en = false → (t.meter.mirror.get i).imp = 0 ∧ (t.meter.mirror.get i).pMw = 0)) ∧
    (s.meter.session = true → Completes .sessionTimeout s fun t => SameBut [.meter] s t ∧
      if s.meter.sessionAt + 1200000000 ≤ s.now then t.meter.session = false ∧ t.meter.staged = [] else t = s) ∧
    (Completes .sealRelease s fun t => t.dev = { s.dev with sealN := true } ∧ t.meter.sealLowSince = none ∧
      t.meter.session = false ∧ (s.meter.session = true → t.meter.staged = []) ∧ t.meter.points = s.meter.points ∧
      SameBut [.meter, .dev] s t) ∧
    (Completes .meterCoreWatchdog s fun t => t.meter = { s.meter with stale := true } ∧ SameBut [.meter] s t)

/-- FRAME_EDGE (R29, R31, R32): the frame index counts modulo 2^48; the superframe is the index modulo 64 on the own
reference, begins at 0 at a marker while LOCKED, and else counts modulo 64; every queued effect has been applied. In
RECOVERY only the clock and the status words move; in BOOT and SLEEP no frame edge occurs (R322). -/
def Obligations.FrameEdgesCount : Prop :=
  ∀ (s : State) (inp : FrameIn),
    (s.framesRun = true → Completes (.frameEdge inp) s fun t => t.now = s.now + 1 ∧
      t.clk.frame = (s.clk.frame + 1) % 281474976710656 ∧
      t.clk.superframe = (if s.clk.sync = .own then t.clk.frame % 64
        else if s.clk.sync = .locked ∧ s.clk.markerNow = true then 0 else (s.clk.superframe + 1) % 64) ∧
      t.edgeQueue = [] ∧ t.temps = s.temps ∧ t.fw = s.fw ∧ t.free = s.free) ∧
    (s.dev.dstate = .recovery → Completes (.frameEdge inp) s fun t => t.now = s.now + 1 ∧
      t.clk.frame = (s.clk.frame + 1) % 281474976710656 ∧ t.phases = s.phases ∧ t.ports = s.ports ∧ t.edgeQueue = s.edgeQueue) ∧
    (s.dev.dstate = .boot ∨ s.dev.dstate = .sleep ∨ s.dev.dstate = .unpowered → Completes (.frameEdge inp) s fun t => t = s)

/-- Synchronisation (R41 … R45): SYNC_STATE moves OWN, HOLDOVER or RETURNING to ACQUIRING on 8 valid edges with
SYNC_EN, to LOCKED after 64 frames within limits, to HOLDOVER when 3 expected edges are missing, which counts
SYNC_LOSSES and writes SYNC_LOSS, to RETURNING when the holdover time is over, and to OWN once the own frequency is
reached. ALIGN_BUSY ends when the carriers are aligned. A missing edge breaks the row of valid ones; one with its
distance within 475 … 525 ns counts. -/
def Obligations.SynchronisationStates : Prop :=
  ∀ s : State,
    (s.framesRun = true → Completes (.syncInEdge none) s fun t => t.clk.validRun = 0 ∧ t.clk.missRun = s.clk.missRun + 1 ∧
      t.clk.sync = s.clk.sync ∧ SameBut [.clk] s t) ∧
    (∀ p : SyncPulse, s.framesRun = true → 475000 ≤ p.sincePs → p.sincePs ≤ 525000 → Completes (.syncInEdge (some p)) s fun t =>
      t.clk.validRun = s.clk.validRun + 1 ∧ t.clk.missRun = 0 ∧
        t.clk.markerNow = (s.clk.markerNow || decide (100 < p.widthNs)) ∧ t.clk.frame = s.clk.frame ∧ SameBut [.clk] s t) ∧
    (s.framesRun = true → s.syncEn = true → 8 ≤ s.clk.validRun →
      s.clk.sync = .own ∨ s.clk.sync = .holdover ∨ s.clk.sync = .returning → Completes .syncAcquire s fun t =>
        t.clk = { s.clk with sync := .acquiring, lockFrames := 0, holdoverEnd := none, missRun := 0 } ∧ SameBut [.clk] s t) ∧
    (s.clk.sync = .acquiring → 64 ≤ s.clk.lockFrames → Completes .syncLock s fun t =>
      t.clk = { s.clk with sync := .locked } ∧ SameBut [.clk] s t) ∧
    (s.clk.sync = .acquiring ∨ s.clk.sync = .locked → 3 ≤ s.clk.missRun → Completes .syncLoss s fun t =>
      t.clk = { s.clk with
        sync := .holdover, validRun := 0, holdoverEnd := some (s.now + 2000 * s.clkN Ob.Clk.holdoverMs) } ∧
      Logs s t Code.syncLoss Ob.clsClk 0 0 [] ∧ SameBut [.objs, .clk, .rails, .twin, .recd, .nvm] s t ∧
      (Orderly s → Counts s t Ob.clsClk 0 Ob.Clk.syncLosses)) ∧
    (∀ e, s.clk.sync = .holdover → s.clk.holdoverEnd = some e → e ≤ s.now → Completes .holdoverExpiry s fun t =>
      t.clk = { s.clk with sync := .returning, holdoverEnd := none } ∧ SameBut [.clk] s t) ∧
    (s.clk.sync = .returning → s.clk.freqOfs = 0 → Completes .returnComplete s fun t =>
      t.clk = { s.clk with sync := .own } ∧ SameBut [.clk] s t) ∧
    (s.clk.alignBusy = true → s.clk.alignReq = false → s.carriersAligned = true → Completes .alignComplete s fun t =>
      t.clk = { s.clk with alignBusy := false } ∧ SameBut [.clk] s t)

/-- A reset (R320, R324, R339): BOOT, every object at its default until boot loads it, every slot FREE, no session, no
domain up, the tuning session and every queued effect gone; MRAM and retention RAM stand: records, saves, patterns,
keys, both configuration copies, firmware slots and the meter's counters. Where commands reset: RESET_N with cause 1,
a due RESET or FW_ACTIVATE with the cause it was armed with, a clock fault with 4, the supervisor's watchdog with 3.
-/
def Obligations.ResetsKeepWhatTheyMust : Prop :=
  let isReset (s t : State) (cause : Nat) : Prop :=
    t.dev.dstate = .boot ∧ t.dev.cause = cause ∧ t.objs = [] ∧ (∀ k, (t.slot k).st = .free) ∧ t.mb.mp = 0 ∧ t.mb.istat = 0 ∧
      t.edgeQueue = [] ∧ t.tune.tstate = .idle ∧ (∀ d, (t.domain d).dstate = .off ∧ (t.domain d).req = false) ∧
      (∀ r, (t.rail r).seq.rseq = .off ∧ (t.rail r).prot.latch = .none ∧ (t.rail r).ff.t0 = (s.rail r).ff.t0 ∧
        (t.rail r).ff.t1 = (s.rail r).ff.t1) ∧
      t.mb.keys = s.mb.keys ∧ t.cfg.copy0 = s.cfg.copy0 ∧ t.cfg.copy1 = s.cfg.copy1 ∧ t.nvm.counters = s.nvm.counters ∧
      t.nvm.patterns = s.nvm.patterns ∧ t.nvm.queue = s.nvm.queue ∧ t.meter.points = s.meter.points ∧
      t.meter.intervals = s.meter.intervals ∧ t.meter.session = false ∧ t.now = s.now
  ∀ s : State, s.powered = true →
    (Completes .resetN s fun t => isReset s t 1 ∧ t.recd.ring = s.recd.ring ∧ t.recd.ram = s.recd.ram ∧ t.fw = s.fw) ∧
    (∀ a b, s.mb.arming = [a] → a.cause ≠ 0 → a.due = some b → b ≤ s.now → Completes .commandResetExecute s fun t =>
      isReset s t a.cause ∧ t.recd.ring = s.recd.ring ∧ t.recd.ram = s.recd.ram ∧ t.fw = s.fw) ∧
    (∀ u, s.ready = true → Completes (.clockFault u) s fun t => isReset s t 4 ∧ t.fw = s.fw) ∧
    (s.ready = true → Completes .supervisorWatchdog s fun t => isReset s t 3 ∧ t.dev.wdPending = true ∧
      t.recd.ring = s.recd.ring ∧ t.fw.slotA = s.fw.slotA ∧ t.fw.slotB = s.fw.slotB ∧
      (s.fw.trial = true → t.fw.trial = false ∧ t.fw.preferred = 1 - s.fw.preferred) ∧
      (s.fw.trial = false → t.fw = s.fw))

/-- The supply (R324, R339, R344): below UVLO the device is dark and retention RAM is lost with the pattern tables,
the waiting records and the deferral queue, while MRAM stands; above UVLO it is in BOOT with cause 0. The power-fail
warning saves the counters and closes the meter's intervals at once. SLEEP (R340 … R342): an armed SLEEP that is due
is entered from STANDBY, with EWARN off; in SLEEP only time passes; an enabled source with its event, and the wake
timer, bring STANDBY back with the frame index counted on. -/
def Obligations.SupplyAndSleep : Prop :=
  (∀ s : State,
     (s.powered = true → Completes .uvloReset s fun t => t.dev.dstate = .unpowered ∧ t.recd.ram = [] ∧ t.recd.hold = [] ∧
       t.nvm.queue = [] ∧ t.nvm.marker = false ∧ (∀ r, (t.rail r).ff.t0 = [] ∧ (t.rail r).ff.t1 = []) ∧
       t.recd.ring = s.recd.ring ∧ t.recd.spare = s.recd.spare ∧ t.nvm.counters = s.nvm.counters ∧
       t.nvm.patterns = s.nvm.patterns ∧ t.cfg.copy0 = s.cfg.copy0 ∧ t.cfg.copy1 = s.cfg.copy1 ∧ t.fw = s.fw) ∧
     (s.dev.dstate = .unpowered → Completes .uvloRelease s fun t => t.dev = { s.dev with dstate := .boot, cause := 0 } ∧
       SameBut [.dev] s t) ∧
     (s.ready = true → s.meterRuns = true → Completes .powerFailWarning s fun t =>
       t.meter.saved.closed = true ∧ t.meter.saved.points = t.meter.points ∧
         (∀ i, (t.meter.points.get i).imp = (s.meter.points.get i).imp) ∧
         (s.nvm.window = true → t.nvm.counters = s.counterStore) ∧ SameBut [.objs, .rails, .twin, .meter, .recd, .nvm] s t)) ∧
  (∀ s : State,
     (∀ a b, s.dev.dstate = .standby → s.mb.arming = [a] → a.cause = 0 → a.due = some b → b ≤ s.now →
       Completes .sleepEntry s fun t => t.dev.dstate = .sleep ∧ t.dev.sleepAt = s.now ∧ t.dev.sleptFrom = s.clk.frame ∧
         t.feeds.ewarn = false ∧ t.mb.arming = [] ∧ t.clk.sync = .own ∧ t.recd.frozen = false ∧ t.rails = s.rails ∧
         t.meter = s.meter) ∧
     (∀ n, s.dev.dstate = .sleep → Completes (.slowTick n) s fun t => t.now = s.now + n ∧ t.dev = s.dev ∧ t.clk = s.clk ∧
       SameBut [.now, .time, .meter, .mb] s t) ∧
     (∀ src n, s.dev.dstate = .sleep → src < 4 → s.wakeCause src = true → Completes (.wake src n) s fun t =>
       t.dev.dstate = .standby ∧ t.dev.wakeSrc = 2 ^ src ∧ t.now = s.now + n ∧
         t.clk.frame = (s.dev.sleptFrom + (s.now + n - s.dev.sleepAt)) % 281474976710656 ∧ t.rails = s.rails) ∧
     (s.dev.dstate = .sleep → bit (s.obj Ob.clsDev 0 Ob.Dev.wakeCtrl) 4 = true → 0 < s.dev.wakeMs →
       s.dev.sleepAt + 2000 * s.dev.wakeMs ≤ s.now → Completes .wakeTimer s fun t =>
         t.dev.dstate = .standby ∧ t.dev.wakeSrc = 16 ∧ t.now = s.now ∧ t.rails = s.rails))

/-- Boot (R324, R325, R332): it loads the firmware of the preferred slot that verifies, or the other one, or ends in
RECOVERY; the configuration is the valid copy with the higher generation, or the factory defaults with CFG_DEFAULT; it
ends in STANDBY with every domain OFF, and raises ISTAT.BOOT. A slot that is on trial is confirmed 60 s after boot
(R327). -/
def Obligations.BootSequence : Prop :=
  ∀ s : State, s.dev.dstate = .boot →
    (s.bootSlot = none → Completes .boot s fun t => t.dev.dstate = .recovery ∧ t.fw.running = 255 ∧ t.objs = s.objs ∧
      t.rails = s.rails ∧ bit t.mb.istat 15 = true) ∧
    (∀ k, s.bootSlot = some k → Completes .boot s fun t => t.dev.dstate = .standby ∧ t.fw.running = k ∧
      t.dev.boots = s.dev.boots + 1 ∧ t.dev.wdPending = false ∧ t.nvm.marker = true ∧ t.dev.retIntact = s.nvm.marker ∧
      t.domains = s.domains ∧ bit t.mb.istat 15 = true ∧
      (match s.cfg.copy0, s.cfg.copy1 with
       | none, none => t.cfg.isDefault = true ∧ t.cfg.runCopy = 3
       | some a, none => t.cfg.runCopy = 0 ∧ t.cfg.genRun = a.generation
       | none, some b => t.cfg.runCopy = 1 ∧ t.cfg.genRun = b.generation
       | some a, some b => t.cfg.genRun = max a.generation b.generation)) ∧
    (∀ u : State, u.fw.trial = true → u.ready = true → u.fw.trialEnd ≤ u.now → Completes .trialEnd u fun t =>
      t.fw = { u.fw with trial := false } ∧ SameBut [.fw] u t)

/-- The engines' watchdogs (R25): a restart of housekeeping or of the link engine is recorded with its number within
60 s and stops that engine until it is back, at most 1 ms later (the time is free, log entry 21); the rails regulate
on, but for the third housekeeping restart within 60 s, which powers the domains down. The memories' upkeep (R296,
R336 … R339): the window opens once every die sensor has been within its limits for 1 s, and writes the deferred
saves; refreshed and moved blocks and corrected errors are counted; an uncorrectable error in a pattern region clears
that rail's tables and counts; counters and charges are saved while the device runs. -/
def Obligations.WatchdogsAndMemories : Prop :=
  (∀ s : State, s.framesRun = true →
     (s.teleStale = false → Completes .housekeepingWatchdog s fun t =>
       (∃ e, t.dev.hkBack = some e ∧ s.now ≤ e ∧ e ≤ s.now + 2000) ∧ t.phases = s.phases ∧ t.ports = s.ports ∧
         ((s.noteRestart 2).restarts 2 < 3 → t.domains = s.domains ∧
           Logs s t Code.watchdog Ob.clsDev 2 ((s.noteRestart 2).restarts 2) []) ∧
         (3 ≤ (s.noteRestart 2).restarts 2 → t.deviceHold = true)) ∧
     (s.linkSilent = false → Completes .linkEngineWatchdog s fun t =>
       (∃ e, t.dev.linkBack = some e ∧ s.now ≤ e ∧ e ≤ s.now + 2000) ∧ t.ports = s.ports ∧ t.phases = s.phases ∧
         Logs s t Code.watchdog Ob.clsDev 3 ((s.noteRestart 3).restarts 3) [] ∧ t.domains = s.domains)) ∧
  (∀ s : State, Orderly s →
     (∀ g, s.nvm.goodSince = some g → s.powered = true → s.nvm.window = false → g + 2000000 ≤ s.now →
       Completes .windowOpen s fun t => t.nvm.window = true ∧ t.nvm.queue = [] ∧
         SameBut [.objs, .rails, .twin, .recd, .mb, .nvm] s t) ∧
     (∀ n m, s.ready = true → s.nvm.window = true → Completes (.nvmRefresh n m) s fun t =>
       t.obj Ob.clsDev 0 Ob.Dev.nvmRefreshes = satWord ((s.obj Ob.clsDev 0 Ob.Dev.nvmRefreshes).toNat + n) ∧
         t.obj Ob.clsDev 0 Ob.Dev.nvmRemaps = satWord ((s.obj Ob.clsDev 0 Ob.Dev.nvmRemaps).toNat + m) ∧
         ObjsBut [(Ob.clsDev, 0, Ob.Dev.nvmRefreshes), (Ob.clsDev, 0, Ob.Dev.nvmRemaps)] s t ∧ SameBut [.objs] s t) ∧
     (∀ (n : Nat) (r : RailIx), s.powered = true → Completes (.eccScrub n [r.val]) s fun t =>
       t.obj Ob.clsDev 0 Ob.Dev.eccCorr = satWord ((s.obj Ob.clsDev 0 Ob.Dev.eccCorr).toNat + n) ∧
         Counts s t Ob.clsDev 0 Ob.Dev.eccUncorr ∧ (t.rail r).ff.t0 = [] ∧ (t.rail r).ff.t1 = [] ∧ RailsBut r s t ∧
         SameBut [.objs, .rails] s t) ∧
     (s.ready = true → s.nvm.window = true → Completes .counterSave s fun t => t.nvm.counters = s.counterStore ∧
       SameBut [.nvm] s t) ∧
     (s.framesRun = true → s.nvm.window = true → Completes .qaccSave s fun t =>
       t.nvm.qacc = (List.finRange 48).map (fun n => (s.phase n).sense.qacc) ∧ SameBut [.nvm] s t))

/-- The pulse of a period (R61, R67): without a pulse or at least T_min wide, at least L_min off unless the duty is
0xFFFF, never wider than MAXDUTY allows, and without HEM no on-time is lost to a drop: what is not issued is carried,
up to T_min. -/
def Obligations.PulsesKeepTheirLimits : Prop :=
  ∀ (hem : Bool) (d p c tMin lMin tMax : Nat), 0 < tMin → tMin ≤ tMax → tMin + lMin ≤ p →
    let q := pulseOf hem d p c tMin lMin tMax
    (q.te = 0 ∨ tMin ≤ q.te) ∧ (d ≠ 65535 → q.te + lMin ≤ p) ∧ q.te ≤ max tMax tMin ∧ (d = 0 → q.te = 0 ∧ q.carry = 0) ∧
      (hem = false → d ≠ 0 → onTime d p + c < tMin → q.te = 0 ∧ q.carry = onTime d p + c ∧ q.drops = 1) ∧
      (tMin ≤ onTime d p + c → q.carry = 0)

/-- PERIOD_START (R33, R59, R71, R123): the settings and the force act from here, the schedule moves on by the
period's length, and a mid-period reload applies no force. A trip input that is asserted as the period begins (R75) is
not of this statement. A phase whose engine is halted has no period start (R80).
-/
def Obligations.PeriodStarts : Prop :=
  ∀ (s : State) (n : PhaseIx) (r : RailIx), Orderly s → s.phaseRail n = some r → s.framesRun = true →
    (s.phase n).gen.placed = true →
    ((s.phase n).gen.frozen = none → s.startDue n = true → (∀ c, s.refPhase c ≠ some n) → s.tripAsserted n = false →
      Completes (.periodStart n false) s fun t =>
        let g := (s.phase n).gen
        let h := (t.phase n).gen;
        h.set = s.genSettings n r ∧ h.forceOn = g.force ∧ h.forceOnDuty = g.forceDuty ∧ h.startTick = g.nextStart ∧
          h.nextStart = h.startTick + h.thisPeriod ∧ h.trLatched = false ∧ (h.switching = false → h.te = 0 ∧ h.carry = 0) ∧
          (g.issued = true ∧ g.trLatched = false → h.cleanRun = g.cleanRun + 1) ∧ PhasesBut n s t ∧ RailsBut r s t ∧
          SameBut [.objs, .phases, .rails] s t) ∧
    ((s.phase n).gen.frozen = none → (s.phase n).gen.midDue = true →
      (s.phase n).gen.startTick + (s.phase n).gen.thisPeriod / 2 < s.frameTick + 6400 →
      Completes (.periodStart n true) s fun t => (t.phase n).gen.midDue = false ∧
        (t.phase n).gen.forceOn = (s.phase n).gen.forceOn ∧ (t.phase n).gen.rise = (s.phase n).gen.rise ∧
        (t.phase n).gen.startTick = (s.phase n).gen.startTick ∧ PhasesBut n s t ∧ SameBut [.objs, .phases] s t) ∧
    ((s.phase n).gen.frozen ≠ none → ∀ mid, Completes (.periodStart n mid) s fun t => t = s)

/-- A rail that latches off (R74, R238): the latch stands, the rail is OFF, and all its phases are off unless they
stand in a crowbar; the crowbar turns every available phase to LS on (R220). -/
def Obligations.LatchingTurnsTheRailOff : Prop :=
  ∀ (s : State) (r : RailIx), Orderly s → s.latchedOff r = false →
    (∀ cause code cls inst sub data, cause ≠ Latch.none →
      let t := s.latchRail r cause code cls inst sub data;
      t.latchedOff r = true ∧ t.regulating r = false ∧ t.lawRuns r = false ∧ SameBut
        [.objs, .phases, .rails, .domains, .tune, .twin, .recd, .mb, .nvm, .dev] s t) ∧
    ((s.rail r).prot.crowbar = false → ∀ sub c, let t := s.crowbar r sub c;
      t.latchedOff r = true ∧ t.regulating r = false ∧ (t.rail r).prot.crowbar = true ∧
        (t.rail r).fuse.fstate = (s.rail r).fuse.fstate ∧
        ∀ n, s.phaseRail n = some r → s.available n = true → (t.phase n).gen.crowbarAt ≠ none ∧ (t.phase n).gen.switching = false)

/-- The trip count and its latch (R77, R78): TRIP_LEAK clean periods take 1 from the count, not below 0; at TRIP_N the
phase latches, without a pulse, with a TRIP_LATCH record, and the last active phase of a rail latches its rail off.
HSUNLOCK disarms itself after 1 s (R72). A calibration that spans one timebase cycle acts from the next reload point;
one that does not fails with a record (R40). -/
def Obligations.TripsUnlockAndCalibration : Prop :=
  (∀ (s : State) (n : PhaseIx),
     (s.phaseN n.val Ob.Phase.tripLeak ≤ (s.phase n).gen.cleanRun → Completes (.cleanRunLeak n) s fun t =>
       (t.phase n).gen = { (s.phase n).gen with tripCount := (s.phase n).gen.tripCount - 1, cleanRun := 0 } ∧
         (t.phase n).sense = (s.phase n).sense ∧ PhasesBut n s t ∧ SameBut [.phases] s t) ∧
     (∀ r, s.phaseRail n = some r → (s.phase n).gen.tripped = false → 0 < (s.phase n).gen.tripCount →
       s.phaseN n.val Ob.Phase.tripN ≤ (s.phase n).gen.tripCount → Completes (.tripLatch n) s fun t =>
         (t.phase n).gen.tripped = true ∧ (t.phase n).gen.switching = false ∧ (t.phase n).gen.te = 0 ∧
           (s.regulating r = false → Logs s t Code.tripLatch Ob.clsPhase n.val 0 [BitVec.ofNat 8 r.val] ∧ PhasesBut n s t ∧
             (Orderly s → Counts s t Ob.clsPhase n.val Ob.Phase.tripLatches)) ∧
           (Orderly s → s.activeOf r = [n] → (s.rail r).plc.skim = none → s.latchedOff r = false →
             t.latchedOff r = true ∧ t.regulating r = false))) ∧
  (∀ (s : State) (n : PhaseIx),
     (∀ u, (s.phase n).gen.hsUnlock = some u → Completes (.hsunlockExpiry n) s fun t =>
       (t.phase n).gen = { (s.phase n).gen with hsUnlock := if u + 2000000 ≤ s.now then none else some u } ∧
         (t.phase n).sense = (s.phase n).sense ∧ PhasesBut n s t ∧ SameBut [.phases] s t) ∧
     (∀ tap, s.framesRun = true → s.teleStale = false → (s.phaseRail n).isSome = true →
       (Completes (.dlcal n true tap) s fun t => t.clk = { s.clk with dlLast := n.val, dlTap := tap } ∧
         (t.phase n).gen = { (s.phase n).gen with dlNew := some true, dlFail := false } ∧ PhasesBut n s t ∧
         SameBut [.clk, .phases] s t) ∧
       (Completes (.dlcal n false tap) s fun t => t.clk = { s.clk with dlLast := n.val } ∧
         (t.phase n).gen = { (s.phase n).gen with dlFail := true } ∧ PhasesBut n s t ∧
         Logs s t Code.dlcalFail Ob.clsPhase n.val 0 [] ∧ SameBut [.objs, .clk, .phases, .rails, .twin, .recd, .nvm] s t)))

/-- Skims begin (R90, R91, R93): on a rail whose conditions hold, one of its active phases is taken for an active skim
and a shed one for a passive skim, whose measurement starts once the sense has decayed for 4 frames. A skim that ran
its length ends (R91): with at least 16 samples whose mean lies within 3 % of the full sense span of the old ZERO,
ZERO becomes the mean and SKIMS counts; further off, SKIM_REJECTS counts and ZERO stands; with fewer samples nothing
is taken. -/
def Obligations.SkimsLearnZero : Prop :=
  (∀ (s : State) (r : RailIx),
     (s.skimReady r = true → (s.rail r).lt.running = false → s.teleStale = false → Completes (.skimStart r) s fun t =>
       ∃ n ∈ s.activeOf r, t.rail r = { s.rail r with plc := { (s.rail r).plc with skim := some ⟨n, none, 0, false, 0, 0⟩ } } ∧
         RailsBut r s t ∧ SameBut [.rails] s t) ∧
     (bit (s.obj Ob.clsRail r.val Ob.Rail.plcCtrl) 5 = true → bit (s.obj Ob.clsRail r.val Ob.Rail.plcCtrl) 2 = true →
       (s.rail r).plc.passive = none → s.lawRuns r = true → s.teleStale = false → s.passiveReady r ≠ [] →
       Completes (.passiveSkimStart r) s fun t =>
         ∃ n ∈ s.passiveReady r, t.rail r = { s.rail r with plc := { (s.rail r).plc with
             passive := some ⟨n, some s.now, 0, false, 0, 0⟩ } } ∧ (s.phase n).sense.shed = true ∧
           RailsBut r s t ∧ SameBut [.rails] s t) ∧
     (∀ n k, s.phaseRail n = some r → (s.rail r).plc.skim = some k → (s.rail r).plc.passive = none → k.phase = n → 4 ≤ k.decayRun →
       Completes (.skimMeasureStart n) s fun t =>
         t.rail r = { s.rail r with plc := { (s.rail r).plc with skim := some { k with measuring := true } } } ∧
           RailsBut r s t ∧ SameBut [.rails] s t)) ∧
  (∀ (s : State) (r : RailIx) (n : PhaseIx) (k : Skim), Orderly s → s.phaseRail n = some r →
     (s.rail r).plc.skim = some k → (s.rail r).plc.passive = none → k.phase = n → s.skimOver r k = true →
     Completes (.skimEnd n) s fun t =>
       let mean := k.sum / (k.count : Rat)
       let zero := (s.phase n).sense.zero;
       (t.rail r).plc.skim = none ∧ (t.rail r).plc.lastPhase = n.val ∧ (t.phase n).sense.lastSkim = some s.now ∧
         PhasesBut n s t ∧ SameBut [.objs, .phases, .rails, .twin, .recd, .nvm] s t ∧
         if k.count < 16 then (t.phase n).sense.zero = zero ∧ (t.rail r).plc.lastOut = .tooShort ∧ t.objs = s.objs
         else if s.senseFull n * 3 / 100 < absQ (mean - zero) then (t.phase n).sense.zero = zero ∧
           (t.rail r).plc.lastOut = .rejected ∧ Counts s t Ob.clsPhase n.val Ob.Phase.skimRejects
         else (t.phase n).sense.zero = mean ∧ (t.rail r).plc.lastOut = .done ∧ Counts s t Ob.clsPhase n.val Ob.Phase.skims)

/-- Gain calibration (R95): a counting window moves each GAIN_CORR by at most 0.1 %, within ±5 %; the fit itself is
free (log entry 14). The window begins afresh. Without GCAL_EN, or on a CPV4816S, nothing happens. Lagging phases
(R98): 2000 frames at the trim limit set LAGGING with the sign of the limit, count and record it; 2000 frames off it
clear it. -/
def Obligations.GainsAndLagging : Prop :=
  (∀ (s : State) (r : RailIx),
     (bit (s.obj Ob.clsRail r.val Ob.Rail.plcCtrl) 3 = false ∨ s.dev.part = .s → Completes (.gcalWindowEnd r) s fun t => t = s) ∧
     (bit (s.obj Ob.clsRail r.val Ob.Rail.plcCtrl) 3 = true → s.dev.part = .m →
       (s.rail r).plc.gcalStart + 2000 * s.railN r.val Ob.Rail.skimPeriodMs ≤ s.now → Completes (.gcalWindowEnd r) s fun t =>
         (t.rail r).plc.gcalStart = s.now ∧ (t.rail r).plc.gcalCount = 0 ∧ (t.rail r).plc.gcalSum = 0 ∧
           ∀ n, let x := (s.phase n).sense.gainCorr
             let y := (t.phase n).sense.gainCorr;
             -1 / 20 ≤ x → x ≤ 1 / 20 → -1 / 20 ≤ y ∧ y ≤ 1 / 20 ∧ x - 1 / 1000 ≤ y ∧ y ≤ x + 1 / 1000)) ∧
  (∀ (s : State) (n : PhaseIx),
     ((s.phase n).sense.lagging = false → 2000 ≤ (s.phase n).sense.limitRun → Completes (.phaseLagging n) s fun t =>
       (t.phase n).sense = { (s.phase n).sense with lagging := true, lagNeg := decide ((s.phase n).sense.trim < 0) } ∧
         (t.phase n).gen = (s.phase n).gen ∧ PhasesBut n s t ∧ (Orderly s → Counts s t Ob.clsPhase n.val Ob.Phase.lagging) ∧
         Logs s t Code.phaseLagging Ob.clsPhase n.val (flag (decide ((s.phase n).sense.trim < 0)) 0) [] ∧
         SameBut [.objs, .phases, .rails, .twin, .recd, .nvm] s t) ∧
     ((s.phase n).sense.lagging = true → 2000 ≤ (s.phase n).sense.offRun → Completes (.laggingClear n) s fun t =>
       (t.phase n).sense = { (s.phase n).sense with lagging := false } ∧ (t.phase n).gen = (s.phase n).gen ∧
         PhasesBut n s t ∧ SameBut [.phases] s t))

/-- A rail's own events: OVR_LIMIT overruns in a row latch the rail off (R36); a SLAM regime that has lasted SLAM_MAX
frames ends in LINEAR, disarmed, with a count and a record that names the regime (R108); a command is done once the
profile rests at its target with the error in the inner band for SETTLE frames, and its WAIT request is answered
(R130, R131); the soft start ends at the target (R132); an ended fade goes (R136); a stroke open for 1.25 times its
time is a mismatch (R138); a position older than 10 ms is stale (R142). -/
def Obligations.RailEvents : Prop :=
  ∀ (s : State) (r : RailIx), Orderly s →
    (s.framesRun = true → s.regulating r = true → s.latchedOff r = false → 0 < (s.rail r).meas.ovrCount →
      s.clkN Ob.Clk.ovrLimit ≤ (s.rail r).meas.ovrCount → Completes (.overrun r) s fun t =>
        t.latchedOff r = true ∧ t.regulating r = false ∧
          SameBut [.objs, .phases, .rails, .domains, .tune, .twin, .recd, .mb, .nvm, .dev] s t) ∧
    ((s.rail r).law.regime ≠ .linear → s.railN r.val Ob.Rail.slamMax ≤ (s.rail r).law.slamFrames → s.lawRuns r = true →
      Completes (.slamTimeout r) s fun t => (t.rail r).law.regime = .linear ∧ (t.rail r).law.armed = false ∧
        Counts s t Ob.clsRail r.val Ob.Rail.slamTimeouts ∧
        Logs s t Code.slamTimeout Ob.clsRail r.val (s.rail r).law.regime.code [] ∧ RailsBut r s t ∧
        SameBut [.objs, .phases, .rails, .twin, .recd, .nvm] s t) ∧
    (s.lawRuns r = true → (s.rail r).prof.done = false → s.atTarget r = true →
      s.railN r.val Ob.Rail.settle ≤ (s.rail r).prof.inBand → Completes (.commandDone r) s fun t =>
        (t.rail r).prof = { (s.rail r).prof with done := true, waiter := none } ∧ RailsBut r s t ∧ SameBut [.rails, .mb] s t ∧
          ((s.rail r).prof.waiter = none → t.mb = s.mb) ∧
          ∀ k b c, (s.rail r).prof.waiter = some (k, 0) →
            s.mb.gathers.find? (fun g => g.slot == k) = some { slot := k, codes := [c], pairs := b } →
            Answers t k St.ok (State.memberPayload b [(St.ok, (s.rail r).prof.reqMv != (s.rail r).prof.tgtMv)])) ∧
    ((s.rail r).prof.softStart = true → s.atTarget r = true → s.lawRuns r = true → Completes (.softstartEnd r) s fun t =>
      t.rail r = { s.rail r with prof := { (s.rail r).prof with softStart := false } } ∧ RailsBut r s t ∧
        SameBut [.rails] s t) ∧
    (∀ d, (s.rail r).ff.fade = some (d, 0) → Completes (.ffFadeEnd r) s fun t =>
      t.rail r = { s.rail r with ff := { (s.rail r).ff with fade := none } } ∧ RailsBut r s t ∧ SameBut [.rails] s t) ∧
    (∀ k, (s.rail r).ff.stroke = some k → 5 * msFrames k.expected ≤ 4 * (s.now - k.startAt) →
      Completes (.strokeTimeout r) s fun t =>
        (t.rail r).ff.stroke = none ∧ (t.rail r).ff.mismatch = true ∧ (t.rail r).ff.applied = false ∧
          ((s.rail r).ff.applied = true → (t.rail r).ff.fade = some ((s.rail r).ff.dFF, 64)) ∧
          (t.rail r).ff.t0 = (s.rail r).ff.t0 ∧ (t.rail r).ff.t1 = (s.rail r).ff.t1 ∧ RailsBut r s t ∧ SameBut [.rails] s t) ∧
    ((s.rail r).ff.mode = 3 → (s.rail r).ff.pos ≠ none → (s.rail r).ff.stale = false →
      elapsed s.now (s.rail r).ff.posAt (msFrames 10) = true → Completes (.posStale r) s fun t =>
        t.rail r = { s.rail r with ff := { (s.rail r).ff with stale := true } } ∧ RailsBut r s t ∧ SameBut [.rails] s t)

/-- A tuning session (R147 … R153): recording begins SETTLE_FR frames after a session or a step starts; a step whose
records are full keeps its result and the next begins; the last one ends the session as DONE, a sine running on to its
zero crossing; AUTOTUNE's design (free, log entry 13) writes the shadow coefficients and answers OK, or RANGE where a
bound of R152 fails, and then writes nothing. Live tuning (R154 … R157): a window of 20000 frames gives its result
(free, log entry 13); one below the quality limit or with a gain outside 1/4 … 4 is rejected and counted; one within 1
% changes nothing; another moves k_lt by at most 10 %, within LT_KMIN … LT_KMAX, and counts. After a pause it resumes
once nothing has held for 2000 frames, with a window of its own. -/
def Obligations.TuningRunsToItsEnd : Prop :=
  (∀ s : State, Orderly s →
     (s.tune.tstate = .running → s.tune.recording = false → elapsed s.now s.tune.stepAt (s.tuneN Ob.Tune.settleFr) = true →
       Completes .tuneSettleEnd s fun t => t.tune.recording = true ∧ t.tune.recA = [] ∧ t.tune.recB = [] ∧
         t.tune.results = s.tune.results ∧ t.tune.step = s.tune.step ∧ SameBut [.tune] s t) ∧
     (s.tune.tstate = .running → s.tune.recording = true → 4096 ≤ s.tune.recA.length → s.lastStep = false →
       Completes .sweepStepEnd s fun t => t.tune.tstate = .running ∧ t.tune.step = s.tune.step + 1 ∧
         t.tune.recording = false ∧ t.tune.stepAt = s.now ∧
         t.tune.results = s.tune.results ++ [s.resultAt (s.tuneFreq s.tune.step)] ∧ SameBut [.tune] s t) ∧
     (s.tune.tstate = .running → s.tune.recording = true → 4096 ≤ s.tune.recA.length → s.lastStep = true →
       Completes .tuneDone s fun t => t.tune.tstate = .done ∧ t.tune.recording = false ∧ t.tune.results = s.finalResults ∧
         (s.tuneSignal < 2 → t.tune.endSine = true ∧ t.tune.inject = s.tune.inject) ∧
         (2 ≤ s.tuneSignal → t.tune.endSine = false ∧ t.tune.inject = 0) ∧ SameBut [.tune] s t) ∧
     (∀ k, s.tune.tstate = .done → s.tune.auto = true → s.tune.slot = some k → s.tune.rail < 16 →
       Completes .autotuneDesignEnd s fun t => t.tune = { s.tune with slot := none } ∧ MbButSlot k s t ∧
         SameBut [.objs, .tune, .mb] s t ∧
         let q := Config.autotuneDesign (s.tune.results.map (·.mag)) (s.tune.results.map (·.arg)) (s.tuneN Ob.Tune.atFcHz)
           (s.tuneN Ob.Tune.atPm);
         (0 ≤ q.1 ∧ q.1 ≤ 14000 ∧ q.2.1 ≤ 400000 →
           t.obj Ob.clsRail s.tune.rail Ob.Rail.b0 = q.2.2.1.1 ∧ t.obj Ob.clsRail s.tune.rail Ob.Rail.b1 = q.2.2.1.2.1 ∧
           t.obj Ob.clsRail s.tune.rail Ob.Rail.b2 = q.2.2.1.2.2.1 ∧ t.obj Ob.clsRail s.tune.rail Ob.Rail.a1 = q.2.2.1.2.2.2.1 ∧
           t.obj Ob.clsRail s.tune.rail Ob.Rail.a2 = q.2.2.1.2.2.2.2 ∧ (t.slot k).reply.map (·.status) = some St.ok) ∧
         (¬(0 ≤ q.1 ∧ q.1 ≤ 14000 ∧ q.2.1 ≤ 400000) → t.objs = s.objs ∧ Answers t k St.range []))) ∧
  (∀ (s : State) (r : RailIx), Orderly s →
     ((s.rail r).lt.running = true → (s.rail r).lt.ending = false → 20000 ≤ (s.rail r).lt.windowFrames →
       Completes (.ltWindowEnd r) s fun t => (t.rail r).lt.window = [] ∧ (t.rail r).lt.windowFrames = 0 ∧
         (t.rail r).lt.running = true ∧ RailsBut r s t ∧ SameBut [.objs, .rails] s t ∧
         let q := Config.liveTransform ((s.rail r).lt.window.map (·.1)) ((s.rail r).lt.window.map (·.2))
           (s.railN r.val Ob.Rail.ltFreqHz)
         let k := (s.rail r).lt.kLt;
         (q.2.2 < s.railN r.val Ob.Rail.ltQmin ∨ q.1 < 1 / 4 ∨ 4 < q.1 →
           (t.rail r).lt.kLt = k ∧ Counts s t Ob.clsRail r.val Ob.Rail.ltRejects) ∧
         (s.railN r.val Ob.Rail.ltQmin ≤ q.2.2 → 1 / 4 ≤ q.1 → q.1 ≤ 4 → absQ (1 / q.1 - 1) < 1 / 100 →
           (t.rail r).lt.kLt = k ∧ t.objs = s.objs) ∧
         (s.railN r.val Ob.Rail.ltQmin ≤ q.2.2 → 1 / 4 ≤ q.1 → q.1 ≤ 4 → 1 / 100 ≤ absQ (1 / q.1 - 1) →
           (t.rail r).lt.kLt = clampQ (k * clampQ (1 / q.1) (9 / 10) (11 / 10))
             (s.railQ r.val Ob.Rail.ltKmin / 16384) (s.railQ r.val Ob.Rail.ltKmax / 16384) ∧
           Counts s t Ob.clsRail r.val Ob.Rail.ltUpdates)) ∧
     (s.ltEn r = true → (s.rail r).lt.paused = true → (s.rail r).lt.running = false → 2000 ≤ (s.rail r).lt.clearRun →
       Completes (.ltResume r) s fun t => (t.rail r).lt.running = true ∧ (t.rail r).lt.paused = false ∧
         (t.rail r).lt.window = [] ∧ (t.rail r).lt.kLt = (s.rail r).lt.kLt ∧ (t.rail r).plc.skim = none ∧ RailsBut r s t ∧
         SameBut [.objs, .rails] s t))

/-- Frames of a load (R138, R142, R166 … R169, R179, R184): a valid frame of any kind counts, ends the silence and
gives the SEQ that the next is held to, a jump counting as a gap; a HELLO sets the version with a record; a PING is
answered, a STATUS kept; a position reaches the port and its rails, a stroke start its rail; a STROKE with bad fields is
discarded and counted. A port that is DISABLED
takes nothing. Characters without a SYNC change nothing; a frame with a wrong CRC, or one that the line leaves
incomplete, counts and does nothing else. -/
def Obligations.LoadFramesAreTaken : Prop :=
  ∀ (s : State) (p : PortIx), Orderly s →
    (s.portOn p = false → ∀ h v q x a b c d l n, let same := fun t => t = s;
      Completes (.wairelHello p h) s same ∧ Completes (.vreq p v) s same ∧ Completes (.pos p q x) s same ∧
        Completes (.stroke p a) s same ∧ Completes (.loadStatus p b) s same ∧ Completes (.ping p c d n) s same ∧
        Completes (.linkFrameDiscarded p l) s same ∧ Completes (.frameGapTimeout p l) s same) ∧
    (s.portOn p = true →
      let gap (seq : Nat) (t : State) : Prop :=
        Counts s t Ob.clsPort p.val Ob.Port.rxFrames ∧ (t.port p).lastValid = s.now ∧ PortsBut p s t ∧
          (s.portUp p = true → ∀ q, (s.port p).rxSeq = some q →
            if (q + 1) % 16 = seq % 16 then
              t.obj Ob.clsPort p.val Ob.Port.seqGaps = s.obj Ob.clsPort p.val Ob.Port.seqGaps
            else Counts s t Ob.clsPort p.val Ob.Port.seqGaps)
      (∀ m : HelloMsg, Completes (.wairelHello p m) s fun t => gap m.seq t ∧ (t.port p).peerId = m.senderId ∧
        (t.port p).peerMaj = m.major ∧ SameBut [.objs, .rails, .ports, .twin, .recd, .nvm] s t ∧
        (s.portUp p = true → (t.port p).standing = none ∧ (t.port p).pending = none) ∧
        (m.major ≠ 0 → (t.port p).rxSeq = none ∧ (t.port p).wlmax = bits (s.portCtrl p) 2 1 ∧
          (t.port p).pstate = (if 2 ≤ min m.major (bits (s.portCtrl p) 2 1) then .wl2 else .wl1) ∧
          Logs s t Code.portVersion Ob.clsPort p.val (min (min m.major (bits (s.portCtrl p) 2 1)) 2)
            (leBytes 1 0 ++ leBytes 2 m.senderId))) ∧
      (∀ seq reply cookie, Completes (.ping p seq reply cookie) s fun t => gap seq t ∧ SameBut [.objs, .ports] s t ∧
        (t.port p).pstate = (s.port p).pstate ∧
        (t.port p).queue = (if (s.port p).pstate = .wl2 ∧ reply = false
          then (enqueueIn (s.port p).queue (.ping true (cookie % 256))).1 else (s.port p).queue)) ∧
      (∀ m : StatusMsg, Completes (.loadStatus p m) s fun t => gap m.seq t ∧ SameBut [.objs, .ports] s t ∧
        (t.port p).loadStat = if (s.port p).pstate = .wl2 then m.data.take 8 else (s.port p).loadStat) ∧
      (∀ seq x, Completes (.pos p seq x) s fun t => gap seq t ∧ (t.port p).pos = x % 65536 ∧
        (t.port p).posAt = some s.now ∧ (t.port p).pstate = (if s.portUp p then (s.port p).pstate else .wl1) ∧
        SameBut [.objs, .rails, .ports, .twin, .recd, .nvm] s t ∧
        ∀ r ∈ s.ffRails p, (t.rail r).ff.pos = some (x % 65536) ∧ (t.rail r).ff.posAt = s.now ∧ (t.rail r).ff.stale = false) ∧
      (∀ m : StrokeMsg, 1 < m.kind ∨ (m.kind = 0 ∧ m.expectedMs = 0) → Completes (.stroke p m) s fun t =>
        Counts s t Ob.clsPort p.val Ob.Port.formatErrors ∧ ObjsBut [(Ob.clsPort, p.val, Ob.Port.formatErrors)] s t ∧
          SameBut [.objs] s t) ∧
      (∀ m : StrokeMsg, m.kind ≤ 1 → (m.kind = 0 → m.expectedMs ≠ 0) → Completes (.stroke p m) s fun t =>
        gap m.seq t ∧ SameBut [.objs, .rails, .ports] s t ∧ ((s.port p).pstate ≠ .wl2 → t.rails = s.rails) ∧
        ((s.port p).pstate = .wl2 → m.kind = 0 → m.expectedMs ≠ 0 → m.id ≠ 255 → ∀ r ∈ s.ffRails p, (s.rail r).ff.mode = 2 →
          s.regulating r = true → m.id = bits (s.obj Ob.clsRail r.val Ob.Rail.patId) 7 0 →
            (t.rail r).ff.stroke = some ⟨m.id, 0, s.now, m.expectedMs⟩)) ∧
      (∀ cs : List RxChar, (∀ c ∈ cs, c.framing = true ∨ c.byte ≠ 0xA5) →
        Completes (.linkFrameDiscarded p cs) s (fun t => t = s) ∧ Completes (.frameGapTimeout p cs) s (fun t => t = s) ∧
        ∀ c : RxChar, c.framing = false → c.byte = 0xA5 →
          (State.rxAfterSync cs = .crc → Completes (.linkFrameDiscarded p (c :: cs)) s fun t =>
            Counts s t Ob.clsPort p.val Ob.Port.crcErrors ∧ ObjsBut [(Ob.clsPort, p.val, Ob.Port.crcErrors)] s t ∧
              SameBut [.objs] s t) ∧
          (State.rxAfterSync cs = .incomplete → Completes (.frameGapTimeout p (c :: cs)) s fun t =>
            Counts s t Ob.clsPort p.val Ob.Port.formatErrors ∧ ObjsBut [(Ob.clsPort, p.val, Ob.Port.formatErrors)] s t ∧
              SameBut [.objs] s t)))

/-- VREQ and its final acknowledgement on a WL2 port (R171 … R175): a duplicate changes no request; under HOST,
without a permission or without a rail the request is refused with its reason and does not stand; on a rail that is
OFF it stands and is answered RAIL_OFF; otherwise it stands, counts, supersedes the one pending, and is acknowledged
with CLAMPED where the target was clamped. The final acknowledgement ends the pending request. -/
def Obligations.VoltageRequests : Prop :=
  ∀ (s : State) (p : PortIx) (m : VreqMsg), Orderly s → s.portOn p = true → (s.port p).pstate = .wl2 →
    ((s.port p).queue.filter State.isAck).length ≤ 4 →
    let q : Standing := ⟨m.mv, m.slew % 4, m.tag % 256⟩
    let queued (t : State) (a : TxMsg) : Prop := (t.port p).queue = (enqueueIn (s.port p).queue a).1
    let kept (t : State) : Prop := (t.port p).standing = (s.port p).standing ∧ (t.port p).pending = (s.port p).pending ∧
      PortsBut p s t ∧ SameBut [.objs, .ports] s t;
    (s.portRail p = none → Completes (.vreq p m) s fun t => queued t (.vnak q.tag Nak.unmapped) ∧ kept t) ∧
    ∀ r, s.portRail p = some r →
      ((s.port p).standing = some q → m.withdraw = false → Completes (.vreq p m) s kept) ∧
      (¬((s.port p).standing = some q ∧ m.withdraw = false) →
        let source := bit (s.obj Ob.clsRail r.val Ob.Rail.profCtrl) 0
        let clamped := !m.withdraw && s.clampTarget r m.mv != m.mv
        let taken (t : State) : Prop := (t.port p).standing = (if m.withdraw then none else some q) ∧
          (t.port p).takeAt = some (s.now + 2) ∧ PortsBut p s t ∧ SameBut [.objs, .ports] s t;
        (source = false → Completes (.vreq p m) s fun t => queued t (.vnak q.tag Nak.sourceHost) ∧ kept t) ∧
        (source = true → s.permitted r p = false → Completes (.vreq p m) s fun t =>
          queued t (.vnak q.tag Nak.notAuthority) ∧ kept t) ∧
        (source = true → s.permitted r p = true → s.regulating r = false → Completes (.vreq p m) s fun t =>
          queued t (.vnak q.tag Nak.railOff) ∧ taken t) ∧
        (source = true → s.permitted r p = true → s.regulating r = true → Completes (.vreq p m) s fun t =>
          taken t ∧ (t.port p).pending = some ⟨q.tag, m.withdraw, clamped, 0⟩ ∧ Counts s t Ob.clsRail r.val Ob.Rail.vreqs ∧
            (∃ f v, (t.port p).lastAck = some (.vackStart q.tag clamped false f v)) ∧
            ((s.port p).pending ≠ none → Counts s t Ob.clsRail r.val Ob.Rail.supersedes))) ∧
      (∀ k, (s.port p).pending = some k →
        (k.withdraw = true ∧ (s.port p).takeAt = none ∨ k.withdraw = false ∧ s.portInForce p = true ∧
          (s.rail r).prof.port = p.val ∧ (s.rail r).prof.tag = k.tag ∧ (s.rail r).prof.done = true) →
        Completes (.vackDone p) s fun t => (t.port p).pending = none ∧
          queued t (.vackDone k.tag k.clamped false (State.mv16 ((s.rail r).meas.v * 1000))) ∧
          (t.port p).standing = (s.port p).standing ∧ PortsBut p s t ∧ SameBut [.objs, .ports] s t)

/-- What a port sends and when (R164, R169, R180 … R184): the first queued frame of R182 goes to the line with the
next SEQ and counts, if the device drives its ports and the frame ends before a handover; HELLO, PING, STATUS and WARN
are queued when their times have passed; a silent port is LOST, its request withdrawn, with a count, a record and
ISTAT.PORT. -/
def Obligations.PortsSendAndTimeOut : Prop :=
  ∀ (s : State) (p : PortIx), Orderly s →
    (∀ m, nextTx (s.port p).queue = some m → s.portOn p = true → s.twin.driving = true → s.tooLate m = false →
      Completes (.linkFrameTransmit p) s fun t => (t.port p).queue = (s.port p).queue.erase m ∧
        (t.port p).line = lineFrame m.payload.1 (s.port p).txSeq m.payload.2 ∧
        (t.port p).txSeq = ((s.port p).txSeq + 1) % 16 ∧ Counts s t Ob.clsPort p.val Ob.Port.txFrames ∧
        (t.port p).standing = (s.port p).standing ∧ (t.port p).pending = (s.port p).pending ∧ PortsBut p s t ∧
        SameBut [.objs, .ports] s t) ∧
    ((s.port p).queue = [] ∨ s.portOn p = false ∨ s.twin.driving = false →
      Completes (.linkFrameTransmit p) s fun t => t = s) ∧
    (s.linkSilent = false →
      let sends (c : Instr) (m : TxMsg) (last : PortState → Nat) : Prop := Completes c s fun t =>
        (t.port p).queue = (enqueueIn (s.port p).queue m).1 ∧ last (t.port p) = s.now ∧
          (t.port p).standing = (s.port p).standing ∧ (t.port p).pstate = (s.port p).pstate ∧ PortsBut p s t ∧
          SameBut [.objs, .ports] s t
      let ms := s.portN p.val Ob.Port.timeoutMs;
      ((s.port p).pstate = .negotiating ∨ (s.port p).pstate = .lost → (s.port p).wlmax = 2 →
        elapsed s.now (s.port p).lastHello (msFrames 10) = true →
        sends (.helloRetry p) (.hello 2 0 false) (·.lastHello)) ∧
      ((s.port p).pstate = .wl2 → 0 < ms → elapsed s.now (s.port p).lastValid (500 * ms) = true →
        elapsed s.now (s.port p).lastPing (500 * ms) = true → sends (.pingTimer p) (.ping false 0) (·.lastPing)) ∧
      ((s.port p).pstate = .wl2 → 0 < s.portN p.val Ob.Port.statusMs →
        elapsed s.now (s.port p).lastStatus (msFrames (s.portN p.val Ob.Port.statusMs)) = true →
        sends (.statusTimer p) (s.statusMsg p) (·.lastStatus)) ∧
      ((s.port p).pstate = .wl2 → s.feeds.ewarn = true →
        elapsed s.now (s.port p).lastWarn (msFrames (s.portN p.val Ob.Port.warnRepeatMs)) = true →
        sends (.warnRepeat p) s.warnMsg (·.lastWarn)) ∧
      (s.portUp p = true → 0 < ms → elapsed s.now (s.port p).lastValid (msFrames ms) = true →
        Completes (.portLost p) s fun t => (t.port p).pstate = .lost ∧ (t.port p).standing = none ∧
          (t.port p).pending = none ∧ Counts s t Ob.clsPort p.val Ob.Port.lost ∧
          Logs s t Code.portLost Ob.clsPort p.val 0 [] ∧ bit t.mb.istat Irq.port.val = true ∧ PortsBut p s t ∧
          SameBut [.objs, .rails, .ports, .twin, .recd, .mb, .nvm] s t))

/-- The changeover (R191 … R193, R196): BRK, DEAD and MAKE follow each other when their times and confirmations hold;
a gate that does not follow is a fault, counted and recorded, and leaves NONE; a return goes back to A once A has been
GOOD for RETURN_DELAY_MS; a make that is confirmed is ON with a count and a record; the early warning ends EW_HOLD_MS
after its last cause, with a record and an interrupt. -/
def Obligations.FeedsChangeOver : Prop :=
  ∀ s : State, Orderly s →
    let sel (f : FeedState) (x : SelState) : FeedState := { f with sel := x, selAt := s.now, confirmRun := 0 };
    (∀ g, (s.feed .a).goodSince = some g → s.feeds.sel = .onB → s.twin.driving = true → s.selClass .a = .good →
      elapsed s.now (max g s.feeds.selAt) (msFrames (s.feedN 2 Ob.Feed.returnDelayMs)) = true →
      Completes .feedReturn s fun t =>
        t.feeds = { sel s.feeds .brk with fromFeed := some .b, target := some .a, isReturn := true } ∧
          Counts s t Ob.clsFeed 2 Ob.Feed.returns ∧ ObjsBut [(Ob.clsFeed, 2, Ob.Feed.returns)] s t ∧
          SameBut [.objs, .feeds] s t) ∧
    (s.feeds.sel = .brk → 2 ≤ s.feeds.confirmRun → Completes .breakConfirm s fun t =>
      t.feeds = sel s.feeds .dead ∧ SameBut [.feeds] s t) ∧
    (s.feeds.sel = .brk → s.feeds.confirmRun < 2 →
      elapsed s.now s.feeds.selAt (usFrames (s.feedN 2 Ob.Feed.confirmUs)) = true → Completes .breakFail s fun t =>
        let x := s.feedFrom;
        t.feeds = sel s.feeds .none ∧ bit (t.obj Ob.clsFeed (feedInst x) Ob.Feed.faults) 0 = true ∧
          Counts s t Ob.clsFeed (feedInst x) Ob.Feed.gateFaults ∧ Counts s t Ob.clsFeed 2 Ob.Feed.noneEpisodes ∧
          Logs s t Code.breakFail Ob.clsFeed (feedInst x) 0 (leBytes 4 (s.feed x).vin) ∧
          SameBut [.objs, .rails, .feeds, .twin, .recd, .mb, .nvm] s t) ∧
    (s.feeds.sel = .dead → elapsed s.now s.feeds.selAt (usFrames (s.feedN 2 Ob.Feed.deadUs)) = true →
      (∀ y, s.feeds.target = some y → s.selFault y = false → Completes .deadEnd s fun t =>
        t.feeds = { sel s.feeds .make with target := some y, slow := false } ∧ SameBut [.feeds] s t) ∧
      ((∀ y, s.feeds.target = some y → s.selFault y = true) →
        (s.selFault s.feedFrom = false → Completes .deadEnd s fun t =>
          t.feeds = { sel s.feeds .make with target := some s.feedFrom, slow := false } ∧ SameBut [.feeds] s t) ∧
        (s.selFault s.feedFrom = true → Completes .deadEnd s fun t => t.feeds = sel s.feeds .none ∧
          Counts s t Ob.clsFeed 2 Ob.Feed.noneEpisodes ∧ SameBut [.objs, .feeds] s t))) ∧
    (s.feeds.sel = .make →
      (8000 ≤ (s.feed s.feedTo).gate → s.feeds.slow = false ∨ s.vinQ s.feedTo ≤ s.vbusQ + 1000 →
        Completes .feedOn s fun t => t.feeds = sel s.feeds (if s.feedTo = .a then .onA else .onB) ∧
          Counts s t Ob.clsFeed (feedInst s.feedTo) Ob.Feed.turnOns ∧
          Logs s t Code.feedOn Ob.clsFeed (feedInst s.feedTo)
            (if s.feeds.fromFeed = none then 0 else if s.feeds.isReturn then 2 else 1) (leBytes 4 (s.feed s.feedTo).vin) ∧
          SameBut [.objs, .rails, .feeds, .twin, .recd, .nvm] s t) ∧
      (elapsed s.now s.feeds.selAt (if s.feeds.slow then msFrames 100 else usFrames 20) = true →
        Completes .makeFail s fun t => t.feeds = sel s.feeds .none ∧
          bit (t.obj Ob.clsFeed (feedInst s.feedTo) Ob.Feed.faults) 1 = true ∧
          Counts s t Ob.clsFeed (feedInst s.feedTo) Ob.Feed.gateFaults ∧ Counts s t Ob.clsFeed 2 Ob.Feed.noneEpisodes ∧
          Logs s t Code.makeFail Ob.clsFeed (feedInst s.feedTo) 0 (leBytes 4 (s.feed s.feedTo).vin) ∧
          SameBut [.objs, .rails, .feeds, .twin, .recd, .mb, .nvm] s t)) ∧
    (s.feeds.ewarn = true → s.warnCause = false →
      elapsed s.now s.feeds.causeGone (msFrames (s.feedN 2 Ob.Feed.ewHoldMs)) = true → Completes .ewarnClear s fun t =>
        t.feeds = { s.feeds with ewarn := false } ∧ bit t.mb.istat Irq.ewarn.val = true ∧
          Logs s t Code.ewarn Ob.clsFeed 2 1
            (leBytes 1 0 ++ leBytes 1 s.feeds.episode ++ leBytes 2 s.feeds.holdup) ∧
          SameBut [.objs, .rails, .ports, .feeds, .twin, .recd, .mb, .nvm] s t)

/-- The output fuse (R198, R201 … R203): a ramp ends in ON or, after INS_TMO_MS, in a trip; a trip is retried after
FUSE_RETRY_MS while the rail regulates, and latches after FUSE_RETRIES; a shorted pass element latches the rail off;
PS_ARM_MS after the gate was commanded off its detection is armed; a load that comes or goes behind a tripped fuse is
recorded. -/
def Obligations.FusesRampTripAndRetry : Prop :=
  ∀ (s : State) (r : RailIx), Orderly s →
    let f := (s.rail r).fuse;
    (f.fstate = .ramp → (s.rail r).meas.v * 1000 - s.railQ r.val Ob.Rail.insDropMv ≤ (f.voutMv : Rat) →
      Completes (.fuseRampDone r) s fun t =>
        t.rail r = { s.rail r with fuse := { f with fstate := .on, limiting := false } } ∧ RailsBut r s t ∧
          SameBut [.rails] s t) ∧
    (f.fstate = .ramp → elapsed s.now f.rampAt (msFrames (s.railN r.val Ob.Rail.insTmoMs)) = true →
      Completes (.fuseInsertTimeout r) s fun t => (t.rail r).fuse.fstate = .tripped ∧ (t.rail r).fuse.cause = 2 ∧
        (t.rail r).fuse.trippedAt = s.now ∧ (t.rail r).fuse.retry = f.retry ∧ (t.rail r).seq = (s.rail r).seq ∧
        Counts s t Ob.clsRail r.val Ob.Rail.fuseTrips ∧ Logs s t Code.fuseTrip Ob.clsRail r.val 2
          (leBytes 1 f.retry ++ leBytes 2 (State.qWord (f.tj * 100))) ∧ RailsBut r s t ∧
        SameBut [.objs, .rails, .twin, .recd, .nvm] s t) ∧
    (f.fstate = .tripped → elapsed s.now f.trippedAt (msFrames (s.railN r.val Ob.Rail.fuseRetryMs)) = true →
      (s.railN r.val Ob.Rail.fuseRetries ≤ f.retry → Completes (.fuseRetry r) s fun t =>
        (t.rail r).fuse = { f with fstate := .latched } ∧ Logs s t Code.fuseLatch Ob.clsRail r.val 0 (leBytes 1 f.retry) ∧
          RailsBut r s t ∧ SameBut [.objs, .rails, .twin, .recd, .nvm] s t) ∧
      (f.retry < s.railN r.val Ob.Rail.fuseRetries → s.regulating r = true → Completes (.fuseRetry r) s fun t =>
        (t.rail r).fuse = { f with fstate := .ramp, retry := f.retry + 1, rampAt := s.now, psArmed := false, aboveRun := 0 } ∧
          RailsBut r s t ∧ SameBut [.objs, .rails, .twin, .recd, .nvm] s t ∧
          (s.canWrite = true → t.nvm.fuseRetry = allRails.map (fun q => (t.rail q).fuse.retry) ∧ SameBut [.rails, .nvm] s t)) ∧
      (f.retry < s.railN r.val Ob.Rail.fuseRetries → s.regulating r = false →
        Completes (.fuseRetry r) s fun t => t = s)) ∧
    (s.fitted r = true → f.fstate ≠ .passShort → 200 ≤ f.aboveRun → s.latchedOff r = false →
      Completes (.passShort r) s fun t => (t.rail r).fuse.fstate = .passShort ∧ t.latchedOff r = true ∧
        t.regulating r = false ∧ SameBut [.objs, .phases, .rails, .domains, .tune, .twin, .recd, .mb, .nvm, .dev] s t) ∧
    (s.fitted r = true → s.gateOff r = true → elapsed s.now f.gateOffAt (msFrames (s.railN r.val Ob.Rail.psArmMs)) = true →
      Completes (.passShortArm r) s fun t =>
        t.rail r = { s.rail r with fuse := { f with psArmed := true } } ∧ RailsBut r s t ∧ SameBut [.rails] s t) ∧
    (s.fitted r = true → bit (s.fuseCtrl r) 3 = true → f.fstate = .tripped ∨ f.fstate = .latched → ∀ mv,
      let goes (load : Bool) (code : Nat) : Prop := Completes (.loadDetectChange r mv) s fun t =>
        (t.rail r).fuse = { f with load := load } ∧ Logs s t code Ob.clsRail r.val 0 [] ∧ RailsBut r s t ∧
          SameBut [.objs, .rails, .twin, .recd, .nvm] s t;
      (mv < 1000 → f.load = false → goes true Code.loadInserted) ∧ (2000 < mv → f.load = true → goes false Code.loadRemoved) ∧
        (1000 ≤ mv → mv ≤ 2000 → Completes (.loadDetectChange r mv) s fun t => t = s))

/-- A comparator (R209 … R214): an input past the threshold asserts the decision, and outside blanking the output,
which counts and acts by ROUTE: a record, a crowbar, a hiccup, a latch or the device; one that falls back releases a
LEVEL output only; before the first decision the output stays at INIT until the input leaves the hysteresis band. -/
def Obligations.ComparatorsAssertAndRelease : Prop :=
  ∀ (s : State) (c : CmpIx) (uv : Int) (tick : Nat), Orderly s → s.cmpRuns c = true →
    let x := s.cmpInput c uv
    let r := s.cmpRail c
    let route := bits (s.obj Ob.clsCmp c.val Ob.Cmp.route) 2 0;
    ((s.cmp c).decided = true → s.cmpOver c x tick = true →
      ((s.cmp c).out = true ∧ (s.cmp c).initHold = false ∨ s.cmpBlanked c tick = true →
        Completes (.cmpAssert c uv tick) s fun t =>
          t.cmp c = { s.cmp c with decision := true } ∧ CmpsBut c s t ∧ SameBut [.cmps] s t) ∧
      (((s.cmp c).out = false ∨ (s.cmp c).initHold = true) → s.cmpBlanked c tick = false →
        Completes (.cmpAssert c uv tick) s fun t =>
          (t.cmp c).decision = true ∧ (t.cmp c).out = true ∧ (t.cmp c).initHold = false ∧
            (t.cmp c).latched = (s.cmpLatch c != 0) ∧ Counts s t Ob.clsCmp c.val Ob.Cmp.asserts ∧ CmpsBut c s t ∧
            (route = 2 → (s.rail r).prot.crowbar = false → t.latchedOff r = true ∧ (t.rail r).prot.crowbar = true) ∧
            (route = 3 → s.inHiccup r = false → (t.rail r).prot.cmpHic = true) ∧ (route = 4 → t.latchedOff r = true) ∧
            (route = 5 → (t.cmp c).device = true ∧ t.deviceHold = true) ∧
            ((∀ n : PhaseIx, bit (s.obj Ob.clsPhase n.val Ob.Phase.tripsel) c.val = false) → route = 1 →
              t.phases = s.phases ∧ Logs s t Code.cmpAssert Ob.clsCmp c.val 1 (leBytes 1 r.val)))) ∧
    ((s.cmp c).decided = true → s.cmpUnder c x s.frameTick = true → Completes (.cmpDeassert c uv) s fun t =>
      (t.cmp c).decision = false ∧ CmpsBut c s t ∧ SameBut [.cmps] s t ∧
        (s.cmpLatch c = 0 → s.cmpBlanked c s.frameTick = false → (t.cmp c).out = false) ∧
        (s.cmpLatch c ≠ 0 → (s.cmp c).initHold = false → t.cmp c = { s.cmp c with decision := false })) ∧
    ((s.cmp c).decided = false →
      (s.cmpOver c x s.frameTick = false → s.cmpUnder c x s.frameTick = false → Completes (.cmpFirstDecision c uv) s fun t =>
        t.cmp c = { s.cmp c with decided := true } ∧ CmpsBut c s t ∧ SameBut [.cmps] s t) ∧
      (s.cmpOver c x s.frameTick = false → s.cmpUnder c x s.frameTick = true → (s.cmp c).initHold = true →
        Completes (.cmpFirstDecision c uv) s fun t => (t.cmp c).decided = true ∧ (t.cmp c).out = false ∧
          (t.cmp c).initHold = false ∧ CmpsBut c s t ∧ SameBut [.cmps] s t) ∧
      (s.cmpOver c x s.frameTick = true → (s.cmp c).initHold = true → s.cmpBlanked c s.frameTick = false →
        Completes (.cmpFirstDecision c uv) s fun t => (t.cmp c).decided = true ∧ (t.cmp c).out = true ∧
          (t.cmp c).initHold = false ∧ Counts s t Ob.clsCmp c.val Ob.Cmp.asserts ∧ CmpsBut c s t))

/-- Levels and hiccup (R217 … R220, R223, R224): a qualified crossing of the under-voltage fault level reports, and
hiccups the rail with UVF_EN; one of the over-voltage fault level reports, or crowbars with OVF_EN; a qualified return
ends it. A hiccup disables the rail's phases for HIC_OFF_MS and counts; one past HIC_MAX latches; the rail restarts
through soft start; 60 clean seconds clear the run. -/
def Obligations.LevelsAndHiccup : Prop :=
  ∀ (s : State) (r : RailIx), Orderly s → s.framesRun = true →
    let p := (s.rail r).prot
    let ctrl (k : Nat) : Bool := bit (s.obj Ob.clsRail r.val Ob.Rail.protCtrl) k
    let hiccups (c : Instr) : Prop :=
      p.hicEnd = none → s.latchedOff r = false → (s.rail r).seq.rseq = .ramp ∨ (s.rail r).seq.rseq = .on →
        (p.hicRun < s.railN r.val Ob.Rail.hicMax → Completes c s fun t =>
          (t.rail r).prot.hicEnd = some (s.now + msFrames (s.railN r.val Ob.Rail.hicOffMs)) ∧
            (t.rail r).prot.hicRun = p.hicRun + 1 ∧ (t.rail r).seq.rseq = (s.rail r).seq.rseq ∧
            (t.rail r).seq.good = false ∧ Counts s t Ob.clsRail r.val Ob.Rail.hiccups ∧ t.lawRuns r = false ∧
            ∀ n, s.phaseRail n = some r → (t.phase n).gen.switching = false ∧ (t.phase n).gen.te = 0) ∧
        (s.railN r.val Ob.Rail.hicMax ≤ p.hicRun → Completes c s fun t => t.latchedOff r = true ∧ t.regulating r = false);
    (s.regulating r = true → s.uvPending r = true →
      (ctrl 0 = false → Completes (.uvFaultCrossing r) s fun t =>
        (t.rail r).prot = { p with uvf := true, uvfRun := 0 } ∧ Counts s t Ob.clsRail r.val Ob.Rail.uvFaultCnt ∧
          Logs s t Code.railUvFault Ob.clsRail r.val 0 (s.levelData r) ∧ t.phases = s.phases ∧ RailsBut r s t) ∧
      (ctrl 0 = true → hiccups (.uvFaultCrossing r))) ∧
    (s.regulating r = true → p.ovf = false → s.levelQual r .ovFault ≤ p.ovfRun →
      (ctrl 1 = false → Completes (.ovFaultCrossing r) s fun t =>
        (t.rail r).prot = { p with ovf := true, ovfRun := 0 } ∧ Counts s t Ob.clsRail r.val Ob.Rail.ovFaultCnt ∧
          Logs s t Code.railOvFault Ob.clsRail r.val 0 (s.levelData r) ∧ t.phases = s.phases ∧ RailsBut r s t) ∧
      (ctrl 1 = true → p.crowbar = false → Completes (.ovFaultCrossing r) s fun t => (t.rail r).prot.crowbar = true ∧
        t.latchedOff r = true ∧ t.regulating r = false ∧ Counts s t Ob.clsRail r.val Ob.Rail.crowbars)) ∧
    (let ends (l : Level) (q : ProtState) : Prop := Completes (.levelCrossingEnd r l) s fun t =>
        t.rail r = { s.rail r with prot := q } ∧ RailsBut r s t ∧ SameBut [.rails] s t;
      (p.uvf = true → s.levelQual r .uvFault ≤ p.uvfRun → ends .uvFault { p with uvf := false, uvfRun := 0 }) ∧
      (p.ovf = true → s.levelQual r .ovFault ≤ p.ovfRun → ends .ovFault { p with ovf := false, ovfRun := 0 })) ∧
    (s.regulating r = true → s.railN r.val Ob.Rail.hicN ≤ p.limRun → hiccups (.hiccup r)) ∧
    (∀ e, p.hicEnd = some e → e ≤ s.now → Completes (.hiccupRestart r) s fun t =>
      (t.rail r).prot.hicEnd = none ∧ RailsBut r s t ∧ SameBut [.phases, .rails] s t ∧
        ((s.rail r).seq.rseq = .ramp ∨ (s.rail r).seq.rseq = .on → s.heldOff r = false →
          (t.rail r).prof.softStart = true ∧ (t.rail r).law.regime = .linear ∧ t.lawRuns r = true) ∧
        (s.heldOff r = true → (t.rail r).prof = (s.rail r).prof ∧ t.phases = s.phases)) ∧
    (sFrames 60 ≤ p.hicClean → p.hicRun ≠ 0 → Completes (.hicRunReset r) s fun t =>
      t.rail r = { s.rail r with prot := { p with hicRun := 0, hicClean := 0 } } ∧ RailsBut r s t ∧ SameBut [.rails] s t)

/-- Holds (R226 … R229): 64 frames below the input's lower limit or 2 above the upper one hold the rail's phases
Disabled, with a record, until VBUS has been back for 10 ms; a sensor at its fault level counts and stops its rails,
latches them or holds the device; a stop ends 1 s after every sensor that caused it is back below WARN − HYST, the
device's hold 10 s after. -/
def Obligations.HoldsBeginAndEnd : Prop :=
  ∀ s : State, Orderly s → s.framesRun = true →
    (∀ r : RailIx,
      let p := (s.rail r).prot
      let held (c : Instr) (code : Nat) (bit' : ProtState → Bool) : Prop := Completes c s fun t =>
        bit' (t.rail r).prot = true ∧ t.heldOff r = true ∧ t.lawRuns r = false ∧ (t.rail r).seq = (s.rail r).seq ∧
          Logs s t code Ob.clsRail r.val 0 (leBytes 4 s.feeds.vbus) ∧ RailsBut r s t ∧
          SameBut [.objs, .phases, .rails, .twin, .recd, .nvm] s t ∧
          ∀ n, s.phaseRail n = some r → (t.phase n).gen.switching = false ∧ (t.phase n).gen.te = 0
      let free (t : State) : Prop := (s.rail r).seq.rseq = .ramp ∨ (s.rail r).seq.rseq = .on → p.hicEnd = none →
        t.heldOff r = false → (t.rail r).prof.softStart = true ∧ t.lawRuns r = true;
      (p.inuv = false → 64 ≤ p.inuvRun → held (.inputUv r) Code.inputUv (·.inuv)) ∧
      (p.inov = false → 2 ≤ p.inovRun → held (.inputOv r) Code.inputOv (·.inov)) ∧
      (∀ g, p.inGoodSince = some g → elapsed s.now g (msFrames 10) = true → Completes (.inputHoldEnd r) s fun t =>
        (t.rail r).prot.inuv = false ∧ (t.rail r).prot.inov = false ∧ (t.rail r).prot.thold = p.thold ∧ free t ∧
          RailsBut r s t ∧ SameBut [.phases, .rails] s t) ∧
      (p.thold = true → (∀ i, (s.temp i).stops.contains r.val = true →
          ∃ b, (s.temp i).belowAt = some b ∧ elapsed s.now b (sFrames 1) = true) →
        Completes (.tempStopClear r) s fun t => (t.rail r).prot.thold = false ∧ free t ∧ RailsBut r s t ∧
          (∀ i, (t.temp i).stops = (s.temp i).stops.filter fun k => k != r.val) ∧
          SameBut [.phases, .rails, .temps] s t)) ∧
    (s.temps.toList.any (·.device) = true → (∀ i, (s.temp i).device = true →
        ∃ b, (s.temp i).belowAt = some b ∧ elapsed s.now b (sFrames 10) = true) →
      Completes .tempDeviceClear s fun t => (∀ i, (t.temp i).device = false) ∧
        SameBut [.objs, .rails, .domains, .temps, .mb, .dev] s t) ∧
    (∀ (i : TempIx), s.teleStale = false →
      let ctrl := s.obj Ob.clsTemp i.val Ob.Temp.ctrl
      let lv (item : Nat) : Int := (s.obj Ob.clsTemp i.val item).toInt;
      (∀ q, bit ctrl 0 = false → Completes (.tempUpdate i q) s fun t => (t.temp i).value = 2500 ∧ (t.temp i).fail = false ∧
        TempsBut i s t) ∧
      (bit ctrl 0 = true →
        (Completes (.tempUpdate i none) s fun t => (t.temp i).fail = true ∧ (t.temp i).value = (s.temp i).value ∧
          TempsBut i s t) ∧
        (∀ q, Completes (.tempUpdate i (some q)) s fun t => (t.temp i).fail = false ∧
          (t.temp i).value = s.tempValue i q ∧ TempsBut i s t ∧
          (lv Ob.Temp.fault ≤ s.tempValue i q → (s.temp i).fault = false → (t.temp i).fault = true ∧
            Counts s t Ob.clsTemp i.val Ob.Temp.faults ∧
            (bits ctrl 2 1 = 1 → ∀ r ∈ s.tempRails i, (t.rail r).prot.thold = true ∧ (t.temp i).stops.contains r.val = true) ∧
            (bits ctrl 2 1 = 2 → ∀ r ∈ s.tempRails i, t.latchedOff r = true) ∧
            (bits ctrl 2 1 = 3 → (t.temp i).device = true ∧ t.deviceHold = true)))))

/-- Sequencing (R236 … R246): a pin that held for 40 frames becomes the request of its domains; a domain whose request
stands starts when nothing blocks it, its first rail STEP_US later; a rail ramps when its step is due and its minimum
off time is over, is ON once qualified, and its domain is ON when all its rails are; UP_TMO_MS in RAMP fails the
start, which is retried after RETRY_MS or latches; the down steps discharge a rail until its level is reached or
DIS_TMO_MS are over. -/
def Obligations.DomainsSequence : Prop :=
  ∀ s : State, Orderly s → s.framesRun = true →
    (∀ pin : Fin 4, 40 ≤ s.dev.enRun.get pin → Completes (.enPinChange pin) s fun t =>
      t.dev.enLevel = s.dev.enLevel ^^^ BitVec.ofNat 4 (2 ^ pin.val) ∧
        (∀ d, s.srcPin d = true → s.enPinOf d = some pin → (t.domain d).req = !s.dev.enLevel.getLsbD pin.val) ∧
        (∀ d, ¬(s.srcPin d = true ∧ s.enPinOf d = some pin) → (t.domain d).req = (s.domain d).req) ∧
        SameBut [.objs, .rails, .domains, .twin, .recd, .mb, .nvm, .dev] s t) ∧
    (∀ d : DomainIx, s.deviceHold = false → s.domBlocks d = false →
      let starts (c : Instr) (left : Nat) : Prop := Completes c s fun t =>
        (t.domain d).dstate = .up ∧ (t.domain d).upStart = s.now ∧ (t.domain d).retryLeft = left ∧ t.dev.dstate = .run ∧
          Counts s t Ob.clsDomain d.val Ob.Domain.starts ∧ DomainsBut d s t ∧ bit t.mb.istat Irq.domain.val = true ∧
          (∀ r, (s.upOrder d).head? = some r →
            (t.rail r).upDue = some (s.now + usFrames (s.railN r.val Ob.Rail.stepUs)) ∧ RailsBut r s t) ∧
          SameBut [.objs, .rails, .domains, .mb, .dev] s t;
      ((s.domain d).dstate = .off → (s.domain d).req = true → s.railsOf d.val ≠ [] →
        starts (.domainUnblocked d) (s.domN d.val Ob.Domain.retries)) ∧
      ((s.domain d).dstate = .retryWait → (s.domain d).retryEnd ≤ s.now →
        starts (.domainRetry d) (s.domain d).retryLeft)) ∧
    (∀ (r : RailIx) (d : DomainIx), s.railDomain r = some d → s.railEn r.val = true →
      (∀ e, (s.rail r).upDue = some e → (s.domain d).dstate = .up → (s.rail r).seq.rseq = .off →
        (e ≤ s.now → (s.rail r).seq.minOffEnd ≤ s.now → s.hsOnPhase r = false → Completes (.railUpStep r) s fun t =>
          (t.rail r).seq.rseq = .ramp ∧ (t.rail r).upDue = none ∧ (t.rail r).prof.softStart = true ∧
            (t.rail r).seq.upEnd = s.now + msFrames (s.railN r.val Ob.Rail.upTmoMs) ∧
            (s.heldOff r = false → t.lawRuns r = true) ∧ (t.domain d).dstate = .up ∧ DomainsBut d s t ∧
            SameBut [.objs, .phases, .rails, .domains, .twin, .recd, .nvm] s t) ∧
        (s.now < e ∨ s.now < (s.rail r).seq.minOffEnd ∨ s.hsOnPhase r = true →
          Completes (.railUpStep r) s fun t => t = s)) ∧
      (∀ g, (s.rail r).seq.qualStart = some g → (s.rail r).seq.rseq = .ramp →
        elapsed s.now g (usFrames (s.railN r.val Ob.Rail.qualUs)) = true → Completes (.railQualified r) s fun t =>
          (t.rail r).seq.rseq = .on ∧ DomainsBut d s t ∧ t.phases = s.phases ∧
            ((s.domain d).dstate = .up → (∀ x ∈ s.railsOf d.val, x ≠ r → (s.rail x).seq.rseq = .on) →
              (t.domain d).dstate = .on ∧
                Logs s t Code.domainOn Ob.clsDomain d.val 0 (leBytes 4 (min ((s.now - (s.domain d).upStart) / 2) maxWord)))) ∧
      ((s.domain d).dstate = .up → (s.rail r).seq.rseq = .ramp → (s.rail r).seq.upEnd ≤ s.now →
        Completes (.startFail r) s fun t => (t.domain d).dstate = .down ∧ Counts s t Ob.clsRail r.val Ob.Rail.startFail ∧
          DomainsBut d s t ∧ t.phases = s.phases ∧
          (0 < (s.domain d).retryLeft → (t.domain d).retryLeft = (s.domain d).retryLeft - 1 ∧ (t.domain d).retryFlag = true ∧
            Logs s t Code.startFail Ob.clsRail r.val 0 (leBytes 1 d.val ++ leBytes 1 ((s.domain d).retryLeft - 1))) ∧
          ((s.domain d).retryLeft = 0 → (t.domain d).latchFlag = true ∧ (t.domain d).latchRail = r.val ∧
            LogsSnap s t Code.startFail Ob.clsRail r.val 0 (leBytes 1 d.val ++ leBytes 1 0) r Latch.startFail)) ∧
      (∀ e, (s.rail r).dnDue = some e → e ≤ s.now → (s.rail r).seq.rseq = .ramp ∨ (s.rail r).seq.rseq = .on →
        Completes (.railDownStep r) s fun t => (t.rail r).seq.rseq = .discharge ∧ (t.rail r).dnDue = none ∧
          (t.rail r).seq.disEnd = s.now + msFrames (s.railN r.val Ob.Rail.disTmoMs) ∧ t.lawRuns r = false ∧ RailsBut r s t ∧
          SameBut [.objs, .phases, .rails, .tune, .mb] s t) ∧
      ((s.rail r).seq.rseq = .discharge → 4 ≤ (s.rail r).seq.disRun → Completes (.dischargeDone r) s fun t =>
        t.regulating r = false ∧ (∀ n, s.phaseRail n = some r → (t.phase n).gen.switching = false)) ∧
      ((s.rail r).seq.rseq = .discharge → (s.rail r).seq.disEnd ≤ s.now → Completes (.dischargeTimeout r) s fun t =>
        t.regulating r = false ∧ Counts s t Ob.clsRail r.val Ob.Rail.dischargeTimeout))

/-- What the pair's link brings (R253, R256 … R258, R261 … R263, R293): a heartbeat that fails its check counts, a
valid one tells the partner's state; an alignment record waits for its edge; a replicated effect waits for its edge,
or unarms the standby that cannot apply it and resynchronises it; a link that comes up is versioned and begins the
hold-off, one that goes down unarms, as does a lost frame sync. A lone device takes none of it. -/
def Obligations.TwinLinkEvents : Prop :=
  ∀ s : State, Orderly s → s.framesRun = true → s.linkSilent = false →
    let unarmed (t : State) (u : Unarm) : Prop := t.twin.armed = false ∧ t.twin.unarm = u ∧
      (s.twin.armed = true → Counts s t Ob.clsTwin 0 Ob.Twin.unarms ∧
        Logs s t Code.twinUnarmed Ob.clsTwin 0 u.code [] ∧ bit t.mb.istat Irq.twin.val = true) ∧
      (s.twin.armed = false → t.recd = s.recd)
    let rest (t : State) : Prop := SameBut [.objs, .rails, .twin, .recd, .mb, .nvm] s t;
    (s.twin.role = .solo → ∀ h v w x y r, Completes (.twinHeartbeat h) s (fun t => t = s) ∧
      Completes (.twinLinkUp v w x y) s (fun t => t = s) ∧ Completes (.partnerRecord r) s (fun t => t = s)) ∧
    (s.twin.role ≠ .solo →
      (∀ h, h.valid = false → Completes (.twinHeartbeat h) s fun t => Counts s t Ob.clsTwin 0 Ob.Twin.linkErrors ∧
        ObjsBut [(Ob.clsTwin, 0, Ob.Twin.linkErrors)] s t ∧ SameBut [.objs] s t) ∧
      (∀ h, h.valid = true → Completes (.twinHeartbeat h) s fun t => t.twin.partner = true ∧ t.twin.split = false ∧
        t.twin.partnerHo = h.handoverEdge ∧ t.twin.role = s.twin.role ∧
        t.twin.armed = (if s.twin.role = .active then h.armed else s.twin.armed) ∧
        SameBut [.objs, .ports, .twin, .mb] s t) ∧
      (∀ major minor digest seat, Completes (.twinLinkUp major minor digest seat) s fun t => t.twin.linkUp = true ∧
        t.twin.ver = (if major = 2 then 512 + min minor 1 else 0) ∧
        t.twin.holdoffEnd = some (s.now + sFrames (s.obj Ob.clsTwin 0 Ob.Twin.rejoinS).toNat) ∧
        (s.twin.role = .standby → t.twin.role = (if major = 2 then .standby else .monitor) ∧
          (major ≠ 2 → t.twin.armed = false)) ∧
        (s.twin.role = .monitor → t.twin.role = if major = 2 then .standby else .monitor) ∧
        (s.twin.role = .listen → t.twin.role = .listen ∧
          (seat = true → Logs s t Code.twinSeatConflict Ob.clsTwin 0 0 (leBytes 6 s.clk.frame))) ∧ rest t) ∧
      (∀ rr : RelayRec, Completes (.partnerRecord rr) s fun t => SameBut [.objs, .rails, .twin, .recd, .nvm] s t ∧
        (s.recd.batch = none → s.recd.reserveFail = false → s.recd.next + 1 < s.reserve → s.recd.keptReserve = none →
          s.recd.frozen = false → s.canWrite = true → s.recd.ringOk = true → s.recd.ram = [] → s.recd.ring.length < 16384 →
            t.recd.next = s.recd.next + 1 ∧ ∃ d, t.recd.ring = s.recd.ring ++
              [⟨s.recd.next, if rr.code = Code.logMediaFault then Code.nvmDegraded else rr.code, Ob.clsTwin, 1, rr.sub,
                RecFlag.partner, leBytes 1 rr.srcClass ++ leBytes 1 rr.srcInst ++ leBytes 6 rr.seq ++ d⟩]))) ∧
    (s.follows = true →
      (∀ ar, Completes (.twinAlignmentRecord ar) s fun t =>
        t.twin = { s.twin with align := some ar } ∧ SameBut [.twin] s t) ∧
      (∀ edge act, s.clk.frame < edge → s.replOk act = true → Completes (.twinReplicatedCommand edge act) s fun t =>
        t.twin = { s.twin with repl := s.twin.repl ++ [(edge, act)] } ∧ SameBut [.twin] s t) ∧
      (∀ edge act, edge ≤ s.clk.frame ∨ s.replOk act = false → s.twin.armed = true →
        Completes (.twinReplicatedCommand edge act) s fun t =>
          unarmed t .replication ∧ t.twin.resyncing = true ∧ t.twin.repl = s.twin.repl ∧ rest t) ∧
      (s.twin.fsLock = true → 3 ≤ s.twin.fsMiss → Completes .twinFrameSyncLoss s fun t =>
        unarmed t .frameSync ∧ t.twin.fsLock = false ∧ t.twin.role = s.twin.role ∧ rest t) ∧
      (s.twin.linkUp = true → Completes .twinLinkDown s fun t =>
        unarmed t .link ∧ t.twin.linkUp = false ∧ t.twin.holdoffEnd = none ∧ t.twin.role = s.twin.role ∧ rest t)) ∧
    (s.twin.role = .active → s.twin.driveActN = true → s.twin.actN = true → Completes .actLineFault s fun t =>
      Logs s t Code.actLineFault Ob.clsTwin 0 0 (leBytes 6 s.clk.frame) ∧ SameBut [.objs, .rails, .twin, .recd, .nvm] s t)

/-- Roles (R255, R256, R259 … R261): an armed standby that misses 4 heartbeats on a released ACT line takes over,
drives, and repeats its oldest acknowledgements as duplicates; on a driven line the pair is split; a listener joins
behind an active and claims an idle line after its seat's time; a lost partner leaves a follower listening; a
resynchronised standby is armed with the active's state; a handover swaps the two roles. -/
def Obligations.TwinRolesChange : Prop :=
  ∀ s : State, Orderly s →
    let role (u t : State) (x : TwinRole) : Prop := t.twin.role = x ∧ bit t.mb.istat Irq.twin.val = true ∧
      Logs s u Code.twinRole Ob.clsTwin 0 x.code (leBytes 1 s.twin.role.code)
    let edge := leBytes 6 s.clk.frame;
    (s.twin.role = .standby → 4 ≤ s.twin.hbMiss →
      (s.twin.armed = true → s.twin.actN = true → Completes .twinTakeover s fun t =>
        ∃ u, role u t .active ∧ Logs u t Code.twinTakeover Ob.clsTwin 0 0 edge ∧ t.twin.driving = true ∧
          t.twin.driveActN = true ∧ t.twin.armed = false ∧ Counts s t Ob.clsTwin 0 Ob.Twin.takeovers ∧
          (∀ n, (t.phase n).gen.switching = false ∧ (t.phase n).gen.te = 0) ∧
          (∀ p tag c i v, nextTx (s.port p).queue = some (.vackStart tag c false i v) →
            .vackStart tag c true i v ∈ (t.port p).queue) ∧
          SameBut [.objs, .phases, .rails, .ports, .twin, .recd, .mb, .nvm] s t) ∧
      (s.twin.actN = false → s.twin.split = false → s.twin.armed = false → Completes .twinSplit s fun t =>
        t.twin.role = .standby ∧ t.twin.split = true ∧ t.twin.armed = false ∧ t.twin.unarm = .split ∧
          t.twin.driving = s.twin.driving ∧ Counts s t Ob.clsTwin 0 Ob.Twin.splits ∧
          Logs s t Code.twinSplit Ob.clsTwin 0 0 edge ∧ SameBut [.objs, .rails, .twin, .recd, .mb, .nvm] s t) ∧
      (s.twin.actN = false → s.twin.split = false → s.twin.armed = true → Completes .twinSplit s fun t =>
        ∃ u, Logs s u Code.twinUnarmed Ob.clsTwin 0 Unarm.split.code [] ∧ Logs u t Code.twinSplit Ob.clsTwin 0 0 edge ∧
          t.twin.split = true ∧ t.twin.armed = false ∧ Counts s t Ob.clsTwin 0 Ob.Twin.unarms)) ∧
    (s.twin.role = .listen →
      (20 ≤ s.twin.actLowRun → Completes .listenJoin s fun t => role t t .standby ∧ t.twin.armed = false ∧
        t.twin.driving = s.twin.driving ∧ SameBut [.objs, .rails, .twin, .recd, .mb, .nvm] s t) ∧
      ((if s.twin.seatB then 4000 else 2000) ≤ s.twin.actHighRun → s.twin.linkUp = false ∨ s.twin.sameSeat = false →
        Completes .listenClaim s fun t => role t t .active ∧ t.twin.driving = true ∧ t.twin.driveActN = true ∧
          (∀ d, (s.domain d).dstate = .latched → (t.domain d).dstate = .latched) ∧
          (∀ d, (s.domain d).dstate ≠ .latched → (s.domain d).req = false → (t.domain d).dstate = .off) ∧
          SameBut [.objs, .phases, .rails, .domains, .tune, .twin, .recd, .mb, .nvm, .dev] s t)) ∧
    (s.follows = true → s.twin.armed = false → s.twin.actN = true → 20000 ≤ s.twin.noHbRun →
      Completes .twinPartnerLost s fun t => t.twin.role = .listen ∧ t.twin.partner = false ∧ t.twin.actHighRun = 0 ∧
        ∃ u, Logs s u Code.twinPartnerLost Ob.clsTwin 0 0 edge ∧
          Logs u t Code.twinRole Ob.clsTwin 0 TwinRole.listen.code (leBytes 1 s.twin.role.code)) ∧
    (s.twin.role = .active → s.twin.partner = true → 4 ≤ s.twin.hbMiss → Completes .twinPartnerLost s fun t =>
      t.twin.role = .active ∧ t.twin.partner = false ∧ t.twin.armed = false ∧ t.twin.pendingHo = none ∧
        t.twin.driving = s.twin.driving ∧ Logs s t Code.twinPartnerLost Ob.clsTwin 0 0 edge) ∧
    (∀ frame ar, s.twin.role = .standby → s.twin.resyncing = true → s.twin.resyncOnly = true →
      Completes (.twinResyncComplete frame ar) s fun t => t.twin.armed = s.twin.armed ∧ t.twin.resyncing = false ∧
        t.clk = s.clk ∧ t.feeds.episode = ar.episode) ∧
    (∀ frame ar, s.twin.role = .standby → s.twin.resyncing = true → s.twin.resyncOnly = false → s.armReason = .none →
      Completes (.twinResyncComplete frame ar) s fun t => t.twin.armed = true ∧ t.twin.unarm = .none ∧
        t.twin.resyncing = false ∧ t.clk.frame = frame % 281474976710656 ∧ t.feeds.episode = ar.episode ∧
        (∀ k, s.twin.armSlot = some k → Answers t k St.ok [0]) ∧
        (∀ (r : RailIx) a, ar.rails[r.val]? = some a → (t.rail r).law.sV = duty32 a.sV ∧
          (t.rail r).prof.reqMv = a.reqMv ∧ (t.rail r).fuse.retry = a.fuseRetry)) ∧
    (∀ k e, s.twin.role = .active → s.twin.pendingHo = some (k, e) → e ≤ s.clk.frame → Completes .handoverEdge s fun t =>
      role t t .standby ∧ t.twin.driving = false ∧ t.twin.driveActN = false ∧ t.twin.armed = true ∧
        Counts s t Ob.clsTwin 0 Ob.Twin.handovers) ∧
    (∀ e, s.twin.role = .standby → s.twin.partnerHo = some e → e ≤ s.clk.frame → s.twin.armed = true →
      Completes .handoverEdge s fun t => role t t .active ∧ t.twin.driveActN = true ∧ t.twin.hoEdge = e ∧
        t.twin.partnerHo = none ∧ t.twin.driveAt = some (s.now + 1) ∧ Counts s t Ob.clsTwin 0 Ob.Twin.handovers)

/-- An event becomes one record (R282, R283, R287, R289, R337): within a frame edge it waits for the frame's order;
elsewhere it takes the next number and goes to the ring, during a freeze to the hold queue, and with the window closed
to retention RAM; a number that would reach the reserve raises the reserve first. -/
def Obligations.EventsAreNumbered : Prop :=
  ∀ (s : State) (code cls inst sub : Nat) (data : List Byte), Orderly s →
    let t := s.record code cls inst sub data
    let r : Rec := ⟨s.recd.next, code, cls, inst, sub, 0, data⟩;
    SameBut [.objs, .rails, .twin, .recd, .nvm] s t ∧ t.rails = s.rails ∧ s.recd.next ≤ t.recd.next ∧
      (∀ l, s.recd.batch = some l → t.recd = { s.recd with batch := some (l ++ [⟨code, cls, inst, sub, data, [], false⟩]) }) ∧
      (s.recd.batch = none → s.recd.reserveFail = false → s.recd.keptReserve = none →
        (s.recd.next + 1 < s.reserve ∨ s.canWrite = true ∧ s.recd.ringOk = true ∧ s.recd.next < s.reserve) →
        t.recd.next < t.reserve ∧
        (s.recd.frozen = false → s.canWrite = true → s.recd.ringOk = true → s.recd.ram = [] →
          t.recd.next = s.recd.next + 1 ∧ t.recd.hold = s.recd.hold ∧
            t.recd.ring = (if s.recd.ring.length < 16384 then s.recd.ring else s.recd.ring.drop 1) ++ [r]) ∧
        (s.recd.frozen = true → s.recd.hold.length < 256 → t.recd.next = s.recd.next + 1 ∧ t.recd.ring = s.recd.ring ∧
          t.recd.hold = s.recd.hold ++ [{ r with flags := RecFlag.held }]) ∧
        (s.recd.frozen = true → s.recd.hold.length = 256 → t.recd.ring = s.recd.ring ∧ t.recd.hold = s.recd.hold ∧
          Counts s t Ob.clsRec 0 Ob.Rec.lost) ∧
        (s.recd.frozen = false → s.canWrite = false → s.recd.ram.length < 512 → t.recd.next = s.recd.next + 1 ∧
          t.recd.ring = s.recd.ring ∧ t.recd.ram = s.recd.ram ++ [r] ∧ t.nvm.recArmed = true))

/-- REC_THAW and FREEZE_EXPIRY end a freeze; REC_CLEAR is refused with STATE during a freeze, with RANGE beyond the
last record and with MEDIA while the window is closed, and else leaves no record up to its number (R290, R291, R337).
A retry that verifies moves every waiting record to the ring (R292). A due snapshot reaches the next slot of its ring
with ISTAT.SNAP, or waits for a retry (R294). -/
def Obligations.ThawClearRetryAndStore : Prop :=
  ∀ (s : State),
    (∀ k, Asks s k .recThaw → Completes (.recThaw k) s fun t => Answers t k St.ok [] ∧ t.recd.frozen = false ∧
      (s.recd.frozen = true → t.recd.hold = []) ∧ (s.recd.frozen = false → t.recd = s.recd) ∧ SlotsBut k s t ∧
      SameBut [.objs, .twin, .recd, .mb, .nvm] s t) ∧
    (∀ k n, Asks s k (.recClear n) →
      if s.recd.frozen = true then JustAnswers (.recClear k n) s k St.state []
      else if s.recLast < n then JustAnswers (.recClear k n) s k St.range []
      else if s.nvm.window = false then JustAnswers (.recClear k n) s k St.media []
      else Completes (.recClear k n) s fun t => (∃ p, Answers t k St.ok p) ∧ SlotsBut k s t ∧
        SameBut [.objs, .rails, .twin, .recd, .mb, .nvm] s t ∧
        (s.recd.batch = none → s.recd.keptReserve = none → n < s.recd.next →
          ∀ x ∈ t.recd.ring ++ t.recd.spare ++ t.recd.ram, n < x.seq)) ∧
    (s.recd.frozen = true → s.recd.freezeEnd ≤ s.now → Completes .freezeExpiry s fun t => t.recd.frozen = false ∧
      t.recd.hold = [] ∧ SameBut [.objs, .twin, .recd, .nvm] s t) ∧
    (s.recd.frozen = true → s.now < s.recd.freezeEnd → Completes .freezeExpiry s fun t => t = s) ∧
    (∀ spare, Orderly s → s.recd.mediaFault = true → s.canWrite = true → s.recd.ram ≠ [] →
      Completes (.recorderMediaRetry true spare) s fun t => t.recd.ram = [] ∧ t.recd.mediaFault = false ∧
        t.recd.ringOk = true ∧ t.recd.spareOk = spare ∧ (∀ x ∈ s.recd.ram, x ∈ t.recd.ring) ∧
        SameBut [.objs, .rails, .twin, .recd, .nvm] s t) ∧
    (∀ q (k : Fin 8), s.recd.snapNext = k.val →
      let stored (t : State) : Prop := t.recd.snaps.get k = some q ∧ (∀ j, j ≠ k → t.recd.snaps.get j = s.recd.snaps.get j) ∧
        t.recd.newest = k.val ∧ t.recd.snapNext = (k.val + 1) % 8 ∧ bit t.mb.istat Irq.snap.val = true
      (∀ rest, s.recd.due = q :: rest →
        (s.canWrite = true → Completes (.snapshotStore true) s fun t => stored t ∧ t.recd.due = rest ∧
          t.nvm.counters = s.counterStore) ∧
        (∀ ok, ok = false ∨ s.canWrite = false → Completes (.snapshotStore ok) s fun t => t.recd.waiting = some q ∧
          t.recd.due = rest ∧ t.recd.snaps = s.recd.snaps)) ∧
      (s.recd.waiting = some q → s.canWrite = true → Completes (.snapshotRetry true) s fun t =>
        stored t ∧ t.recd.waiting = none ∧ t.recd.due = s.recd.due))

/-- R218: a warning only reports: it sets UVW or OVW while the crossing lasts, counts once per crossing, and writes a
record only with REC_WARN. Nothing else of the rail, and no phase, changes. -/
def Obligations.WarningsOnlyReport : Prop :=
  ∀ (s : State) (r : RailIx), Orderly s → s.framesRun = true →
    let p := (s.rail r).prot
    let rec' := bit (s.obj Ob.clsRail r.val Ob.Rail.protCtrl) 3
    let warned (c : Instr) (q : ProtState) (item code : Nat) : Prop := Completes c s fun t =>
      t.rail r = { s.rail r with prot := q } ∧ RailsBut r s t ∧ Counts s t Ob.clsRail r.val item ∧
        SameBut [.objs, .rails, .twin, .recd, .nvm] s t ∧
        (rec' = true → Logs s t code Ob.clsRail r.val 0 (s.levelData r)) ∧
        (rec' = false → t.recd = s.recd ∧ ObjsBut [(Ob.clsRail, r.val, item)] s t)
    let ended (l : Level) (q : ProtState) : Prop := Completes (.levelCrossingEnd r l) s fun t =>
      t.rail r = { s.rail r with prot := q } ∧ RailsBut r s t ∧ SameBut [.rails] s t;
    (p.uvw = false → s.levelQual r .uvWarn ≤ p.uvwRun →
      warned (.uvWarnCrossing r) { p with uvw := true, uvwRun := 0 } Ob.Rail.uvWarnCnt Code.railUvWarn) ∧
    (p.ovw = false → s.levelQual r .ovWarn ≤ p.ovwRun →
      warned (.ovWarnCrossing r) { p with ovw := true, ovwRun := 0 } Ob.Rail.ovWarnCnt Code.railOvWarn) ∧
    (p.uvw = true → Completes (.uvWarnCrossing r) s fun t => t = s) ∧
    (p.ovw = true → Completes (.ovWarnCrossing r) s fun t => t = s) ∧
    (p.uvw = true → s.levelQual r .uvWarn ≤ p.uvwRun → ended .uvWarn { p with uvw := false, uvwRun := 0 }) ∧
    (p.ovw = true → s.levelQual r .ovWarn ≤ p.ovwRun → ended .ovWarn { p with ovw := false, ovwRun := 0 })

/-- The debug port halts a control engine only while DBGEN is high and the committed configuration permits debug (R79).
At the halt the generators of every phase of its rails stop, each output shows the level it had, and a period start
changes nothing while the halt lasts; other engines run on. A resume leaves each frozen phase without a pulse, and the
consecutive-overrun counts of the engine's rails at 0. -/
def Obligations.DebugPortHaltsEngines : Prop :=
  ∀ (s : State) (e : EngineIx), Orderly s →
    (s.dev.dbgen = false ∨ s.obj Ob.clsDev 0 Ob.Dev.dbgPermit = 0 → Completes (.debugHalt e) s fun t => t = s) ∧
    (s.dev.dbgen = true → s.obj Ob.clsDev 0 Ob.Dev.dbgPermit ≠ 0 → s.dev.halted.get e = false → s.framesRun = true →
      Completes (.debugHalt e) s fun t => t.dev.halted.get e = true ∧
        (∀ f, f ≠ e → t.dev.halted.get f = s.dev.halted.get f) ∧ SameBut [.objs, .phases, .dev] s t ∧
        ∀ r n, s.railEn r.val = true → s.railN r.val Ob.Rail.engine = e.val → s.phaseRail n = some r →
          (t.phase n).gen.frozen = some (s.outState n) ∧ t.outState n = s.outState n ∧ (t.phase n).gen.carry = 0 ∧
            ∀ mid, Completes (.periodStart n mid) t fun u => u = t) ∧
    (s.dev.halted.get e = true → Completes (.debugResume e) s fun t => t.dev.halted.get e = false ∧
      SameBut [.phases, .rails, .dev] s t ∧
      ∀ r, s.railEn r.val = true → s.railN r.val Ob.Rail.engine = e.val → (t.rail r).meas.ovrCount = 0 ∧
        ∀ n, s.phaseRail n = some r → (t.phase n).gen.frozen = none ∧ (t.phase n).gen.switching = false ∧
          (t.phase n).gen.te = 0)

/-- R338: a die sensor that reads beyond −22 … +112 °C while the window is open writes DEFER_ARMED; it is cleared once
every die sensor has been within that range for 10 s with the queue empty, and not before. -/
def Obligations.DeferArmedFollowsTheSensors : Prop :=
  ∀ s : State, s.framesRun = true →
    (∀ (i : TempIx) (q : Int), i.val < 8 → s.teleStale = false → bit (s.obj Ob.clsTemp i.val Ob.Temp.ctrl) 0 = true →
      (q < -2200 ∨ 11200 < q →
        Completes (.tempUpdate i (some q)) s fun t => (s.nvm.window = true → t.nvm.deferArmed = true) ∧ t.nvm.armGood = none) ∧
      (-2200 ≤ q → q ≤ 11200 →
        (∀ j : TempIx, j.val < 8 → j ≠ i → -2200 ≤ (s.temp j).value ∧ (s.temp j).value ≤ 11200) →
        Completes (.tempUpdate i (some q)) s fun t => t.nvm.deferArmed = s.nvm.deferArmed ∧
          t.nvm.armGood = some (s.nvm.armGood.getD s.now))) ∧
    (∀ g, s.nvm.armGood = some g → g + 20000000 ≤ s.now → s.nvm.queue = [] → Completes .deferArmedClear s fun t =>
      t.nvm = { s.nvm with deferArmed := false } ∧ SameBut [.nvm] s t) ∧
    (s.nvm.queue ≠ [] ∨ (∀ g, s.nvm.armGood = some g → s.now < g + 20000000) →
      Completes .deferArmedClear s fun t => t.nvm.deferArmed = s.nvm.deferArmed)

/-- R262: every time the twin link comes up the hold-off begins anew with REJOIN_S; while it runs STAT.HOLDOFF is 1
and no command whatever arms a standby that is not armed; its end changes no role, and neither does its beginning
between devices that agree on the version. -/
def Obligations.HoldOffDelaysArming : Prop :=
  ∀ s : State,
    (∀ major minor digest seat, s.twin.role ≠ .solo → s.linkSilent = false → s.framesRun = true →
      Completes (.twinLinkUp major minor digest seat) s fun t =>
        t.twin.holdoffEnd = some (s.now + 2000000 * (s.obj Ob.clsTwin 0 Ob.Twin.rejoinS).toNat) ∧
          (major = 2 → s.twin.role = .standby → t.twin.role = .standby)) ∧
    (s.twin.holdoffEnd ≠ none → ∀ w, s.viewTwin Ob.Twin.stat = some w → Nat.testBit w 9 = true) ∧
    (∀ c t, exec c s = .next t → s.twin.role = .standby → s.twin.armed = false → s.twin.holdoffEnd ≠ none →
      t.twin.role = .standby → t.twin.holdoffEnd ≠ none → t.twin.armed = false) ∧
    (∀ e, s.twin.holdoffEnd = some e →
      (e ≤ s.now → Completes .rejoinHoldoffEnd s fun t => 
        t.twin = { s.twin with
          holdoffEnd := none
          unarm := if s.twin.unarm = .holdoff then .notRequested else s.twin.unarm } ∧ SameBut [.twin] s t) ∧
      (s.now < e → Completes .rejoinHoldoffEnd s fun t => t = s)) ∧
    (s.twin.linkUp = true → Completes .twinLinkDown s fun t => t.twin.holdoffEnd = none ∧ t.twin.linkUp = false ∧
      t.twin.role = s.twin.role)
end

