-- ==== Sys2Proof/Laws/Store.lean ====
section
/-! SUPPORT. The object store and the sparse tables: every operation keeps the canonical form, a read after a write of the
same place gives the value written, and a write leaves every other place alone. -/

namespace Sys2Proof.Machine

theorem Store.put_mem (d : Word) (st : Store) (i : Nat) (v : Word) (p : Nat × Word) (h : p ∈ st.put d i v) :
    p ∈ st ∨ (p = (i, v) ∧ v ≠ d) := by
  induction st with
  | nil => unfold Store.put at h; split at h <;> simp_all
  | cons a t ih =>
    obtain ⟨k, w⟩ := a
    unfold Store.put at h
    split at h
    · split at h
      · exact .inl h
      · rcases List.mem_cons.mp h with h | h
        · exact .inr ⟨h, ‹_›⟩
        · exact .inl h
    · split at h
      · split at h
        · exact .inl (List.mem_cons_of_mem _ h)
        · rcases List.mem_cons.mp h with h | h
          · exact .inr ⟨h, ‹_›⟩
          · exact .inl (List.mem_cons_of_mem _ h)
      · rcases List.mem_cons.mp h with h | h
        · exact .inl (h ▸ List.mem_cons_self ..)
        · rcases ih h with h | h
          · exact .inl (List.mem_cons_of_mem _ h)
          · exact .inr h

/-- A write keeps the keys rising. -/
theorem Store.put_rising (d : Word) (st : Store) (i : Nat) (v : Word) (h : st.Pairwise fun a b => a.1 < b.1) :
    (st.put d i v).Pairwise fun a b => a.1 < b.1 := by
  induction st with
  | nil => unfold Store.put; split <;> simp
  | cons a t ih =>
    obtain ⟨k, w⟩ := a
    have h' := List.pairwise_cons.mp h
    unfold Store.put
    split
    · split
      · exact h
      · refine List.pairwise_cons.mpr ⟨fun b hb => ?_, h⟩
        rcases List.mem_cons.mp hb with hb | hb
        · subst hb; assumption
        · exact Nat.lt_trans ‹_› (h'.1 b hb)
    · split
      · subst_vars
        split
        · exact h'.2
        · exact List.pairwise_cons.mpr ⟨h'.1, h'.2⟩
      · refine List.pairwise_cons.mpr ⟨fun b hb => ?_, ih h'.2⟩
        rcases Store.put_mem _ _ _ _ _ hb with hb | hb
        · exact h'.1 b hb
        · rw [hb.1]; simp only; omega

/-- A write of an object keeps the store canonical. -/
theorem Store.setVal_ok {st : Store} (h : StoreOk st) (cls inst item : Nat) (v : Word) :
    StoreOk (st.setVal cls inst item v) := by
  refine ⟨Store.put_rising _ _ _ _ h.1, fun p hp => ?_⟩
  rcases Store.put_mem _ _ _ _ _ hp with hp | hp
  · exact h.2 p hp
  · rw [hp.1]; exact hp.2

/-- Dropping entries keeps the store canonical. -/
theorem StoreOk.filter {st : Store} (h : StoreOk st) (f : Nat × Word → Bool) : StoreOk (st.filter f) :=
  ⟨h.1.sublist List.filter_sublist, fun p hp => h.2 p (List.mem_of_mem_filter hp)⟩

theorem StoreOk.nil : StoreOk [] := ⟨List.Pairwise.nil, by simp⟩

theorem Store.get_lt (t : Store) (k : Nat) (h : ∀ b ∈ t, k < b.1) : Store.get t k = none := by
  cases t with
  | nil => rfl
  | cons a t =>
    obtain ⟨j, w⟩ := a
    have := h (j, w) (List.mem_cons_self ..)
    simp only at this
    unfold Store.get
    rw [if_neg (by omega), if_pos this]

/-- A read of another place than the one written. -/
theorem Store.get_put_ne (d : Word) (st : Store) (i j : Nat) (v : Word) (hr : st.Pairwise fun a b => a.1 < b.1) (h : j ≠ i) :
    (st.put d i v).get j = st.get j := by
  induction st with
  | nil =>
    unfold Store.put
    split
    · rfl
    · unfold Store.get; rw [if_neg h]; split <;> rfl
  | cons a t ih =>
    obtain ⟨k, w⟩ := a
    have hr' := List.pairwise_cons.mp hr
    unfold Store.put
    split
    · split
      · rfl
      · conv_lhs => unfold Store.get
        rw [if_neg h]
        split
        · rename_i h1 h2
          conv_rhs => unfold Store.get
          rw [if_neg (by omega), if_pos (by omega)]
        · rfl
    · split
      · subst_vars
        split
        · conv_rhs => unfold Store.get
          rw [if_neg h]
          split
          · exact Store.get_lt _ _ fun b hb => Nat.lt_trans ‹_› (hr'.1 b hb)
          · rfl
        · conv_lhs => unfold Store.get
          conv_rhs => unfold Store.get
          rw [if_neg h, if_neg h]
      · conv_lhs => unfold Store.get
        conv_rhs => unfold Store.get
        split
        · rfl
        · split
          · rfl
          · exact ih hr'.2

/-- A read of the place written. -/
theorem Store.get_put_self (d : Word) (st : Store) (i : Nat) (v : Word) (hr : st.Pairwise fun a b => a.1 < b.1) :
    ((st.put d i v).get i).getD d = v := by
  induction st with
  | nil => unfold Store.put; split <;> simp_all [Store.get]
  | cons a t ih =>
    obtain ⟨k, w⟩ := a
    have hr' := List.pairwise_cons.mp hr
    unfold Store.put
    split
    · split
      · rename_i h1 h2
        subst h2
        rw [Store.get_lt _ _ (fun b hb => by
          rcases List.mem_cons.mp hb with hb | hb
          · subst hb; exact h1
          · exact Nat.lt_trans h1 (hr'.1 b hb))]
        rfl
      · unfold Store.get; rw [if_pos rfl]; rfl
    · split
      · subst_vars
        split
        · rename_i h2
          subst h2
          rw [Store.get_lt _ _ fun b hb => hr'.1 b hb]; rfl
        · unfold Store.get; rw [if_pos rfl]; rfl
      · unfold Store.get
        rw [if_neg ‹_›, if_neg (by omega)]
        exact ih hr'.2

/-- Reading an object after writing it. -/
theorem Store.val_setVal {st : Store} (h : StoreOk st) (cls inst item : Nat) (v : Word) :
    (st.setVal cls inst item v).val cls inst item = v := Store.get_put_self _ _ _ _ h.1

/-- Writing an object leaves every object with another key as it is. -/
theorem Store.val_setVal_ne {st : Store} (h : StoreOk st) (cls inst item cls' inst' item' : Nat) (v : Word)
    (hk : objKey cls' inst' item' ≠ objKey cls inst item) :
    (st.setVal cls inst item v).val cls' inst' item' = st.val cls' inst' item' := by
  unfold Store.val Store.setVal
  rw [Store.get_put_ne _ _ _ _ _ h.1 hk]

/-- The store of an image is canonical whatever the image holds. -/
theorem Store.foldl_setVal_ok {α : Type} (l : List α) (f : α → Nat × Nat × Nat × Word) {st : Store} (h : StoreOk st) :
    StoreOk (l.foldl (fun st p => st.setVal (f p).1 (f p).2.1 (f p).2.2.1 (f p).2.2.2) st) := by
  induction l generalizing st with
  | nil => exact h
  | cons a l ih => exact ih (Store.setVal_ok h ..)

/-- Entries of one store written into another. -/
theorem Store.foldl_entries_ok (l : Store) {st : Store} (h : StoreOk st) :
    StoreOk (l.foldl (fun st p => st.setVal (p.1 / 65536) (p.1 / 256 % 256) (p.1 % 256) p.2) st) := by
  induction l generalizing st with
  | nil => exact h
  | cons a l ih => exact ih (Store.setVal_ok h ..)

end Sys2Proof.Machine
end

