-- ==== Sys2Proof/Laws/Keeps.lean ====
section
/-! SUPPORT. What every operation of the machine keeps: the queue of commands, the metrological evidence, and orderly
stores. One relation, reflexive and transitive, so that each operation's lemma cites those of the operations it calls. -/

namespace Sys2Proof.Machine

/-- From s to t the queue stands, evidence stands, and order is kept. -/
structure Keeps (s t : State) : Prop where
  queue : t.pending = s.pending
  evidence : EvidenceStands s.meter t.meter
  orderly : Orderly s → Orderly t

theorem evidence_refl (m : MeterState) : EvidenceStands m m := ⟨le_refl _, le_refl _, List.prefix_refl _⟩

theorem evidence_trans {a b c : MeterState} (h : EvidenceStands a b) (h' : EvidenceStands b c) : EvidenceStands a c :=
  ⟨le_trans h.1 h'.1, le_trans h.2.1 h'.2.1, h.2.2.trans h'.2.2⟩

theorem Keeps.refl (s : State) : Keeps s s := ⟨rfl, evidence_refl _, id⟩

theorem Keeps.trans {a b c : State} (h : Keeps a b) (h' : Keeps b c) : Keeps a c :=
  ⟨h'.queue.trans h.queue, evidence_trans h.evidence h'.evidence, h'.orderly ∘ h.orderly⟩

/-- A state on the way. -/
theorem Keeps.cut {s t y : State} (h : Keeps s y) (h' : Keeps s y → Keeps s t) : Keeps s t := h' h

theorem Keeps.ite {c : Prop} [Decidable c] {s a b : State} (h : Keeps s a) (h' : Keeps s b) : Keeps s (if c then a else b) := by
  split
  · exact h
  · exact h'

theorem Keeps.dite {c : Prop} [Decidable c] {s : State} {a : c → State} {b : ¬c → State} (h : ∀ q, Keeps s (a q))
    (h' : ∀ q, Keeps s (b q)) : Keeps s (if q : c then a q else b q) := by
  split
  · exact h _
  · exact h' _

/-- What the relation does not look at may change freely. -/
theorem Keeps.mk_free {s x : State} (h : Keeps s x) (now free edgeQueue clk time phases rails ports domains feeds cmps temps
    tune twin mb cfg fw nvm dev) :
    Keeps s ⟨x.pending, now, free, x.objs, edgeQueue, clk, time, phases, rails, ports, domains, feeds, cmps, temps, tune,
      twin, x.meter, x.recd, mb, cfg, fw, nvm, dev⟩ :=
  h.trans ⟨rfl, evidence_refl _, fun o => ⟨o.store, o.ring, o.spare, o.ram, o.hold, o.intervals, o.audit⟩⟩

/-- A canonical object store may take the place of another. -/
theorem Keeps.mk_objs {s x : State} (h : Keeps s x) (now free) {objs : Store} (hs : StoreOk x.objs → StoreOk objs)
    (edgeQueue clk time phases rails ports domains feeds cmps temps tune twin mb cfg fw nvm dev) :
    Keeps s ⟨x.pending, now, free, objs, edgeQueue, clk, time, phases, rails, ports, domains, feeds, cmps, temps, tune,
      twin, x.meter, x.recd, mb, cfg, fw, nvm, dev⟩ :=
  h.trans ⟨rfl, evidence_refl _, fun o => ⟨hs o.store, o.ring, o.spare, o.ram, o.hold, o.intervals, o.audit⟩⟩

theorem Keeps.forEach {α : Type} {l : List α} {f : State → α → State} {s : State} (h : ∀ s a, Keeps s (f s a)) :
    Keeps s (forEach l f s) := by
  unfold Machine.forEach
  induction l generalizing s with
  | nil => exact .refl _
  | cons a l ih => exact (h s a).trans ih

theorem Keeps.foldl {α : Type} {l : List α} {f : State → α → State} {s : State} (h : ∀ s a, Keeps s (f s a)) :
    Keeps s (l.foldl f s) := Keeps.forEach h

theorem Keeps.forEach_from {α : Type} {l : List α} {f : State → α → State} {s x : State} (h : Keeps s x)
    (hf : ∀ s a, Keeps s (f s a)) : Keeps s (Machine.forEach l f x) := h.trans (Keeps.forEach hf)

theorem Keeps.foldl_from {α : Type} {l : List α} {f : State → α → State} {s x : State} (h : Keeps s x)
    (hf : ∀ s a, Keeps s (f s a)) : Keeps s (l.foldl f x) := h.trans (Keeps.forEach hf)

theorem State.setObj_keeps (s : State) (cls inst item : Nat) (v : Word) : Keeps s (s.setObj cls inst item v) :=
  .mk_objs (.refl s) _ _ (fun h => Store.setVal_ok h ..) ..

/-! The recorder: no log grows beyond its memory -/

/-- The recorder's logs within their memories. -/
def RecFits (x : RecState) : Prop := x.ring.length ≤ 16384 ∧ x.spare.length ≤ 256 ∧ x.ram.length ≤ 512 ∧ x.hold.length ≤ 256

theorem State.modRec_keeps {s : State} {f : RecState → RecState} (h : RecFits s.recd → RecFits (f s.recd)) :
    Keeps s (s.modRec f) :=
  ⟨rfl, evidence_refl _, fun o =>
    have q := h ⟨o.ring, o.spare, o.ram, o.hold⟩
    ⟨o.store, q.1, q.2.1, q.2.2.1, q.2.2.2, o.intervals, o.audit⟩⟩

theorem State.count_keeps (s : State) (cls inst item : Nat) : Keeps s (s.count cls inst item) := State.setObj_keeps ..
theorem State.countN_keeps (s : State) (cls inst item n : Nat) : Keeps s (s.countN cls inst item n) := State.setObj_keeps ..
theorem State.countLost_keeps (s : State) (n : Nat) : Keeps s (s.countLost n) := State.setObj_keeps ..

theorem State.toTwin_keeps (s : State) (m : TwinMsg) : Keeps s (s.toTwin m) := by
  unfold State.toTwin
  split
  · exact .refl s
  · exact .mk_free (.refl s) ..

theorem State.pushRing_keeps (s : State) (r : Rec) : Keeps s (s.pushRing r) := by
  unfold State.pushRing
  refine State.modRec_keeps fun h => ⟨?_, h.2⟩
  have := h.1
  by_cases hf : 16384 ≤ s.recd.ring.length <;> simp [hf] <;> omega

theorem State.armRec_keeps (s : State) : Keeps s s.armRec := .mk_free (.refl s) ..

theorem State.pushRam_keeps (s : State) (r : Rec) : Keeps s (s.pushRam r) := by
  unfold State.pushRam
  extract_lets y
  have hy : Keeps s y := State.armRec_keeps s
  clear_value y
  split
  · refine hy.trans (State.modRec_keeps fun h => ⟨h.1, h.2.1, ?_, h.2.2.2⟩)
    simp only [List.length_append, List.length_singleton]; omega
  · refine (hy.trans (State.countLost_keeps y 1)).trans (State.modRec_keeps fun h => ⟨h.1, h.2.1, ?_, h.2.2.2⟩)
    have := h.2.2.1
    simp only [List.length_append, List.length_singleton, List.length_drop]; omega

theorem State.loseReserve_keeps (s : State) : Keeps s s.loseReserve :=
  (State.countLost_keeps s 1).trans (State.modRec_keeps fun h => h)

theorem State.mediaFault_keeps (s : State) (r : Rec) (n : Nat) : Keeps s (s.mediaFault r n) := by
  unfold State.mediaFault
  extract_lets y lf
  have hy : Keeps s y := State.modRec_keeps fun h => h
  clear_value y
  refine hy.trans (Keeps.ite ?_ ?_)
  · exact ((State.pushRam_keeps ..).trans (State.modRec_keeps fun h => h)).trans (State.toTwin_keeps ..)
  · exact (State.modRec_keeps fun h => h).trans (State.loseReserve_keeps _)

theorem State.commitRec_keeps (s : State) (r : Rec) (n : Nat) : Keeps s (s.commitRec r n) := by
  unfold State.commitRec
  split
  · exact State.pushRam_keeps ..
  · split
    · exact State.pushRing_keeps ..
    · extract_lets a b
      have ha : Keeps s a := State.count_keeps ..
      clear_value a
      have hb : Keeps s b := by
        refine ha.trans ?_
        simp only [b]
        split
        · rename_i h'
          refine State.modRec_keeps fun h => ⟨h.1, ?_, h.2.2⟩
          have h2 : a.recd.spare.length < 256 := by simpa using (Bool.and_eq_true_iff.mp h').2
          simp only [List.length_append, List.length_singleton]; omega
        · exact (State.count_keeps ..).trans (State.pushRam_keeps ..)
      exact hb.trans (State.mediaFault_keeps ..)

theorem State.raiseReserve_keeps (s : State) : Keeps s s.raiseReserve := by
  unfold State.raiseReserve
  split
  · exact .refl s
  · split <;> exact State.modRec_keeps fun h => h

/-- A record finds room where the hold queue is not full. -/
theorem State.place_keeps {s : State} (r : Rec) (h : s.holdFull = false) : Keeps s (s.place r) := by
  unfold State.place
  split
  · rename_i hf
    have : s.recd.hold.length < 256 := by simpa [State.holdFull, hf] using h
    refine State.modRec_keeps fun h => ⟨h.1, h.2.1, h.2.2.1, ?_⟩
    simp only [List.length_append, List.length_singleton]; omega
  · exact State.commitRec_keeps ..

theorem State.writeKeptReserve_keeps (s : State) : Keeps s s.writeKeptReserve := by
  unfold State.writeKeptReserve
  split
  · exact .refl s
  · extract_lets r y
    have hy : Keeps s y := State.modRec_keeps fun h => h
    split
    · exact hy
    · rename_i hf
      exact (hy.trans (State.modRec_keeps fun h => h)).trans (State.place_keeps _ (Bool.eq_false_iff.mpr hf))

theorem State.takeSnap_keeps (s : State) (seq code : Nat) (r : RailIx) (cause : Nat) : Keeps s (s.takeSnap seq code r cause) := by
  unfold State.takeSnap
  extract_lets body y
  have hy : Keeps s y := .mk_free (.refl s) ..
  exact hy.trans (State.modRec_keeps fun h => h)

theorem State.emit_keeps (s : State) (e : Ev) : Keeps s (s.emit e) := by
  unfold State.emit
  extract_lets a
  have ha : Keeps s a := State.raiseReserve_keeps s
  clear_value a
  split
  · exact ha.trans (State.loseReserve_keeps a)
  · rename_i b n flags r c relayed d _
    have hb : Keeps s b := ha.trans (State.writeKeptReserve_keeps a)
    have hc : Keeps s c := by
      refine hb.trans ?_
      simp only [c]
      exact Keeps.forEach fun _ _ => State.takeSnap_keeps ..
    have hd : Keeps s d := by
      refine hc.trans ?_
      simp only [d]
      split
      · exact State.toTwin_keeps ..
      · exact .refl _
    split
    · refine (hd.trans (State.countLost_keeps d 1)).trans (State.modRec_keeps fun h => ?_)
      split <;> exact h
    · rename_i hf
      exact (hd.trans (State.modRec_keeps fun h => h)).trans (State.place_keeps _ (Bool.eq_false_iff.mpr hf))

theorem State.event_keeps (s : State) (e : Ev) : Keeps s (s.event e) := by
  unfold State.event
  split
  · exact State.modRec_keeps fun h => h
  · exact State.emit_keeps ..

theorem State.record_keeps (s : State) (code cls inst sub : Nat) (data : List Byte) :
    Keeps s (s.record code cls inst sub data) := State.event_keeps ..

theorem State.recordSnap_keeps (s : State) (code cls inst sub : Nat) (data : List Byte) (r : RailIx) (cause : Nat) :
    Keeps s (s.recordSnap code cls inst sub data r cause) := State.event_keeps ..

theorem State.openBatch_keeps (s : State) : Keeps s s.openBatch := State.modRec_keeps fun h => h

theorem State.closeBatch_keeps (s : State) : Keeps s s.closeBatch := by
  unfold State.closeBatch
  split
  · exact .refl s
  · exact Keeps.trans (State.modRec_keeps fun h => h) (Keeps.forEach State.emit_keeps)

theorem State.disarmRec_keeps (s : State) : Keeps s s.disarmRec := by
  unfold State.disarmRec
  split
  · exact .mk_free (.refl s) ..
  · exact .refl s

theorem State.thaw_keeps (s : State) : Keeps s s.thaw := by
  unfold State.thaw
  split
  · exact .refl s
  · extract_lets kept held y
    have hy : Keeps s y := State.modRec_keeps fun h => ⟨h.1, h.2.1, h.2.2.1, Nat.zero_le _⟩
    exact (hy.trans (Keeps.forEach fun s a => State.commitRec_keeps ..)).trans (State.disarmRec_keeps _)

theorem State.drainRam_keeps (s : State) : Keeps s s.drainRam := by
  unfold State.drainRam
  extract_lets waiting kept y
  have hy : Keeps s y := State.modRec_keeps fun h => ⟨h.1, h.2.1, Nat.zero_le _, h.2.2.2⟩
  exact (hy.trans (Keeps.forEach fun s a => State.commitRec_keeps ..)).trans (State.disarmRec_keeps _)

/-! The meter: evidence only grows, no log grows beyond its memory -/

theorem State.modMeter_keeps {s : State} {f : MeterState → MeterState} (he : EvidenceStands s.meter (f s.meter))
    (hi : s.meter.intervals.length ≤ 10240 → (f s.meter).intervals.length ≤ 10240)
    (ha : s.meter.audit.length ≤ 2048 → (f s.meter).audit.length ≤ 2048) : Keeps s (s.modMeter f) :=
  ⟨rfl, he, fun o => ⟨o.store, o.ring, o.spare, o.ram, o.hold, hi o.intervals, ha o.audit⟩⟩

/-- A change of the meter that leaves its logs, numbers and SEAL_COUNT alone. -/
theorem State.modMeter_keeps_same {s : State} {f : MeterState → MeterState}
    (h : (f s.meter).sealCount = s.meter.sealCount ∧ (f s.meter).ivNext = s.meter.ivNext ∧
      (f s.meter).audit = s.meter.audit ∧ (f s.meter).intervals = s.meter.intervals) : Keeps s (s.modMeter f) :=
  State.modMeter_keeps ⟨h.1.ge, h.2.1.ge, h.2.2.1 ▸ List.prefix_refl _⟩ (fun q => h.2.2.2 ▸ q) (fun q => h.2.2.1 ▸ q)

theorem State.closeIv_keeps (s : State) (endAt : Rat) (flags : Nat) : Keeps s (s.closeIv endAt flags) := by
  unfold State.closeIv
  generalize s.meterPoints = l
  suffices h : ∀ m : MeterState, let m' := l.foldl (fun m i => State.pushIv m (State.ivRec m i endAt flags)) m
      EvidenceStands m m' ∧ (m.intervals.length ≤ 10240 → m'.intervals.length ≤ 10240) ∧ m'.audit = m.audit from
    State.modMeter_keeps (h s.meter).1 (h s.meter).2.1 (fun q => (h s.meter).2.2 ▸ q)
  induction l with
  | nil => exact fun m => ⟨evidence_refl m, id, rfl⟩
  | cons a l ih =>
    intro m
    have h1 := ih (State.pushIv m (State.ivRec m a endAt flags))
    have h0 : EvidenceStands m (State.pushIv m (State.ivRec m a endAt flags)) :=
      ⟨le_refl _, Nat.le_succ m.ivNext, List.prefix_refl _⟩
    refine ⟨evidence_trans h0 h1.1, fun q => h1.2.1 ?_, h1.2.2⟩
    unfold State.pushIv
    by_cases hf : 10240 ≤ m.intervals.length <;> simp [hf] <;> omega

theorem State.openIv_same (m : MeterState) (startAt : Rat) (flags : Nat) :
    (State.openIv m startAt flags).sealCount = m.sealCount ∧ (State.openIv m startAt flags).ivNext = m.ivNext ∧
      (State.openIv m startAt flags).audit = m.audit ∧ (State.openIv m startAt flags).intervals = m.intervals :=
  ⟨rfl, rfl, rfl, rfl⟩

theorem State.auditAdd_keeps (s : State) (interval kind point old new : Nat) :
    Keeps s (s.auditAdd interval kind point old new) := by
  unfold State.auditAdd
  by_cases h : 2048 ≤ s.meter.audit.length
  · exact State.modMeter_keeps_same (by simp [h])
  · refine State.modMeter_keeps ?_ ?_ ?_
    · simp [h, EvidenceStands]
    · simp [h]
    · intro _; simp [h]; omega

end Sys2Proof.Machine
end

