-- ==== Sys2Proof/Laws/KeepsOps.lean ====
section
/-! SUPPORT. What the shared operations: registers, records, the saved states, phases and rails keep (see Laws/Keeps.lean). Each proof walks its function's body in order: a let is a state on the
way, a branch is two cases, a call cites the lemma of what it calls. -/

namespace Sys2Proof.Machine

/-! Ops -/

theorem State.countIf_keeps (s : State) (b : Bool) (cls inst item : Nat) : Keeps s (State.countIf s b cls inst
    item) := by
  unfold State.countIf
  with_reducible refine Keeps.ite ?_ ?_
  with_reducible exact State.count_keeps ..
  with_reducible exact Keeps.refl _

theorem State.modRail_keeps (s : State) (r : RailIx) (f : RailState → RailState) : Keeps s (State.modRail s r f) := by
  unfold State.modRail
  with_reducible refine Keeps.mk_free ?_ ..
  with_reducible exact Keeps.refl _

theorem State.modPhase_keeps (s : State) (n : PhaseIx) (f : PhaseState → PhaseState) : Keeps s (State.modPhase s n
    f) := by
  unfold State.modPhase
  with_reducible refine Keeps.mk_free ?_ ..
  with_reducible exact Keeps.refl _

theorem State.modGen_keeps (s : State) (n : PhaseIx) (f : GenState → GenState) : Keeps s (State.modGen s n f) := by
  unfold State.modGen
  with_reducible exact State.modPhase_keeps ..

theorem State.modSense_keeps (s : State) (n : PhaseIx) (f : SenseState → SenseState) : Keeps s (State.modSense s n
    f) := by
  unfold State.modSense
  with_reducible exact State.modPhase_keeps ..

theorem State.modPort_keeps (s : State) (p : PortIx) (f : PortState → PortState) : Keeps s (State.modPort s p f) := by
  unfold State.modPort
  with_reducible refine Keeps.mk_free ?_ ..
  with_reducible exact Keeps.refl _

theorem State.modDomain_keeps (s : State) (d : DomainIx) (f : DomainState → DomainState) : Keeps s (State.modDomain
    s d f) := by
  unfold State.modDomain
  with_reducible refine Keeps.mk_free ?_ ..
  with_reducible exact Keeps.refl _

theorem State.modCmp_keeps (s : State) (c : CmpIx) (f : CmpState → CmpState) : Keeps s (State.modCmp s c f) := by
  unfold State.modCmp
  with_reducible refine Keeps.mk_free ?_ ..
  with_reducible exact Keeps.refl _

theorem State.modTemp_keeps (s : State) (i : TempIx) (f : TempState → TempState) : Keeps s (State.modTemp s i f) := by
  unfold State.modTemp
  with_reducible refine Keeps.mk_free ?_ ..
  with_reducible exact Keeps.refl _

theorem State.modSlot_keeps (s : State) (k : SlotIx) (f : Slot → Slot) : Keeps s (State.modSlot s k f) := by
  unfold State.modSlot
  with_reducible refine Keeps.mk_free ?_ ..
  with_reducible exact Keeps.refl _

theorem State.modLaw_keeps (s : State) (r : RailIx) (f : LawState → LawState) : Keeps s (State.modLaw s r f) := by
  unfold State.modLaw
  with_reducible exact State.modRail_keeps ..

theorem State.modMeas_keeps (s : State) (r : RailIx) (f : MeasState → MeasState) : Keeps s (State.modMeas s r f) := by
  unfold State.modMeas
  with_reducible exact State.modRail_keeps ..

theorem State.modProf_keeps (s : State) (r : RailIx) (f : ProfState → ProfState) : Keeps s (State.modProf s r f) := by
  unfold State.modProf
  with_reducible exact State.modRail_keeps ..

theorem State.modFf_keeps (s : State) (r : RailIx) (f : FfState → FfState) : Keeps s (State.modFf s r f) := by
  unfold State.modFf
  with_reducible exact State.modRail_keeps ..

theorem State.modLt_keeps (s : State) (r : RailIx) (f : LtState → LtState) : Keeps s (State.modLt s r f) := by
  unfold State.modLt
  with_reducible exact State.modRail_keeps ..

theorem State.modPlc_keeps (s : State) (r : RailIx) (f : PlcState → PlcState) : Keeps s (State.modPlc s r f) := by
  unfold State.modPlc
  with_reducible exact State.modRail_keeps ..

theorem State.modProt_keeps (s : State) (r : RailIx) (f : ProtState → ProtState) : Keeps s (State.modProt s r f) := by
  unfold State.modProt
  with_reducible exact State.modRail_keeps ..

theorem State.modSeq_keeps (s : State) (r : RailIx) (f : SeqState → SeqState) : Keeps s (State.modSeq s r f) := by
  unfold State.modSeq
  with_reducible exact State.modRail_keeps ..

theorem State.modFuse_keeps (s : State) (r : RailIx) (f : FuseState → FuseState) : Keeps s (State.modFuse s r f) := by
  unfold State.modFuse
  with_reducible exact State.modRail_keeps ..

theorem State.irq_keeps (s : State) (k : Fin 16) : Keeps s (State.irq s k) := by
  unfold State.irq
  extract_lets +onlyGivenNames y; clear_value y
  extract_lets +onlyGivenNames y; clear_value y
  with_reducible refine Keeps.mk_free ?_ ..
  with_reducible exact Keeps.refl _

theorem State.irqIf_keeps (s : State) (b : Bool) (k : Fin 16) : Keeps s (State.irqIf s b k) := by
  unfold State.irqIf
  with_reducible refine Keeps.ite ?_ ?_
  with_reducible exact State.irq_keeps ..
  with_reducible exact Keeps.refl _

/-! Flags -/

theorem State.modFeed_keeps (s : State) (x : FeedId) (f : FeedOne → FeedOne) : Keeps s (State.modFeed s x f) := by
  unfold State.modFeed
  split
  with_reducible refine Keeps.mk_free ?_ ..
  with_reducible exact Keeps.refl _
  with_reducible refine Keeps.mk_free ?_ ..
  with_reducible exact Keeps.refl _

theorem State.refreshFlt_keeps (s : State) : Keeps s (State.refreshFlt s) := by
  unfold State.refreshFlt
  extract_lets +onlyGivenNames y; clear_value y
  extract_lets +onlyGivenNames y; clear_value y
  extract_lets +onlyGivenNames y; clear_value y
  extract_lets +onlyGivenNames y; refine Keeps.cut (y := y) ?_ ?_; unfold y; clear y
  with_reducible refine Keeps.mk_free ?_ ..
  with_reducible exact Keeps.refl _
  intro _; clear_value y
  with_reducible refine Keeps.trans ?_ (State.irqIf_keeps ..)
  assumption

theorem State.refreshPg_keeps (s : State) : Keeps s (State.refreshPg s) := by
  unfold State.refreshPg
  extract_lets +onlyGivenNames y; clear_value y
  extract_lets +onlyGivenNames y; clear_value y
  extract_lets +onlyGivenNames y; clear_value y
  extract_lets +onlyGivenNames y; refine Keeps.cut (y := y) ?_ ?_; unfold y; clear y
  with_reducible refine Keeps.mk_free ?_ ..
  with_reducible exact Keeps.refl _
  intro _; clear_value y
  with_reducible refine Keeps.trans ?_ (State.irqIf_keeps ..)
  assumption

theorem State.refreshFstat_keeps (s : State) : Keeps s (State.refreshFstat s) := by
  unfold State.refreshFstat
  extract_lets +onlyGivenNames y; clear_value y
  extract_lets +onlyGivenNames y; clear_value y
  extract_lets +onlyGivenNames y; clear_value y
  extract_lets +onlyGivenNames y; refine Keeps.cut (y := y) ?_ ?_; unfold y; clear y
  with_reducible refine Keeps.mk_free ?_ ..
  with_reducible exact Keeps.refl _
  intro _; clear_value y
  with_reducible refine Keeps.trans ?_ (State.irqIf_keeps ..)
  assumption

/-! Recorder -/

theorem State.recordIf_keeps (s : State) (b : Bool) (code cls inst sub : Nat) (data : List Byte) : Keeps s
    (State.recordIf s b code cls inst sub data) := by
  unfold State.recordIf
  with_reducible refine Keeps.ite ?_ ?_
  with_reducible exact State.record_keeps ..
  with_reducible exact Keeps.refl _

theorem State.anchor_keeps (s : State) (sub : Nat) : Keeps s (State.anchor s sub) := by
  unfold State.anchor
  extract_lets +onlyGivenNames y; refine Keeps.cut (y := y) ?_ ?_; unfold y; clear y
  with_reducible exact State.record_keeps ..
  intro _; clear_value y
  with_reducible refine Keeps.mk_free ?_ ..
  assumption

/-! Nvm -/

theorem State.modNvm_keeps (s : State) (f : NvmState → NvmState) : Keeps s (State.modNvm s f) := by
  unfold State.modNvm
  with_reducible refine Keeps.mk_free ?_ ..
  with_reducible exact Keeps.refl _

theorem State.storePattern_keeps (s : State) (r : Nat) (k : PatSave) : Keeps s (State.storePattern s r k) := by
  unfold State.storePattern
  extract_lets +onlyGivenNames y; refine Keeps.cut (y := y) ?_ ?_; unfold y; clear y
  with_reducible exact State.modNvm_keeps ..
  intro _; clear_value y
  refine Keeps.dite (fun _ => ?_) (fun _ => ?_)
  with_reducible refine Keeps.trans ?_ (State.modFf_keeps ..)
  assumption
  assumption

theorem State.writeSave_keeps (s : State) (x : Deferred) : Keeps s (s.writeSave x) := by
  unfold State.writeSave; split
  · exact State.modNvm_keeps ..
  · exact State.modNvm_keeps ..
  · exact State.modNvm_keeps ..
  · exact State.modNvm_keeps ..
  · exact State.storePattern_keeps ..

theorem State.save_keeps (s : State) (d : Deferred) : Keeps s (State.save s d) := by
  unfold State.save
  with_reducible refine Keeps.ite ?_ ?_
  with_reducible exact State.writeSave_keeps ..
  extract_lets +onlyGivenNames y; clear_value y
  with_reducible refine Keeps.ite ?_ ?_
  with_reducible exact State.modNvm_keeps ..
  with_reducible exact State.record_keeps ..

theorem State.flushSaves_keeps (s : State) : Keeps s (State.flushSaves s) := by
  unfold State.flushSaves
  extract_lets +onlyGivenNames y; clear_value y
  with_reducible refine Keeps.forEach_from ?_ fun _ _ => ?_
  with_reducible exact State.modNvm_keeps ..
  with_reducible exact State.writeSave_keeps ..

theorem State.saveCounters_keeps (s : State) : Keeps s (State.saveCounters s) := by
  unfold State.saveCounters
  with_reducible exact State.save_keeps ..

theorem State.saveQacc_keeps (s : State) : Keeps s (State.saveQacc s) := by
  unfold State.saveQacc
  with_reducible exact State.save_keeps ..

theorem State.saveZeros_keeps (s : State) : Keeps s (State.saveZeros s) := by
  unfold State.saveZeros
  with_reducible exact State.save_keeps ..

theorem State.saveFuses_keeps (s : State) : Keeps s (State.saveFuses s) := by
  unfold State.saveFuses
  with_reducible exact State.save_keeps ..

/-! Phases -/

theorem State.dropCarry_keeps (s : State) (n : PhaseIx) : Keeps s (State.dropCarry s n) := by
  unfold State.dropCarry
  with_reducible refine Keeps.ite ?_ ?_
  with_reducible exact Keeps.refl _
  with_reducible refine Keeps.trans ?_ (State.modGen_keeps ..)
  with_reducible exact State.count_keeps ..

theorem State.endPeriod_keeps (s : State) (n : PhaseIx) : Keeps s (State.endPeriod s n) := by
  unfold State.endPeriod
  with_reducible exact State.modGen_keeps ..

theorem State.idlePeriod_keeps (s : State) (n : PhaseIx) : Keeps s (State.idlePeriod s n) := by
  unfold State.idlePeriod
  with_reducible refine Keeps.trans ?_ (State.modGen_keeps ..)
  with_reducible exact State.dropCarry_keeps ..

theorem State.pulsePeriod_keeps (s : State) (n : PhaseIx) (set : PhaseSet) (d p : Nat) : Keeps s (State.pulsePeriod
    s n set d p) := by
  unfold State.pulsePeriod
  extract_lets +onlyGivenNames y; clear_value y
  extract_lets +onlyGivenNames y; clear_value y
  extract_lets +onlyGivenNames y; refine Keeps.cut (y := y) ?_ ?_; unfold y; clear y
  with_reducible exact State.countN_keeps ..
  intro _; clear_value y
  extract_lets +onlyGivenNames y; refine Keeps.cut (y := y) ?_ ?_; unfold y; clear y
  with_reducible refine Keeps.trans ?_ (State.countN_keeps ..)
  assumption
  intro _; clear_value y
  extract_lets +onlyGivenNames y; refine Keeps.cut (y := y) ?_ ?_; unfold y; clear y
  with_reducible refine Keeps.trans ?_ (State.countN_keeps ..)
  assumption
  intro _; clear_value y
  with_reducible refine Keeps.trans ?_ (State.modGen_keeps ..)
  assumption

theorem State.startCarrier_keeps (s : State) (n : PhaseIx) (r : RailIx) : Keeps s (State.startCarrier s n r) := by
  unfold State.startCarrier
  extract_lets +onlyGivenNames y; clear_value y
  extract_lets +onlyGivenNames y; clear_value y
  extract_lets +onlyGivenNames y; clear_value y
  extract_lets +onlyGivenNames y; clear_value y
  extract_lets +onlyGivenNames y; clear_value y
  extract_lets +onlyGivenNames y; clear_value y
  extract_lets +onlyGivenNames y; clear_value y
  extract_lets +onlyGivenNames y; clear_value y
  extract_lets +onlyGivenNames y; refine Keeps.cut (y := y) ?_ ?_; unfold y; clear y
  with_reducible exact State.modGen_keeps ..
  intro _; clear_value y
  with_reducible refine Keeps.ite ?_ ?_
  with_reducible refine Keeps.trans ?_ (State.modRail_keeps ..)
  assumption
  assumption

theorem State.applyForce_keeps (s : State) (n : PhaseIx) : Keeps s (State.applyForce s n) := by
  unfold State.applyForce
  with_reducible exact State.modGen_keeps ..

theorem State.placeCarrier_keeps (s : State) (n : PhaseIx) (r : RailIx) : Keeps s (State.placeCarrier s n r) := by
  unfold State.placeCarrier
  with_reducible refine Keeps.ite ?_ ?_
  with_reducible exact Keeps.refl _
  extract_lets +onlyGivenNames y; clear_value y
  extract_lets +onlyGivenNames y; clear_value y
  extract_lets +onlyGivenNames y; clear_value y
  extract_lets +onlyGivenNames y; clear_value y
  with_reducible exact State.modGen_keeps ..

theorem State.beginSkim_keeps (s : State) (n : PhaseIx) (r : RailIx) : Keeps s (State.beginSkim s n r) := by
  unfold State.beginSkim
  with_reducible refine Keeps.ite ?_ ?_
  with_reducible exact State.modPlc_keeps ..
  with_reducible exact Keeps.refl _

theorem State.startPeriod_keeps (s : State) (n : PhaseIx) (r : RailIx) : Keeps s (State.startPeriod s n r) := by
  unfold State.startPeriod
  extract_lets +onlyGivenNames y; refine Keeps.cut (y := y) ?_ ?_; unfold y; clear y
  with_reducible exact State.endPeriod_keeps ..
  intro _; clear_value y
  extract_lets +onlyGivenNames y; clear_value y
  extract_lets +onlyGivenNames y; clear_value y
  extract_lets +onlyGivenNames y; refine Keeps.cut (y := y) ?_ ?_; unfold y; clear y
  with_reducible refine Keeps.trans ?_ (State.beginSkim_keeps ..)
  with_reducible refine Keeps.trans ?_ (State.startCarrier_keeps ..)
  assumption
  intro _; clear_value y
  extract_lets +onlyGivenNames y; clear_value y
  extract_lets +onlyGivenNames y; refine Keeps.cut (y := y) ?_ ?_; unfold y; clear y
  with_reducible refine Keeps.trans ?_ (State.applyForce_keeps ..)
  assumption
  intro _; clear_value y
  extract_lets +onlyGivenNames y; clear_value y
  with_reducible refine Keeps.ite ?_ ?_
  with_reducible refine Keeps.trans ?_ (State.pulsePeriod_keeps ..)
  assumption
  with_reducible refine Keeps.trans ?_ (State.idlePeriod_keeps ..)
  assumption

theorem State.midReload_keeps (s : State) (n : PhaseIx) : Keeps s (State.midReload s n) := by
  unfold State.midReload
  extract_lets +onlyGivenNames y; clear_value y
  extract_lets +onlyGivenNames y; clear_value y
  extract_lets +onlyGivenNames y; clear_value y
  extract_lets +onlyGivenNames y; clear_value y
  extract_lets +onlyGivenNames y; clear_value y
  extract_lets +onlyGivenNames y; clear_value y
  extract_lets +onlyGivenNames y; refine Keeps.cut (y := y) ?_ ?_; unfold y; clear y
  with_reducible exact State.modGen_keeps ..
  intro _; clear_value y
  split
  assumption
  with_reducible refine Keeps.ite ?_ ?_
  assumption
  extract_lets +onlyGivenNames y; clear_value y
  with_reducible refine Keeps.trans ?_ (State.modGen_keeps ..)
  with_reducible refine Keeps.trans ?_ (State.countN_keeps ..)
  assumption

theorem State.tripAt_keeps (s : State) (n : PhaseIx) (pos : Nat) : Keeps s (State.tripAt s n pos) := by
  unfold State.tripAt
  extract_lets +onlyGivenNames y; clear_value y
  split
  with_reducible refine Keeps.ite ?_ ?_
  with_reducible exact Keeps.refl _
  extract_lets +onlyGivenNames y; refine Keeps.cut (y := y) ?_ ?_; unfold y; clear y
  with_reducible exact State.count_keeps ..
  intro _; clear_value y
  extract_lets +onlyGivenNames y; refine Keeps.cut (y := y) ?_ ?_; unfold y; clear y
  with_reducible refine Keeps.trans ?_ (State.dropCarry_keeps ..)
  assumption
  intro _; clear_value y
  with_reducible refine Keeps.trans ?_ (State.modGen_keeps ..)
  assumption
  with_reducible exact Keeps.refl _

theorem State.tripInput_keeps (s : State) (n : PhaseIx) (tick : Nat) : Keeps s (State.tripInput s n tick) := by
  unfold State.tripInput
  extract_lets +onlyGivenNames y; clear_value y
  with_reducible refine Keeps.ite ?_ ?_
  with_reducible exact Keeps.refl _
  with_reducible exact State.tripAt_keeps ..

theorem State.levelTrip_keeps (s : State) (n : PhaseIx) : Keeps s (State.levelTrip s n) := by
  unfold State.levelTrip
  split
  with_reducible exact Keeps.refl _
  with_reducible refine Keeps.ite ?_ ?_
  with_reducible exact State.tripAt_keeps ..
  with_reducible exact Keeps.refl _

theorem State.latchPhase_keeps (s : State) (n : PhaseIx) (r : RailIx) : Keeps s (State.latchPhase s n r) := by
  unfold State.latchPhase
  extract_lets +onlyGivenNames y; refine Keeps.cut (y := y) ?_ ?_; unfold y; clear y
  with_reducible exact State.dropCarry_keeps ..
  intro _; clear_value y
  extract_lets +onlyGivenNames y; refine Keeps.cut (y := y) ?_ ?_; unfold y; clear y
  with_reducible refine Keeps.trans ?_ (State.count_keeps ..)
  assumption
  intro _; clear_value y
  extract_lets +onlyGivenNames y; refine Keeps.cut (y := y) ?_ ?_; unfold y; clear y
  with_reducible refine Keeps.trans ?_ (State.modGen_keeps ..)
  assumption
  intro _; clear_value y
  with_reducible refine Keeps.trans ?_ (State.record_keeps ..)
  assumption

theorem State.alignCarriers_keeps (s : State) : Keeps s (State.alignCarriers s) := by
  unfold State.alignCarriers
  with_reducible refine Keeps.forEach_from ?_ fun _ _ => ?_
  with_reducible exact Keeps.refl _
  with_reducible refine Keeps.ite ?_ ?_
  with_reducible exact Keeps.refl _
  with_reducible exact State.modRail_keeps ..

/-! Rails -/

theorem State.finish_keeps (s : State) (k : SlotIx) (status : Nat) (payload : List Byte) : Keeps s (State.finish s
    k status payload) := by
  unfold State.finish
  with_reducible exact State.modSlot_keeps ..

theorem State.finishOpt_keeps (s : State) (k : Option SlotIx) (status : Nat) (payload : List Byte) : Keeps s
    (State.finishOpt s k status payload) := by
  unfold State.finishOpt
  split
  with_reducible exact State.finish_keeps ..
  with_reducible exact Keeps.refl _

theorem State.gatherSet_keeps (s : State) (k : SlotIx) (i code : Nat) (clamped : Bool) : Keeps s (State.gatherSet s
    k i code clamped) := by
  unfold State.gatherSet
  extract_lets +onlyGivenNames y
  extract_lets +onlyGivenNames y; clear_value y
  extract_lets +onlyGivenNames y; clear_value y
  extract_lets +onlyGivenNames y; refine Keeps.cut (y := y) ?_ ?_; unfold y; clear y
  with_reducible refine Keeps.mk_free ?_ ..
  with_reducible exact Keeps.refl _
  intro _; clear_value y
  split
  assumption
  with_reducible refine Keeps.ite ?_ ?_
  extract_lets +onlyGivenNames y; clear_value y
  extract_lets +onlyGivenNames y; clear_value y
  extract_lets +onlyGivenNames y; refine Keeps.cut (y := y) ?_ ?_; unfold y; clear y
  with_reducible refine Keeps.mk_free ?_ ..
  assumption
  intro _; clear_value y
  with_reducible refine Keeps.trans ?_ (State.finish_keeps ..)
  assumption
  assumption

theorem State.endWait_keeps (s : State) (r : RailIx) (code : Nat) : Keeps s (State.endWait s r code) := by
  unfold State.endWait
  split
  with_reducible exact Keeps.refl _
  extract_lets +onlyGivenNames y; refine Keeps.cut (y := y) ?_ ?_; unfold y; clear y
  with_reducible exact State.modProf_keeps ..
  intro _; clear_value y
  with_reducible refine Keeps.trans ?_ (State.gatherSet_keeps ..)
  assumption

theorem State.abortTune_keeps (s : State) (reason : Nat) : Keeps s (State.abortTune s reason) := by
  unfold State.abortTune
  with_reducible refine Keeps.ite ?_ ?_
  with_reducible exact Keeps.refl _
  extract_lets +onlyGivenNames y; clear_value y
  extract_lets +onlyGivenNames y; refine Keeps.cut (y := y) ?_ ?_; unfold y; clear y
  with_reducible exact State.count_keeps ..
  intro _; clear_value y
  extract_lets +onlyGivenNames y; clear_value y
  extract_lets +onlyGivenNames y; clear_value y
  extract_lets +onlyGivenNames y; refine Keeps.cut (y := y) ?_ ?_; unfold y; clear y
  with_reducible refine Keeps.mk_free ?_ ..
  assumption
  intro _; clear_value y
  with_reducible refine Keeps.trans ?_ (State.finishOpt_keeps ..)
  assumption

theorem State.abortTuneOn_keeps (s : State) (r : RailIx) (reason : Nat) : Keeps s (State.abortTuneOn s r reason) := by
  unfold State.abortTuneOn
  with_reducible refine Keeps.ite ?_ ?_
  with_reducible exact State.abortTune_keeps ..
  with_reducible exact Keeps.refl _

theorem State.abortSkim_keeps (s : State) (r : RailIx) : Keeps s (State.abortSkim s r) := by
  unfold State.abortSkim
  split
  with_reducible exact Keeps.refl _
  with_reducible refine Keeps.trans ?_ (State.modPlc_keeps ..)
  with_reducible exact State.count_keeps ..

theorem State.abortPassive_keeps (s : State) (r : RailIx) : Keeps s (State.abortPassive s r) := by
  unfold State.abortPassive
  split
  with_reducible exact Keeps.refl _
  with_reducible refine Keeps.trans ?_ (State.modPlc_keeps ..)
  with_reducible exact State.count_keeps ..

theorem State.strokeMismatch_keeps (s : State) (r : RailIx) : Keeps s (State.strokeMismatch s r) := by
  unfold State.strokeMismatch
  with_reducible refine Keeps.ite ?_ ?_
  with_reducible exact Keeps.refl _
  with_reducible exact State.modFf_keeps ..

theorem State.preload_keeps (s : State) (r : RailIx) (d e eI eP eT : Rat) : Keeps s (State.preload s r d e eI eP
    eT) := by
  unfold State.preload
  extract_lets +onlyGivenNames y; clear_value y
  with_reducible exact State.modLaw_keeps ..

theorem State.takeTarget_keeps (s : State) (r : RailIx) (mv slew tag port : Nat) : Keeps s (State.takeTarget s r mv
    slew tag port) := by
  unfold State.takeTarget
  extract_lets +onlyGivenNames y; refine Keeps.cut (y := y) ?_ ?_; unfold y; clear y
  with_reducible exact State.endWait_keeps ..
  intro _; clear_value y
  extract_lets +onlyGivenNames y; clear_value y
  with_reducible refine Keeps.trans ?_ (State.modProf_keeps ..)
  assumption

theorem State.startLaw_keeps (s : State) (r : RailIx) : Keeps s (State.startLaw s r) := by
  unfold State.startLaw
  extract_lets +onlyGivenNames y; clear_value y
  extract_lets +onlyGivenNames y; clear_value y
  extract_lets +onlyGivenNames y; clear_value y
  extract_lets +onlyGivenNames y; clear_value y
  extract_lets +onlyGivenNames y; clear_value y
  extract_lets +onlyGivenNames y; clear_value y
  extract_lets +onlyGivenNames y; refine Keeps.cut (y := y) ?_ ?_; unfold y; clear y
  with_reducible exact State.modLaw_keeps ..
  intro _; clear_value y
  extract_lets +onlyGivenNames y; refine Keeps.cut (y := y) ?_ ?_; unfold y; clear y
  with_reducible refine Keeps.trans ?_ (State.modMeas_keeps ..)
  assumption
  intro _; clear_value y
  extract_lets +onlyGivenNames y; refine Keeps.cut (y := y) ?_ ?_; unfold y; clear y
  with_reducible refine Keeps.trans ?_ (State.preload_keeps ..)
  assumption
  intro _; clear_value y
  extract_lets +onlyGivenNames y; refine Keeps.cut (y := y) ?_ ?_; unfold y; clear y
  with_reducible refine Keeps.trans ?_ (State.modProf_keeps ..)
  assumption
  intro _; clear_value y
  extract_lets +onlyGivenNames y; refine Keeps.cut (y := y) ?_ ?_; unfold y; clear y
  with_reducible refine Keeps.trans ?_ (State.modFf_keeps ..)
  assumption
  intro _; clear_value y
  extract_lets +onlyGivenNames y; refine Keeps.cut (y := y) ?_ ?_; unfold y; clear y
  with_reducible refine Keeps.trans ?_ (State.modPlc_keeps ..)
  assumption
  intro _; clear_value y
  extract_lets +onlyGivenNames y; refine Keeps.cut (y := y) ?_ ?_; unfold y; clear y
  with_reducible refine Keeps.trans ?_ (State.modProt_keeps ..)
  assumption
  intro _; clear_value y
  with_reducible refine Keeps.forEach_from ?_ fun _ _ => ?_
  assumption
  with_reducible refine Keeps.trans ?_ (State.modGen_keeps ..)
  with_reducible exact State.modSense_keeps ..

theorem State.fuseStart_keeps (s : State) (r : RailIx) : Keeps s (State.fuseStart s r) := by
  unfold State.fuseStart
  extract_lets +onlyGivenNames y; clear_value y
  with_reducible refine Keeps.ite ?_ ?_
  with_reducible exact State.modFuse_keeps ..
  with_reducible exact Keeps.refl _

theorem State.fuseOff_keeps (s : State) (r : RailIx) : Keeps s (State.fuseOff s r) := by
  unfold State.fuseOff
  with_reducible refine Keeps.ite ?_ ?_
  with_reducible exact State.modFuse_keeps ..
  with_reducible exact Keeps.refl _

theorem State.leaveRegulation_keeps (s : State) (r : RailIx) (byCrowbar : Bool) : Keeps s (State.leaveRegulation s
    r byCrowbar) := by
  unfold State.leaveRegulation
  extract_lets +onlyGivenNames y; refine Keeps.cut (y := y) ?_ ?_; unfold y; clear y
  with_reducible exact State.endWait_keeps ..
  intro _; clear_value y
  extract_lets +onlyGivenNames y; refine Keeps.cut (y := y) ?_ ?_; unfold y; clear y
  with_reducible refine Keeps.trans ?_ (State.modFf_keeps ..)
  with_reducible refine Keeps.trans ?_ (State.strokeMismatch_keeps ..)
  assumption
  intro _; clear_value y
  extract_lets +onlyGivenNames y; refine Keeps.cut (y := y) ?_ ?_; unfold y; clear y
  with_reducible refine Keeps.trans ?_ (State.abortPassive_keeps ..)
  with_reducible refine Keeps.trans ?_ (State.abortSkim_keeps ..)
  assumption
  intro _; clear_value y
  extract_lets +onlyGivenNames y; refine Keeps.cut (y := y) ?_ ?_; unfold y; clear y
  with_reducible refine Keeps.trans ?_ (State.abortTuneOn_keeps ..)
  assumption
  intro _; clear_value y
  extract_lets +onlyGivenNames y; refine Keeps.cut (y := y) ?_ ?_; unfold y; clear y
  with_reducible refine Keeps.forEach_from ?_ fun _ _ => ?_
  assumption
  with_reducible refine Keeps.trans ?_ (State.modPhase_keeps ..)
  with_reducible exact State.dropCarry_keeps ..
  intro _; clear_value y
  extract_lets +onlyGivenNames y; refine Keeps.cut (y := y) ?_ ?_; unfold y; clear y
  with_reducible refine Keeps.trans ?_ (State.modRail_keeps ..)
  assumption
  intro _; clear_value y
  with_reducible refine Keeps.ite ?_ ?_
  assumption
  with_reducible refine Keeps.trans ?_ (State.fuseOff_keeps ..)
  assumption

theorem State.setDom_keeps (s : State) (d : DomainIx) (st : DomSt) : Keeps s (State.setDom s d st) := by
  unfold State.setDom
  with_reducible refine Keeps.ite ?_ ?_
  with_reducible exact Keeps.refl _
  with_reducible refine Keeps.trans ?_ (State.irq_keeps ..)
  with_reducible exact State.modDomain_keeps ..

theorem State.settleDev_keeps (s : State) : Keeps s (State.settleDev s) := by
  unfold State.settleDev
  with_reducible refine Keeps.ite ?_ ?_
  extract_lets +onlyGivenNames y; clear_value y
  with_reducible refine Keeps.mk_free ?_ ..
  with_reducible exact Keeps.refl _
  with_reducible exact Keeps.refl _

theorem State.schedUp_keeps (s : State) (d : DomainIx) (r : RailIx) : Keeps s (State.schedUp s d r) := by
  unfold State.schedUp
  extract_lets +onlyGivenNames y; refine Keeps.cut (y := y) ?_ ?_; unfold y; clear y
  with_reducible exact State.modRail_keeps ..
  intro _; clear_value y
  with_reducible refine Keeps.trans ?_ (State.modDomain_keeps ..)
  assumption

theorem State.enterUp_keeps (s : State) (d : DomainIx) (freshRetries : Bool) : Keeps s (State.enterUp s d
    freshRetries) := by
  unfold State.enterUp
  extract_lets +onlyGivenNames y; refine Keeps.cut (y := y) ?_ ?_; unfold y; clear y
  with_reducible exact State.count_keeps ..
  intro _; clear_value y
  extract_lets +onlyGivenNames y; refine Keeps.cut (y := y) ?_ ?_; unfold y; clear y
  with_reducible refine Keeps.trans ?_ (State.modDomain_keeps ..)
  with_reducible refine Keeps.trans ?_ (State.setDom_keeps ..)
  assumption
  intro _; clear_value y
  extract_lets +onlyGivenNames y; refine Keeps.cut (y := y) ?_ ?_; unfold y; clear y
  split
  with_reducible refine Keeps.trans ?_ (State.schedUp_keeps ..)
  assumption
  assumption
  intro _; clear_value y
  with_reducible refine Keeps.trans ?_ (State.settleDev_keeps ..)
  assumption

theorem State.downEnd_keeps (s : State) (d : DomainIx) : Keeps s (State.downEnd s d) := by
  unfold State.downEnd
  extract_lets +onlyGivenNames y; clear_value y
  extract_lets +onlyGivenNames y; refine Keeps.cut (y := y) ?_ ?_; unfold y; clear y
  with_reducible exact State.modDomain_keeps ..
  intro _; clear_value y
  extract_lets +onlyGivenNames y; refine Keeps.cut (y := y) ?_ ?_; unfold y; clear y
  refine Keeps.dite (fun _ => ?_) (fun _ => ?_)
  with_reducible refine Keeps.ite ?_ ?_
  with_reducible refine Keeps.trans ?_ (State.modProt_keeps ..)
  assumption
  assumption
  assumption
  intro _; clear_value y
  extract_lets +onlyGivenNames y; refine Keeps.cut (y := y) ?_ ?_; unfold y; clear y
  with_reducible refine Keeps.trans ?_ (State.count_keeps ..)
  assumption
  intro _; clear_value y
  extract_lets +onlyGivenNames y; refine Keeps.cut (y := y) ?_ ?_; unfold y; clear y
  with_reducible refine Keeps.trans ?_ (State.modDomain_keeps ..)
  with_reducible refine Keeps.trans ?_ (State.setDom_keeps ..)
  assumption
  intro _; clear_value y
  extract_lets +onlyGivenNames y; refine Keeps.cut (y := y) ?_ ?_; unfold y; clear y
  with_reducible refine Keeps.trans ?_ (State.count_keeps ..)
  assumption
  intro _; clear_value y
  extract_lets +onlyGivenNames y; refine Keeps.cut (y := y) ?_ ?_; unfold y; clear y
  with_reducible refine Keeps.trans ?_ (State.modDomain_keeps ..)
  with_reducible refine Keeps.trans ?_ (State.setDom_keeps ..)
  assumption
  intro _; clear_value y
  extract_lets +onlyGivenNames y; refine Keeps.cut (y := y) ?_ ?_; unfold y; clear y
  with_reducible refine Keeps.ite ?_ ?_
  with_reducible refine Keeps.trans ?_ (State.record_keeps ..)
  assumption
  with_reducible refine Keeps.ite ?_ ?_
  with_reducible refine Keeps.trans ?_ (State.record_keeps ..)
  assumption
  with_reducible refine Keeps.ite ?_ ?_
  with_reducible refine Keeps.trans ?_ (State.enterUp_keeps ..)
  assumption
  with_reducible refine Keeps.trans ?_ (State.record_keeps ..)
  with_reducible refine Keeps.trans ?_ (State.setDom_keeps ..)
  assumption
  intro _; clear_value y
  with_reducible refine Keeps.trans ?_ (State.refreshFlt_keeps ..)
  with_reducible refine Keeps.trans ?_ (State.settleDev_keeps ..)
  assumption

theorem State.nextDown_keeps (s : State) (d : DomainIx) : Keeps s (State.nextDown s d) := by
  unfold State.nextDown
  split
  with_reducible exact State.downEnd_keeps ..
  extract_lets +onlyGivenNames y; refine Keeps.cut (y := y) ?_ ?_; unfold y; clear y
  with_reducible exact State.modRail_keeps ..
  intro _; clear_value y
  with_reducible refine Keeps.trans ?_ (State.modDomain_keeps ..)
  assumption

theorem State.enterDown_keeps (s : State) (d : DomainIx) : Keeps s (State.enterDown s d) := by
  unfold State.enterDown
  extract_lets +onlyGivenNames y; refine Keeps.cut (y := y) ?_ ?_; unfold y; clear y
  with_reducible refine Keeps.forEach_from ?_ fun _ _ => ?_
  with_reducible exact Keeps.refl _
  with_reducible exact State.modRail_keeps ..
  intro _; clear_value y
  with_reducible refine Keeps.trans ?_ (State.nextDown_keeps ..)
  with_reducible refine Keeps.trans ?_ (State.setDom_keeps ..)
  assumption

theorem State.railWentOff_keeps (s : State) (r : RailIx) : Keeps s (State.railWentOff s r) := by
  unfold State.railWentOff
  split
  with_reducible exact Keeps.refl _
  with_reducible refine Keeps.ite ?_ ?_
  with_reducible refine Keeps.ite ?_ ?_
  with_reducible exact Keeps.refl _
  with_reducible exact State.nextDown_keeps ..
  with_reducible exact Keeps.refl _

theorem State.reportLatch_keeps (s : State) (r : RailIx) (cause : Latch) (was : Bool) : Keeps s (State.reportLatch
    s r cause was) := by
  unfold State.reportLatch
  split
  with_reducible exact Keeps.refl _
  extract_lets +onlyGivenNames y; clear_value y
  extract_lets +onlyGivenNames y; clear_value y
  extract_lets +onlyGivenNames y
  split
  with_reducible refine Keeps.trans ?_ (State.enterDown_keeps ..)
  unfold y
  with_reducible exact State.modDomain_keeps ..
  with_reducible refine Keeps.ite ?_ ?_
  with_reducible exact Keeps.refl _
  with_reducible refine Keeps.trans ?_ (State.enterDown_keeps ..)
  unfold y
  with_reducible exact State.modDomain_keeps ..
  with_reducible refine Keeps.ite ?_ ?_
  with_reducible exact Keeps.refl _
  with_reducible refine Keeps.ite ?_ ?_
  with_reducible exact State.railWentOff_keeps ..
  with_reducible refine Keeps.trans ?_ (State.railWentOff_keeps ..)
  unfold y
  with_reducible exact State.modDomain_keeps ..
  with_reducible exact Keeps.refl _

theorem State.uvFaultReport_keeps (s : State) (r : RailIx) : Keeps s (State.uvFaultReport s r) := by
  unfold State.uvFaultReport
  extract_lets +onlyGivenNames y; refine Keeps.cut (y := y) ?_ ?_; unfold y; clear y
  with_reducible refine Keeps.trans ?_ (State.modProt_keeps ..)
  with_reducible exact State.abortTuneOn_keeps ..
  intro _; clear_value y
  with_reducible refine Keeps.trans ?_ (State.record_keeps ..)
  with_reducible refine Keeps.trans ?_ (State.count_keeps ..)
  assumption

theorem State.hicRecord_keeps (s : State) (r : RailIx) (causes run : Nat) : Keeps s (State.hicRecord s r causes
    run) := by
  unfold State.hicRecord
  with_reducible exact State.record_keeps ..

theorem State.clearHic_keeps (s : State) (r : RailIx) : Keeps s (State.clearHic s r) := by
  unfold State.clearHic
  with_reducible exact State.modProt_keeps ..

theorem State.recordLower_keeps (s : State) (r : RailIx) : Keeps s (State.recordLower s r) := by
  unfold State.recordLower
  with_reducible refine Keeps.ite ?_ ?_
  with_reducible exact Keeps.refl _
  extract_lets +onlyGivenNames y; clear_value y
  extract_lets +onlyGivenNames y; refine Keeps.cut (y := y) ?_ ?_; unfold y; clear y
  with_reducible refine Keeps.ite ?_ ?_
  with_reducible exact State.uvFaultReport_keeps ..
  with_reducible exact Keeps.refl _
  intro _; clear_value y
  with_reducible refine Keeps.trans ?_ (State.clearHic_keeps ..)
  with_reducible refine Keeps.ite ?_ ?_
  assumption
  with_reducible refine Keeps.trans ?_ (State.hicRecord_keeps ..)
  assumption

theorem State.afterLatch_keeps (s : State) (r : RailIx) (cause : Latch) : Keeps s (State.afterLatch s r cause) := by
  unfold State.afterLatch
  extract_lets +onlyGivenNames y; refine Keeps.cut (y := y) ?_ ?_; unfold y; clear y
  with_reducible exact State.recordLower_keeps ..
  intro _; clear_value y
  extract_lets +onlyGivenNames y; clear_value y
  extract_lets +onlyGivenNames y; refine Keeps.cut (y := y) ?_ ?_; unfold y; clear y
  with_reducible refine Keeps.ite ?_ ?_
  with_reducible refine Keeps.trans ?_ (State.leaveRegulation_keeps ..)
  assumption
  assumption
  intro _; clear_value y
  with_reducible refine Keeps.trans ?_ (State.refreshFlt_keeps ..)
  with_reducible refine Keeps.trans ?_ (State.reportLatch_keeps ..)
  assumption

theorem State.latchRail_keeps (s : State) (r : RailIx) (cause : Latch) (code cls inst sub : Nat) (data : List Byte)
    : Keeps s (State.latchRail s r cause code cls inst sub data) := by
  unfold State.latchRail
  with_reducible refine Keeps.ite ?_ ?_
  with_reducible exact State.record_keeps ..
  extract_lets +onlyGivenNames y; refine Keeps.cut (y := y) ?_ ?_; unfold y; clear y
  with_reducible exact State.modProt_keeps ..
  intro _; clear_value y
  with_reducible refine Keeps.trans ?_ (State.afterLatch_keeps ..)
  with_reducible refine Keeps.trans ?_ (State.recordSnap_keeps ..)
  assumption

theorem State.latchRails_keeps (s : State) (rs : List RailIx) (cause : Latch) (code cls inst sub : Nat)
    (data : List Byte) : Keeps s (State.latchRails s rs cause code cls inst sub data) := by
  unfold State.latchRails
  extract_lets +onlyGivenNames y; clear_value y
  extract_lets +onlyGivenNames y; refine Keeps.cut (y := y) ?_ ?_; unfold y; clear y
  with_reducible exact Keeps.forEach fun _ _ => State.modProt_keeps ..
  intro _; clear_value y
  extract_lets +onlyGivenNames y; refine Keeps.cut (y := y) ?_ ?_; unfold y; clear y
  with_reducible refine Keeps.trans ?_ (State.event_keeps ..)
  assumption
  intro _; clear_value y
  with_reducible refine Keeps.forEach_from ?_ fun _ _ => State.afterLatch_keeps ..
  assumption

theorem State.crowbar_keeps (s : State) (r : RailIx) (sub cmp : Nat) : Keeps s (State.crowbar s r sub cmp) := by
  unfold State.crowbar
  extract_lets +onlyGivenNames y; clear_value y
  with_reducible refine Keeps.ite ?_ ?_
  with_reducible exact State.record_keeps ..
  extract_lets +onlyGivenNames y; clear_value y
  extract_lets +onlyGivenNames y; refine Keeps.cut (y := y) ?_ ?_; unfold y; clear y
  with_reducible exact State.count_keeps ..
  intro _; clear_value y
  extract_lets +onlyGivenNames y; refine Keeps.cut (y := y) ?_ ?_; unfold y; clear y
  with_reducible refine Keeps.trans ?_ (State.modProt_keeps ..)
  assumption
  intro _; clear_value y
  extract_lets +onlyGivenNames y; refine Keeps.cut (y := y) ?_ ?_; unfold y; clear y
  with_reducible refine Keeps.trans ?_ (State.recordLower_keeps ..)
  with_reducible refine Keeps.trans ?_ (State.recordSnap_keeps ..)
  assumption
  intro _; clear_value y
  extract_lets +onlyGivenNames y; refine Keeps.cut (y := y) ?_ ?_; unfold y; clear y
  with_reducible refine Keeps.forEach_from ?_ fun _ _ => ?_
  assumption
  with_reducible refine Keeps.trans ?_ (State.modGen_keeps ..)
  with_reducible exact State.dropCarry_keeps ..
  intro _; clear_value y
  extract_lets +onlyGivenNames y; clear_value y
  extract_lets +onlyGivenNames y; refine Keeps.cut (y := y) ?_ ?_; unfold y; clear y
  with_reducible refine Keeps.ite ?_ ?_
  with_reducible refine Keeps.trans ?_ (State.leaveRegulation_keeps ..)
  assumption
  assumption
  intro _; clear_value y
  with_reducible refine Keeps.trans ?_ (State.refreshFlt_keeps ..)
  with_reducible refine Keeps.trans ?_ (State.reportLatch_keeps ..)
  assumption

theorem State.endCrowbar_keeps (s : State) (r : RailIx) : Keeps s (State.endCrowbar s r) := by
  unfold State.endCrowbar
  with_reducible refine Keeps.ite ?_ ?_
  with_reducible exact Keeps.refl _
  extract_lets +onlyGivenNames y; refine Keeps.cut (y := y) ?_ ?_; unfold y; clear y
  with_reducible exact State.modProt_keeps ..
  intro _; clear_value y
  extract_lets +onlyGivenNames y; refine Keeps.cut (y := y) ?_ ?_; unfold y; clear y
  with_reducible refine Keeps.forEach_from ?_ fun _ _ => ?_
  assumption
  with_reducible exact State.modGen_keeps ..
  intro _; clear_value y
  with_reducible refine Keeps.trans ?_ (State.fuseOff_keeps ..)
  assumption

theorem State.disablePhases_keeps (s : State) (r : RailIx) : Keeps s (State.disablePhases s r) := by
  unfold State.disablePhases
  extract_lets +onlyGivenNames y; refine Keeps.cut (y := y) ?_ ?_; unfold y; clear y
  with_reducible refine Keeps.trans ?_ (State.abortPassive_keeps ..)
  with_reducible exact State.abortSkim_keeps ..
  intro _; clear_value y
  with_reducible refine Keeps.forEach_from ?_ fun _ _ => ?_
  assumption
  with_reducible refine Keeps.trans ?_ (State.modGen_keeps ..)
  with_reducible exact State.dropCarry_keeps ..

theorem State.hiccupRail_keeps (s : State) (r : RailIx) : Keeps s (State.hiccupRail s r) := by
  unfold State.hiccupRail
  extract_lets +onlyGivenNames y; clear_value y
  with_reducible refine Keeps.ite ?_ ?_
  with_reducible exact State.clearHic_keeps ..
  extract_lets +onlyGivenNames y; clear_value y
  extract_lets +onlyGivenNames y; refine Keeps.cut (y := y) ?_ ?_; unfold y; clear y
  with_reducible refine Keeps.ite ?_ ?_
  with_reducible exact State.uvFaultReport_keeps ..
  with_reducible exact Keeps.refl _
  intro _; clear_value y
  extract_lets +onlyGivenNames y; refine Keeps.cut (y := y) ?_ ?_; unfold y; clear y
  with_reducible refine Keeps.trans ?_ (State.clearHic_keeps ..)
  assumption
  intro _; clear_value y
  with_reducible refine Keeps.ite ?_ ?_
  with_reducible refine Keeps.trans ?_ (State.latchRail_keeps ..)
  assumption
  extract_lets +onlyGivenNames y; refine Keeps.cut (y := y) ?_ ?_; unfold y; clear y
  with_reducible refine Keeps.trans ?_ (State.count_keeps ..)
  assumption
  intro _; clear_value y
  extract_lets +onlyGivenNames y; refine Keeps.cut (y := y) ?_ ?_; unfold y; clear y
  with_reducible refine Keeps.trans ?_ (State.modProt_keeps ..)
  assumption
  intro _; clear_value y
  extract_lets +onlyGivenNames y; refine Keeps.cut (y := y) ?_ ?_; unfold y; clear y
  with_reducible refine Keeps.trans ?_ (State.hicRecord_keeps ..)
  assumption
  intro _; clear_value y
  with_reducible refine Keeps.trans ?_ (State.modSeq_keeps ..)
  with_reducible refine Keeps.trans ?_ (State.disablePhases_keeps ..)
  assumption

end Sys2Proof.Machine
end

