-- ==== Sys2Proof/Laws/KeepsLoop.lean ====
section
/-! SUPPORT. What sensing, the law, the profile, the learnt pattern and the tuning session keep (see Laws/Keeps.lean). Each proof walks its function's body in order: a let is a state on the
way, a branch is two cases, a call cites the lemma of what it calls. -/

namespace Sys2Proof.Machine

/-! Sensing -/

theorem State.assignSlots_keeps (s : State) : Keeps s (State.assignSlots s) := by
  unfold State.assignSlots
  with_reducible refine Keeps.forEach_from ?_ fun _ _ => ?_
  with_reducible exact Keeps.refl _
  with_reducible refine Keeps.forEach_from ?_ fun _ _ => ?_
  with_reducible exact Keeps.refl _
  with_reducible refine Keeps.trans ?_ (State.modSense_keeps ..)
  with_reducible exact State.countIf_keeps ..

theorem State.sensePhase_keeps (s : State) (code : Int) (n : PhaseIx) : Keeps s (State.sensePhase s code n) := by
  unfold State.sensePhase
  split
  with_reducible exact Keeps.refl _
  extract_lets +onlyGivenNames y; clear_value y
  extract_lets +onlyGivenNames y; clear_value y
  extract_lets +onlyGivenNames y; clear_value y
  extract_lets +onlyGivenNames y; clear_value y
  extract_lets +onlyGivenNames y; clear_value y
  with_reducible exact State.modSense_keeps ..

theorem State.sense_keeps (s : State) (convs : List Int) : Keeps s (State.sense s convs) := by
  unfold State.sense
  with_reducible refine Keeps.forEach_from ?_ fun _ _ => ?_
  with_reducible exact Keeps.refl _
  with_reducible exact State.sensePhase_keeps ..

theorem State.balance_keeps (s : State) (r : RailIx) : Keeps s (State.balance s r) := by
  unfold State.balance
  extract_lets +onlyGivenNames y; clear_value y
  extract_lets +onlyGivenNames y; clear_value y
  extract_lets +onlyGivenNames y; clear_value y
  extract_lets +onlyGivenNames y; clear_value y
  extract_lets +onlyGivenNames y; clear_value y
  extract_lets +onlyGivenNames y; clear_value y
  with_reducible refine Keeps.forEach_from ?_ fun _ _ => ?_
  with_reducible exact Keeps.refl _
  extract_lets +onlyGivenNames y; clear_value y
  extract_lets +onlyGivenNames y; clear_value y
  extract_lets +onlyGivenNames y; clear_value y
  extract_lets +onlyGivenNames y; clear_value y
  with_reducible exact State.modSense_keeps ..

theorem State.charge_keeps (s : State) (r : RailIx) : Keeps s (State.charge s r) := by
  unfold State.charge
  with_reducible refine Keeps.forEach_from ?_ fun _ _ => ?_
  with_reducible exact Keeps.refl _
  with_reducible exact State.modSense_keeps ..

theorem State.joinPhase_keeps (s : State) (r : RailIx) (n : PhaseIx) : Keeps s (State.joinPhase s r n) := by
  unfold State.joinPhase
  extract_lets +onlyGivenNames y; refine Keeps.cut (y := y) ?_ ?_; unfold y; clear y
  split
  with_reducible refine Keeps.ite ?_ ?_
  with_reducible exact State.abortPassive_keeps ..
  with_reducible exact Keeps.refl _
  with_reducible exact Keeps.refl _
  intro _; clear_value y
  with_reducible refine Keeps.trans ?_ (State.modSense_keeps ..)
  assumption

theorem State.joinAll_keeps (s : State) (r : RailIx) : Keeps s (State.joinAll s r) := by
  unfold State.joinAll
  with_reducible refine Keeps.forEach_from ?_ fun _ _ => ?_
  with_reducible exact State.modPlc_keeps ..
  with_reducible exact State.joinPhase_keeps ..

theorem State.placeAdd_keeps (s : State) (r : RailIx) : Keeps s (State.placeAdd s r) := by
  unfold State.placeAdd
  extract_lets +onlyGivenNames y
  with_reducible refine Keeps.ite ?_ ?_
  unfold y
  with_reducible refine Keeps.trans ?_ (State.modPlc_keeps ..)
  with_reducible refine Keeps.trans ?_ (State.count_keeps ..)
  with_reducible exact State.abortSkim_keeps ..
  split
  with_reducible exact Keeps.refl _
  unfold y
  with_reducible refine Keeps.trans ?_ (State.modPlc_keeps ..)
  with_reducible refine Keeps.trans ?_ (State.count_keeps ..)
  with_reducible exact State.joinPhase_keeps ..

theorem State.placeShed_keeps (s : State) (r : RailIx) : Keeps s (State.placeShed s r) := by
  unfold State.placeShed
  split
  with_reducible exact Keeps.refl _
  extract_lets +onlyGivenNames y; refine Keeps.cut (y := y) ?_ ?_; unfold y; clear y
  with_reducible exact State.modSense_keeps ..
  intro _; clear_value y
  with_reducible refine Keeps.trans ?_ (State.modPlc_keeps ..)
  with_reducible refine Keeps.trans ?_ (State.count_keeps ..)
  assumption

theorem State.scaleFrame_keeps (s : State) (r : RailIx) : Keeps s (State.scaleFrame s r) := State.modPlc_keeps ..

theorem State.placement_keeps (s : State) (r : RailIx) : Keeps s (State.placement s r) := by
  unfold State.placement
  extract_lets +onlyGivenNames y; refine Keeps.cut (y := y) ?_ ?_; unfold y; clear y
  with_reducible exact State.modPlc_keeps ..
  intro _; clear_value y
  with_reducible refine Keeps.ite ?_ ?_
  assumption
  with_reducible refine Keeps.ite ?_ ?_
  with_reducible refine Keeps.forEach_from ?_ fun _ _ => ?_
  assumption
  with_reducible exact State.joinPhase_keeps ..
  with_reducible refine Keeps.ite ?_ ?_
  with_reducible refine Keeps.trans ?_ (State.placeAdd_keeps ..)
  assumption
  with_reducible refine Keeps.ite ?_ ?_
  assumption
  with_reducible refine Keeps.ite ?_ ?_
  with_reducible refine Keeps.trans ?_ (State.placeShed_keeps ..)
  assumption
  assumption

theorem State.skimFrames_keeps (s : State) (r : RailIx) : Keeps s (State.skimFrames s r) := by
  unfold State.skimFrames
  extract_lets +onlyGivenNames y; clear_value y
  with_reducible exact State.modPlc_keeps ..

theorem State.gcalFrame_keeps (s : State) (r : RailIx) : Keeps s (State.gcalFrame s r) := by
  unfold State.gcalFrame
  extract_lets +onlyGivenNames y; clear_value y
  extract_lets +onlyGivenNames y; clear_value y
  extract_lets +onlyGivenNames y; clear_value y
  extract_lets +onlyGivenNames y; clear_value y
  with_reducible exact State.modPlc_keeps ..

/-! Law -/

theorem State.preloadNow_keeps (s : State) (r : RailIx) : Keeps s (State.preloadNow s r) := by
  unfold State.preloadNow
  extract_lets +onlyGivenNames y; clear_value y
  with_reducible exact State.preload_keeps ..

theorem State.slamReturn_keeps (s : State) (r : RailIx) : Keeps s (State.slamReturn s r) := by
  unfold State.slamReturn
  with_reducible exact State.modPlc_keeps ..

theorem State.endPark_keeps (s : State) (r : RailIx) : Keeps s (State.endPark s r) := by
  unfold State.endPark
  with_reducible refine Keeps.forEach_from ?_ fun _ _ => ?_
  with_reducible exact Keeps.refl _
  with_reducible exact State.modGen_keeps ..

theorem State.regimeFrame_keeps (s : State) (r : RailIx) : Keeps s (State.regimeFrame s r) := by
  unfold State.regimeFrame
  extract_lets +onlyGivenNames y; clear_value y
  extract_lets +onlyGivenNames y
  extract_lets +onlyGivenNames y; clear_value y
  extract_lets +onlyGivenNames y; refine Keeps.cut (y := y) ?_ ?_; unfold y; clear y
  with_reducible exact State.modLaw_keeps ..
  intro _; clear_value y
  extract_lets +onlyGivenNames y; refine Keeps.cut (y := y) ?_ ?_; unfold y; clear y
  with_reducible refine Keeps.trans ?_ (State.countIf_keeps ..)
  assumption
  intro _; clear_value y
  extract_lets +onlyGivenNames y; refine Keeps.cut (y := y) ?_ ?_; unfold y; clear y
  with_reducible refine Keeps.ite ?_ ?_
  with_reducible refine Keeps.trans ?_ (State.abortTuneOn_keeps ..)
  with_reducible refine Keeps.trans ?_ (State.abortSkim_keeps ..)
  assumption
  assumption
  intro _; clear_value y
  extract_lets +onlyGivenNames y; refine Keeps.cut (y := y) ?_ ?_; unfold y; clear y
  with_reducible refine Keeps.ite ?_ ?_
  with_reducible refine Keeps.trans ?_ (State.endPark_keeps ..)
  assumption
  assumption
  intro _; clear_value y
  extract_lets +onlyGivenNames y; refine Keeps.cut (y := y) ?_ ?_; unfold y; clear y
  with_reducible refine Keeps.ite ?_ ?_
  with_reducible refine Keeps.trans ?_ (State.joinAll_keeps ..)
  assumption
  assumption
  intro _; clear_value y
  extract_lets +onlyGivenNames y; refine Keeps.cut (y := y) ?_ ?_; unfold y; clear y
  with_reducible refine Keeps.ite ?_ ?_
  with_reducible refine Keeps.forEach_from ?_ fun _ _ => ?_
  assumption
  with_reducible exact State.dropCarry_keeps ..
  assumption
  intro _; clear_value y
  with_reducible refine Keeps.ite ?_ ?_
  with_reducible refine Keeps.trans ?_ (State.slamReturn_keeps ..)
  with_reducible refine Keeps.trans ?_ (State.preloadNow_keeps ..)
  assumption
  assumption

theorem State.voltageDemand_keeps (s : State) (r : RailIx) (g : Rat) : Keeps s (State.voltageDemand s r g).1 := by
  unfold State.voltageDemand
  extract_lets +onlyGivenNames y; clear_value y
  extract_lets +onlyGivenNames y; clear_value y
  extract_lets +onlyGivenNames y; clear_value y
  dsimp only
  with_reducible exact State.modLaw_keeps ..

theorem State.demandFrame_keeps (s : State) (r : RailIx) : Keeps s (s.demandFrame r) := by
  unfold State.demandFrame
  dsimp only
  split
  · refine Keeps.trans ?_ (State.countIf_keeps ..)
    refine Keeps.trans ?_ (State.modMeas_keeps ..)
    exact State.modLaw_keeps ..
  · refine Keeps.trans ?_ (State.countIf_keeps ..)
    refine Keeps.trans ?_ (State.modMeas_keeps ..)
    exact (State.voltageDemand_keeps ..).trans (State.modLaw_keeps ..)

theorem State.commitPhases_keeps (s : State) (r : RailIx) (f : PhaseIx → Nat) : Keeps s (State.commitPhases s r f)
    := by
  unfold State.commitPhases
  with_reducible refine Keeps.forEach_from ?_ fun _ _ => ?_
  with_reducible exact Keeps.refl _
  with_reducible exact State.modGen_keeps ..

theorem State.holdCommit_keeps (s : State) (r : RailIx) : Keeps s (State.holdCommit s r) := by
  unfold State.holdCommit
  with_reducible exact State.commitPhases_keeps ..

theorem State.parkSlam_keeps (s : State) (r : RailIx) : Keeps s (State.parkSlam s r) := by
  unfold State.parkSlam
  extract_lets +onlyGivenNames y; clear_value y
  with_reducible refine Keeps.forEach_from ?_ fun _ _ => ?_
  with_reducible exact Keeps.refl _
  with_reducible exact State.modGen_keeps ..

theorem State.commitLaw_keeps (s : State) (r : RailIx) : Keeps s (State.commitLaw s r) := by
  unfold State.commitLaw
  extract_lets +onlyGivenNames y; clear_value y
  extract_lets +onlyGivenNames y; refine Keeps.cut (y := y) ?_ ?_; unfold y; clear y
  with_reducible exact State.modLaw_keeps ..
  intro _; clear_value y
  with_reducible refine Keeps.trans ?_ (State.commitPhases_keeps ..)
  assumption

theorem State.lawFrame_keeps (s : State) (r : RailIx) : Keeps s (State.lawFrame s r) := by
  unfold State.lawFrame
  extract_lets +onlyGivenNames y; refine Keeps.cut (y := y) ?_ ?_; unfold y; clear y
  with_reducible exact State.regimeFrame_keeps ..
  intro _; clear_value y
  extract_lets +onlyGivenNames y; refine Keeps.cut (y := y) ?_ ?_; unfold y; clear y
  with_reducible refine Keeps.ite ?_ ?_
  with_reducible refine Keeps.trans ?_ (State.modMeas_keeps ..)
  assumption
  with_reducible refine Keeps.trans ?_ (State.demandFrame_keeps ..)
  assumption
  intro _; clear_value y
  extract_lets +onlyGivenNames y; refine Keeps.cut (y := y) ?_ ?_; unfold y; clear y
  with_reducible refine Keeps.ite ?_ ?_
  with_reducible refine Keeps.trans ?_ (State.balance_keeps ..)
  assumption
  assumption
  intro _; clear_value y
  with_reducible refine Keeps.trans ?_ (State.commitLaw_keeps ..)
  assumption

theorem State.arbiter_keeps (s : State) : Keeps s (State.arbiter s) := by
  unfold State.arbiter
  extract_lets +onlyGivenNames y; clear_value y
  extract_lets +onlyGivenNames y; clear_value y
  extract_lets +onlyGivenNames y; clear_value y
  extract_lets +onlyGivenNames y; refine Keeps.cut (y := y) ?_ ?_; unfold y; clear y
  with_reducible refine Keeps.forEach_from ?_ fun _ _ => ?_
  with_reducible exact Keeps.refl _
  with_reducible exact State.modMeas_keeps ..
  intro _; clear_value y
  with_reducible refine Keeps.forEach_from ?_ fun _ _ => ?_
  assumption
  with_reducible exact State.modMeas_keeps ..

/-! Profile -/

theorem State.settleCount_keeps (s : State) (r : RailIx) : Keeps s (State.settleCount s r) := by
  unfold State.settleCount
  extract_lets +onlyGivenNames y; clear_value y
  with_reducible exact State.modProf_keeps ..

theorem State.profileFrame_keeps (s : State) (r : RailIx) : Keeps s (State.profileFrame s r) := by
  unfold State.profileFrame
  extract_lets +onlyGivenNames y; clear_value y
  extract_lets +onlyGivenNames y; clear_value y
  extract_lets +onlyGivenNames y; clear_value y
  extract_lets +onlyGivenNames y; refine Keeps.cut (y := y) ?_ ?_; unfold y; clear y
  with_reducible exact State.settleCount_keeps ..
  intro _; clear_value y
  extract_lets +onlyGivenNames y; refine Keeps.cut (y := y) ?_ ?_; unfold y; clear y
  with_reducible refine Keeps.trans ?_ (State.modProf_keeps ..)
  assumption
  intro _; clear_value y
  with_reducible refine Keeps.ite ?_ ?_
  with_reducible refine Keeps.trans ?_ (State.abortTuneOn_keeps ..)
  with_reducible refine Keeps.trans ?_ (State.abortSkim_keeps ..)
  assumption
  assumption

theorem State.takeRequested_keeps (s : State) (r : RailIx) : Keeps s (State.takeRequested s r) := by
  unfold State.takeRequested
  extract_lets +onlyGivenNames y; clear_value y
  with_reducible exact State.takeTarget_keeps ..

theorem State.reclamp_keeps (s : State) (r : RailIx) : Keeps s (State.reclamp s r) := by
  unfold State.reclamp
  with_reducible exact State.modProf_keeps ..

/-! Pattern -/

theorem State.ffSample_keeps (s : State) (r : RailIx) (e : Rat) : Keeps s (State.ffSample s r e) := by
  unfold State.ffSample
  with_reducible refine Keeps.ite ?_ ?_
  with_reducible exact Keeps.refl _
  extract_lets +onlyGivenNames y; clear_value y
  with_reducible exact State.modFf_keeps ..

theorem State.periodEnd_keeps (s : State) (r : RailIx) : Keeps s (State.periodEnd s r) := by
  unfold State.periodEnd
  extract_lets +onlyGivenNames y; clear_value y
  extract_lets +onlyGivenNames y; clear_value y
  extract_lets +onlyGivenNames y; refine Keeps.cut (y := y) ?_ ?_; unfold y; clear y
  split
  with_reducible exact Keeps.refl _
  with_reducible refine Keeps.ite ?_ ?_
  with_reducible exact Keeps.refl _
  extract_lets +onlyGivenNames y; clear_value y
  with_reducible exact State.modFf_keeps ..
  intro _; clear_value y
  with_reducible refine Keeps.trans ?_ (State.modFf_keeps ..)
  assumption

theorem State.ffFrame_keeps (s : State) (r : RailIx) (e : Rat) : Keeps s (State.ffFrame s r e) := by
  unfold State.ffFrame
  extract_lets +onlyGivenNames y; refine Keeps.cut (y := y) ?_ ?_; unfold y; clear y
  with_reducible exact State.ffSample_keeps ..
  intro _; clear_value y
  extract_lets +onlyGivenNames y; clear_value y
  extract_lets +onlyGivenNames y; refine Keeps.cut (y := y) ?_ ?_; unfold y; clear y
  with_reducible refine Keeps.ite ?_ ?_
  with_reducible refine Keeps.trans ?_ (State.periodEnd_keeps ..)
  assumption
  assumption
  intro _; clear_value y
  extract_lets +onlyGivenNames y; clear_value y
  extract_lets +onlyGivenNames y; clear_value y
  extract_lets +onlyGivenNames y; clear_value y
  extract_lets +onlyGivenNames y; clear_value y
  extract_lets +onlyGivenNames y; refine Keeps.cut (y := y) ?_ ?_; unfold y; clear y
  with_reducible refine Keeps.trans ?_ (State.modFf_keeps ..)
  assumption
  intro _; clear_value y
  with_reducible refine Keeps.trans ?_ (State.modMeas_keeps ..)
  assumption

theorem State.strokeStart_keeps (s : State) (r : RailIx) (id expected : Nat) : Keeps s (State.strokeStart s r id
    expected) := by
  unfold State.strokeStart
  with_reducible refine Keeps.ite ?_ ?_
  with_reducible exact Keeps.refl _
  extract_lets +onlyGivenNames y; refine Keeps.cut (y := y) ?_ ?_; unfold y; clear y
  with_reducible exact State.strokeMismatch_keeps ..
  intro _; clear_value y
  extract_lets +onlyGivenNames y; clear_value y
  extract_lets +onlyGivenNames y; clear_value y
  split
  assumption
  with_reducible refine Keeps.trans ?_ (State.modFf_keeps ..)
  assumption

theorem State.strokeEnd_keeps (s : State) (r : RailIx) (id : Nat) : Keeps s (State.strokeEnd s r id) := by
  unfold State.strokeEnd
  split
  with_reducible exact Keeps.refl _
  with_reducible refine Keeps.ite ?_ ?_
  with_reducible exact Keeps.refl _
  extract_lets +onlyGivenNames y; clear_value y
  extract_lets +onlyGivenNames y; clear_value y
  with_reducible refine Keeps.ite ?_ ?_
  extract_lets +onlyGivenNames y; refine Keeps.cut (y := y) ?_ ?_; unfold y; clear y
  with_reducible exact State.periodEnd_keeps ..
  intro _; clear_value y
  with_reducible refine Keeps.trans ?_ (State.modFf_keeps ..)
  assumption
  with_reducible exact State.strokeMismatch_keeps ..

theorem State.ffPos_keeps (s : State) (r : RailIx) (pos : Nat) : Keeps s (State.ffPos s r pos) := by
  unfold State.ffPos
  with_reducible exact State.modFf_keeps ..

theorem State.tblAdvance_keeps (s : State) (r : RailIx) : Keeps s (State.tblAdvance s r) := by
  unfold State.tblAdvance
  extract_lets +onlyGivenNames y; clear_value y
  with_reducible exact State.setObj_keeps ..

theorem State.tblWrite_keeps (s : State) (r : RailIx) (v : Word) : Keeps s (State.tblWrite s r v) := by
  unfold State.tblWrite
  extract_lets +onlyGivenNames y; clear_value y
  extract_lets +onlyGivenNames y; clear_value y
  extract_lets +onlyGivenNames y; refine Keeps.cut (y := y) ?_ ?_; unfold y; clear y
  with_reducible exact State.modFf_keeps ..
  intro _; clear_value y
  with_reducible refine Keeps.trans ?_ (State.tblAdvance_keeps ..)
  assumption

theorem State.ffClear_keeps (s : State) (r : RailIx) : Keeps s (State.ffClear s r) := by
  unfold State.ffClear
  with_reducible exact State.modFf_keeps ..

theorem State.ffRestore_keeps (s : State) (r : RailIx) : Keeps s (State.ffRestore s r) := by
  unfold State.ffRestore
  split
  with_reducible exact Keeps.refl _
  with_reducible exact State.modFf_keeps ..

/-! Tune -/

theorem State.tuneBegin_keeps (s : State) (slot : Option SlotIx) (r : RailIx) (auto : Bool) : Keeps s
    (State.tuneBegin s slot r auto) := by
  unfold State.tuneBegin
  extract_lets +onlyGivenNames y; refine Keeps.cut (y := y) ?_ ?_; unfold y; clear y
  with_reducible exact State.abortSkim_keeps ..
  intro _; clear_value y
  extract_lets +onlyGivenNames y; refine Keeps.cut (y := y) ?_ ?_; unfold y; clear y
  with_reducible refine Keeps.trans ?_ (State.count_keeps ..)
  assumption
  intro _; clear_value y
  extract_lets +onlyGivenNames y; refine Keeps.cut (y := y) ?_ ?_; unfold y; clear y
  with_reducible refine Keeps.mk_free ?_ ..
  assumption
  intro _; clear_value y
  with_reducible refine Keeps.ite ?_ ?_
  assumption
  with_reducible refine Keeps.trans ?_ (State.finishOpt_keeps ..)
  assumption

theorem State.injectFrame_keeps (s : State) : Keeps s (State.injectFrame s) := by
  unfold State.injectFrame
  with_reducible refine Keeps.ite ?_ ?_
  with_reducible refine Keeps.mk_free ?_ ..
  with_reducible exact Keeps.refl _
  with_reducible refine Keeps.ite ?_ ?_
  extract_lets +onlyGivenNames y; clear_value y
  extract_lets +onlyGivenNames y; clear_value y
  with_reducible refine Keeps.mk_free ?_ ..
  with_reducible exact Keeps.refl _
  with_reducible exact Keeps.refl _

theorem State.tuneFrame_keeps (s : State) (held : Bool) : Keeps s (State.tuneFrame s held) := by
  unfold State.tuneFrame
  with_reducible refine Keeps.ite ?_ ?_
  with_reducible exact Keeps.refl _
  refine Keeps.dite (fun _ => ?_) (fun _ => ?_)
  extract_lets +onlyGivenNames y; clear_value y
  extract_lets +onlyGivenNames y; clear_value y
  extract_lets +onlyGivenNames y; clear_value y
  extract_lets +onlyGivenNames y; clear_value y
  extract_lets +onlyGivenNames y; refine Keeps.cut (y := y) ?_ ?_; unfold y; clear y
  with_reducible refine Keeps.mk_free ?_ ..
  with_reducible exact Keeps.refl _
  intro _; clear_value y
  with_reducible refine Keeps.ite ?_ ?_
  assumption
  extract_lets +onlyGivenNames y; clear_value y
  extract_lets +onlyGivenNames y; clear_value y
  extract_lets +onlyGivenNames y; clear_value y
  with_reducible refine Keeps.ite ?_ ?_
  with_reducible refine Keeps.mk_free ?_ ..
  assumption
  with_reducible refine Keeps.mk_free ?_ ..
  assumption
  with_reducible exact Keeps.refl _

theorem State.ltBegin_keeps (s : State) (r : RailIx) : Keeps s (State.ltBegin s r) := by
  unfold State.ltBegin
  with_reducible refine Keeps.trans ?_ (State.modLt_keeps ..)
  with_reducible exact State.abortSkim_keeps ..

theorem State.ltNext_keeps (s : State) (r : RailIx) : Keeps s (State.ltNext s r) := by
  unfold State.ltNext
  extract_lets +onlyGivenNames y; clear_value y
  extract_lets +onlyGivenNames y; clear_value y
  with_reducible refine Keeps.ite ?_ ?_
  with_reducible exact State.modLt_keeps ..
  with_reducible exact State.modLt_keeps ..

theorem State.ltFrame_keeps (s : State) (r : RailIx) : Keeps s (State.ltFrame s r) := by
  unfold State.ltFrame
  extract_lets +onlyGivenNames y; clear_value y
  extract_lets +onlyGivenNames y; clear_value y
  with_reducible refine Keeps.ite ?_ ?_
  with_reducible exact State.modLt_keeps ..
  extract_lets +onlyGivenNames y; refine Keeps.cut (y := y) ?_ ?_; unfold y; clear y
  with_reducible exact State.modLt_keeps ..
  intro _; clear_value y
  with_reducible refine Keeps.ite ?_ ?_
  with_reducible refine Keeps.ite ?_ ?_
  with_reducible refine Keeps.trans ?_ (State.ltNext_keeps ..)
  with_reducible refine Keeps.trans ?_ (State.modLt_keeps ..)
  assumption
  assumption
  with_reducible refine Keeps.ite ?_ ?_
  extract_lets +onlyGivenNames y; refine Keeps.cut (y := y) ?_ ?_; unfold y; clear y
  with_reducible refine Keeps.ite ?_ ?_
  assumption
  with_reducible refine Keeps.trans ?_ (State.modLt_keeps ..)
  assumption
  intro _; clear_value y
  with_reducible refine Keeps.trans ?_ (State.ltNext_keeps ..)
  assumption
  with_reducible refine Keeps.ite ?_ ?_
  assumption
  with_reducible refine Keeps.trans ?_ (State.ltBegin_keeps ..)
  assumption

theorem State.ltWindow_keeps (s : State) (r : RailIx) : Keeps s (State.ltWindow s r) := by
  unfold State.ltWindow
  extract_lets +onlyGivenNames y; clear_value y
  extract_lets +onlyGivenNames y; clear_value y
  extract_lets +onlyGivenNames y; refine Keeps.cut (y := y) ?_ ?_; unfold y; clear y
  with_reducible exact State.modLt_keeps ..
  intro _; clear_value y
  with_reducible refine Keeps.ite ?_ ?_
  with_reducible refine Keeps.trans ?_ (State.count_keeps ..)
  assumption
  extract_lets +onlyGivenNames y; clear_value y
  with_reducible refine Keeps.ite ?_ ?_
  assumption
  extract_lets +onlyGivenNames y; clear_value y
  extract_lets +onlyGivenNames y; clear_value y
  with_reducible refine Keeps.trans ?_ (State.count_keeps ..)
  with_reducible refine Keeps.trans ?_ (State.modLt_keeps ..)
  assumption

theorem State.ltClamp_keeps (s : State) (r : RailIx) : Keeps s (State.ltClamp s r) := by
  unfold State.ltClamp
  with_reducible refine Keeps.ite ?_ ?_
  with_reducible exact State.modLt_keeps ..
  with_reducible exact Keeps.refl _

/-! PhaseCmds -/

theorem State.tripPhase_keeps (s : State) (n : PhaseIx) (tick : Nat) : Keeps s (State.tripPhase s n tick) := by
  unfold State.tripPhase
  split
  with_reducible exact Keeps.refl _
  extract_lets +onlyGivenNames y; clear_value y
  split
  with_reducible refine Keeps.ite ?_ ?_
  extract_lets +onlyGivenNames y; refine Keeps.cut (y := y) ?_ ?_; unfold y; clear y
  with_reducible refine Keeps.trans ?_ (State.dropCarry_keeps ..)
  with_reducible exact State.count_keeps ..
  intro _; clear_value y
  with_reducible refine Keeps.trans ?_ (State.modGen_keeps ..)
  with_reducible refine Keeps.trans ?_ (State.abortSkim_keeps ..)
  assumption
  with_reducible exact Keeps.refl _
  extract_lets +onlyGivenNames y; refine Keeps.cut (y := y) ?_ ?_; unfold y; clear y
  with_reducible exact State.tripInput_keeps ..
  intro _; clear_value y
  with_reducible refine Keeps.ite ?_ ?_
  with_reducible refine Keeps.trans ?_ (State.abortSkim_keeps ..)
  assumption
  assumption

theorem State.startTrip_keeps (s : State) (n : PhaseIx) : Keeps s (State.startTrip s n) := by
  unfold State.startTrip
  extract_lets +onlyGivenNames y; clear_value y
  with_reducible refine Keeps.ite ?_ ?_
  with_reducible exact State.tripPhase_keeps ..
  with_reducible exact Keeps.refl _

theorem State.levelTrips_keeps (s : State) : Keeps s (State.levelTrips s) := by
  unfold State.levelTrips
  with_reducible refine Keeps.forEach_from ?_ fun _ _ => ?_
  with_reducible exact Keeps.refl _
  split
  with_reducible exact Keeps.refl _
  extract_lets +onlyGivenNames y; refine Keeps.cut (y := y) ?_ ?_; unfold y; clear y
  with_reducible exact State.levelTrip_keeps ..
  intro _; clear_value y
  with_reducible refine Keeps.ite ?_ ?_
  with_reducible refine Keeps.trans ?_ (State.abortSkim_keeps ..)
  assumption
  assumption

theorem State.forceChange_keeps (s : State) (n : PhaseIx) (r : RailIx) (was : Bool) : Keeps s (State.forceChange s
    n r was) := by
  unfold State.forceChange
  extract_lets +onlyGivenNames y; clear_value y
  with_reducible refine Keeps.ite ?_ ?_
  extract_lets +onlyGivenNames y; refine Keeps.cut (y := y) ?_ ?_; unfold y; clear y
  with_reducible exact State.abortSkim_keeps ..
  intro _; clear_value y
  split
  with_reducible refine Keeps.ite ?_ ?_
  with_reducible refine Keeps.trans ?_ (State.abortPassive_keeps ..)
  assumption
  assumption
  assumption
  with_reducible refine Keeps.ite ?_ ?_
  with_reducible exact State.modSense_keeps ..
  with_reducible exact Keeps.refl _

theorem State.nextOnSchedule_keeps (s : State) (n : PhaseIx) : Keeps s (State.nextOnSchedule s n) := by
  unfold State.nextOnSchedule
  with_reducible exact State.modGen_keeps ..

/-! CurrentCmds -/

theorem State.skimResult_keeps (s : State) (k : Skim) : Keeps s (State.skimResult s k).1 := by
  unfold State.skimResult
  extract_lets +onlyGivenNames y; clear_value y
  extract_lets +onlyGivenNames y; clear_value y
  extract_lets +onlyGivenNames y; clear_value y
  split
  dsimp only
  with_reducible exact Keeps.refl _
  split
  dsimp only
  with_reducible refine Keeps.trans ?_ (State.record_keeps ..)
  with_reducible exact State.count_keeps ..
  dsimp only
  with_reducible refine Keeps.trans ?_ (State.modSense_keeps ..)
  with_reducible exact State.count_keeps ..

theorem State.endSkim_keeps (s : State) (r : RailIx) (k : Skim) (passive : Bool) : Keeps s (State.endSkim s r k
    passive) := by
  unfold State.endSkim
  extract_lets +onlyGivenNames y; refine Keeps.cut (y := y.1) ?_ ?_; unfold y; clear y
  with_reducible exact State.skimResult_keeps ..
  intro _; clear_value y
  extract_lets +onlyGivenNames y; refine Keeps.cut (y := y) ?_ ?_; unfold y; clear y
  with_reducible refine Keeps.trans ?_ (State.modSense_keeps ..)
  assumption
  intro _; clear_value y
  extract_lets +onlyGivenNames y; refine Keeps.cut (y := y) ?_ ?_; unfold y; clear y
  with_reducible refine Keeps.ite ?_ ?_
  with_reducible refine Keeps.trans ?_ (State.saveZeros_keeps ..)
  assumption
  assumption
  intro _; clear_value y
  with_reducible refine Keeps.trans ?_ (State.modPlc_keeps ..)
  assumption

end Sys2Proof.Machine
end

