-- ==== Sys2Proof/Laws/KeepsLinks.lean ====
section
/-! SUPPORT. What links, feeds, domains, protection, the meter and the clocks keep (see Laws/Keeps.lean). Each proof walks its function's body in order: a let is a state on the
way, a branch is two cases, a call cites the lemma of what it calls. -/

namespace Sys2Proof.Machine

/-! Links -/

theorem State.enqueue_keeps (s : State) (p : PortIx) (m : TxMsg) : Keeps s (State.enqueue s p m) := by
  unfold State.enqueue
  extract_lets +onlyGivenNames y; clear_value y
  with_reducible refine Keeps.trans ?_ (State.countN_keeps ..)
  with_reducible exact State.modPort_keeps ..

theorem State.enqueueAck_keeps (s : State) (p : PortIx) (m : TxMsg) : Keeps s (State.enqueueAck s p m) := by
  unfold State.enqueueAck
  with_reducible refine Keeps.trans ?_ (State.modPort_keeps ..)
  with_reducible exact State.enqueue_keeps ..

theorem State.warnAll_keeps (s : State) : Keeps s (State.warnAll s) := by
  unfold State.warnAll
  with_reducible refine Keeps.forEach_from ?_ fun _ _ => ?_
  with_reducible exact Keeps.refl _
  with_reducible exact State.enqueue_keeps ..

theorem State.withdraw_keeps (s : State) (p : PortIx) : Keeps s (State.withdraw s p) := by
  unfold State.withdraw
  with_reducible refine Keeps.ite ?_ ?_
  with_reducible exact State.modPort_keeps ..
  extract_lets +onlyGivenNames y; refine Keeps.cut (y := y) ?_ ?_; unfold y; clear y
  with_reducible exact State.modPort_keeps ..
  intro _; clear_value y
  split
  with_reducible refine Keeps.trans ?_ (State.count_keeps ..)
  assumption
  assumption

theorem State.emptyPort_keeps (s : State) (p : PortIx) : Keeps s (State.emptyPort s p) := by
  unfold State.emptyPort
  with_reducible refine Keeps.trans ?_ (State.modPort_keeps ..)
  with_reducible exact State.withdraw_keeps ..

theorem State.storeReq_keeps (s : State) (p : PortIx) (q : Standing) (wd : Bool) : Keeps s (State.storeReq s p q
    wd) := by
  unfold State.storeReq
  extract_lets +onlyGivenNames y; clear_value y
  extract_lets +onlyGivenNames y; refine Keeps.cut (y := y) ?_ ?_; unfold y; clear y
  with_reducible exact State.modPort_keeps ..
  intro _; clear_value y
  split
  with_reducible refine Keeps.trans ?_ (State.countIf_keeps ..)
  assumption
  assumption

theorem State.acceptWl2_keeps (s : State) (p : PortIx) (r : RailIx) (q : Standing) (wd : Bool) : Keeps s
    (State.acceptWl2 s p r q wd) := by
  unfold State.acceptWl2
  extract_lets +onlyGivenNames y; refine Keeps.cut (y := y) ?_ ?_; unfold y; clear y
  split
  with_reducible refine Keeps.trans ?_ (State.enqueue_keeps ..)
  with_reducible exact State.count_keeps ..
  with_reducible exact Keeps.refl _
  intro _; clear_value y
  extract_lets +onlyGivenNames y; refine Keeps.cut (y := y) ?_ ?_; unfold y; clear y
  with_reducible refine Keeps.trans ?_ (State.storeReq_keeps ..)
  assumption
  intro _; clear_value y
  extract_lets +onlyGivenNames y; clear_value y
  extract_lets +onlyGivenNames y; clear_value y
  extract_lets +onlyGivenNames y; clear_value y
  extract_lets +onlyGivenNames y; clear_value y
  extract_lets +onlyGivenNames y; refine Keeps.cut (y := y) ?_ ?_; unfold y; clear y
  with_reducible refine Keeps.trans ?_ (State.modPort_keeps ..)
  assumption
  intro _; clear_value y
  with_reducible refine Keeps.trans ?_ (State.enqueueAck_keeps ..)
  with_reducible refine Keeps.trans ?_ (State.count_keeps ..)
  assumption

theorem State.repeatAck_keeps (s : State) (p : PortIx) : Keeps s (State.repeatAck s p) := by
  unfold State.repeatAck
  split
  with_reducible exact State.enqueue_keeps ..
  with_reducible exact State.enqueue_keeps ..
  with_reducible exact State.enqueue_keeps ..
  with_reducible exact Keeps.refl _

theorem State.vreqOn_keeps (s : State) (p : PortIx) (wl2 : Bool) (q : Standing) (wd : Bool) :
    Keeps s (State.vreqOn s p wl2 q wd) := by
  have nak : ∀ s reason, Keeps s (if wl2 = true then s.enqueue p (TxMsg.vnak q.tag reason) else s) := by
    intro s reason
    split
    · exact State.enqueue_keeps ..
    · exact .refl s
  unfold State.vreqOn
  extract_lets +onlyGivenNames y
  refine Keeps.ite (State.count_keeps ..) ?_
  split
  · exact nak ..
  · extract_lets +onlyGivenNames same
    refine Keeps.ite (Keeps.ite (State.repeatAck_keeps ..) (.refl s)) ?_
    refine Keeps.ite (nak ..) ?_
    refine Keeps.ite (nak ..) ?_
    refine Keeps.ite ?_ ?_
    · extract_lets +onlyGivenNames z
      have h : Keeps s z := State.storeReq_keeps ..
      clear_value z
      exact Keeps.ite (h.trans (State.enqueueAck_keeps ..)) h
    · refine Keeps.ite (State.acceptWl2_keeps ..) ?_
      refine Keeps.trans ?_ (State.modPort_keeps ..)
      exact (State.storeReq_keeps ..).trans (State.count_keeps ..)

theorem State.rxValid_keeps (s : State) (p : PortIx) (seq : Nat) : Keeps s (State.rxValid s p seq) := by
  unfold State.rxValid
  extract_lets +onlyGivenNames y; clear_value y
  extract_lets +onlyGivenNames y; refine Keeps.cut (y := y) ?_ ?_; unfold y; clear y
  with_reducible exact State.count_keeps ..
  intro _; clear_value y
  extract_lets +onlyGivenNames y; clear_value y
  extract_lets +onlyGivenNames y; refine Keeps.cut (y := y) ?_ ?_; unfold y; clear y
  with_reducible refine Keeps.trans ?_ (State.countIf_keeps ..)
  assumption
  intro _; clear_value y
  with_reducible refine Keeps.trans ?_ (State.modPort_keeps ..)
  assumption

theorem State.enterVersion_keeps (s : State) (p : PortIx) (st : PortSt) : Keeps s (State.enterVersion s p st) := by
  unfold State.enterVersion
  with_reducible exact State.modPort_keeps ..

theorem State.rxHello_keeps (s : State) (p : PortIx) (m : HelloMsg) : Keeps s (State.rxHello s p m) := by
  unfold State.rxHello
  with_reducible refine Keeps.ite ?_ ?_
  with_reducible exact Keeps.refl _
  extract_lets +onlyGivenNames y; refine Keeps.cut (y := y) ?_ ?_; unfold y; clear y
  with_reducible exact State.rxValid_keeps ..
  intro _; clear_value y
  extract_lets +onlyGivenNames y; refine Keeps.cut (y := y) ?_ ?_; unfold y; clear y
  with_reducible refine Keeps.trans ?_ (State.modPort_keeps ..)
  assumption
  intro _; clear_value y
  extract_lets +onlyGivenNames y; refine Keeps.cut (y := y) ?_ ?_; unfold y; clear y
  with_reducible refine Keeps.ite ?_ ?_
  with_reducible refine Keeps.trans ?_ (State.modPort_keeps ..)
  with_reducible refine Keeps.trans ?_ (State.emptyPort_keeps ..)
  assumption
  assumption
  intro _; clear_value y
  with_reducible refine Keeps.ite ?_ ?_
  assumption
  extract_lets +onlyGivenNames y; clear_value y
  extract_lets +onlyGivenNames y; refine Keeps.cut (y := y) ?_ ?_; unfold y; clear y
  with_reducible refine Keeps.trans ?_ (State.enterVersion_keeps ..)
  assumption
  intro _; clear_value y
  extract_lets +onlyGivenNames y; refine Keeps.cut (y := y) ?_ ?_; unfold y; clear y
  with_reducible refine Keeps.ite ?_ ?_
  assumption
  with_reducible refine Keeps.trans ?_ (State.enqueue_keeps ..)
  assumption
  intro _; clear_value y
  extract_lets +onlyGivenNames y; refine Keeps.cut (y := y) ?_ ?_; unfold y; clear y
  with_reducible refine Keeps.trans ?_ (State.record_keeps ..)
  assumption
  intro _; clear_value y
  with_reducible refine Keeps.ite ?_ ?_
  with_reducible refine Keeps.trans ?_ (State.enqueue_keeps ..)
  assumption
  assumption

theorem State.impliedWl1_keeps (s : State) (p : PortIx) : Keeps s (State.impliedWl1 s p) := by
  unfold State.impliedWl1
  with_reducible refine Keeps.ite ?_ ?_
  with_reducible exact Keeps.refl _
  with_reducible refine Keeps.trans ?_ (State.record_keeps ..)
  with_reducible exact State.enterVersion_keeps ..

theorem State.rxVreq_keeps (s : State) (p : PortIx) (m : VreqMsg) : Keeps s (State.rxVreq s p m) := by
  unfold State.rxVreq
  with_reducible refine Keeps.ite ?_ ?_
  with_reducible exact Keeps.refl _
  extract_lets +onlyGivenNames y; refine Keeps.cut (y := y) ?_ ?_; unfold y; clear y
  with_reducible refine Keeps.trans ?_ (State.impliedWl1_keeps ..)
  with_reducible exact State.rxValid_keeps ..
  intro _; clear_value y
  with_reducible refine Keeps.ite ?_ ?_
  with_reducible refine Keeps.trans ?_ (State.vreqOn_keeps ..)
  assumption
  with_reducible refine Keeps.trans ?_ (State.vreqOn_keeps ..)
  assumption

theorem State.rxPos_keeps (s : State) (p : PortIx) (seq position : Nat) : Keeps s (State.rxPos s p seq position) := by
  unfold State.rxPos
  with_reducible refine Keeps.ite ?_ ?_
  with_reducible exact Keeps.refl _
  extract_lets +onlyGivenNames y; refine Keeps.cut (y := y) ?_ ?_; unfold y; clear y
  with_reducible refine Keeps.trans ?_ (State.impliedWl1_keeps ..)
  with_reducible exact State.rxValid_keeps ..
  intro _; clear_value y
  extract_lets +onlyGivenNames y; refine Keeps.cut (y := y) ?_ ?_; unfold y; clear y
  with_reducible refine Keeps.trans ?_ (State.modPort_keeps ..)
  assumption
  intro _; clear_value y
  with_reducible refine Keeps.forEach_from ?_ fun _ _ => ?_
  assumption
  with_reducible exact State.ffPos_keeps ..

theorem State.rxStroke_keeps (s : State) (p : PortIx) (m : StrokeMsg) : Keeps s (State.rxStroke s p m) := by
  unfold State.rxStroke
  with_reducible refine Keeps.ite ?_ ?_
  with_reducible exact Keeps.refl _
  with_reducible refine Keeps.ite ?_ ?_
  with_reducible exact State.count_keeps ..
  extract_lets +onlyGivenNames y; refine Keeps.cut (y := y) ?_ ?_; unfold y; clear y
  with_reducible exact State.rxValid_keeps ..
  intro _; clear_value y
  with_reducible refine Keeps.ite ?_ ?_
  assumption
  with_reducible refine Keeps.forEach_from ?_ fun _ _ => ?_
  assumption
  with_reducible refine Keeps.ite ?_ ?_
  with_reducible exact State.strokeStart_keeps ..
  with_reducible exact State.strokeEnd_keeps ..

theorem State.rxStatus_keeps (s : State) (p : PortIx) (m : StatusMsg) : Keeps s (State.rxStatus s p m) := by
  unfold State.rxStatus
  with_reducible refine Keeps.ite ?_ ?_
  with_reducible exact Keeps.refl _
  extract_lets +onlyGivenNames y; refine Keeps.cut (y := y) ?_ ?_; unfold y; clear y
  with_reducible exact State.rxValid_keeps ..
  intro _; clear_value y
  with_reducible refine Keeps.ite ?_ ?_
  assumption
  with_reducible refine Keeps.trans ?_ (State.modPort_keeps ..)
  assumption

theorem State.rxPing_keeps (s : State) (p : PortIx) (seq : Nat) (reply : Bool) (cookie : Nat) : Keeps s
    (State.rxPing s p seq reply cookie) := by
  unfold State.rxPing
  with_reducible refine Keeps.ite ?_ ?_
  with_reducible exact Keeps.refl _
  extract_lets +onlyGivenNames y; refine Keeps.cut (y := y) ?_ ?_; unfold y; clear y
  with_reducible exact State.rxValid_keeps ..
  intro _; clear_value y
  with_reducible refine Keeps.ite ?_ ?_
  with_reducible refine Keeps.trans ?_ (State.enqueue_keeps ..)
  assumption
  assumption

theorem State.rxFrame_keeps (s : State) (p : PortIx) (hdr : Nat) (pl : List Byte) : Keeps s (State.rxFrame s p hdr
    pl).1 := by
  unfold State.rxFrame
  extract_lets +onlyGivenNames y; clear_value y
  extract_lets +onlyGivenNames y; clear_value y
  extract_lets +onlyGivenNames y; clear_value y
  extract_lets +onlyGivenNames y
  split
  dsimp only
  with_reducible exact State.count_keeps ..
  split
  dsimp only
  with_reducible exact State.count_keeps ..
  dsimp only
  split
  with_reducible exact State.rxHello_keeps ..
  with_reducible exact State.rxVreq_keeps ..
  with_reducible exact State.rxPos_keeps ..
  with_reducible exact State.rxStroke_keeps ..
  with_reducible exact State.rxStatus_keeps ..
  with_reducible exact State.rxPing_keeps ..

theorem State.rxChars_keeps (s : State) (p : PortIx) (gapEnd : Bool) (n : Nat) (l : List RxChar) :
    Keeps s (s.rxChars p gapEnd n l) := by
  induction n generalizing s l with
  | zero => exact .refl s
  | succ n ih =>
    cases l with
    | nil => exact .refl s
    | cons c cs =>
      unfold State.rxChars
      dsimp only
      split
      · exact ih ..
      · split
        · split
          · exact State.count_keeps ..
          · exact .refl s
        · exact (State.count_keeps ..).trans (ih ..)
        · exact (State.count_keeps ..).trans (ih ..)
        · exact (State.count_keeps ..).trans (ih ..)
        · exact (State.rxFrame_keeps ..).trans (ih ..)

theorem State.takeArb_keeps (s : State) : Keeps s (State.takeArb s) := by
  unfold State.takeArb
  with_reducible refine Keeps.forEach_from ?_ fun _ _ => ?_
  with_reducible exact Keeps.refl _
  split
  with_reducible refine Keeps.ite ?_ ?_
  with_reducible exact State.modPort_keeps ..
  with_reducible exact Keeps.refl _
  with_reducible exact Keeps.refl _

theorem State.linkRail_keeps (s : State) (r : RailIx) : Keeps s (State.linkRail s r) := by
  unfold State.linkRail
  extract_lets +onlyGivenNames y; clear_value y
  extract_lets +onlyGivenNames y; refine Keeps.cut (y := y) ?_ ?_; unfold y; clear y
  with_reducible exact State.modProf_keeps ..
  intro _; clear_value y
  extract_lets +onlyGivenNames y; clear_value y
  extract_lets +onlyGivenNames y; clear_value y
  with_reducible refine Keeps.ite ?_ ?_
  with_reducible refine Keeps.trans ?_ (State.modProf_keeps ..)
  assumption
  with_reducible refine Keeps.ite ?_ ?_
  with_reducible refine Keeps.ite ?_ ?_
  with_reducible refine Keeps.trans ?_ (State.takeRequested_keeps ..)
  assumption
  assumption
  with_reducible refine Keeps.ite ?_ ?_
  assumption
  with_reducible refine Keeps.trans ?_ (State.takeRequested_keeps ..)
  assumption

theorem State.ackFrame_keeps (s : State) (p : PortIx) : Keeps s (State.ackFrame s p) := by
  unfold State.ackFrame
  split
  with_reducible refine Keeps.ite ?_ ?_
  with_reducible refine Keeps.trans ?_ (State.modPort_keeps ..)
  with_reducible exact State.enqueueAck_keeps ..
  extract_lets +onlyGivenNames y; clear_value y
  extract_lets +onlyGivenNames y; clear_value y
  with_reducible exact State.modPort_keeps ..
  with_reducible exact Keeps.refl _

theorem State.warnFrame_keeps (s : State) (p : PortIx) : Keeps s (State.warnFrame s p) := by
  unfold State.warnFrame
  extract_lets +onlyGivenNames y; clear_value y
  extract_lets +onlyGivenNames y; clear_value y
  with_reducible refine Keeps.ite ?_ ?_
  with_reducible exact State.enqueue_keeps ..
  with_reducible exact Keeps.refl _

theorem State.linkFrame_keeps (s : State) : Keeps s (State.linkFrame s) := by
  unfold State.linkFrame
  extract_lets +onlyGivenNames y; refine Keeps.cut (y := y) ?_ ?_; unfold y; clear y
  with_reducible exact State.takeArb_keeps ..
  intro _; clear_value y
  extract_lets +onlyGivenNames y; refine Keeps.cut (y := y) ?_ ?_; unfold y; clear y
  with_reducible refine Keeps.forEach_from ?_ fun _ _ => ?_
  assumption
  with_reducible exact State.linkRail_keeps ..
  intro _; clear_value y
  with_reducible refine Keeps.forEach_from ?_ fun _ _ => ?_
  assumption
  with_reducible refine Keeps.trans ?_ (State.warnFrame_keeps ..)
  with_reducible exact State.ackFrame_keeps ..

theorem State.linkPolicy_keeps (s : State) (r : RailIx) : Keeps s (State.linkPolicy s r) := by
  unfold State.linkPolicy
  with_reducible refine Keeps.forEach_from ?_ fun _ _ => ?_
  with_reducible exact Keeps.refl _
  extract_lets +onlyGivenNames y; refine Keeps.cut (y := y) ?_ ?_; unfold y; clear y
  with_reducible exact State.withdraw_keeps ..
  intro _; clear_value y
  split
  with_reducible refine Keeps.trans ?_ (State.modPort_keeps ..)
  with_reducible refine Keeps.trans ?_ (State.enqueueAck_keeps ..)
  assumption
  assumption

theorem State.disablePort_keeps (s : State) (p : PortIx) : Keeps s (State.disablePort s p) := by
  unfold State.disablePort
  with_reducible refine Keeps.trans ?_ (State.modPort_keeps ..)
  with_reducible exact State.emptyPort_keeps ..

theorem State.enablePort_keeps (s : State) (p : PortIx) : Keeps s (State.enablePort s p) := by
  unfold State.enablePort
  extract_lets +onlyGivenNames y; clear_value y
  with_reducible refine Keeps.ite ?_ ?_
  with_reducible refine Keeps.trans ?_ (State.enqueue_keeps ..)
  with_reducible exact State.modPort_keeps ..
  with_reducible exact State.enterVersion_keeps ..

/-! Feeds -/

theorem State.feedSample_keeps (s : State) (i : FeedIn) : Keeps s (State.feedSample s i) := by
  unfold State.feedSample
  extract_lets +onlyGivenNames y
  extract_lets +onlyGivenNames y; clear_value y
  with_reducible refine Keeps.mk_free ?_ ..
  with_reducible exact Keeps.refl _

theorem State.feedClassify_keeps (s : State) (x : FeedId) : Keeps s (State.feedClassify s x) := by
  unfold State.feedClassify
  extract_lets +onlyGivenNames y
  extract_lets +onlyGivenNames y; clear_value y
  extract_lets +onlyGivenNames y; clear_value y
  extract_lets +onlyGivenNames y; clear_value y
  extract_lets +onlyGivenNames y; clear_value y
  with_reducible exact State.modFeed_keeps ..

theorem State.feedWrite_keeps (s : State) (w : ObjWrite) : Keeps s (State.feedWrite s w) := by
  unfold State.feedWrite
  split
  with_reducible refine Keeps.mk_free ?_ ..
  with_reducible exact Keeps.refl _
  with_reducible refine Keeps.mk_free ?_ ..
  with_reducible exact Keeps.refl _
  with_reducible refine Keeps.mk_free ?_ ..
  with_reducible exact Keeps.refl _
  with_reducible exact State.setObj_keeps ..

theorem State.releaseFeedWrites_keeps (s : State) : Keeps s (State.releaseFeedWrites s) := by
  unfold State.releaseFeedWrites
  split
  with_reducible exact Keeps.refl _
  with_reducible exact Keeps.refl _
  with_reducible exact Keeps.refl _
  extract_lets +onlyGivenNames y; clear_value y
  with_reducible refine Keeps.forEach_from ?_ fun _ _ => ?_
  with_reducible refine Keeps.mk_free ?_ ..
  with_reducible exact Keeps.refl _
  with_reducible exact State.setObj_keeps ..

theorem State.setSel_keeps (s : State) (x : SelState) : Keeps s (State.setSel s x) := by
  unfold State.setSel
  extract_lets +onlyGivenNames y; refine Keeps.cut (y := y) ?_ ?_; unfold y; clear y
  with_reducible exact State.countIf_keeps ..
  intro _; clear_value y
  with_reducible refine Keeps.mk_free ?_ ..
  assumption

theorem State.startBreak_keeps (s : State) (x : FeedId) (target : Option FeedId) (isReturn : Bool) : Keeps s
    (State.startBreak s x target isReturn) := by
  unfold State.startBreak
  extract_lets +onlyGivenNames y; refine Keeps.cut (y := y) ?_ ?_; unfold y; clear y
  with_reducible exact State.setSel_keeps ..
  intro _; clear_value y
  extract_lets +onlyGivenNames y; clear_value y
  extract_lets +onlyGivenNames y; refine Keeps.cut (y := y) ?_ ?_; unfold y; clear y
  with_reducible refine Keeps.mk_free ?_ ..
  assumption
  intro _; clear_value y
  extract_lets +onlyGivenNames y; refine Keeps.cut (y := y) ?_ ?_; unfold y; clear y
  with_reducible refine Keeps.trans ?_ (State.countIf_keeps ..)
  assumption
  intro _; clear_value y
  with_reducible refine Keeps.trans ?_ (State.countIf_keeps ..)
  assumption

theorem State.startMake_keeps (s : State) (x : FeedId) (slow : Bool) : Keeps s (State.startMake s x slow) := by
  unfold State.startMake
  extract_lets +onlyGivenNames y; refine Keeps.cut (y := y) ?_ ?_; unfold y; clear y
  with_reducible exact State.setSel_keeps ..
  intro _; clear_value y
  with_reducible refine Keeps.mk_free ?_ ..
  assumption

theorem State.feedRecord_keeps (s : State) (code : Nat) (x : FeedId) (sub : Nat) : Keeps s (State.feedRecord s code
    x sub) := by
  unfold State.feedRecord
  with_reducible exact State.record_keeps ..

theorem State.turnOnFeed_keeps (s : State) : Keeps s (State.turnOnFeed s) := by
  unfold State.turnOnFeed
  extract_lets +onlyGivenNames y; clear_value y
  split
  with_reducible exact Keeps.refl _
  extract_lets +onlyGivenNames y; clear_value y
  extract_lets +onlyGivenNames y; refine Keeps.cut (y := y) ?_ ?_; unfold y; clear y
  with_reducible refine Keeps.mk_free ?_ ..
  with_reducible exact Keeps.refl _
  intro _; clear_value y
  with_reducible refine Keeps.trans ?_ (State.startMake_keeps ..)
  assumption

theorem State.onRows_keeps (s : State) (x : FeedId) : Keeps s (State.onRows s x) := by
  unfold State.onRows
  extract_lets +onlyGivenNames y; clear_value y
  with_reducible refine Keeps.ite ?_ ?_
  with_reducible refine Keeps.ite ?_ ?_
  with_reducible exact State.startBreak_keeps ..
  with_reducible refine Keeps.trans ?_ (State.setSel_keeps ..)
  with_reducible exact State.feedRecord_keeps ..
  with_reducible refine Keeps.ite ?_ ?_
  with_reducible refine Keeps.trans ?_ (State.startBreak_keeps ..)
  with_reducible exact State.feedRecord_keeps ..
  with_reducible refine Keeps.ite ?_ ?_
  with_reducible exact State.startBreak_keeps ..
  with_reducible refine Keeps.ite ?_ ?_
  with_reducible exact State.startBreak_keeps ..
  with_reducible exact Keeps.refl _

theorem State.selectFrame_keeps (s : State) : Keeps s (State.selectFrame s) := by
  unfold State.selectFrame
  with_reducible refine Keeps.ite ?_ ?_
  with_reducible exact Keeps.refl _
  split
  with_reducible exact State.turnOnFeed_keeps ..
  with_reducible exact State.onRows_keeps ..
  with_reducible exact State.onRows_keeps ..
  split
  with_reducible exact Keeps.refl _
  extract_lets +onlyGivenNames y; clear_value y
  with_reducible refine Keeps.mk_free ?_ ..
  with_reducible exact Keeps.refl _
  with_reducible exact Keeps.refl _

theorem State.warnRecord_keeps (s : State) (sub : Nat) : Keeps s (State.warnRecord s sub) := by
  unfold State.warnRecord
  with_reducible exact State.record_keeps ..

theorem State.warnEdge_keeps (s : State) : Keeps s (State.warnEdge s) := by
  unfold State.warnEdge
  extract_lets +onlyGivenNames y; clear_value y
  extract_lets +onlyGivenNames y; clear_value y
  extract_lets +onlyGivenNames y; clear_value y
  extract_lets +onlyGivenNames y; refine Keeps.cut (y := y) ?_ ?_; unfold y; clear y
  with_reducible refine Keeps.mk_free ?_ ..
  with_reducible exact Keeps.refl _
  intro _; clear_value y
  with_reducible refine Keeps.ite ?_ ?_
  extract_lets +onlyGivenNames y; clear_value y
  extract_lets +onlyGivenNames y; refine Keeps.cut (y := y) ?_ ?_; unfold y; clear y
  with_reducible refine Keeps.mk_free ?_ ..
  assumption
  intro _; clear_value y
  extract_lets +onlyGivenNames y; refine Keeps.cut (y := y) ?_ ?_; unfold y; clear y
  with_reducible refine Keeps.trans ?_ (State.irq_keeps ..)
  with_reducible refine Keeps.trans ?_ (State.count_keeps ..)
  assumption
  intro _; clear_value y
  with_reducible refine Keeps.trans ?_ (State.warnAll_keeps ..)
  with_reducible refine Keeps.trans ?_ (State.warnRecord_keeps ..)
  assumption
  assumption

theorem State.feedFrame_keeps (s : State) (i : FeedIn) : Keeps s (State.feedFrame s i) := by
  unfold State.feedFrame
  extract_lets +onlyGivenNames y; refine Keeps.cut (y := y) ?_ ?_; unfold y; clear y
  with_reducible refine Keeps.trans ?_ (State.releaseFeedWrites_keeps ..)
  with_reducible exact State.feedSample_keeps ..
  intro _; clear_value y
  with_reducible refine Keeps.trans ?_ (State.warnEdge_keeps ..)
  with_reducible refine Keeps.trans ?_ (State.selectFrame_keeps ..)
  with_reducible refine Keeps.trans ?_ (State.feedClassify_keeps ..)
  with_reducible refine Keeps.trans ?_ (State.feedClassify_keeps ..)
  assumption

theorem State.gateFails_keeps (s : State) (x : FeedId) (k code : Nat) : Keeps s (State.gateFails s x k code) := by
  unfold State.gateFails
  extract_lets +onlyGivenNames y; refine Keeps.cut (y := y) ?_ ?_; unfold y; clear y
  with_reducible exact State.setObj_keeps ..
  intro _; clear_value y
  extract_lets +onlyGivenNames y; refine Keeps.cut (y := y) ?_ ?_; unfold y; clear y
  with_reducible refine Keeps.trans ?_ (State.feedRecord_keeps ..)
  with_reducible refine Keeps.trans ?_ (State.count_keeps ..)
  assumption
  intro _; clear_value y
  with_reducible refine Keeps.trans ?_ (State.refreshFlt_keeps ..)
  with_reducible refine Keeps.trans ?_ (State.setSel_keeps ..)
  assumption

theorem State.fuseTrip_keeps (s : State) (r : RailIx) (cause : Nat) : Keeps s (State.fuseTrip s r cause) := by
  unfold State.fuseTrip
  extract_lets +onlyGivenNames y; clear_value y
  extract_lets +onlyGivenNames y; refine Keeps.cut (y := y) ?_ ?_; unfold y; clear y
  with_reducible exact State.modFuse_keeps ..
  intro _; clear_value y
  with_reducible refine Keeps.trans ?_ (State.record_keeps ..)
  with_reducible refine Keeps.trans ?_ (State.count_keeps ..)
  assumption

theorem State.fuseRamp_keeps (s : State) (r : RailIx) : Keeps s (State.fuseRamp s r) := by
  unfold State.fuseRamp
  with_reducible exact State.modFuse_keeps ..

theorem State.fuseFrame_keeps (s : State) (r : RailIx) (fsrcMv : Nat) (ftmpUv : Int) : Keeps s (State.fuseFrame s r
    fsrcMv ftmpUv) := by
  unfold State.fuseFrame
  with_reducible refine Keeps.ite ?_ ?_
  with_reducible exact Keeps.refl _
  extract_lets +onlyGivenNames y; clear_value y
  extract_lets +onlyGivenNames y
  extract_lets +onlyGivenNames y; clear_value y
  extract_lets +onlyGivenNames y; clear_value y
  extract_lets +onlyGivenNames y; clear_value y
  extract_lets +onlyGivenNames y; clear_value y
  extract_lets +onlyGivenNames y; clear_value y
  extract_lets +onlyGivenNames y; refine Keeps.cut (y := y) ?_ ?_; unfold y; clear y
  with_reducible exact State.modFuse_keeps ..
  intro _; clear_value y
  extract_lets +onlyGivenNames y; clear_value y
  with_reducible refine Keeps.ite ?_ ?_
  with_reducible refine Keeps.trans ?_ (State.fuseTrip_keeps ..)
  assumption
  assumption

/-! Domains -/

theorem State.tryStart_keeps (s : State) (d : DomainIx) : Keeps s (State.tryStart s d) := by
  unfold State.tryStart
  extract_lets +onlyGivenNames y; clear_value y
  with_reducible refine Keeps.ite ?_ ?_
  with_reducible exact State.enterUp_keeps ..
  with_reducible exact Keeps.refl _

theorem State.setReq_keeps (s : State) (d : DomainIx) (on : Bool) : Keeps s (State.setReq s d on) := by
  unfold State.setReq
  extract_lets +onlyGivenNames y; clear_value y
  with_reducible refine Keeps.ite ?_ ?_
  with_reducible exact Keeps.refl _
  extract_lets +onlyGivenNames y; refine Keeps.cut (y := y) ?_ ?_; unfold y; clear y
  with_reducible exact State.modDomain_keeps ..
  intro _; clear_value y
  with_reducible refine Keeps.ite ?_ ?_
  with_reducible refine Keeps.trans ?_ (State.tryStart_keeps ..)
  assumption
  split
  with_reducible refine Keeps.trans ?_ (State.enterDown_keeps ..)
  assumption
  with_reducible refine Keeps.trans ?_ (State.enterDown_keeps ..)
  assumption
  with_reducible refine Keeps.trans ?_ (State.modDomain_keeps ..)
  assumption
  with_reducible refine Keeps.trans ?_ (State.settleDev_keeps ..)
  with_reducible refine Keeps.trans ?_ (State.setDom_keeps ..)
  assumption
  assumption

theorem State.pinRequest_keeps (s : State) (d : DomainIx) : Keeps s (State.pinRequest s d) := by
  unfold State.pinRequest
  with_reducible refine Keeps.ite ?_ ?_
  split
  with_reducible exact State.setReq_keeps ..
  with_reducible exact State.setReq_keeps ..
  with_reducible exact Keeps.refl _

theorem State.powerDownAll_keeps (s : State) : Keeps s (State.powerDownAll s) := by
  unfold State.powerDownAll
  with_reducible refine Keeps.forEach_from ?_ fun _ _ => ?_
  with_reducible exact Keeps.refl _
  split
  with_reducible exact State.enterDown_keeps ..
  with_reducible exact State.enterDown_keeps ..
  with_reducible exact Keeps.refl _

theorem State.startStanding_keeps (s : State) : Keeps s (State.startStanding s) := by
  unfold State.startStanding
  with_reducible refine Keeps.forEach_from ?_ fun _ _ => ?_
  with_reducible exact Keeps.refl _
  with_reducible exact State.tryStart_keeps ..

theorem State.schedAfter_keeps (s : State) (d : DomainIx) (r : RailIx) (qualified : Bool) : Keeps s
    (State.schedAfter s d r qualified) := by
  unfold State.schedAfter
  split
  with_reducible exact Keeps.refl _
  with_reducible refine Keeps.ite ?_ ?_
  with_reducible exact State.schedUp_keeps ..
  with_reducible exact Keeps.refl _

theorem State.fuseAgain_keeps (s : State) (r : RailIx) : Keeps s (State.fuseAgain s r) := by
  unfold State.fuseAgain
  with_reducible refine Keeps.trans ?_ (State.saveFuses_keeps ..)
  with_reducible refine Keeps.trans ?_ (State.fuseRamp_keeps ..)
  with_reducible exact State.modFuse_keeps ..

theorem State.fuseWaited_keeps (s : State) (r : RailIx) : Keeps s (State.fuseWaited s r) := by
  unfold State.fuseWaited
  with_reducible refine Keeps.ite ?_ ?_
  with_reducible exact State.fuseAgain_keeps ..
  with_reducible exact Keeps.refl _

theorem State.enterRamp_keeps (s : State) (r : RailIx) : Keeps s (State.enterRamp s r) := by
  unfold State.enterRamp
  extract_lets +onlyGivenNames y; refine Keeps.cut (y := y) ?_ ?_; unfold y; clear y
  with_reducible exact State.modRail_keeps ..
  intro _; clear_value y
  with_reducible refine Keeps.trans ?_ (State.fuseWaited_keeps ..)
  with_reducible refine Keeps.trans ?_ (State.fuseStart_keeps ..)
  with_reducible refine Keeps.trans ?_ (State.startLaw_keeps ..)
  assumption

theorem State.disStart_keeps (s : State) (r : RailIx) : Keeps s (State.disStart s r) := by
  unfold State.disStart
  extract_lets +onlyGivenNames y; clear_value y
  extract_lets +onlyGivenNames y; clear_value y
  with_reducible exact State.modSeq_keeps ..

theorem State.enterDischarge_keeps (s : State) (r : RailIx) : Keeps s (State.enterDischarge s r) := by
  unfold State.enterDischarge
  extract_lets +onlyGivenNames y; refine Keeps.cut (y := y) ?_ ?_; unfold y; clear y
  with_reducible refine Keeps.trans ?_ (State.modFf_keeps ..)
  with_reducible exact State.strokeMismatch_keeps ..
  intro _; clear_value y
  extract_lets +onlyGivenNames y; refine Keeps.cut (y := y) ?_ ?_; unfold y; clear y
  with_reducible refine Keeps.trans ?_ (State.abortTuneOn_keeps ..)
  with_reducible refine Keeps.trans ?_ (State.abortPassive_keeps ..)
  with_reducible refine Keeps.trans ?_ (State.abortSkim_keeps ..)
  assumption
  intro _; clear_value y
  extract_lets +onlyGivenNames y; refine Keeps.cut (y := y) ?_ ?_; unfold y; clear y
  with_reducible refine Keeps.trans ?_ (State.modRail_keeps ..)
  assumption
  intro _; clear_value y
  extract_lets +onlyGivenNames y; refine Keeps.cut (y := y) ?_ ?_; unfold y; clear y
  with_reducible refine Keeps.forEach_from ?_ fun _ _ => ?_
  assumption
  with_reducible refine Keeps.trans ?_ (State.modGen_keeps ..)
  with_reducible exact State.modSense_keeps ..
  intro _; clear_value y
  with_reducible refine Keeps.trans ?_ (State.disStart_keeps ..)
  assumption

theorem State.enterOff_keeps (s : State) (r : RailIx) : Keeps s (State.enterOff s r) := by
  unfold State.enterOff
  with_reducible refine Keeps.trans ?_ (State.railWentOff_keeps ..)
  with_reducible refine Keeps.trans ?_ (State.leaveRegulation_keeps ..)
  with_reducible exact State.disablePhases_keeps ..

theorem State.disFrame_keeps (s : State) (r : RailIx) : Keeps s (State.disFrame s r) := by
  unfold State.disFrame
  extract_lets +onlyGivenNames y; clear_value y
  extract_lets +onlyGivenNames y; clear_value y
  extract_lets +onlyGivenNames y; refine Keeps.cut (y := y) ?_ ?_; unfold y; clear y
  with_reducible exact State.modSeq_keeps ..
  intro _; clear_value y
  with_reducible refine Keeps.ite ?_ ?_
  assumption
  with_reducible refine Keeps.ite ?_ ?_
  with_reducible refine Keeps.ite ?_ ?_
  with_reducible refine Keeps.trans ?_ (State.disStart_keeps ..)
  assumption
  assumption
  with_reducible refine Keeps.ite ?_ ?_
  with_reducible refine Keeps.forEach_from ?_ fun _ _ => ?_
  with_reducible refine Keeps.trans ?_ (State.modSeq_keeps ..)
  assumption
  with_reducible refine Keeps.trans ?_ (State.modGen_keeps ..)
  with_reducible exact State.dropCarry_keeps ..
  extract_lets +onlyGivenNames y; clear_value y
  extract_lets +onlyGivenNames y
  extract_lets +onlyGivenNames y; clear_value y
  extract_lets +onlyGivenNames y; clear_value y
  extract_lets +onlyGivenNames y; refine Keeps.cut (y := y) ?_ ?_; unfold y; clear y
  with_reducible refine Keeps.trans ?_ (State.modSeq_keeps ..)
  assumption
  intro _; clear_value y
  with_reducible refine Keeps.trans ?_ (State.commitPhases_keeps ..)
  with_reducible refine Keeps.trans ?_ (State.modLaw_keeps ..)
  assumption

theorem State.goodFrame_keeps (s : State) (r : RailIx) : Keeps s (State.goodFrame s r) := by
  unfold State.goodFrame
  extract_lets +onlyGivenNames y; clear_value y
  extract_lets +onlyGivenNames y; clear_value y
  extract_lets +onlyGivenNames y; refine Keeps.cut (y := y) ?_ ?_; unfold y; clear y
  with_reducible exact State.countIf_keeps ..
  intro _; clear_value y
  with_reducible refine Keeps.trans ?_ (State.modSeq_keeps ..)
  assumption

theorem State.enFrame_keeps (s : State) (pins : BitVec 4) : Keeps s (State.enFrame s pins) := by
  unfold State.enFrame
  with_reducible refine Keeps.mk_free ?_ ..
  with_reducible exact Keeps.refl _

/-! Protection -/

theorem State.cmpRecord_keeps (s : State) (c : CmpIx) (sub : Nat) : Keeps s (State.cmpRecord s c sub) := by
  unfold State.cmpRecord
  with_reducible exact State.record_keeps ..

theorem State.cmpRoute_keeps (s : State) (c : CmpIx) : Keeps s (State.cmpRoute s c) := by
  unfold State.cmpRoute
  extract_lets +onlyGivenNames y; clear_value y
  split
  with_reducible exact State.cmpRecord_keeps ..
  with_reducible exact State.crowbar_keeps ..
  with_reducible refine Keeps.ite ?_ ?_
  with_reducible exact State.cmpRecord_keeps ..
  with_reducible exact State.modProt_keeps ..
  with_reducible exact State.latchRail_keeps ..
  with_reducible refine Keeps.trans ?_ (State.refreshFlt_keeps ..)
  with_reducible refine Keeps.trans ?_ (State.powerDownAll_keeps ..)
  with_reducible refine Keeps.trans ?_ (State.modCmp_keeps ..)
  with_reducible exact State.cmpRecord_keeps ..
  with_reducible exact Keeps.refl _

theorem State.cmpFire_keeps (s : State) (c : CmpIx) (tick : Nat) : Keeps s (State.cmpFire s c tick) := by
  unfold State.cmpFire
  extract_lets +onlyGivenNames y; refine Keeps.cut (y := y) ?_ ?_; unfold y; clear y
  with_reducible exact State.modCmp_keeps ..
  intro _; clear_value y
  extract_lets +onlyGivenNames y; refine Keeps.cut (y := y) ?_ ?_; unfold y; clear y
  with_reducible refine Keeps.trans ?_ (State.count_keeps ..)
  assumption
  intro _; clear_value y
  extract_lets +onlyGivenNames y; refine Keeps.cut (y := y) ?_ ?_; unfold y; clear y
  with_reducible refine Keeps.forEach_from ?_ fun _ _ => ?_
  assumption
  with_reducible exact State.tripPhase_keeps ..
  intro _; clear_value y
  with_reducible refine Keeps.trans ?_ (State.cmpRoute_keeps ..)
  assumption

theorem State.cmpDecide_keeps (s : State) (c : CmpIx) (tick : Nat) : Keeps s (State.cmpDecide s c tick) := by
  unfold State.cmpDecide
  extract_lets +onlyGivenNames y; clear_value y
  extract_lets +onlyGivenNames y; refine Keeps.cut (y := y) ?_ ?_; unfold y; clear y
  with_reducible exact State.modCmp_keeps ..
  intro _; clear_value y
  with_reducible refine Keeps.ite ?_ ?_
  assumption
  with_reducible refine Keeps.trans ?_ (State.cmpFire_keeps ..)
  assumption

theorem State.cmpRelease_keeps (s : State) (c : CmpIx) (tick : Nat) : Keeps s (State.cmpRelease s c tick) := by
  unfold State.cmpRelease
  extract_lets +onlyGivenNames y; refine Keeps.cut (y := y) ?_ ?_; unfold y; clear y
  with_reducible exact State.modCmp_keeps ..
  intro _; clear_value y
  with_reducible refine Keeps.ite ?_ ?_
  with_reducible refine Keeps.trans ?_ (State.modCmp_keeps ..)
  assumption
  assumption

theorem State.cmpRestart_keeps (s : State) (c : CmpIx) : Keeps s (State.cmpRestart s c) := by
  unfold State.cmpRestart
  extract_lets +onlyGivenNames y; clear_value y
  with_reducible exact State.modCmp_keeps ..

theorem State.cmpFrame_keeps (s : State) : Keeps s (State.cmpFrame s) := by
  unfold State.cmpFrame
  with_reducible refine Keeps.forEach_from ?_ fun _ _ => ?_
  with_reducible exact Keeps.refl _
  extract_lets +onlyGivenNames y; clear_value y
  with_reducible refine Keeps.ite ?_ ?_
  with_reducible exact Keeps.refl _
  with_reducible refine Keeps.ite ?_ ?_
  with_reducible exact State.cmpFire_keeps ..
  with_reducible refine Keeps.ite ?_ ?_
  with_reducible exact State.modCmp_keeps ..
  with_reducible exact Keeps.refl _

theorem State.cmpPeriod_keeps (s : State) (n : PhaseIx) : Keeps s (State.cmpPeriod s n) := by
  unfold State.cmpPeriod
  extract_lets +onlyGivenNames y; clear_value y
  with_reducible refine Keeps.forEach_from ?_ fun _ _ => ?_
  with_reducible exact Keeps.refl _
  with_reducible refine Keeps.ite ?_ ?_
  extract_lets +onlyGivenNames y; refine Keeps.cut (y := y) ?_ ?_; unfold y; clear y
  with_reducible exact State.modCmp_keeps ..
  intro _; clear_value y
  with_reducible refine Keeps.ite ?_ ?_
  with_reducible refine Keeps.trans ?_ (State.cmpFire_keeps ..)
  assumption
  assumption
  with_reducible exact Keeps.refl _

theorem State.cmpClear_keeps (s : State) (c : CmpIx) : Keeps s (State.cmpClear s c) := by
  unfold State.cmpClear
  extract_lets +onlyGivenNames y; clear_value y
  with_reducible refine Keeps.ite ?_ ?_
  with_reducible refine Keeps.ite ?_ ?_
  with_reducible refine Keeps.ite ?_ ?_
  with_reducible exact State.cmpFire_keeps ..
  with_reducible exact State.modCmp_keeps ..
  with_reducible exact Keeps.refl _
  with_reducible refine Keeps.ite ?_ ?_
  with_reducible refine Keeps.trans ?_ (State.refreshFlt_keeps ..)
  with_reducible refine Keeps.trans ?_ (State.startStanding_keeps ..)
  with_reducible exact State.modCmp_keeps ..
  with_reducible exact Keeps.refl _

theorem State.levelFrame_keeps (s : State) (r : RailIx) : Keeps s (State.levelFrame s r) := by
  unfold State.levelFrame
  extract_lets +onlyGivenNames y; clear_value y
  extract_lets +onlyGivenNames y; clear_value y
  extract_lets +onlyGivenNames y; clear_value y
  with_reducible exact State.modProt_keeps ..

theorem State.limitFrame_keeps (s : State) (r : RailIx) (lawRan : Bool) : Keeps s (State.limitFrame s r lawRan) := by
  unfold State.limitFrame
  extract_lets +onlyGivenNames y; clear_value y
  extract_lets +onlyGivenNames y; refine Keeps.cut (y := y) ?_ ?_; unfold y; clear y
  with_reducible exact State.countIf_keeps ..
  intro _; clear_value y
  extract_lets +onlyGivenNames y; clear_value y
  with_reducible refine Keeps.trans ?_ (State.modProt_keeps ..)
  assumption

theorem State.inputFrame_keeps (s : State) (r : RailIx) : Keeps s (State.inputFrame s r) := by
  unfold State.inputFrame
  extract_lets +onlyGivenNames y; clear_value y
  extract_lets +onlyGivenNames y; clear_value y
  extract_lets +onlyGivenNames y; clear_value y
  extract_lets +onlyGivenNames y; clear_value y
  extract_lets +onlyGivenNames y; clear_value y
  extract_lets +onlyGivenNames y; clear_value y
  with_reducible exact State.modProt_keeps ..

theorem State.cmpHiccups_keeps (s : State) : Keeps s (State.cmpHiccups s) := by
  unfold State.cmpHiccups
  with_reducible refine Keeps.forEach_from ?_ fun _ _ => ?_
  with_reducible exact Keeps.refl _
  with_reducible refine Keeps.ite ?_ ?_
  with_reducible exact State.hiccupRail_keeps ..
  with_reducible exact Keeps.refl _

theorem State.restart_keeps (s : State) (r : RailIx) : Keeps s (State.restart s r) := by
  unfold State.restart
  with_reducible refine Keeps.ite ?_ ?_
  with_reducible exact State.startLaw_keeps ..
  with_reducible exact Keeps.refl _

theorem State.tempMean_keeps (s : State) (i : TempIx) (v : Int) : Keeps s (State.tempMean s i v) := by
  unfold State.tempMean
  extract_lets +onlyGivenNames y; clear_value y
  extract_lets +onlyGivenNames y; refine Keeps.cut (y := y) ?_ ?_; unfold y; clear y
  with_reducible exact State.modTemp_keeps ..
  intro _; clear_value y
  with_reducible refine Keeps.ite ?_ ?_
  with_reducible refine Keeps.trans ?_ (State.modTemp_keeps ..)
  assumption
  assumption

theorem State.dieWindow_keeps (s : State) : Keeps s (State.dieWindow s) := by
  unfold State.dieWindow
  extract_lets +onlyGivenNames y; clear_value y
  extract_lets +onlyGivenNames y
  extract_lets +onlyGivenNames y; clear_value y
  extract_lets +onlyGivenNames y; clear_value y
  with_reducible refine Keeps.mk_free ?_ ..
  with_reducible exact Keeps.refl _

theorem State.tempAct_keeps (s : State) (i : TempIx) (sub : Nat) : Keeps s (State.tempAct s i sub) := by
  unfold State.tempAct
  extract_lets +onlyGivenNames y; clear_value y
  extract_lets +onlyGivenNames y; clear_value y
  extract_lets +onlyGivenNames y
  split
  extract_lets +onlyGivenNames y; refine Keeps.cut (y := y) ?_ ?_; unfold y; clear y
  with_reducible refine Keeps.trans ?_ (State.modTemp_keeps ..)
  unfold y
  with_reducible exact State.record_keeps ..
  intro _; clear_value y
  with_reducible refine Keeps.forEach_from ?_ fun _ _ => ?_
  assumption
  with_reducible refine Keeps.trans ?_ (State.modProt_keeps ..)
  with_reducible exact State.disablePhases_keeps ..
  with_reducible exact State.latchRails_keeps ..
  with_reducible refine Keeps.trans ?_ (State.refreshFlt_keeps ..)
  with_reducible refine Keeps.trans ?_ (State.powerDownAll_keeps ..)
  with_reducible refine Keeps.trans ?_ (State.modTemp_keeps ..)
  unfold y
  with_reducible exact State.record_keeps ..
  unfold y
  with_reducible exact State.record_keeps ..

theorem State.tempLevels_keeps (s : State) (i : TempIx) : Keeps s (State.tempLevels s i) := by
  unfold State.tempLevels
  extract_lets +onlyGivenNames y; clear_value y
  extract_lets +onlyGivenNames y
  extract_lets +onlyGivenNames y; clear_value y
  extract_lets +onlyGivenNames y; clear_value y
  extract_lets +onlyGivenNames y; clear_value y
  extract_lets +onlyGivenNames y; clear_value y
  extract_lets +onlyGivenNames y; clear_value y
  extract_lets +onlyGivenNames y; clear_value y
  extract_lets +onlyGivenNames y; clear_value y
  extract_lets +onlyGivenNames y; clear_value y
  extract_lets +onlyGivenNames y; refine Keeps.cut (y := y) ?_ ?_; unfold y; clear y
  with_reducible exact State.modTemp_keeps ..
  intro _; clear_value y
  extract_lets +onlyGivenNames y; refine Keeps.cut (y := y) ?_ ?_; unfold y; clear y
  with_reducible refine Keeps.trans ?_ (State.countIf_keeps ..)
  assumption
  intro _; clear_value y
  with_reducible refine Keeps.ite ?_ ?_
  with_reducible refine Keeps.trans ?_ (State.tempAct_keeps ..)
  with_reducible refine Keeps.trans ?_ (State.count_keeps ..)
  assumption
  assumption

/-! Meter -/

theorem State.cutIv_keeps (s : State) (endAt startAt : Rat) (flags : Nat) : Keeps s (State.cutIv s endAt startAt
    flags) := by
  unfold State.cutIv
  refine Keeps.trans ?_ (State.modMeter_keeps_same ⟨rfl, rfl, rfl, rfl⟩)
  with_reducible exact State.closeIv_keeps ..

theorem State.meterTimeSet_keeps (s : State) (sec : Nat) (ns : Rat) : Keeps s (State.meterTimeSet s sec ns) := by
  unfold State.meterTimeSet
  extract_lets +onlyGivenNames y; clear_value y
  with_reducible refine Keeps.ite ?_ ?_
  with_reducible exact Keeps.refl _
  extract_lets +onlyGivenNames y; refine Keeps.cut (y := y) ?_ ?_; unfold y; clear y
  with_reducible exact State.closeIv_keeps ..
  intro _; clear_value y
  refine Keeps.trans ?_ (State.modMeter_keeps_same ⟨rfl, rfl, rfl, rfl⟩)
  assumption

theorem State.abandonSession_keeps (s : State) : Keeps s (State.abandonSession s) := by
  unfold State.abandonSession
  with_reducible refine Keeps.ite ?_ ?_
  with_reducible exact Keeps.refl _
  extract_lets +onlyGivenNames y; clear_value y
  refine Keeps.trans ?_ (State.modMeter_keeps_same ⟨rfl, rfl, rfl, rfl⟩)
  with_reducible exact State.auditAdd_keeps ..

theorem State.meterSaved_keeps (s : State) (closed : Bool) : Keeps s (State.meterSaved s closed) := by
  unfold State.meterSaved
  refine Keeps.trans ?_ (State.modMeter_keeps_same ⟨rfl, rfl, rfl, rfl⟩)
  with_reducible exact Keeps.refl _

theorem State.meterMedia_keeps (s : State) : Keeps s (State.meterMedia s) := by
  unfold State.meterMedia
  with_reducible refine Keeps.ite ?_ ?_
  with_reducible exact Keeps.refl _
  with_reducible refine Keeps.trans ?_ (State.auditAdd_keeps ..)
  refine Keeps.trans ?_ (State.modMeter_keeps_same ⟨rfl, rfl, rfl, rfl⟩)
  with_reducible exact Keeps.refl _

theorem State.meterPowerFail_keeps (s : State) : Keeps s (State.meterPowerFail s) := by
  unfold State.meterPowerFail
  with_reducible refine Keeps.ite ?_ ?_
  with_reducible exact Keeps.refl _
  with_reducible refine Keeps.trans ?_ (State.meterSaved_keeps ..)
  with_reducible exact State.cutIv_keeps ..

theorem State.meterBoot_keeps (s : State) : Keeps s (State.meterBoot s) := by
  unfold State.meterBoot
  with_reducible refine Keeps.ite ?_ ?_
  with_reducible exact Keeps.refl _
  extract_lets +onlyGivenNames y; clear_value y
  extract_lets +onlyGivenNames y; refine Keeps.cut (y := y) ?_ ?_; unfold y; clear y
  refine Keeps.trans ?_ (State.modMeter_keeps_same ⟨rfl, rfl, rfl, rfl⟩)
  with_reducible exact Keeps.refl _
  intro _; clear_value y
  extract_lets +onlyGivenNames y; refine Keeps.cut (y := y) ?_ ?_; unfold y; clear y
  with_reducible refine Keeps.ite ?_ ?_
  assumption
  with_reducible refine Keeps.trans ?_ (State.closeIv_keeps ..)
  assumption
  intro _; clear_value y
  with_reducible refine Keeps.trans ?_ (State.meterSaved_keeps ..)
  refine Keeps.trans ?_ (State.modMeter_keeps_same ⟨rfl, rfl, rfl, rfl⟩)
  assumption

theorem State.publish_keeps (s : State) : Keeps s (State.publish s) := by
  unfold State.publish
  refine Keeps.trans ?_ (State.modMeter_keeps_same ⟨rfl, rfl, rfl, rfl⟩)
  with_reducible exact Keeps.refl _

theorem State.meterFrame_keeps (s : State) : Keeps s (State.meterFrame s) := by
  unfold State.meterFrame
  refine Keeps.trans ?_ (State.modMeter_keeps_same ⟨rfl, rfl, rfl, rfl⟩)
  with_reducible exact Keeps.refl _

theorem State.clearOver_keeps (s : State) (i : PointIx) : Keeps s (State.clearOver s i) := by
  unfold State.clearOver
  refine Keeps.trans ?_ (State.modMeter_keeps_same ⟨rfl, rfl, rfl, rfl⟩)
  with_reducible exact Keeps.refl _

/-! Clocks -/

theorem State.modClk_keeps (s : State) (f : ClkState → ClkState) : Keeps s (State.modClk s f) := by
  unfold State.modClk
  with_reducible refine Keeps.mk_free ?_ ..
  with_reducible exact Keeps.refl _

theorem State.modTime_keeps (s : State) (f : TimeState → TimeState) : Keeps s (State.modTime s f) := by
  unfold State.modTime
  with_reducible refine Keeps.mk_free ?_ ..
  with_reducible exact Keeps.refl _

theorem State.passTime_keeps (s : State) (dt : Rat) : Keeps s (State.passTime s dt) := by
  unfold State.passTime
  extract_lets +onlyGivenNames y; refine Keeps.cut (y := y) ?_ ?_; unfold y; clear y
  with_reducible exact State.modTime_keeps ..
  intro _; clear_value y
  with_reducible refine Keeps.ite ?_ ?_
  refine Keeps.trans ?_ (State.modMeter_keeps_same ⟨rfl, rfl, rfl, rfl⟩)
  assumption
  assumption

theorem State.timeTo_keeps (s : State) (sec : Nat) (ns : Rat) (sub : Nat) : Keeps s (State.timeTo s sec ns sub) := by
  unfold State.timeTo
  with_reducible refine Keeps.ite ?_ ?_
  with_reducible exact Keeps.refl _
  extract_lets +onlyGivenNames y; refine Keeps.cut (y := y) ?_ ?_; unfold y; clear y
  with_reducible exact State.modTime_keeps ..
  intro _; clear_value y
  extract_lets +onlyGivenNames y; refine Keeps.cut (y := y) ?_ ?_; unfold y; clear y
  with_reducible refine Keeps.trans ?_ (State.anchor_keeps ..)
  with_reducible refine Keeps.trans ?_ (State.count_keeps ..)
  assumption
  intro _; clear_value y
  with_reducible refine Keeps.ite ?_ ?_
  with_reducible refine Keeps.trans ?_ (State.meterTimeSet_keeps ..)
  assumption
  assumption

theorem State.timeIrq_keeps (s : State) (old : TimeSt) : Keeps s (State.timeIrq s old) := by
  unfold State.timeIrq
  with_reducible exact State.irqIf_keeps ..

theorem State.mainPps_keeps (s : State) : Keeps s (State.mainPps s) := by
  unfold State.mainPps
  extract_lets +onlyGivenNames y; clear_value y
  extract_lets +onlyGivenNames y; clear_value y
  split
  extract_lets +onlyGivenNames y; clear_value y
  extract_lets +onlyGivenNames y; refine Keeps.cut (y := y) ?_ ?_; unfold y; clear y
  with_reducible exact State.modTime_keeps ..
  intro _; clear_value y
  extract_lets +onlyGivenNames y; refine Keeps.cut (y := y) ?_ ?_; unfold y; clear y
  refine Keeps.trans ?_ (State.modMeter_keeps_same ⟨rfl, rfl, rfl, rfl⟩)
  assumption
  intro _; clear_value y
  with_reducible refine Keeps.trans ?_ (State.finishOpt_keeps ..)
  with_reducible refine Keeps.trans ?_ (State.timeTo_keeps ..)
  assumption
  extract_lets +onlyGivenNames y; clear_value y
  extract_lets +onlyGivenNames y; refine Keeps.cut (y := y) ?_ ?_; unfold y; clear y
  with_reducible exact State.modTime_keeps ..
  intro _; clear_value y
  with_reducible refine Keeps.ite ?_ ?_
  with_reducible refine Keeps.trans ?_ (State.timeTo_keeps ..)
  assumption
  assumption

theorem State.meterPps_keeps (s : State) (mainStepped : Bool) : Keeps s (State.meterPps s mainStepped) := by
  unfold State.meterPps
  with_reducible refine Keeps.ite ?_ ?_
  with_reducible exact Keeps.refl _
  extract_lets +onlyGivenNames y; clear_value y
  extract_lets +onlyGivenNames y; clear_value y
  extract_lets +onlyGivenNames y; refine Keeps.cut (y := y) ?_ ?_; unfold y; clear y
  refine Keeps.trans ?_ (State.modMeter_keeps_same ⟨rfl, rfl, rfl, rfl⟩)
  with_reducible exact Keeps.refl _
  intro _; clear_value y
  with_reducible refine Keeps.ite ?_ ?_
  with_reducible refine Keeps.trans ?_ (State.meterTimeSet_keeps ..)
  assumption
  assumption

theorem State.freqFrame_keeps (s : State) (err : Int) : Keeps s (State.freqFrame s err) := by
  unfold State.freqFrame
  with_reducible exact State.modClk_keeps ..

theorem State.tick_keeps (s : State) (elapsedNs : Nat) (syncErr : Int) : Keeps s (State.tick s elapsedNs syncErr)
    := by
  unfold State.tick
  extract_lets +onlyGivenNames a b super align c
  have ha : Keeps s a := .mk_free (.refl s) ..
  have hb : Keeps s b := ha.trans (State.passTime_keeps ..)
  have hc : Keeps s c := (hb.trans (State.freqFrame_keeps ..)).trans (State.modClk_keeps ..)
  clear_value align c
  exact Keeps.ite (hc.trans (State.alignCarriers_keeps ..)) hc

end Sys2Proof.Machine
end

