-- ==== Sys2Proof/Laws/KeepsHost.lean ====
section
/-! SUPPORT. What object access, the edge, the twin, the frame, the mailbox, the requests and the boot keep (see Laws/Keeps.lean). Each proof walks its function's body in order: a let is a state on the
way, a branch is two cases, a call cites the lemma of what it calls. -/

namespace Sys2Proof.Machine

/-! Access -/

theorem State.latchFrame_keeps (s : State) : Keeps s (State.latchFrame s) := by
  unfold State.latchFrame
  with_reducible exact State.modClk_keeps ..

theorem State.latchSec_keeps (s : State) : Keeps s (State.latchSec s) := by
  unfold State.latchSec
  with_reducible exact State.modTime_keeps ..

theorem State.latchRec_keeps (s : State) (which : RecLow) : Keeps s (State.latchRec s which) := by
  unfold State.latchRec
  split
  refine Keeps.trans ?_ (State.modRec_keeps fun h => h)
  with_reducible exact Keeps.refl _
  refine Keeps.trans ?_ (State.modRec_keeps fun h => h)
  with_reducible exact Keeps.refl _

theorem State.latchEnergy_keeps (s : State) (i : PointIx) (dir : EnergyDir) : Keeps s (State.latchEnergy s i dir)
    := by
  unfold State.latchEnergy
  extract_lets +onlyGivenNames y; clear_value y
  split
  refine Keeps.trans ?_ (State.modMeter_keeps_same ⟨rfl, rfl, rfl, rfl⟩)
  with_reducible exact Keeps.refl _
  refine Keeps.trans ?_ (State.modMeter_keeps_same ⟨rfl, rfl, rfl, rfl⟩)
  with_reducible exact Keeps.refl _

theorem State.clearPeak_keeps (s : State) (e : EngineIx) : Keeps s (State.clearPeak s e) := by
  unfold State.clearPeak
  with_reducible refine Keeps.mk_free ?_ ..
  with_reducible exact Keeps.refl _

theorem State.readEffect_keeps (s : State) (o : Obj) : Keeps s (State.readEffect s o) := by
  unfold State.readEffect
  with_reducible refine Keeps.ite ?_ ?_
  with_reducible refine Keeps.ite ?_ ?_
  with_reducible exact State.latchFrame_keeps ..
  with_reducible exact Keeps.refl _
  with_reducible refine Keeps.ite ?_ ?_
  with_reducible refine Keeps.ite ?_ ?_
  with_reducible exact State.latchSec_keeps ..
  with_reducible exact Keeps.refl _
  with_reducible refine Keeps.ite ?_ ?_
  with_reducible refine Keeps.ite ?_ ?_
  with_reducible exact State.latchRec_keeps ..
  with_reducible refine Keeps.ite ?_ ?_
  with_reducible exact State.latchRec_keeps ..
  with_reducible exact Keeps.refl _
  with_reducible refine Keeps.ite ?_ ?_
  refine Keeps.dite (fun _ => ?_) (fun _ => ?_)
  with_reducible refine Keeps.ite ?_ ?_
  with_reducible exact State.latchEnergy_keeps ..
  with_reducible refine Keeps.ite ?_ ?_
  with_reducible exact State.latchEnergy_keeps ..
  with_reducible refine Keeps.ite ?_ ?_
  with_reducible exact State.clearOver_keeps ..
  with_reducible exact Keeps.refl _
  with_reducible exact Keeps.refl _
  with_reducible refine Keeps.ite ?_ ?_
  refine Keeps.dite (fun _ => ?_) (fun _ => ?_)
  with_reducible exact State.clearPeak_keeps ..
  with_reducible exact Keeps.refl _
  with_reducible refine Keeps.ite ?_ ?_
  refine Keeps.dite (fun _ => ?_) (fun _ => ?_)
  with_reducible exact State.tblAdvance_keeps ..
  with_reducible exact Keeps.refl _
  with_reducible exact Keeps.refl _

theorem State.readObj_keeps {s : State} {o : Obj} {q : State × Word} (h : s.readObj o = some q) : Keeps s q.1 := by
  obtain ⟨v, -, rfl⟩ := Option.map_eq_some_iff.mp h
  exact State.readEffect_keeps ..

theorem State.readBlock_keeps (s : State) (cls inst item n : Nat) : Keeps s (s.readBlock cls inst item n).1 := by
  induction n generalizing s item with
  | zero => exact .refl s
  | succ n ih =>
    unfold State.readBlock
    split
    · exact ih ..
    · rename_i p h
      split at h
      · exact (State.readObj_keeps h).trans (ih ..)
      · cases h

theorem State.writeTarget_keeps (s : State) (r : RailIx) (v : Word) : Keeps s (State.writeTarget s r v) := by
  unfold State.writeTarget
  extract_lets +onlyGivenNames y; refine Keeps.cut (y := y) ?_ ?_; unfold y; clear y
  with_reducible exact State.setObj_keeps ..
  intro _; clear_value y
  with_reducible refine Keeps.ite ?_ ?_
  assumption
  extract_lets +onlyGivenNames y; clear_value y
  with_reducible refine Keeps.ite ?_ ?_
  with_reducible refine Keeps.trans ?_ (State.takeTarget_keeps ..)
  assumption
  with_reducible refine Keeps.ite ?_ ?_
  with_reducible refine Keeps.trans ?_ (State.takeRequested_keeps ..)
  assumption
  assumption

theorem State.slamDisable_keeps (s : State) (r : RailIx) : Keeps s (State.slamDisable s r) := by
  unfold State.slamDisable
  with_reducible refine Keeps.ite ?_ ?_
  with_reducible exact State.modLaw_keeps ..
  extract_lets +onlyGivenNames y; refine Keeps.cut (y := y) ?_ ?_; unfold y; clear y
  with_reducible refine Keeps.trans ?_ (State.endPark_keeps ..)
  with_reducible refine Keeps.trans ?_ (State.slamReturn_keeps ..)
  with_reducible exact State.preloadNow_keeps ..
  intro _; clear_value y
  with_reducible refine Keeps.trans ?_ (State.modLaw_keeps ..)
  assumption

theorem State.writeLawCtrl_keeps (s : State) (r : RailIx) (v : Word) : Keeps s (State.writeLawCtrl s r v) := by
  unfold State.writeLawCtrl
  extract_lets +onlyGivenNames y; clear_value y
  extract_lets +onlyGivenNames y; refine Keeps.cut (y := y) ?_ ?_; unfold y; clear y
  with_reducible exact State.setObj_keeps ..
  intro _; clear_value y
  with_reducible refine Keeps.ite ?_ ?_
  with_reducible refine Keeps.trans ?_ (State.slamDisable_keeps ..)
  assumption
  assumption

theorem State.ltReset_keeps (s : State) (r : RailIx) : Keeps s (State.ltReset s r) := by
  unfold State.ltReset
  with_reducible exact State.modLt_keeps ..

theorem State.ffCommand_keeps (s : State) (r : RailIx) (cmd : Nat) : Keeps s (State.ffCommand s r cmd) := by
  unfold State.ffCommand
  split
  with_reducible exact State.ffClear_keeps ..
  with_reducible exact State.save_keeps ..
  with_reducible exact State.ffRestore_keeps ..
  with_reducible exact Keeps.refl _

theorem State.useCoefs_keeps (s : State) (r : RailIx) (b0 b1 b2 a1 a2 : Word) : Keeps s (State.useCoefs s r b0 b1
    b2 a1 a2) := by
  unfold State.useCoefs
  with_reducible refine Keeps.trans ?_ (State.ltReset_keeps ..)
  with_reducible exact State.modLaw_keeps ..

theorem State.writeRail_keeps (s : State) (r : RailIx) (item : Nat) (raw v : Word) : Keeps s (State.writeRail s r
    item raw v) := by
  unfold State.writeRail
  with_reducible refine Keeps.ite ?_ ?_
  with_reducible exact State.writeTarget_keeps ..
  with_reducible refine Keeps.ite ?_ ?_
  with_reducible exact State.writeLawCtrl_keeps ..
  with_reducible refine Keeps.ite ?_ ?_
  with_reducible exact State.tblWrite_keeps ..
  with_reducible refine Keeps.ite ?_ ?_
  with_reducible exact Keeps.refl _
  with_reducible refine Keeps.ite ?_ ?_
  with_reducible exact State.ffCommand_keeps ..
  extract_lets +onlyGivenNames y; refine Keeps.cut (y := y) ?_ ?_; unfold y; clear y
  with_reducible exact State.setObj_keeps ..
  intro _; clear_value y
  with_reducible refine Keeps.ite ?_ ?_
  with_reducible refine Keeps.trans ?_ (State.reclamp_keeps ..)
  assumption
  with_reducible refine Keeps.ite ?_ ?_
  with_reducible refine Keeps.ite ?_ ?_
  with_reducible refine Keeps.trans ?_ (State.ltReset_keeps ..)
  assumption
  assumption
  with_reducible refine Keeps.ite ?_ ?_
  with_reducible refine Keeps.trans ?_ (State.ltClamp_keeps ..)
  assumption
  with_reducible refine Keeps.ite ?_ ?_
  with_reducible refine Keeps.trans ?_ (State.linkPolicy_keeps ..)
  assumption
  assumption

theorem State.armHs_keeps (s : State) (n : PhaseIx) (v : Word) : Keeps s (State.armHs s n v) := by
  unfold State.armHs
  with_reducible refine Keeps.ite ?_ ?_
  with_reducible exact State.modGen_keeps ..
  with_reducible exact Keeps.refl _

theorem State.writeForce_keeps (s : State) (n : PhaseIx) (v : Word) : Keeps s (State.writeForce s n v) := by
  unfold State.writeForce
  with_reducible refine Keeps.trans ?_ (State.modGen_keeps ..)
  with_reducible exact State.setObj_keeps ..

theorem State.writeForceDuty_keeps (s : State) (n : PhaseIx) (v : Word) : Keeps s (State.writeForceDuty s n v) := by
  unfold State.writeForceDuty
  with_reducible refine Keeps.trans ?_ (State.modGen_keeps ..)
  with_reducible exact State.setObj_keeps ..

theorem State.writePhase_keeps (s : State) (n : PhaseIx) (item : Nat) (v : Word) : Keeps s (State.writePhase s n
    item v) := by
  unfold State.writePhase
  with_reducible refine Keeps.ite ?_ ?_
  with_reducible exact State.writeForce_keeps ..
  with_reducible refine Keeps.ite ?_ ?_
  with_reducible exact State.writeForceDuty_keeps ..
  with_reducible refine Keeps.ite ?_ ?_
  with_reducible exact State.armHs_keeps ..
  with_reducible exact State.setObj_keeps ..

theorem State.requestAlign_keeps (s : State) : Keeps s (State.requestAlign s) := by
  unfold State.requestAlign
  with_reducible refine Keeps.ite ?_ ?_
  with_reducible exact Keeps.refl _
  with_reducible exact State.modClk_keeps ..

theorem State.disableSync_keeps (s : State) : Keeps s (State.disableSync s) := by
  unfold State.disableSync
  split
  with_reducible exact State.modClk_keeps ..
  with_reducible exact State.modClk_keeps ..
  with_reducible exact Keeps.refl _

theorem State.writeClk_keeps (s : State) (item : Nat) (v : Word) : Keeps s (State.writeClk s item v) := by
  unfold State.writeClk
  with_reducible refine Keeps.ite ?_ ?_
  with_reducible exact State.requestAlign_keeps ..
  extract_lets +onlyGivenNames y; clear_value y
  extract_lets +onlyGivenNames y; refine Keeps.cut (y := y) ?_ ?_; unfold y; clear y
  with_reducible exact State.setObj_keeps ..
  intro _; clear_value y
  with_reducible refine Keeps.ite ?_ ?_
  with_reducible refine Keeps.trans ?_ (State.disableSync_keeps ..)
  assumption
  assumption

theorem State.writePort_keeps (s : State) (p : PortIx) (item : Nat) (v : Word) : Keeps s (State.writePort s p item
    v) := by
  unfold State.writePort
  extract_lets +onlyGivenNames y; clear_value y
  extract_lets +onlyGivenNames y; refine Keeps.cut (y := y) ?_ ?_; unfold y; clear y
  with_reducible exact State.setObj_keeps ..
  intro _; clear_value y
  with_reducible refine Keeps.ite ?_ ?_
  with_reducible refine Keeps.ite ?_ ?_
  with_reducible refine Keeps.trans ?_ (State.enablePort_keeps ..)
  assumption
  with_reducible refine Keeps.ite ?_ ?_
  with_reducible refine Keeps.trans ?_ (State.disablePort_keeps ..)
  assumption
  assumption
  assumption

theorem State.writeFeed_keeps (s : State) (o : Obj) (v : Word) : Keeps s (State.writeFeed s o v) := by
  unfold State.writeFeed
  with_reducible refine Keeps.ite ?_ ?_
  with_reducible refine Keeps.trans ?_ (State.refreshFlt_keeps ..)
  with_reducible exact State.setObj_keeps ..
  with_reducible exact State.feedWrite_keeps ..

theorem State.writeCmp_keeps (s : State) (c : CmpIx) (item : Nat) (v : Word) : Keeps s (State.writeCmp s c item v)
    := by
  unfold State.writeCmp
  with_reducible refine Keeps.ite ?_ ?_
  with_reducible exact State.cmpClear_keeps ..
  extract_lets +onlyGivenNames y; refine Keeps.cut (y := y) ?_ ?_; unfold y; clear y
  with_reducible exact State.setObj_keeps ..
  intro _; clear_value y
  with_reducible refine Keeps.ite ?_ ?_
  with_reducible refine Keeps.trans ?_ (State.cmpRestart_keeps ..)
  assumption
  assumption

theorem State.applyKey_keeps (s : State) : Keeps s (State.applyKey s) := by
  unfold State.applyKey
  extract_lets +onlyGivenNames y; clear_value y
  extract_lets +onlyGivenNames y; clear_value y
  with_reducible refine Keeps.mk_free ?_ ..
  with_reducible exact Keeps.refl _

theorem State.writeAuth_keeps (s : State) (item : Nat) (v : Word) : Keeps s (State.writeAuth s item v) := by
  unfold State.writeAuth
  with_reducible refine Keeps.ite ?_ ?_
  with_reducible exact State.setObj_keeps ..
  with_reducible refine Keeps.ite ?_ ?_
  with_reducible exact State.applyKey_keeps ..
  extract_lets +onlyGivenNames y; clear_value y
  with_reducible refine Keeps.mk_free ?_ ..
  with_reducible exact Keeps.refl _

theorem State.markModified_keeps (s : State) (o : Obj) : Keeps s (State.markModified s o) := by
  unfold State.markModified
  with_reducible refine Keeps.ite ?_ ?_
  with_reducible refine Keeps.mk_free ?_ ..
  with_reducible exact Keeps.refl _
  with_reducible exact Keeps.refl _

theorem State.applyWrite_keeps (s : State) (w : ObjWrite) : Keeps s (State.applyWrite s w) := by
  unfold State.applyWrite
  extract_lets +onlyGivenNames y; clear_value y
  extract_lets +onlyGivenNames y; clear_value y
  extract_lets +onlyGivenNames y; refine Keeps.cut (y := y) ?_ ?_; unfold y; clear y
  with_reducible exact State.markModified_keeps ..
  intro _; clear_value y
  with_reducible refine Keeps.ite ?_ ?_
  refine Keeps.dite (fun _ => ?_) (fun _ => ?_)
  with_reducible refine Keeps.trans ?_ (State.writeRail_keeps ..)
  assumption
  assumption
  with_reducible refine Keeps.ite ?_ ?_
  refine Keeps.dite (fun _ => ?_) (fun _ => ?_)
  with_reducible refine Keeps.trans ?_ (State.writePhase_keeps ..)
  assumption
  assumption
  with_reducible refine Keeps.ite ?_ ?_
  with_reducible refine Keeps.trans ?_ (State.writeClk_keeps ..)
  assumption
  with_reducible refine Keeps.ite ?_ ?_
  refine Keeps.dite (fun _ => ?_) (fun _ => ?_)
  with_reducible refine Keeps.trans ?_ (State.writePort_keeps ..)
  assumption
  assumption
  with_reducible refine Keeps.ite ?_ ?_
  with_reducible refine Keeps.trans ?_ (State.writeFeed_keeps ..)
  assumption
  with_reducible refine Keeps.ite ?_ ?_
  refine Keeps.dite (fun _ => ?_) (fun _ => ?_)
  with_reducible refine Keeps.trans ?_ (State.writeCmp_keeps ..)
  assumption
  assumption
  with_reducible refine Keeps.ite ?_ ?_
  with_reducible refine Keeps.trans ?_ (State.abortTune_keeps ..)
  assumption
  with_reducible refine Keeps.ite ?_ ?_
  with_reducible refine Keeps.trans ?_ (State.writeAuth_keeps ..)
  assumption
  extract_lets +onlyGivenNames y; refine Keeps.cut (y := y) ?_ ?_; unfold y; clear y
  with_reducible refine Keeps.trans ?_ (State.setObj_keeps ..)
  assumption
  intro _; clear_value y
  with_reducible refine Keeps.ite ?_ ?_
  refine Keeps.dite (fun _ => ?_) (fun _ => ?_)
  with_reducible refine Keeps.trans ?_ (State.pinRequest_keeps ..)
  assumption
  assumption
  with_reducible refine Keeps.ite ?_ ?_
  with_reducible refine Keeps.forEach_from ?_ fun _ _ => ?_
  assumption
  with_reducible exact State.pinRequest_keeps ..
  assumption

theorem State.atEdge_keeps (s : State) (a : EdgeAction) : Keeps s (State.atEdge s a) := by
  unfold State.atEdge
  with_reducible refine Keeps.mk_free ?_ ..
  with_reducible exact Keeps.refl _

theorem State.replicate_keeps (s : State) (r : Req) : Keeps s (State.replicate s r) := by
  unfold State.replicate
  with_reducible refine Keeps.ite ?_ ?_
  with_reducible exact State.toTwin_keeps ..
  with_reducible exact Keeps.refl _

theorem State.queueCoefs_keeps (s : State) (ms : List ObjWrite) : Keeps s (State.queueCoefs s ms) := by
  unfold State.queueCoefs
  with_reducible refine Keeps.forEach_from ?_ fun _ _ => ?_
  with_reducible exact Keeps.refl _
  with_reducible refine Keeps.ite ?_ ?_
  refine Keeps.dite (fun _ => ?_) (fun _ => ?_)
  with_reducible exact State.atEdge_keeps ..
  with_reducible exact Keeps.refl _
  with_reducible exact Keeps.refl _

theorem State.startSlot_keeps (s : State) (k : SlotIx) : Keeps s (State.startSlot s k) := by
  unfold State.startSlot
  with_reducible exact State.modSlot_keeps ..

theorem State.acceptSet_keeps (s : State) (k : SlotIx) (w : ObjWrite) : Keeps s (State.acceptSet s k w) := by
  unfold State.acceptSet
  extract_lets +onlyGivenNames y; refine Keeps.cut (y := y) ?_ ?_; unfold y; clear y
  with_reducible exact State.replicate_keeps ..
  intro _; clear_value y
  with_reducible refine Keeps.ite ?_ ?_
  with_reducible refine Keeps.trans ?_ (State.startSlot_keeps ..)
  with_reducible refine Keeps.trans ?_ (State.queueCoefs_keeps ..)
  with_reducible refine Keeps.trans ?_ (State.atEdge_keeps ..)
  assumption
  with_reducible refine Keeps.trans ?_ (State.finish_keeps ..)
  with_reducible refine Keeps.trans ?_ (State.applyWrite_keeps ..)
  assumption

theorem State.doSet_keeps (s : State) (k : SlotIx) (authed : Bool) (w : ObjWrite) : Keeps s (State.doSet s k authed
    w) := by
  unfold State.doSet
  extract_lets +onlyGivenNames y; clear_value y
  with_reducible refine Keeps.ite ?_ ?_
  with_reducible exact State.acceptSet_keeps ..
  with_reducible exact State.finish_keeps ..

theorem State.applyMember_keeps (s : State) (b : Bool) (ws : List ObjWrite) : Keeps s (s.applyMember b ws).1 := by
  unfold State.applyMember
  split
  · exact .refl s
  · exact Keeps.forEach State.applyWrite_keeps

theorem State.applyMembers_keeps (s : State) (b : Bool) (ms : List (List ObjWrite)) :
    Keeps s (s.applyMembers b ms).1 := by
  induction ms generalizing s with
  | nil => exact .refl s
  | cons m ms ih => exact (State.applyMember_keeps s b m).trans (ih _)

theorem State.finishGroup_keeps (s : State) (slot : Option SlotIx) (codes : List Nat) : Keeps s (State.finishGroup
    s slot codes) := by
  unfold State.finishGroup
  with_reducible exact State.finishOpt_keeps ..

/-! HostOps -/

theorem State.applyTarget_keeps (s : State) (slot : Option SlotIx) (i : Nat) (m : TargetMember) :
    Keeps s (State.applyTarget s slot i m) := by
  unfold State.applyTarget
  extract_lets +onlyGivenNames d code
  have done : ∀ s code clamped, Keeps s (d s code clamped) := by
    intro s code clamped
    unfold d
    split
    · exact State.gatherSet_keeps ..
    · exact .refl s
  refine Keeps.dite (fun h => ?_) (fun h => done ..)
  extract_lets +onlyGivenNames r a
  have ha : Keeps s a := State.setObj_keeps ..
  clear_value a
  refine Keeps.ite (ha.trans (done ..)) ?_
  extract_lets +onlyGivenNames b
  have hb : Keeps s b := ha.trans (State.takeTarget_keeps ..)
  clear_value b
  split
  · exact hb.trans (State.modProf_keeps ..)
  · exact hb.trans (done ..)

theorem State.applyTargets_keeps (s : State) (slot : Option SlotIx) (i : Nat) (ms : List TargetMember) :
    Keeps s (s.applyTargets slot i ms) := by
  induction ms generalizing s i with
  | nil => exact .refl s
  | cons m ms ih => exact (State.applyTarget_keeps s slot i m).trans (ih _ _)

theorem State.clearLatch_keeps (s : State) (r : RailIx) (override : Bool) (key : Nat) : Keeps s (State.clearLatch s
    r override key) := by
  unfold State.clearLatch
  extract_lets +onlyGivenNames y; clear_value y
  extract_lets +onlyGivenNames y; refine Keeps.cut (y := y) ?_ ?_; unfold y; clear y
  with_reducible refine Keeps.trans ?_ (State.modProt_keeps ..)
  with_reducible exact State.endCrowbar_keeps ..
  intro _; clear_value y
  extract_lets +onlyGivenNames y; refine Keeps.cut (y := y) ?_ ?_; unfold y; clear y
  with_reducible refine Keeps.forEach_from ?_ fun _ _ => ?_
  assumption
  with_reducible refine Keeps.ite ?_ ?_
  with_reducible refine Keeps.trans ?_ (State.modSense_keeps ..)
  with_reducible exact State.modGen_keeps ..
  with_reducible exact State.modGen_keeps ..
  intro _; clear_value y
  extract_lets +onlyGivenNames y; refine Keeps.cut (y := y) ?_ ?_; unfold y; clear y
  with_reducible refine Keeps.trans ?_ (State.modFuse_keeps ..)
  assumption
  intro _; clear_value y
  extract_lets +onlyGivenNames y; refine Keeps.cut (y := y) ?_ ?_; unfold y; clear y
  with_reducible refine Keeps.trans ?_ (State.saveFuses_keeps ..)
  assumption
  intro _; clear_value y
  extract_lets +onlyGivenNames y; refine Keeps.cut (y := y) ?_ ?_; unfold y; clear y
  split
  assumption
  with_reducible refine Keeps.ite ?_ ?_
  with_reducible refine Keeps.trans ?_ (State.settleDev_keeps ..)
  with_reducible refine Keeps.trans ?_ (State.modDomain_keeps ..)
  with_reducible refine Keeps.trans ?_ (State.setDom_keeps ..)
  assumption
  assumption
  intro _; clear_value y
  extract_lets +onlyGivenNames y; refine Keeps.cut (y := y) ?_ ?_; unfold y; clear y
  with_reducible refine Keeps.trans ?_ (State.record_keeps ..)
  assumption
  intro _; clear_value y
  with_reducible refine Keeps.trans ?_ (State.refreshFlt_keeps ..)
  with_reducible refine Keeps.trans ?_ (State.count_keeps ..)
  assumption

theorem State.freeze_keeps (s : State) : Keeps s (State.freeze s) := by
  unfold State.freeze
  with_reducible refine Keeps.trans ?_ (State.armRec_keeps ..)
  refine Keeps.trans ?_ (State.modRec_keeps fun h => h)
  with_reducible exact Keeps.refl _

theorem State.clearCounters_keeps (s : State) (cls inst key : Nat) : Keeps s (State.clearCounters s cls inst key)
    := by
  unfold State.clearCounters
  extract_lets +onlyGivenNames a
  have ha : Keeps s a := .mk_objs (.refl s) _ _ (fun h => StoreOk.filter h _) ..
  clear_value a
  exact ha.trans (State.record_keeps ..)

theorem State.withImage_ok {st : Store} (h : StoreOk st) (image : Store) : StoreOk (State.withImage st image) :=
  Store.foldl_entries_ok _ (StoreOk.filter h _)

theorem State.loadCoefs_keeps (s : State) (r : RailIx) : Keeps s (State.loadCoefs s r) := by
  unfold State.loadCoefs
  extract_lets +onlyGivenNames y
  with_reducible exact State.useCoefs_keeps ..

theorem State.loadTables_keeps (s : State) (old : Store) (tables : List (Nat × Nat × Sparse)) (r : RailIx) : Keeps
    s (State.loadTables s old tables r) := by
  unfold State.loadTables
  extract_lets +onlyGivenNames y; clear_value y
  extract_lets +onlyGivenNames y
  extract_lets +onlyGivenNames y
  with_reducible exact State.modFf_keeps ..

theorem State.install_keeps (s : State) (image : Store) (tables : List (Nat × Nat × Sparse)) : Keeps s
    (State.install s image tables) := by
  unfold State.install
  extract_lets +onlyGivenNames y; clear_value y
  extract_lets +onlyGivenNames y; refine Keeps.cut (y := y) ?_ ?_; unfold y; clear y
  exact .mk_objs (.refl s) _ _ (fun h => State.withImage_ok h image) ..
  intro _; clear_value y
  extract_lets +onlyGivenNames y; refine Keeps.cut (y := y) ?_ ?_; unfold y; clear y
  with_reducible refine Keeps.forEach_from ?_ fun _ _ => ?_
  assumption
  with_reducible refine Keeps.trans ?_ (State.loadTables_keeps ..)
  with_reducible exact State.loadCoefs_keeps ..
  intro _; clear_value y
  extract_lets +onlyGivenNames y; refine Keeps.cut (y := y) ?_ ?_; unfold y; clear y
  with_reducible refine Keeps.forEach_from ?_ fun _ _ => ?_
  assumption
  extract_lets +onlyGivenNames y; clear_value y
  with_reducible exact State.modGen_keeps ..
  intro _; clear_value y
  extract_lets +onlyGivenNames y; refine Keeps.cut (y := y) ?_ ?_; unfold y; clear y
  with_reducible refine Keeps.forEach_from ?_ fun _ _ => ?_
  assumption
  with_reducible refine Keeps.ite ?_ ?_
  extract_lets +onlyGivenNames y; refine Keeps.cut (y := y) ?_ ?_; unfold y; clear y
  with_reducible refine Keeps.ite ?_ ?_
  with_reducible exact State.disablePort_keeps ..
  with_reducible exact Keeps.refl _
  intro _; clear_value y
  with_reducible refine Keeps.ite ?_ ?_
  with_reducible refine Keeps.trans ?_ (State.enablePort_keeps ..)
  assumption
  assumption
  with_reducible exact Keeps.refl _
  intro _; clear_value y
  extract_lets +onlyGivenNames y; refine Keeps.cut (y := y) ?_ ?_; unfold y; clear y
  with_reducible refine Keeps.forEach_from ?_ fun _ _ => ?_
  assumption
  with_reducible exact State.linkPolicy_keeps ..
  intro _; clear_value y
  with_reducible refine Keeps.forEach_from ?_ fun _ _ => ?_
  assumption
  with_reducible refine Keeps.ite ?_ ?_
  with_reducible exact State.cmpRestart_keeps ..
  with_reducible exact Keeps.refl _

theorem State.commitAt_keeps (s : State) (gen : Nat) : Keeps s (State.commitAt s gen) := by
  unfold State.commitAt
  split
  with_reducible exact Keeps.refl _
  extract_lets +onlyGivenNames y; refine Keeps.cut (y := y) ?_ ?_; unfold y; clear y
  with_reducible exact State.install_keeps ..
  intro _; clear_value y
  extract_lets +onlyGivenNames y; clear_value y
  extract_lets +onlyGivenNames y; refine Keeps.cut (y := y) ?_ ?_; unfold y; clear y
  with_reducible refine Keeps.mk_free ?_ ..
  assumption
  intro _; clear_value y
  extract_lets +onlyGivenNames y; refine Keeps.cut (y := y) ?_ ?_; unfold y; clear y
  with_reducible refine Keeps.trans ?_ (State.record_keeps ..)
  with_reducible refine Keeps.trans ?_ (State.count_keeps ..)
  assumption
  intro _; clear_value y
  with_reducible refine Keeps.forEach_from ?_ fun _ _ => ?_
  assumption
  with_reducible exact State.pinRequest_keeps ..

theorem State.applyEdge_keeps (s : State) (a : EdgeAction) : Keeps s (State.applyEdge s a) := by
  unfold State.applyEdge
  split
  extract_lets +onlyGivenNames y; clear_value y
  with_reducible refine Keeps.ite ?_ ?_
  with_reducible refine Keeps.trans ?_ (State.finishOpt_keeps ..)
  with_reducible exact State.applyWrite_keeps ..
  with_reducible exact State.finishOpt_keeps ..
  extract_lets +onlyGivenNames y; refine Keeps.cut (y := y.1) ?_ ?_; unfold y; clear y
  exact State.applyMembers_keeps ..
  intro _; clear_value y
  with_reducible refine Keeps.trans ?_ (State.finishGroup_keeps ..)
  assumption
  extract_lets +onlyGivenNames y; refine Keeps.cut (y := y.1) ?_ ?_; unfold y; clear y
  exact State.applyMembers_keeps ..
  intro _; clear_value y
  with_reducible refine Keeps.trans ?_ (State.finishGroup_keeps ..)
  assumption
  with_reducible refine Keeps.trans ?_ (State.finishOpt_keeps ..)
  with_reducible refine Keeps.forEach_from ?_ fun _ _ => ?_
  with_reducible exact Keeps.refl _
  with_reducible exact State.setReq_keeps ..
  with_reducible exact State.applyTargets_keeps ..
  extract_lets +onlyGivenNames y; clear_value y
  with_reducible refine Keeps.trans ?_ (State.finishOpt_keeps ..)
  with_reducible exact State.clearLatch_keeps ..
  split
  with_reducible exact State.finishOpt_keeps ..
  with_reducible exact State.tuneBegin_keeps ..
  with_reducible refine Keeps.trans ?_ (State.finishOpt_keeps ..)
  with_reducible exact State.freeze_keeps ..
  with_reducible refine Keeps.trans ?_ (State.finishOpt_keeps ..)
  with_reducible exact State.clearCounters_keeps ..
  with_reducible refine Keeps.trans ?_ (State.finishOpt_keeps ..)
  with_reducible exact State.commitAt_keeps ..
  with_reducible exact State.useCoefs_keeps ..
  with_reducible refine Keeps.trans ?_ (State.finishOpt_keeps ..)
  with_reducible exact State.ffCommand_keeps ..

theorem State.applyQueue_keeps (s : State) : Keeps s (State.applyQueue s) := by
  unfold State.applyQueue
  extract_lets +onlyGivenNames y; clear_value y
  with_reducible refine Keeps.forEach_from ?_ fun _ _ => ?_
  with_reducible refine Keeps.forEach_from ?_ fun _ _ => ?_
  with_reducible refine Keeps.mk_free ?_ ..
  with_reducible exact Keeps.refl _
  with_reducible exact State.applyEdge_keeps ..
  with_reducible exact State.applyEdge_keeps ..

/-! Operands -/

theorem State.onRequest_keeps {s : State} {k : SlotIx} {r : Req} {f : Option Nat → State} (h : ∀ q, Keeps s (f q)) :
    Keeps s (s.onRequest k r f) := by
  unfold State.onRequest
  split
  · split
    · exact h _
    · exact .refl s
  · exact .refl s

theorem State.doGet_keeps (s : State) (k : SlotIx) (o : Obj) : Keeps s (s.doGet k o) := by
  unfold State.doGet
  split
  · exact (State.readObj_keeps ‹_›).trans (State.finish_keeps ..)
  · exact State.finish_keeps ..

/-! Twin -/

theorem State.modTwin_keeps (s : State) (f : TwinState → TwinState) : Keeps s (State.modTwin s f) := by
  unfold State.modTwin
  with_reducible refine Keeps.mk_free ?_ ..
  with_reducible exact Keeps.refl _

theorem State.setRole_keeps (s : State) (x : TwinRole) : Keeps s (State.setRole s x) := by
  unfold State.setRole
  extract_lets +onlyGivenNames y; clear_value y
  with_reducible refine Keeps.trans ?_ (State.irq_keeps ..)
  with_reducible refine Keeps.trans ?_ (State.record_keeps ..)
  with_reducible exact State.modTwin_keeps ..

theorem State.abortHandover_keeps (s : State) : Keeps s (State.abortHandover s) := by
  unfold State.abortHandover
  split
  with_reducible refine Keeps.trans ?_ (State.finish_keeps ..)
  with_reducible exact State.modTwin_keeps ..
  with_reducible exact Keeps.refl _

theorem State.endArm_keeps (s : State) : Keeps s (State.endArm s) := by
  unfold State.endArm
  split
  with_reducible refine Keeps.trans ?_ (State.finish_keeps ..)
  with_reducible exact State.modTwin_keeps ..
  with_reducible exact Keeps.refl _

theorem State.arm_keeps (s : State) : Keeps s (State.arm s) := by
  unfold State.arm
  with_reducible refine Keeps.trans ?_ (State.endArm_keeps ..)
  with_reducible refine Keeps.trans ?_ (State.irq_keeps ..)
  with_reducible refine Keeps.trans ?_ (State.record_keeps ..)
  with_reducible exact State.modTwin_keeps ..

theorem State.unarmFor_keeps (s : State) (u : Unarm) : Keeps s (State.unarmFor s u) := by
  unfold State.unarmFor
  extract_lets +onlyGivenNames y; clear_value y
  extract_lets +onlyGivenNames y; refine Keeps.cut (y := y) ?_ ?_; unfold y; clear y
  with_reducible exact State.modTwin_keeps ..
  intro _; clear_value y
  extract_lets +onlyGivenNames y; refine Keeps.cut (y := y) ?_ ?_; unfold y; clear y
  with_reducible refine Keeps.ite ?_ ?_
  with_reducible refine Keeps.trans ?_ (State.irq_keeps ..)
  with_reducible refine Keeps.trans ?_ (State.record_keeps ..)
  with_reducible refine Keeps.trans ?_ (State.count_keeps ..)
  assumption
  assumption
  intro _; clear_value y
  with_reducible refine Keeps.trans ?_ (State.abortHandover_keeps ..)
  with_reducible refine Keeps.trans ?_ (State.endArm_keeps ..)
  assumption

theorem State.resync_keeps (s : State) : Keeps s (State.resync s) := by
  unfold State.resync
  with_reducible exact State.modTwin_keeps ..

theorem State.adoptRail_keeps (s : State) (r : RailIx) (a : RailAlign) : Keeps s (State.adoptRail s r a) := by
  unfold State.adoptRail
  with_reducible exact State.modRail_keeps ..

theorem State.adoptPhase_keeps (s : State) (n : PhaseIx) (a : PhaseAlign) : Keeps s (State.adoptPhase s n a) := by
  unfold State.adoptPhase
  with_reducible refine Keeps.trans ?_ (State.modGen_keeps ..)
  with_reducible exact State.modSense_keeps ..

theorem State.adopt_keeps (s : State) (ar : AlignRec) : Keeps s (State.adopt s ar) := by
  unfold State.adopt
  extract_lets +onlyGivenNames y; refine Keeps.cut (y := y) ?_ ?_; unfold y; clear y
  with_reducible refine Keeps.forEach_from ?_ fun _ _ => ?_
  with_reducible exact Keeps.refl _
  split
  with_reducible exact State.adoptRail_keeps ..
  with_reducible exact Keeps.refl _
  intro _; clear_value y
  extract_lets +onlyGivenNames y; refine Keeps.cut (y := y) ?_ ?_; unfold y; clear y
  with_reducible refine Keeps.forEach_from ?_ fun _ _ => ?_
  assumption
  split
  with_reducible exact State.adoptPhase_keeps ..
  with_reducible exact Keeps.refl _
  intro _; clear_value y
  extract_lets +onlyGivenNames y; clear_value y
  extract_lets +onlyGivenNames y; refine Keeps.cut (y := y) ?_ ?_; unfold y; clear y
  with_reducible refine Keeps.mk_free ?_ ..
  assumption
  intro _; clear_value y
  with_reducible refine Keeps.forEach_from ?_ fun _ _ => ?_
  assumption
  split
  with_reducible exact State.modDomain_keeps ..
  with_reducible exact Keeps.refl _

theorem State.adoptFrame_keeps (s : State) : Keeps s (State.adoptFrame s) := by
  unfold State.adoptFrame
  split
  with_reducible exact Keeps.refl _
  extract_lets +onlyGivenNames y; clear_value y
  extract_lets +onlyGivenNames y; refine Keeps.cut (y := y) ?_ ?_; unfold y; clear y
  with_reducible refine Keeps.trans ?_ (State.modTwin_keeps ..)
  with_reducible exact State.adopt_keeps ..
  intro _; clear_value y
  with_reducible refine Keeps.ite ?_ ?_
  with_reducible refine Keeps.trans ?_ (State.resync_keeps ..)
  with_reducible refine Keeps.trans ?_ (State.unarmFor_keeps ..)
  assumption
  assumption

theorem State.applyReplicated_keeps (s : State) : Keeps s (State.applyReplicated s) := by
  unfold State.applyReplicated
  extract_lets +onlyGivenNames y; clear_value y
  extract_lets +onlyGivenNames y; clear_value y
  with_reducible refine Keeps.forEach_from ?_ fun _ _ => ?_
  with_reducible exact State.modTwin_keeps ..
  with_reducible exact State.applyEdge_keeps ..

theorem State.coldStart_keeps (s : State) : Keeps s (State.coldStart s) := by
  unfold State.coldStart
  extract_lets +onlyGivenNames y; refine Keeps.cut (y := y) ?_ ?_; unfold y; clear y
  with_reducible refine Keeps.forEach_from ?_ fun _ _ => ?_
  with_reducible exact Keeps.refl _
  with_reducible refine Keeps.ite ?_ ?_
  with_reducible refine Keeps.trans ?_ (State.leaveRegulation_keeps ..)
  with_reducible exact State.disablePhases_keeps ..
  with_reducible exact State.modRail_keeps ..
  intro _; clear_value y
  extract_lets +onlyGivenNames y; refine Keeps.cut (y := y) ?_ ?_; unfold y; clear y
  with_reducible refine Keeps.forEach_from ?_ fun _ _ => ?_
  assumption
  with_reducible refine Keeps.ite ?_ ?_
  with_reducible exact Keeps.refl _
  with_reducible refine Keeps.trans ?_ (State.modDomain_keeps ..)
  with_reducible exact State.setDom_keeps ..
  intro _; clear_value y
  with_reducible refine Keeps.trans ?_ (State.startStanding_keeps ..)
  with_reducible refine Keeps.trans ?_ (State.settleDev_keeps ..)
  assumption

theorem State.drive_keeps (s : State) : Keeps s (State.drive s) := by
  unfold State.drive
  extract_lets +onlyGivenNames y; refine Keeps.cut (y := y) ?_ ?_; unfold y; clear y
  with_reducible exact State.modTwin_keeps ..
  intro _; clear_value y
  with_reducible refine Keeps.forEach_from ?_ fun _ _ => ?_
  assumption
  with_reducible refine Keeps.trans ?_ (State.modGen_keeps ..)
  with_reducible exact State.nextOnSchedule_keeps ..

theorem State.sendAlign_keeps (s : State) : Keeps s (State.sendAlign s) := by
  unfold State.sendAlign
  with_reducible refine Keeps.ite ?_ ?_
  with_reducible exact Keeps.refl _
  extract_lets +onlyGivenNames y; clear_value y
  extract_lets +onlyGivenNames y; refine Keeps.cut (y := y) ?_ ?_; unfold y; clear y
  with_reducible refine Keeps.ite ?_ ?_
  with_reducible exact State.toTwin_keeps ..
  with_reducible exact Keeps.refl _
  intro _; clear_value y
  with_reducible refine Keeps.ite ?_ ?_
  with_reducible refine Keeps.trans ?_ (State.toTwin_keeps ..)
  assumption
  assumption

theorem State.twinFrame_keeps (s : State) (actN heartbeat twFs : Bool) : Keeps s (State.twinFrame s actN heartbeat
    twFs) := by
  unfold State.twinFrame
  with_reducible refine Keeps.ite ?_ ?_
  with_reducible exact Keeps.refl _
  extract_lets +onlyGivenNames y; clear_value y
  extract_lets +onlyGivenNames y; refine Keeps.cut (y := y) ?_ ?_; unfold y; clear y
  with_reducible exact State.countIf_keeps ..
  intro _; clear_value y
  extract_lets +onlyGivenNames y; clear_value y
  extract_lets +onlyGivenNames y; refine Keeps.cut (y := y) ?_ ?_; unfold y; clear y
  with_reducible refine Keeps.trans ?_ (State.modTwin_keeps ..)
  assumption
  intro _; clear_value y
  extract_lets +onlyGivenNames y; refine Keeps.cut (y := y) ?_ ?_; unfold y; clear y
  with_reducible refine Keeps.trans ?_ (State.modTwin_keeps ..)
  assumption
  intro _; clear_value y
  extract_lets +onlyGivenNames y; refine Keeps.cut (y := y) ?_ ?_; unfold y; clear y
  with_reducible refine Keeps.trans ?_ (State.sendAlign_keeps ..)
  assumption
  intro _; clear_value y
  extract_lets +onlyGivenNames y; refine Keeps.cut (y := y) ?_ ?_; unfold y; clear y
  split
  with_reducible refine Keeps.ite ?_ ?_
  with_reducible refine Keeps.trans ?_ (State.drive_keeps ..)
  assumption
  assumption
  assumption
  intro _; clear_value y
  extract_lets +onlyGivenNames y; refine Keeps.cut (y := y) ?_ ?_; unfold y; clear y
  split
  with_reducible refine Keeps.ite ?_ ?_
  with_reducible refine Keeps.trans ?_ (State.finish_keeps ..)
  with_reducible refine Keeps.trans ?_ (State.modTwin_keeps ..)
  assumption
  assumption
  assumption
  intro _; clear_value y
  with_reducible refine Keeps.ite ?_ ?_
  extract_lets +onlyGivenNames y; refine Keeps.cut (y := y) ?_ ?_; unfold y; clear y
  with_reducible refine Keeps.trans ?_ (State.applyReplicated_keeps ..)
  with_reducible refine Keeps.trans ?_ (State.adoptFrame_keeps ..)
  assumption
  intro _; clear_value y
  with_reducible refine Keeps.ite ?_ ?_
  with_reducible refine Keeps.trans ?_ (State.resync_keeps ..)
  assumption
  assumption
  assumption

theorem State.followStarted_keeps (s : State) (started : List Nat) : Keeps s (State.followStarted s started) := by
  unfold State.followStarted
  extract_lets +onlyGivenNames y; clear_value y
  extract_lets +onlyGivenNames y; refine Keeps.cut (y := y) ?_ ?_; unfold y; clear y
  with_reducible refine Keeps.forEach_from ?_ fun _ _ => ?_
  with_reducible exact Keeps.refl _
  extract_lets +onlyGivenNames y; clear_value y
  with_reducible exact State.modPort_keeps ..
  intro _; clear_value y
  with_reducible refine Keeps.trans ?_ (State.modTwin_keeps ..)
  assumption

theorem State.markDuplicate_keeps (s : State) : Keeps s (State.markDuplicate s) := by
  unfold State.markDuplicate
  with_reducible refine Keeps.forEach_from ?_ fun _ _ => ?_
  with_reducible exact Keeps.refl _
  with_reducible exact State.modPort_keeps ..

/-! Frame -/

theorem State.railFrame_keeps (s : State) (r : RailIx) (i : RailIn) : Keeps s (State.railFrame s r i) := by
  unfold State.railFrame
  extract_lets +onlyGivenNames y; clear_value y
  extract_lets +onlyGivenNames y; clear_value y
  extract_lets +onlyGivenNames y; clear_value y
  extract_lets +onlyGivenNames y; refine Keeps.cut (y := y) ?_ ?_; unfold y; clear y
  with_reducible exact State.modMeas_keeps ..
  intro _; clear_value y
  extract_lets +onlyGivenNames y; refine Keeps.cut (y := y) ?_ ?_; unfold y; clear y
  with_reducible refine Keeps.ite ?_ ?_
  with_reducible exact Keeps.refl _
  with_reducible refine Keeps.ite ?_ ?_
  with_reducible exact State.holdCommit_keeps ..
  with_reducible refine Keeps.ite ?_ ?_
  with_reducible refine Keeps.trans ?_ (State.count_keeps ..)
  with_reducible refine Keeps.trans ?_ (State.modMeas_keeps ..)
  with_reducible exact State.holdCommit_keeps ..
  with_reducible refine Keeps.ite ?_ ?_
  with_reducible refine Keeps.trans ?_ (State.disFrame_keeps ..)
  assumption
  with_reducible refine Keeps.trans ?_ (State.lawFrame_keeps ..)
  with_reducible refine Keeps.trans ?_ (State.ffFrame_keeps ..)
  assumption
  intro _; clear_value y
  with_reducible refine Keeps.trans ?_ (State.modMeas_keeps ..)
  assumption

theorem State.measureFrame_keeps (s : State) (r : RailIx) : Keeps s (State.measureFrame s r) := by
  unfold State.measureFrame
  extract_lets
  with_reducible exact State.modMeas_keeps ..

theorem State.slamFrame_keeps (s : State) (r : RailIx) (i : RailIn) : Keeps s (State.slamFrame s r i) := by
  unfold State.slamFrame
  with_reducible refine Keeps.ite ?_ ?_
  with_reducible exact State.parkSlam_keeps ..
  with_reducible exact Keeps.refl _

theorem State.railJudge_keeps (s : State) (r : RailIx) (i : RailIn) : Keeps s (State.railJudge s r i) := by
  unfold State.railJudge
  extract_lets +onlyGivenNames y; clear_value y
  extract_lets +onlyGivenNames y; refine Keeps.cut (y := y) ?_ ?_; unfold y; clear y
  with_reducible refine Keeps.trans ?_ (State.limitFrame_keeps ..)
  with_reducible exact State.levelFrame_keeps ..
  intro _; clear_value y
  with_reducible refine Keeps.ite ?_ ?_
  with_reducible refine Keeps.trans ?_ (State.ltFrame_keeps ..)
  with_reducible refine Keeps.trans ?_ (State.profileFrame_keeps ..)
  assumption
  assumption

theorem State.railPlace_keeps (s : State) (r : RailIx) : Keeps s (State.railPlace s r) := by
  unfold State.railPlace
  with_reducible refine Keeps.ite ?_ ?_
  extract_lets +onlyGivenNames y; refine Keeps.cut (y := y) ?_ ?_; unfold y; clear y
  with_reducible refine Keeps.ite ?_ ?_
  with_reducible exact Keeps.refl _
  with_reducible exact State.placement_keeps ..
  intro _; clear_value y
  with_reducible refine Keeps.trans ?_ (State.charge_keeps ..)
  with_reducible refine Keeps.ite ?_ ?_
  assumption
  with_reducible refine Keeps.trans ?_ (State.gcalFrame_keeps ..)
  with_reducible refine Keeps.trans ?_ (State.skimFrames_keeps ..)
  assumption
  with_reducible exact State.modPlc_keeps ..

theorem State.historyFrame_keeps (s : State) (r : RailIx) : Keeps s (State.historyFrame s r) := by
  unfold State.historyFrame
  extract_lets +onlyGivenNames y; clear_value y
  with_reducible exact State.modRail_keeps ..

theorem State.pinFrame_keeps (s : State) (inp : FrameIn) : Keeps s (State.pinFrame s inp) := by
  unfold State.pinFrame
  extract_lets +onlyGivenNames y; refine Keeps.cut (y := y) ?_ ?_; unfold y; clear y
  with_reducible exact State.enFrame_keeps ..
  intro _; clear_value y
  extract_lets +onlyGivenNames y; clear_value y
  with_reducible refine Keeps.mk_free ?_ ..
  assumption

theorem State.peakFrame_keeps (s : State) (cycles : List Nat) : Keeps s (State.peakFrame s cycles) := by
  unfold State.peakFrame
  with_reducible refine Keeps.mk_free ?_ ..
  with_reducible exact Keeps.refl _

theorem State.engineBack_keeps (s : State) : Keeps s (State.engineBack s) := by
  unfold State.engineBack
  extract_lets +onlyGivenNames y; clear_value y
  extract_lets +onlyGivenNames y; refine Keeps.cut (y := y) ?_ ?_; unfold y; clear y
  split
  with_reducible refine Keeps.ite ?_ ?_
  with_reducible refine Keeps.mk_free ?_ ..
  with_reducible exact Keeps.refl _
  with_reducible exact Keeps.refl _
  with_reducible exact Keeps.refl _
  intro _; clear_value y
  split
  with_reducible refine Keeps.ite ?_ ?_
  with_reducible refine Keeps.forEach_from ?_ fun _ _ => ?_
  with_reducible refine Keeps.mk_free ?_ ..
  assumption
  with_reducible exact State.modPort_keeps ..
  assumption
  assumption

theorem State.frameLaw_keeps (s : State) (inp : FrameIn) : Keeps s (State.frameLaw s inp) := by
  unfold State.frameLaw
  extract_lets +onlyGivenNames y; refine Keeps.cut (y := y) ?_ ?_; unfold y; clear y
  with_reducible refine Keeps.trans ?_ (State.engineBack_keeps ..)
  with_reducible exact State.tick_keeps ..
  intro _; clear_value y
  extract_lets +onlyGivenNames y; refine Keeps.cut (y := y) ?_ ?_; unfold y; clear y
  with_reducible refine Keeps.trans ?_ (State.twinFrame_keeps ..)
  with_reducible refine Keeps.trans ?_ (State.applyQueue_keeps ..)
  assumption
  intro _; clear_value y
  extract_lets +onlyGivenNames y; refine Keeps.cut (y := y) ?_ ?_; unfold y; clear y
  with_reducible refine Keeps.forEach_from ?_ fun _ _ => ?_
  assumption
  with_reducible exact State.railFrame_keeps ..
  intro _; clear_value y
  extract_lets +onlyGivenNames y; refine Keeps.cut (y := y) ?_ ?_; unfold y; clear y
  with_reducible refine Keeps.trans ?_ (State.sense_keeps ..)
  assumption
  intro _; clear_value y
  extract_lets +onlyGivenNames y; refine Keeps.cut (y := y) ?_ ?_; unfold y; clear y
  with_reducible refine Keeps.forEach_from ?_ fun _ _ => ?_
  assumption
  with_reducible exact State.measureFrame_keeps ..
  intro _; clear_value y
  with_reducible refine Keeps.forEach_from ?_ fun _ _ => ?_
  assumption
  with_reducible exact State.slamFrame_keeps ..

theorem State.frameJudge_keeps (s : State) (inp : FrameIn) : Keeps s (State.frameJudge s inp) := by
  unfold State.frameJudge
  extract_lets +onlyGivenNames y; clear_value y
  extract_lets +onlyGivenNames y; refine Keeps.cut (y := y) ?_ ?_; unfold y; clear y
  with_reducible exact State.tuneFrame_keeps ..
  intro _; clear_value y
  extract_lets +onlyGivenNames y; refine Keeps.cut (y := y) ?_ ?_; unfold y; clear y
  with_reducible refine Keeps.forEach_from ?_ fun _ _ => ?_
  assumption
  with_reducible exact State.railJudge_keeps ..
  intro _; clear_value y
  extract_lets +onlyGivenNames y; refine Keeps.cut (y := y) ?_ ?_; unfold y; clear y
  with_reducible refine Keeps.trans ?_ (State.cmpHiccups_keeps ..)
  with_reducible refine Keeps.trans ?_ (State.injectFrame_keeps ..)
  assumption
  intro _; clear_value y
  extract_lets +onlyGivenNames y; refine Keeps.cut (y := y) ?_ ?_; unfold y; clear y
  with_reducible refine Keeps.forEach_from ?_ fun _ _ => ?_
  assumption
  with_reducible exact State.scaleFrame_keeps ..
  intro _; clear_value y
  extract_lets +onlyGivenNames y; refine Keeps.cut (y := y) ?_ ?_; unfold y; clear y
  with_reducible refine Keeps.forEach_from ?_ fun _ _ => ?_
  assumption
  with_reducible exact State.railPlace_keeps ..
  intro _; clear_value y
  with_reducible refine Keeps.ite ?_ ?_
  assumption
  with_reducible refine Keeps.trans ?_ (State.arbiter_keeps ..)
  assumption

theorem State.frameRest_keeps (s : State) (inp : FrameIn) : Keeps s (State.frameRest s inp) := by
  unfold State.frameRest
  extract_lets +onlyGivenNames y; refine Keeps.cut (y := y) ?_ ?_; unfold y; clear y
  with_reducible exact State.feedFrame_keeps ..
  intro _; clear_value y
  extract_lets +onlyGivenNames y; refine Keeps.cut (y := y) ?_ ?_; unfold y; clear y
  with_reducible refine Keeps.forEach_from ?_ fun _ _ => ?_
  assumption
  with_reducible exact State.inputFrame_keeps ..
  intro _; clear_value y
  extract_lets +onlyGivenNames y; refine Keeps.cut (y := y) ?_ ?_; unfold y; clear y
  with_reducible refine Keeps.ite ?_ ?_
  assumption
  with_reducible refine Keeps.trans ?_ (State.linkFrame_keeps ..)
  assumption
  intro _; clear_value y
  extract_lets +onlyGivenNames y; refine Keeps.cut (y := y) ?_ ?_; unfold y; clear y
  with_reducible refine Keeps.forEach_from ?_ fun _ _ => ?_
  assumption
  with_reducible exact State.fuseFrame_keeps ..
  intro _; clear_value y
  extract_lets +onlyGivenNames y; refine Keeps.cut (y := y) ?_ ?_; unfold y; clear y
  with_reducible refine Keeps.forEach_from ?_ fun _ _ => ?_
  assumption
  with_reducible exact State.goodFrame_keeps ..
  intro _; clear_value y
  extract_lets +onlyGivenNames y; refine Keeps.cut (y := y) ?_ ?_; unfold y; clear y
  with_reducible refine Keeps.trans ?_ (State.cmpFrame_keeps ..)
  with_reducible refine Keeps.trans ?_ (State.levelTrips_keeps ..)
  assumption
  intro _; clear_value y
  with_reducible refine Keeps.trans ?_ (State.assignSlots_keeps ..)
  with_reducible refine Keeps.trans ?_ (State.meterFrame_keeps ..)
  with_reducible refine Keeps.trans ?_ (State.peakFrame_keeps ..)
  with_reducible refine Keeps.trans ?_ (State.pinFrame_keeps ..)
  assumption

theorem State.frameEnd_keeps (s : State) : Keeps s (State.frameEnd s) := by
  unfold State.frameEnd
  extract_lets +onlyGivenNames y; refine Keeps.cut (y := y) ?_ ?_; unfold y; clear y
  with_reducible refine Keeps.forEach_from ?_ fun _ _ => ?_
  with_reducible exact Keeps.refl _
  with_reducible exact State.historyFrame_keeps ..
  intro _; clear_value y
  extract_lets +onlyGivenNames y; refine Keeps.cut (y := y) ?_ ?_; unfold y; clear y
  with_reducible refine Keeps.trans ?_ (State.closeBatch_keeps ..)
  with_reducible refine Keeps.trans ?_ (State.refreshPg_keeps ..)
  with_reducible refine Keeps.trans ?_ (State.refreshFlt_keeps ..)
  assumption
  intro _; clear_value y
  with_reducible refine Keeps.trans ?_ (State.refreshFstat_keeps ..)
  with_reducible refine Keeps.trans ?_ (State.refreshFlt_keeps ..)
  assumption

theorem State.frame_keeps (s : State) (inp : FrameIn) : Keeps s (State.frame s inp) := by
  unfold State.frame
  with_reducible refine Keeps.trans ?_ (State.frameEnd_keeps ..)
  with_reducible refine Keeps.trans ?_ (State.frameRest_keeps ..)
  with_reducible refine Keeps.trans ?_ (State.frameJudge_keeps ..)
  with_reducible refine Keeps.trans ?_ (State.frameLaw_keeps ..)
  with_reducible exact State.openBatch_keeps ..

/-! Mailbox -/

theorem State.modMb_keeps (s : State) (f : MbState → MbState) : Keeps s (State.modMb s f) := by
  unfold State.modMb
  with_reducible refine Keeps.mk_free ?_ ..
  with_reducible exact Keeps.refl _

theorem State.hostErr_keeps (s : State) : Keeps s (State.hostErr s) := by
  unfold State.hostErr
  with_reducible exact State.irq_keeps ..

theorem State.istatClear_keeps (s : State) (v : Word) : Keeps s (State.istatClear s v) := by
  unfold State.istatClear
  with_reducible exact State.modMb_keeps ..

theorem State.ringSlot_keeps (s : State) (k : SlotIx) : Keeps s (State.ringSlot s k) := by
  unfold State.ringSlot
  with_reducible refine Keeps.ite ?_ ?_
  with_reducible refine Keeps.trans ?_ (State.modMb_keeps ..)
  with_reducible exact State.modSlot_keeps ..
  with_reducible exact State.hostErr_keeps ..

theorem State.ring_keeps (s : State) (v : Word) : Keeps s (State.ring s v) := by
  unfold State.ring
  extract_lets +onlyGivenNames y; refine Keeps.cut (y := y) ?_ ?_; unfold y; clear y
  with_reducible exact State.modMb_keeps ..
  intro _; clear_value y
  with_reducible refine Keeps.forEach_from ?_ fun _ _ => ?_
  assumption
  with_reducible exact State.ringSlot_keeps ..

theorem State.armingNow_keeps (s : State) (k : SlotIx) : Keeps s (State.armingNow s k) := by
  unfold State.armingNow
  with_reducible exact State.modMb_keeps ..

theorem State.releaseSlot_keeps (s : State) (k : SlotIx) : Keeps s (State.releaseSlot s k) := by
  unfold State.releaseSlot
  split
  with_reducible exact State.hostErr_keeps ..
  with_reducible refine Keeps.trans ?_ (State.modMb_keeps ..)
  with_reducible exact State.modSlot_keeps ..
  with_reducible exact State.modSlot_keeps ..
  with_reducible refine Keeps.trans ?_ (State.armingNow_keeps ..)
  with_reducible exact State.modSlot_keeps ..
  with_reducible refine Keeps.trans ?_ (State.armingNow_keeps ..)
  with_reducible exact State.modSlot_keeps ..
  with_reducible exact Keeps.refl _

theorem State.releaseSlots_keeps (s : State) (v : Word) : Keeps s (State.releaseSlots s v) := by
  unfold State.releaseSlots
  with_reducible refine Keeps.forEach_from ?_ fun _ _ => ?_
  with_reducible exact Keeps.refl _
  with_reducible exact State.releaseSlot_keeps ..

theorem State.writeReg_keeps (s : State) (off : Nat) (v : Word) : Keeps s (State.writeReg s off v) := by
  unfold State.writeReg
  with_reducible refine Keeps.ite ?_ ?_
  with_reducible exact State.istatClear_keeps ..
  with_reducible refine Keeps.ite ?_ ?_
  with_reducible exact State.modMb_keeps ..
  with_reducible refine Keeps.ite ?_ ?_
  with_reducible exact State.ring_keeps ..
  with_reducible refine Keeps.ite ?_ ?_
  with_reducible exact State.releaseSlots_keeps ..
  with_reducible refine Keeps.ite ?_ ?_
  with_reducible exact State.modMb_keeps ..
  with_reducible exact State.hostErr_keeps ..

theorem State.writeWindow_keeps (s : State) (a : Nat) (data : List Byte) : Keeps s (State.writeWindow s a data) := by
  unfold State.writeWindow
  extract_lets +onlyGivenNames y; clear_value y
  with_reducible refine Keeps.forEach_from ?_ fun _ _ => ?_
  with_reducible exact Keeps.refl _
  with_reducible refine Keeps.ite ?_ ?_
  with_reducible exact State.writeReg_keeps ..
  with_reducible exact State.hostErr_keeps ..

theorem State.writeRequest_keeps (s : State) (k : SlotIx) (off : Nat) (data : List Byte) : Keeps s
    (State.writeRequest s k off data) := by
  unfold State.writeRequest
  with_reducible refine Keeps.ite ?_ ?_
  with_reducible exact State.modSlot_keeps ..
  with_reducible exact State.hostErr_keeps ..

theorem State.hostWrite_keeps (s : State) (a : Nat) (data : List Byte) : Keeps s (State.hostWrite s a data) := by
  unfold State.hostWrite
  with_reducible refine Keeps.ite ?_ ?_
  with_reducible exact Keeps.refl _
  with_reducible refine Keeps.ite ?_ ?_
  with_reducible exact State.writeWindow_keeps ..
  split
  with_reducible exact State.writeRequest_keeps ..
  with_reducible exact State.hostErr_keeps ..

theorem State.headerRead_keeps (s : State) (k : SlotIx) : Keeps s (State.headerRead s k).1 := by
  unfold State.headerRead
  extract_lets +onlyGivenNames y; clear_value y
  split
  dsimp only
  with_reducible exact Keeps.refl _
  dsimp only
  with_reducible exact Keeps.refl _
  dsimp only
  with_reducible exact Keeps.refl _
  dsimp only
  with_reducible exact Keeps.refl _
  dsimp only
  with_reducible exact State.modSlot_keeps ..
  dsimp only
  with_reducible exact Keeps.refl _

theorem State.readRegion_keeps (s : State) (a n : Nat) : Keeps s (State.readRegion s a n).1 := by
  unfold State.readRegion
  split
  dsimp only
  with_reducible exact Keeps.refl _
  split
  dsimp only
  with_reducible exact Keeps.refl _
  split
  with_reducible exact State.headerRead_keeps ..
  split
  dsimp only
  with_reducible exact Keeps.refl _
  dsimp only
  with_reducible exact Keeps.refl _
  dsimp only
  with_reducible exact Keeps.refl _

theorem State.hostRead_keeps (s : State) (a n : Nat) : Keeps s (State.hostRead s a n).1 := by
  unfold State.hostRead
  extract_lets +onlyGivenNames y; refine Keeps.cut (y := y.1) ?_ ?_; unfold y; clear y
  with_reducible exact State.readRegion_keeps ..
  intro _; clear_value y
  dsimp only
  assumption

theorem State.authFailed_keeps (s : State) (keySlot op : Nat) : Keeps s (State.authFailed s keySlot op) := by
  unfold State.authFailed
  extract_lets +onlyGivenNames y; refine Keeps.cut (y := y) ?_ ?_; unfold y; clear y
  with_reducible refine Keeps.trans ?_ (State.irq_keeps ..)
  with_reducible refine Keeps.trans ?_ (State.record_keeps ..)
  with_reducible exact State.count_keeps ..
  intro _; clear_value y
  with_reducible refine Keeps.trans ?_ (State.modMb_keeps ..)
  assumption

theorem State.authCheck_keeps (s : State) (r : Req) (op : Nat) (body : List Byte) (block : Option (List Byte)) :
    Keeps s (State.authCheck s r op body block).1 := by
  unfold State.authCheck
  split
  dsimp only
  with_reducible exact Keeps.refl _
  extract_lets +onlyGivenNames y; clear_value y
  extract_lets +onlyGivenNames y; refine Keeps.cut (y := y) ?_ ?_; unfold y; clear y
  with_reducible exact State.modMb_keeps ..
  intro _; clear_value y
  split
  dsimp only
  with_reducible refine Keeps.trans ?_ (State.modMb_keeps ..)
  with_reducible refine Keeps.trans ?_ (State.count_keeps ..)
  assumption
  dsimp only
  with_reducible refine Keeps.trans ?_ (State.authFailed_keeps ..)
  assumption

theorem State.checkRequest_keeps (s : State) (k : SlotIx) : Keeps s (State.checkRequest s k).1 := by
  unfold State.checkRequest
  split
  dsimp only
  with_reducible exact Keeps.refl _
  extract_lets +onlyGivenNames y; clear_value y
  extract_lets +onlyGivenNames y; refine Keeps.cut (y := y.1) ?_ ?_; unfold y; clear y
  with_reducible exact State.authCheck_keeps ..
  intro _; clear_value y
  split
  dsimp only
  assumption
  dsimp only
  assumption

theorem State.takeSlot_keeps (s : State) (k : SlotIx) : Keeps s (State.takeSlot s k) := by
  unfold State.takeSlot
  extract_lets +onlyGivenNames y; clear_value y
  extract_lets +onlyGivenNames y; refine Keeps.cut (y := y.1) ?_ ?_; unfold y; clear y
  with_reducible exact State.checkRequest_keeps ..
  intro _; clear_value y
  extract_lets +onlyGivenNames y; refine Keeps.cut (y := y) ?_ ?_; unfold y; clear y
  with_reducible refine Keeps.trans ?_ (State.modMb_keeps ..)
  assumption
  intro _; clear_value y
  extract_lets +onlyGivenNames y; refine Keeps.cut (y := y) ?_ ?_; unfold y; clear y
  with_reducible refine Keeps.trans ?_ (State.modSlot_keeps ..)
  assumption
  intro _; clear_value y
  split
  with_reducible refine Keeps.trans ?_ (State.finish_keeps ..)
  assumption
  assumption

theorem State.respond_keeps (s : State) (k : SlotIx) : Keeps s (State.respond s k) := by
  unfold State.respond
  extract_lets +onlyGivenNames y; clear_value y
  split
  with_reducible refine Keeps.ite ?_ ?_
  with_reducible refine Keeps.trans ?_ (State.armingNow_keeps ..)
  with_reducible exact State.modSlot_keeps ..
  extract_lets +onlyGivenNames y; clear_value y
  extract_lets +onlyGivenNames y; refine Keeps.cut (y := y) ?_ ?_; unfold y; clear y
  with_reducible exact State.modSlot_keeps ..
  intro _; clear_value y
  extract_lets +onlyGivenNames y; refine Keeps.cut (y := y) ?_ ?_; unfold y; clear y
  with_reducible refine Keeps.trans ?_ (State.modMb_keeps ..)
  assumption
  intro _; clear_value y
  with_reducible refine Keeps.trans ?_ (State.irq_keeps ..)
  assumption
  with_reducible exact Keeps.refl _

theorem State.advance_keeps (s : State) (n : Nat) : Keeps s (State.advance s n) := by
  unfold State.advance
  with_reducible refine Keeps.ite ?_ ?_
  with_reducible exact Keeps.refl _
  extract_lets +onlyGivenNames y; clear_value y
  with_reducible exact State.modMb_keeps ..

theorem State.i2cWrite_keeps (s : State) (bs : List Byte) : Keeps s (State.i2cWrite s bs) := by
  unfold State.i2cWrite
  split
  extract_lets +onlyGivenNames y; clear_value y
  extract_lets +onlyGivenNames y; refine Keeps.cut (y := y) ?_ ?_; unfold y; clear y
  with_reducible exact State.modMb_keeps ..
  intro _; clear_value y
  with_reducible refine Keeps.trans ?_ (State.advance_keeps ..)
  with_reducible refine Keeps.trans ?_ (State.hostWrite_keeps ..)
  assumption
  with_reducible exact Keeps.refl _

theorem State.i2cRead_keeps (s : State) (n : Nat) : Keeps s (State.i2cRead s n) := by
  unfold State.i2cRead
  with_reducible refine Keeps.ite ?_ ?_
  with_reducible exact State.modMb_keeps ..
  extract_lets +onlyGivenNames y; refine Keeps.cut (y := y.1) ?_ ?_; unfold y; clear y
  split
  dsimp only
  with_reducible exact Keeps.refl _
  with_reducible exact State.hostRead_keeps ..
  intro _; clear_value y
  with_reducible refine Keeps.trans ?_ (State.advance_keeps ..)
  with_reducible refine Keeps.trans ?_ (State.modMb_keeps ..)
  assumption

/-! HostCmds -/

theorem State.acceptEdge_keeps (s : State) (k : SlotIx) (r : Req) (a : EdgeAction) : Keeps s (State.acceptEdge s k
    r a) := by
  unfold State.acceptEdge
  with_reducible refine Keeps.trans ?_ (State.startSlot_keeps ..)
  with_reducible refine Keeps.trans ?_ (State.atEdge_keeps ..)
  with_reducible exact State.replicate_keeps ..

theorem State.domainReq_keeps (s : State) (k : SlotIx) (r : Req) (mask : BitVec 8) (on : Bool) : Keeps s
    (State.domainReq s k r mask on) := by
  unfold State.domainReq
  with_reducible refine Keeps.ite ?_ ?_
  with_reducible exact State.acceptEdge_keeps ..
  with_reducible exact State.finish_keeps ..

theorem State.clearRecords_keeps (s : State) (n key : Nat) : Keeps s (s.clearRecords n key).1 := by
  unfold State.clearRecords
  dsimp only
  refine Keeps.trans ?_ (State.disarmRec_keeps ..)
  refine Keeps.trans ?_ (State.record_keeps ..)
  refine Keeps.trans (State.modRec_keeps fun h => ?_) (State.count_keeps ..)
  exact ⟨(List.length_filter_le ..).trans h.1, (List.length_filter_le ..).trans h.2.1,
    (List.length_filter_le ..).trans h.2.2.1, h.2.2.2⟩

theorem State.rejectCommit_keeps (s : State) (k : SlotIx) (status : Nat) (f : Option ImageFault) : Keeps s
    (State.rejectCommit s k status f) := by
  unfold State.rejectCommit
  extract_lets +onlyGivenNames y; clear_value y
  extract_lets +onlyGivenNames y; refine Keeps.cut (y := y) ?_ ?_; unfold y; clear y
  with_reducible refine Keeps.mk_free ?_ ..
  with_reducible exact Keeps.refl _
  intro _; clear_value y
  with_reducible refine Keeps.trans ?_ (State.finish_keeps ..)
  with_reducible refine Keeps.trans ?_ (State.count_keeps ..)
  assumption

theorem State.storeCommit_keeps (s : State) (k : SlotIx) (r : Req) (i : Image) : Keeps s (State.storeCommit s k r
    i) := by
  unfold State.storeCommit
  extract_lets +onlyGivenNames y; clear_value y
  extract_lets +onlyGivenNames y; clear_value y
  extract_lets +onlyGivenNames y; refine Keeps.cut (y := y) ?_ ?_; unfold y; clear y
  with_reducible refine Keeps.mk_free ?_ ..
  with_reducible exact Keeps.refl _
  intro _; clear_value y
  with_reducible refine Keeps.trans ?_ (State.acceptEdge_keeps ..)
  assumption

theorem State.commitStaged_keeps (s : State) (k : SlotIx) (len : Nat) : Keeps s (State.commitStaged s k len) := by
  unfold State.commitStaged
  with_reducible refine Keeps.ite ?_ ?_
  with_reducible exact State.finish_keeps ..
  with_reducible refine Keeps.ite ?_ ?_
  with_reducible exact State.rejectCommit_keeps ..
  split
  with_reducible exact State.rejectCommit_keeps ..
  extract_lets +onlyGivenNames y; clear_value y
  extract_lets +onlyGivenNames y; clear_value y
  extract_lets +onlyGivenNames y; refine Keeps.cut (y := y) ?_ ?_; unfold y; clear y
  with_reducible refine Keeps.ite ?_ ?_
  with_reducible refine Keeps.mk_free ?_ ..
  with_reducible exact Keeps.refl _
  with_reducible exact Keeps.refl _
  intro _; clear_value y
  with_reducible refine Keeps.ite ?_ ?_
  with_reducible refine Keeps.trans ?_ (State.rejectCommit_keeps ..)
  assumption
  with_reducible refine Keeps.ite ?_ ?_
  with_reducible refine Keeps.trans ?_ (State.rejectCommit_keeps ..)
  assumption
  with_reducible refine Keeps.trans ?_ (State.storeCommit_keeps ..)
  assumption

theorem State.setFwImage_keeps (s : State) (k : Nat) (i : FwImage) : Keeps s (State.setFwImage s k i) := by
  unfold State.setFwImage
  with_reducible refine Keeps.ite ?_ ?_
  with_reducible refine Keeps.mk_free ?_ ..
  with_reducible exact Keeps.refl _
  with_reducible refine Keeps.mk_free ?_ ..
  with_reducible exact Keeps.refl _

theorem State.armSlot_keeps (s : State) (k : SlotIx) (cause : Nat) : Keeps s (State.armSlot s k cause) := by
  unfold State.armSlot
  with_reducible refine Keeps.trans ?_ (State.finish_keeps ..)
  with_reducible exact State.modMb_keeps ..

theorem State.supersedeSet_keeps (s : State) : Keeps s (State.supersedeSet s) := by
  unfold State.supersedeSet
  split
  with_reducible refine Keeps.trans ?_ (State.finishOpt_keeps ..)
  with_reducible exact State.modTime_keeps ..
  with_reducible exact Keeps.refl _

theorem State.timeNow_keeps (s : State) (sec ns : Nat) : Keeps s (State.timeNow s sec ns) := by
  unfold State.timeNow
  extract_lets +onlyGivenNames y; clear_value y
  extract_lets +onlyGivenNames y; refine Keeps.cut (y := y) ?_ ?_; unfold y; clear y
  with_reducible refine Keeps.trans ?_ (State.modTime_keeps ..)
  with_reducible refine Keeps.trans ?_ (State.timeTo_keeps ..)
  with_reducible exact State.supersedeSet_keeps ..
  intro _; clear_value y
  extract_lets +onlyGivenNames y; refine Keeps.cut (y := y) ?_ ?_; unfold y; clear y
  with_reducible refine Keeps.ite ?_ ?_
  refine Keeps.trans ?_ (State.modMeter_keeps_same ⟨rfl, rfl, rfl, rfl⟩)
  assumption
  assumption
  intro _; clear_value y
  with_reducible refine Keeps.trans ?_ (State.timeIrq_keeps ..)
  assumption

theorem State.startTune_keeps (s : State) (slot : SlotIx) (r : Req) (rail : Nat) (auto : Bool) : Keeps s
    (State.startTune s slot r rail auto) := by
  unfold State.startTune
  refine Keeps.dite (fun _ => ?_) (fun _ => ?_)
  with_reducible refine Keeps.ite ?_ ?_
  with_reducible exact State.finish_keeps ..
  split
  with_reducible exact State.finish_keeps ..
  with_reducible exact State.acceptEdge_keeps ..
  with_reducible exact State.finish_keeps ..

/-! MeterCmds -/

theorem State.meterAnswer_keeps (s : State) (k : SlotIx) (status : Nat) : Keeps s (State.meterAnswer s k status) := by
  unfold State.meterAnswer
  with_reducible exact State.finish_keeps ..

theorem State.sealStep_keeps (s : State) (interval kind point old new : Nat) :
    Keeps s (s.sealStep interval kind point old new) := by
  unfold State.sealStep
  refine Keeps.trans (State.modMeter_keeps ?_ (fun h => h) (fun h => h)) (State.auditAdd_keeps ..)
  exact ⟨Nat.le_succ _, le_refl _, List.prefix_refl _⟩

theorem State.meterApply_keeps (first : Nat) (closed : List PointIx) (s : State) (q : Nat × Nat × Word) :
    Keeps s (State.meterApply first closed s q) := by
  unfold State.meterApply
  dsimp only
  refine Keeps.trans (State.modMeter_keeps_same ?_) (State.sealStep_keeps ..)
  split
  · exact ⟨rfl, rfl, rfl, rfl⟩
  · split <;> exact ⟨rfl, rfl, rfl, rfl⟩

theorem State.meterImage_keeps (s : State) (interval : Nat) (bs : List Byte) : Keeps s (State.meterImage s interval
    bs) := by
  unfold State.meterImage
  extract_lets +onlyGivenNames y; clear_value y
  extract_lets +onlyGivenNames y; refine Keeps.cut (y := y) ?_ ?_; unfold y; clear y
  refine Keeps.trans ?_ (State.modMeter_keeps_same ⟨rfl, rfl, rfl, rfl⟩)
  with_reducible exact Keeps.refl _
  intro _; clear_value y
  with_reducible refine Keeps.trans ?_ (State.sealStep_keeps ..)
  assumption

theorem State.meterCommit_keeps (s : State) : Keeps s (State.meterCommit s) := by
  unfold State.meterCommit
  extract_lets +onlyGivenNames y; clear_value y
  extract_lets +onlyGivenNames y; clear_value y
  extract_lets +onlyGivenNames y; clear_value y
  extract_lets +onlyGivenNames y; clear_value y
  extract_lets +onlyGivenNames y; clear_value y
  extract_lets +onlyGivenNames y; clear_value y
  extract_lets +onlyGivenNames y; refine Keeps.cut (y := y) ?_ ?_; unfold y; clear y
  with_reducible refine Keeps.ite ?_ ?_
  with_reducible exact State.closeIv_keeps ..
  with_reducible exact Keeps.refl _
  intro _; clear_value y
  extract_lets +onlyGivenNames y; refine Keeps.cut (y := y) ?_ ?_; unfold y; clear y
  with_reducible refine Keeps.foldl_from ?_ fun _ _ => ?_
  assumption
  with_reducible exact State.meterApply_keeps ..
  intro _; clear_value y
  extract_lets +onlyGivenNames y; refine Keeps.cut (y := y) ?_ ?_; unfold y; clear y
  split
  with_reducible refine Keeps.trans ?_ (State.meterImage_keeps ..)
  assumption
  assumption
  intro _; clear_value y
  extract_lets +onlyGivenNames y; refine Keeps.cut (y := y) ?_ ?_; unfold y; clear y
  with_reducible refine Keeps.ite ?_ ?_
  refine Keeps.trans ?_ (State.modMeter_keeps_same ⟨rfl, rfl, rfl, rfl⟩)
  assumption
  assumption
  intro _; clear_value y
  extract_lets +onlyGivenNames y; refine Keeps.cut (y := y) ?_ ?_; unfold y; clear y
  split
  with_reducible refine Keeps.trans ?_ (State.sealStep_keeps ..)
  refine Keeps.trans ?_ (State.modMeter_keeps_same ⟨rfl, rfl, rfl, rfl⟩)
  assumption
  assumption
  intro _; clear_value y
  refine Keeps.trans ?_ (State.modMeter_keeps_same ⟨rfl, rfl, rfl, rfl⟩)
  assumption

theorem State.inSession_keeps {s : State} {k : SlotIx} {f : State → State} (h : ∀ s, Keeps s (f s)) :
    Keeps s (s.inSession k f) := by
  unfold State.inSession
  split
  · exact State.meterAnswer_keeps ..
  · exact (State.modMeter_keeps_same ⟨rfl, rfl, rfl, rfl⟩).trans (h _)

theorem State.meterStage_keeps (s : State) (k : SlotIx) (x : Staged) : Keeps s (State.meterStage s k x) := by
  unfold State.meterStage
  with_reducible refine Keeps.trans ?_ (State.meterAnswer_keeps ..)
  refine Keeps.trans ?_ (State.modMeter_keeps_same ⟨rfl, rfl, rfl, rfl⟩)
  with_reducible exact Keeps.refl _

/-! ObjectCmds -/

theorem State.onGet_keeps (s : State) (k : SlotIx) (o : Obj) : Keeps s (State.onGet s k o) := by
  unfold State.onGet
  refine Keeps.trans ?_ (State.onRequest_keeps fun _ => ?_)
  with_reducible exact Keeps.refl _
  with_reducible exact State.doGet_keeps ..

theorem State.onSet_keeps (s : State) (k : SlotIx) (o : Obj) (v : Word) : Keeps s (State.onSet s k o v) := by
  unfold State.onSet
  refine Keeps.trans ?_ (State.onRequest_keeps fun _ => ?_)
  with_reducible exact Keeps.refl _
  with_reducible exact State.doSet_keeps ..

/-! RecorderCmds -/

theorem State.storeSnap_keeps (s : State) (q : Snap) : Keeps s (State.storeSnap s q) := by
  unfold State.storeSnap
  extract_lets +onlyGivenNames y; clear_value y
  extract_lets +onlyGivenNames y; refine Keeps.cut (y := y) ?_ ?_; unfold y; clear y
  refine Keeps.trans ?_ (State.modRec_keeps fun h => h)
  with_reducible exact Keeps.refl _
  intro _; clear_value y
  with_reducible refine Keeps.trans ?_ (State.saveCounters_keeps ..)
  with_reducible refine Keeps.trans ?_ (State.irq_keeps ..)
  assumption

theorem State.thawHistory_keeps (s : State) (q : Snap) : Keeps s (State.thawHistory s q) := by
  unfold State.thawHistory
  extract_lets +onlyGivenNames y; clear_value y
  with_reducible refine Keeps.ite ?_ ?_
  with_reducible exact Keeps.refl _
  refine Keeps.dite (fun _ => ?_) (fun _ => ?_)
  with_reducible exact State.modRail_keeps ..
  with_reducible exact Keeps.refl _

theorem State.takeDue_keeps (s : State) (ok : Bool) : Keeps s (State.takeDue s ok) := by
  unfold State.takeDue
  split
  with_reducible exact Keeps.refl _
  extract_lets +onlyGivenNames y; refine Keeps.cut (y := y) ?_ ?_; unfold y; clear y
  with_reducible refine Keeps.trans ?_ (State.thawHistory_keeps ..)
  refine Keeps.trans ?_ (State.modRec_keeps fun h => h)
  with_reducible exact Keeps.refl _
  intro _; clear_value y
  with_reducible refine Keeps.ite ?_ ?_
  with_reducible refine Keeps.trans ?_ (State.storeSnap_keeps ..)
  assumption
  refine Keeps.trans ?_ (State.modRec_keeps fun h => h)
  assumption

theorem State.storeWaiting_keeps (s : State) : Keeps s (State.storeWaiting s) := by
  unfold State.storeWaiting
  split
  with_reducible refine Keeps.ite ?_ ?_
  with_reducible refine Keeps.trans ?_ (State.storeSnap_keeps ..)
  refine Keeps.trans ?_ (State.modRec_keeps fun h => h)
  with_reducible exact Keeps.refl _
  with_reducible exact Keeps.refl _
  with_reducible exact Keeps.refl _

theorem State.moveToSpare_keeps (s : State) : Keeps s s.moveToSpare.1 := by
  unfold State.moveToSpare
  dsimp only
  refine Keeps.trans (State.count_keeps ..) (State.modRec_keeps fun h => ⟨h.1, ?_, ?_, h.2.2.2⟩)
  · have h2 : s.recd.spare.length ≤ 256 := h.2.1
    change (s.recd.spare ++ s.recd.ram.take (min (256 - s.recd.spare.length) s.recd.ram.length)).length ≤ 256
    simp only [List.length_append, List.length_take]
    omega
  · have h3 := h.2.2.1
    simp only [List.length_drop]
    omega

theorem State.mediaBack_keeps (s : State) (moved : Nat) : Keeps s (State.mediaBack s moved) := by
  unfold State.mediaBack
  with_reducible exact State.record_keeps ..

theorem State.mediaRetry_keeps (s : State) : Keeps s (State.mediaRetry s) := by
  unfold State.mediaRetry
  with_reducible refine Keeps.ite ?_ ?_
  with_reducible refine Keeps.trans ?_ (State.mediaBack_keeps ..)
  with_reducible exact State.drainRam_keeps ..
  with_reducible refine Keeps.ite ?_ ?_
  extract_lets +onlyGivenNames y; refine Keeps.cut (y := y.1) ?_ ?_; unfold y; clear y
  with_reducible exact State.moveToSpare_keeps ..
  intro _; clear_value y
  with_reducible refine Keeps.trans ?_ (State.mediaBack_keeps ..)
  with_reducible refine Keeps.trans ?_ (State.disarmRec_keeps ..)
  refine Keeps.trans ?_ (State.modRec_keeps fun h => h)
  assumption
  with_reducible exact State.countN_keeps ..

/-! Boot -/

theorem State.resetTo_keeps (s : State) (cause : Nat) : Keeps s (State.resetTo s cause) := by
  unfold State.resetTo
  extract_lets +onlyGivenNames y
  have h : Keeps s y := State.abandonSession_keeps s
  exact h.trans ⟨rfl, evidence_refl _, fun o => ⟨StoreOk.nil, o.ring, o.spare, o.ram, o.hold, o.intervals, o.audit⟩⟩

theorem State.loseRetention_keeps (s : State) : Keeps s (State.loseRetention s) := by
  unfold State.loseRetention
  extract_lets +onlyGivenNames a b
  have ha : Keeps s a := .mk_free (.refl s) ..
  have hb : Keeps s b := ha.trans (State.modRec_keeps fun h => ⟨h.1, h.2.1, Nat.zero_le _, Nat.zero_le _⟩)
  exact hb.trans (State.modNvm_keeps ..)

theorem State.trialFailed_keeps (s : State) : Keeps s (State.trialFailed s) := by
  unfold State.trialFailed
  with_reducible refine Keeps.ite ?_ ?_
  with_reducible refine Keeps.mk_free ?_ ..
  with_reducible exact Keeps.refl _
  with_reducible exact Keeps.refl _

theorem State.bootFirmware_keeps (s : State) (k : Nat) : Keeps s (State.bootFirmware s k) := by
  unfold State.bootFirmware
  extract_lets +onlyGivenNames y; clear_value y
  with_reducible refine Keeps.mk_free ?_ ..
  with_reducible exact Keeps.refl _

theorem State.factoryStore_ok : StoreOk State.factoryStore := by
  unfold State.factoryStore
  exact Store.setVal_ok (Store.setVal_ok StoreOk.nil ..) ..

theorem State.bootTables_keeps (tables : List (Nat × Nat × Sparse)) (s : State) (r : RailIx) : Keeps s
    (State.bootTables tables s r) := by
  unfold State.bootTables
  extract_lets +onlyGivenNames y
  extract_lets +onlyGivenNames y; refine Keeps.cut (y := y) ?_ ?_; unfold y; clear y
  with_reducible exact State.modFf_keeps ..
  intro _; clear_value y
  split
  assumption
  extract_lets +onlyGivenNames y; clear_value y
  with_reducible refine Keeps.trans ?_ (State.modFf_keeps ..)
  with_reducible refine Keeps.ite ?_ ?_
  with_reducible refine Keeps.trans ?_ (State.ffRestore_keeps ..)
  assumption
  assumption

theorem State.bootConfig_keeps (s : State) : Keeps s (State.bootConfig s) := by
  unfold State.bootConfig
  extract_lets +onlyGivenNames y; clear_value y
  extract_lets +onlyGivenNames y; clear_value y
  extract_lets +onlyGivenNames y; refine Keeps.cut (y := y) ?_ ?_; unfold y; clear y
  split
  exact .mk_objs (.refl s) _ _ (fun _ => State.withImage_ok StoreOk.nil _) ..
  exact .mk_objs (.refl s) _ _ (fun _ => State.factoryStore_ok) ..
  intro _; clear_value y
  extract_lets +onlyGivenNames y; clear_value y
  extract_lets +onlyGivenNames y; refine Keeps.cut (y := y) ?_ ?_; unfold y; clear y
  with_reducible refine Keeps.forEach_from ?_ fun _ _ => ?_
  assumption
  with_reducible refine Keeps.trans ?_ (State.bootTables_keeps ..)
  with_reducible exact State.loadCoefs_keeps ..
  intro _; clear_value y
  extract_lets +onlyGivenNames y; refine Keeps.cut (y := y) ?_ ?_; unfold y; clear y
  with_reducible refine Keeps.forEach_from ?_ fun _ _ => ?_
  assumption
  with_reducible exact State.modGen_keeps ..
  intro _; clear_value y
  extract_lets +onlyGivenNames y; refine Keeps.cut (y := y) ?_ ?_; unfold y; clear y
  with_reducible refine Keeps.forEach_from ?_ fun _ _ => ?_
  assumption
  with_reducible refine Keeps.ite ?_ ?_
  with_reducible exact State.enablePort_keeps ..
  with_reducible exact Keeps.refl _
  intro _; clear_value y
  extract_lets +onlyGivenNames y; clear_value y
  with_reducible refine Keeps.mk_free ?_ ..
  assumption

theorem State.bootZero_keeps (l : List (Nat × Rat × Rat)) (s : State) (n : PhaseIx) : Keeps s (State.bootZero l s
    n) := by
  unfold State.bootZero
  split
  with_reducible exact Keeps.refl _
  with_reducible refine Keeps.ite ?_ ?_
  with_reducible exact State.modSense_keeps ..
  with_reducible exact Keeps.refl _

theorem State.bootStates_keeps (s : State) : Keeps s (State.bootStates s) := by
  unfold State.bootStates
  extract_lets +onlyGivenNames m put a b c
  have ha : Keeps s a := .mk_objs (.refl s) _ _
    (fun h => Store.foldl_entries_ok _ h) ..
  have hb : Keeps s b := .forEach_from ha fun s n => (State.bootZero_keeps ..).trans (State.modSense_keeps ..)
  have hc : Keeps s c := .forEach_from hb fun s n => State.modFuse_keeps ..
  exact hc.trans (State.count_keeps ..)

theorem State.noteRestart_keeps (s : State) (e : Nat) : Keeps s (State.noteRestart s e) := by
  unfold State.noteRestart
  with_reducible refine Keeps.mk_free ?_ ..
  with_reducible exact Keeps.refl _

theorem State.bootLost_keeps (s : State) (intact : Bool) : Keeps s (State.bootLost s intact) := by
  unfold State.bootLost
  with_reducible refine Keeps.ite ?_ ?_
  with_reducible exact Keeps.refl _
  extract_lets +onlyGivenNames y; refine Keeps.cut (y := y) ?_ ?_; unfold y; clear y
  with_reducible exact State.recordIf_keeps ..
  intro _; clear_value y
  extract_lets +onlyGivenNames y; refine Keeps.cut (y := y) ?_ ?_; unfold y; clear y
  with_reducible refine Keeps.trans ?_ (State.recordIf_keeps ..)
  assumption
  intro _; clear_value y
  with_reducible refine Keeps.trans ?_ (State.irqIf_keeps ..)
  assumption

theorem State.bootHeld_keeps (s : State) : Keeps s (State.bootHeld s) := by
  unfold State.bootHeld
  with_reducible refine Keeps.trans ?_ (State.thaw_keeps ..)
  refine Keeps.trans ?_ (State.modRec_keeps fun h => h)
  with_reducible exact Keeps.refl _

theorem State.bootRecords_keeps (s : State) (intact : Bool) : Keeps s (State.bootRecords s intact) := by
  unfold State.bootRecords
  extract_lets +onlyGivenNames y; refine Keeps.cut (y := y) ?_ ?_; unfold y; clear y
  refine Keeps.trans ?_ (State.modRec_keeps fun h => h)
  with_reducible exact Keeps.refl _
  intro _; clear_value y
  extract_lets +onlyGivenNames y; refine Keeps.cut (y := y) ?_ ?_; unfold y; clear y
  with_reducible refine Keeps.trans ?_ (State.recordIf_keeps ..)
  assumption
  intro _; clear_value y
  extract_lets +onlyGivenNames y; clear_value y
  extract_lets +onlyGivenNames y; refine Keeps.cut (y := y) ?_ ?_; unfold y; clear y
  with_reducible refine Keeps.trans ?_ (State.record_keeps ..)
  assumption
  intro _; clear_value y
  extract_lets +onlyGivenNames y; refine Keeps.cut (y := y) ?_ ?_; unfold y; clear y
  with_reducible refine Keeps.trans ?_ (State.bootHeld_keeps ..)
  with_reducible refine Keeps.trans ?_ (State.bootLost_keeps ..)
  with_reducible refine Keeps.trans ?_ (State.anchor_keeps ..)
  assumption
  intro _; clear_value y
  extract_lets +onlyGivenNames y; refine Keeps.cut (y := y) ?_ ?_; unfold y; clear y
  with_reducible refine Keeps.trans ?_ (State.recordIf_keeps ..)
  assumption
  intro _; clear_value y
  with_reducible refine Keeps.ite ?_ ?_
  with_reducible refine Keeps.trans ?_ (State.drainRam_keeps ..)
  assumption
  with_reducible refine Keeps.trans ?_ (State.disarmRec_keeps ..)
  assumption

theorem State.bootTime_keeps (s : State) (n : Nat) : Keeps s (State.bootTime s n) := by
  unfold State.bootTime
  with_reducible refine Keeps.trans ?_ (State.passTime_keeps ..)
  with_reducible refine Keeps.trans ?_ (State.modClk_keeps ..)
  with_reducible refine Keeps.mk_free ?_ ..
  with_reducible exact Keeps.refl _

theorem State.bootMeter_keeps (s : State) : Keeps s (State.bootMeter s) := by
  unfold State.bootMeter
  refine Keeps.ite (.refl s) ?_
  extract_lets +onlyGivenNames a
  have ha : Keeps s a := State.modMeter_keeps_same (by split <;> exact ⟨rfl, rfl, rfl, rfl⟩)
  clear_value a
  exact Keeps.ite (ha.trans (State.meterBoot_keeps ..)) ha

theorem State.bootFull_keeps (s : State) (k : Nat) : Keeps s (State.bootFull s k) := by
  unfold State.bootFull
  extract_lets +onlyGivenNames y; clear_value y
  extract_lets +onlyGivenNames y; refine Keeps.cut (y := y) ?_ ?_; unfold y; clear y
  with_reducible refine Keeps.trans ?_ (State.bootTime_keeps ..)
  with_reducible refine Keeps.trans ?_ (State.bootMeter_keeps ..)
  with_reducible exact State.bootFirmware_keeps ..
  intro _; clear_value y
  extract_lets +onlyGivenNames y; refine Keeps.cut (y := y) ?_ ?_; unfold y; clear y
  with_reducible refine Keeps.trans ?_ (State.modNvm_keeps ..)
  with_reducible refine Keeps.trans ?_ (State.bootStates_keeps ..)
  with_reducible refine Keeps.trans ?_ (State.bootConfig_keeps ..)
  assumption
  intro _; clear_value y
  extract_lets +onlyGivenNames y; refine Keeps.cut (y := y) ?_ ?_; unfold y; clear y
  with_reducible refine Keeps.forEach_from ?_ fun _ _ => ?_
  with_reducible refine Keeps.trans ?_ (State.bootRecords_keeps ..)
  assumption
  with_reducible exact State.cmpRestart_keeps ..
  intro _; clear_value y
  extract_lets +onlyGivenNames y; refine Keeps.cut (y := y) ?_ ?_; unfold y; clear y
  with_reducible refine Keeps.trans ?_ (State.bootTime_keeps ..)
  assumption
  intro _; clear_value y
  extract_lets +onlyGivenNames y; clear_value y
  extract_lets +onlyGivenNames y; clear_value y
  extract_lets +onlyGivenNames y; refine Keeps.cut (y := y) ?_ ?_; unfold y; clear y
  with_reducible refine Keeps.mk_free ?_ ..
  assumption
  intro _; clear_value y
  extract_lets +onlyGivenNames y; refine Keeps.cut (y := y) ?_ ?_; unfold y; clear y
  with_reducible refine Keeps.ite ?_ ?_
  with_reducible refine Keeps.trans ?_ (State.flushSaves_keeps ..)
  assumption
  assumption
  intro _; clear_value y
  with_reducible refine Keeps.trans ?_ (State.refreshFstat_keeps ..)
  with_reducible refine Keeps.trans ?_ (State.irq_keeps ..)
  with_reducible refine Keeps.trans ?_ (State.refreshPg_keeps ..)
  with_reducible refine Keeps.trans ?_ (State.refreshFlt_keeps ..)
  assumption

theorem State.bootRecovery_keeps (s : State) : Keeps s (State.bootRecovery s) := by
  unfold State.bootRecovery
  extract_lets +onlyGivenNames y; refine Keeps.cut (y := y) ?_ ?_; unfold y; clear y
  with_reducible exact State.bootTime_keeps ..
  intro _; clear_value y
  extract_lets +onlyGivenNames y; clear_value y
  extract_lets +onlyGivenNames y; clear_value y
  extract_lets +onlyGivenNames y; refine Keeps.cut (y := y) ?_ ?_; unfold y; clear y
  with_reducible refine Keeps.mk_free ?_ ..
  assumption
  intro _; clear_value y
  with_reducible refine Keeps.trans ?_ (State.refreshFstat_keeps ..)
  with_reducible refine Keeps.trans ?_ (State.irq_keeps ..)
  assumption

theorem State.bootNow_keeps (s : State) : Keeps s (State.bootNow s) := by
  unfold State.bootNow
  extract_lets +onlyGivenNames y; clear_value y
  extract_lets +onlyGivenNames y; refine Keeps.cut (y := y) ?_ ?_; unfold y; clear y
  with_reducible refine Keeps.mk_free ?_ ..
  with_reducible exact Keeps.refl _
  intro _; clear_value y
  split
  with_reducible refine Keeps.trans ?_ (State.bootFull_keeps ..)
  assumption
  with_reducible refine Keeps.trans ?_ (State.bootRecovery_keeps ..)
  assumption

theorem State.enterSleep_keeps (s : State) : Keeps s (State.enterSleep s) := by
  unfold State.enterSleep
  extract_lets +onlyGivenNames y; clear_value y
  extract_lets +onlyGivenNames y; refine Keeps.cut (y := y) ?_ ?_; unfold y; clear y
  with_reducible refine Keeps.trans ?_ (State.thaw_keeps ..)
  with_reducible exact State.modMb_keeps ..
  intro _; clear_value y
  extract_lets +onlyGivenNames y; refine Keeps.cut (y := y) ?_ ?_; unfold y; clear y
  with_reducible refine Keeps.forEach_from ?_ fun _ _ => ?_
  assumption
  with_reducible refine Keeps.ite ?_ ?_
  with_reducible exact Keeps.refl _
  with_reducible exact State.modCmp_keeps ..
  intro _; clear_value y
  extract_lets +onlyGivenNames y; refine Keeps.cut (y := y) ?_ ?_; unfold y; clear y
  with_reducible refine Keeps.trans ?_ (State.modClk_keeps ..)
  assumption
  intro _; clear_value y
  with_reducible refine Keeps.trans ?_ (State.refreshFstat_keeps ..)
  with_reducible refine Keeps.mk_free ?_ ..
  assumption

theorem State.sleepTime_keeps (s : State) (n : Nat) : Keeps s (State.sleepTime s n) := by
  unfold State.sleepTime
  with_reducible refine Keeps.trans ?_ (State.passTime_keeps ..)
  with_reducible refine Keeps.mk_free ?_ ..
  with_reducible exact Keeps.refl _

theorem State.wakeNow_keeps (s : State) (src : Nat) : Keeps s (State.wakeNow s src) := by
  unfold State.wakeNow
  extract_lets +onlyGivenNames y; clear_value y
  extract_lets +onlyGivenNames y; refine Keeps.cut (y := y) ?_ ?_; unfold y; clear y
  with_reducible refine Keeps.mk_free ?_ ..
  with_reducible exact Keeps.refl _
  intro _; clear_value y
  extract_lets +onlyGivenNames f; clear_value f
  extract_lets +onlyGivenNames y; refine Keeps.cut (y := y) ?_ ?_; unfold y; clear y
  with_reducible refine Keeps.trans ?_ (State.modClk_keeps ..)
  assumption
  intro _; clear_value y
  extract_lets +onlyGivenNames y; refine Keeps.cut (y := y) ?_ ?_; unfold y; clear y
  with_reducible refine Keeps.forEach_from ?_ fun _ _ => ?_
  assumption
  with_reducible exact State.cmpRestart_keeps ..
  intro _; clear_value y
  with_reducible refine Keeps.trans ?_ (State.refreshFstat_keeps ..)
  with_reducible refine Keeps.forEach_from ?_ fun _ _ => ?_
  assumption
  with_reducible exact State.modPort_keeps ..

theorem State.loseRegion_keeps (s : State) (k : Nat) : Keeps s (State.loseRegion s k) := by
  unfold State.loseRegion
  extract_lets +onlyGivenNames lost
  refine Keeps.dite (fun _ => State.modFf_keeps ..) (fun _ => ?_)
  refine Keeps.ite ?_ (Keeps.ite ?_ (Keeps.ite ?_ (Keeps.ite ?_ (.refl s))))
  · exact ((State.modRec_keeps fun h => ⟨h.1, h.2.1, h.2.2.1, Nat.zero_le _⟩).trans (State.countLost_keeps ..)).trans
      (State.recordIf_keeps ..)
  · exact ((State.modRec_keeps fun h => ⟨h.1, h.2.1, Nat.zero_le _, h.2.2.2⟩).trans (State.countLost_keeps ..)).trans
      (State.recordIf_keeps ..)
  · exact (State.modNvm_keeps ..).trans (State.recordIf_keeps ..)
  · exact State.modMeter_keeps_same ⟨rfl, rfl, rfl, rfl⟩

end Sys2Proof.Machine
end

