-- ==== Sys2Proof/Laws/Same.lean ====
section
/-! SUPPORT. Frames by areas: what a change of State leaves alone, read area by area (SameBut of Safety). -/

namespace Sys2Proof.Machine

theorem same_refl (ps : List Area) (s : State) : SameBut ps s s := ⟨fun p _ => by cases p <;> rfl⟩

theorem same_of_eq {p : Area} {a b c : State} (h : p.Same a b) (h' : p.Same b c) : p.Same a c := by
  cases p <;> exact Eq.trans h' h

/-- A further change within the same areas. -/
theorem same_step {ps qs : List Area} {s a b : State} (h : SameBut ps s a) (h' : SameBut qs a b)
    (hs : ∀ p ∈ qs, p ∈ ps) : SameBut ps s b :=
  ⟨fun p hp => same_of_eq (h.same p hp) (h'.same p fun hq => hp (hs p hq))⟩

theorem same_mono {ps qs : List Area} {s t : State} (h : SameBut qs s t) (hs : ∀ p ∈ qs, p ∈ ps) : SameBut ps s t :=
  ⟨fun p hp => h.same p fun hq => hp (hs p hq)⟩

theorem same_lit {ps : List Area} {s t : State} (x : State) (h : SameBut ps s x) (h' : ∀ p, p ∉ ps → p.Same x t) :
    SameBut ps s t := ⟨fun p hp => same_of_eq (h.same p hp) (h' p hp)⟩

theorem same_cut {ps : List Area} {s t y : State} (h : SameBut ps s y) (h' : SameBut ps s y → SameBut ps s t) :
    SameBut ps s t := h' h

theorem same_ite {ps : List Area} {c : Prop} [Decidable c] {s a b : State} (h : SameBut ps s a) (h' : SameBut ps s b) :
    SameBut ps s (if c then a else b) := by
  split
  · exact h
  · exact h'

theorem same_dite {ps : List Area} {c : Prop} [Decidable c] {s : State} {a : c → State} {b : ¬c → State}
    (h : ∀ q, SameBut ps s (a q)) (h' : ∀ q, SameBut ps s (b q)) : SameBut ps s (if q : c then a q else b q) := by
  split
  · exact h _
  · exact h' _

theorem same_forEach {ps : List Area} {α : Type} {l : List α} {f : State → α → State} {s x : State}
    (h : SameBut ps s x) (hf : ∀ s a, SameBut ps s (f s a)) : SameBut ps s (forEach l f x) := by
  unfold forEach
  induction l generalizing x with
  | nil => exact h
  | cons a l ih => exact ih (same_step h (hf x a) fun _ hp => hp)

theorem same_foldl {ps : List Area} {α : Type} {l : List α} {f : State → α → State} {s x : State}
    (h : SameBut ps s x) (hf : ∀ s a, SameBut ps s (f s a)) : SameBut ps s (l.foldl f x) := same_forEach h hf

end Sys2Proof.Machine
end

