-- ==== Sys2Proof/Laws/SameOps.lean ====
section
/-! SUPPORT. The areas of State that the shared operations: registers, records, the saved states, phases and rails change; all others stand
(see Laws/Same.lean). Each proof walks its function's body in order. -/

namespace Sys2Proof.Machine

/-! Ops -/

theorem State.setObj_same (s : State) (cls inst item : Nat) (v : Word) : SameBut [.objs] s (State.setObj s cls inst
    item v) := by
  unfold State.setObj
  refine same_lit s ?_ ?_
  exact same_refl ..
  intro p hp; cases p <;> first | exact absurd (by decide) hp | rfl

theorem State.countN_same (s : State) (cls inst item n : Nat) : SameBut [.objs] s (State.countN s cls inst item n)
    := by
  unfold State.countN
  with_reducible exact State.setObj_same ..

theorem State.count_same (s : State) (cls inst item : Nat) : SameBut [.objs] s (State.count s cls inst item) := by
  unfold State.count
  with_reducible exact State.countN_same ..

theorem State.countIf_same (s : State) (b : Bool) (cls inst item : Nat) : SameBut [.objs] s (State.countIf s b cls
    inst item) := by
  unfold State.countIf
  with_reducible refine same_ite ?_ ?_
  with_reducible exact State.count_same ..
  exact same_refl ..

theorem State.modRail_same (s : State) (r : RailIx) (f : RailState → RailState) : SameBut [.rails] s (State.modRail
    s r f) := by
  unfold State.modRail
  refine same_lit s ?_ ?_
  exact same_refl ..
  intro p hp; cases p <;> first | exact absurd (by decide) hp | rfl

theorem State.modPhase_same (s : State) (n : PhaseIx) (f : PhaseState → PhaseState) : SameBut [.phases] s
    (State.modPhase s n f) := by
  unfold State.modPhase
  refine same_lit s ?_ ?_
  exact same_refl ..
  intro p hp; cases p <;> first | exact absurd (by decide) hp | rfl

theorem State.modGen_same (s : State) (n : PhaseIx) (f : GenState → GenState) : SameBut [.phases] s (State.modGen s
    n f) := by
  unfold State.modGen
  with_reducible exact State.modPhase_same ..

theorem State.modSense_same (s : State) (n : PhaseIx) (f : SenseState → SenseState) : SameBut [.phases] s
    (State.modSense s n f) := by
  unfold State.modSense
  with_reducible exact State.modPhase_same ..

theorem State.modPort_same (s : State) (p : PortIx) (f : PortState → PortState) : SameBut [.ports] s (State.modPort
    s p f) := by
  unfold State.modPort
  refine same_lit s ?_ ?_
  exact same_refl ..
  intro p hp; cases p <;> first | exact absurd (by decide) hp | rfl

theorem State.modDomain_same (s : State) (d : DomainIx) (f : DomainState → DomainState) : SameBut [.domains] s
    (State.modDomain s d f) := by
  unfold State.modDomain
  refine same_lit s ?_ ?_
  exact same_refl ..
  intro p hp; cases p <;> first | exact absurd (by decide) hp | rfl

theorem State.modCmp_same (s : State) (c : CmpIx) (f : CmpState → CmpState) : SameBut [.cmps] s (State.modCmp s c
    f) := by
  unfold State.modCmp
  refine same_lit s ?_ ?_
  exact same_refl ..
  intro p hp; cases p <;> first | exact absurd (by decide) hp | rfl

theorem State.modTemp_same (s : State) (i : TempIx) (f : TempState → TempState) : SameBut [.temps] s (State.modTemp
    s i f) := by
  unfold State.modTemp
  refine same_lit s ?_ ?_
  exact same_refl ..
  intro p hp; cases p <;> first | exact absurd (by decide) hp | rfl

theorem State.modSlot_same (s : State) (k : SlotIx) (f : Slot → Slot) : SameBut [.mb] s (State.modSlot s k f) := by
  unfold State.modSlot
  refine same_lit s ?_ ?_
  exact same_refl ..
  intro p hp; cases p <;> first | exact absurd (by decide) hp | rfl

theorem State.modLaw_same (s : State) (r : RailIx) (f : LawState → LawState) : SameBut [.rails] s (State.modLaw s r
    f) := by
  unfold State.modLaw
  with_reducible exact State.modRail_same ..

theorem State.modMeas_same (s : State) (r : RailIx) (f : MeasState → MeasState) : SameBut [.rails] s (State.modMeas
    s r f) := by
  unfold State.modMeas
  with_reducible exact State.modRail_same ..

theorem State.modProf_same (s : State) (r : RailIx) (f : ProfState → ProfState) : SameBut [.rails] s (State.modProf
    s r f) := by
  unfold State.modProf
  with_reducible exact State.modRail_same ..

theorem State.modFf_same (s : State) (r : RailIx) (f : FfState → FfState) : SameBut [.rails] s (State.modFf s r f)
    := by
  unfold State.modFf
  with_reducible exact State.modRail_same ..

theorem State.modLt_same (s : State) (r : RailIx) (f : LtState → LtState) : SameBut [.rails] s (State.modLt s r f)
    := by
  unfold State.modLt
  with_reducible exact State.modRail_same ..

theorem State.modPlc_same (s : State) (r : RailIx) (f : PlcState → PlcState) : SameBut [.rails] s (State.modPlc s r
    f) := by
  unfold State.modPlc
  with_reducible exact State.modRail_same ..

theorem State.modProt_same (s : State) (r : RailIx) (f : ProtState → ProtState) : SameBut [.rails] s (State.modProt
    s r f) := by
  unfold State.modProt
  with_reducible exact State.modRail_same ..

theorem State.modSeq_same (s : State) (r : RailIx) (f : SeqState → SeqState) : SameBut [.rails] s (State.modSeq s r
    f) := by
  unfold State.modSeq
  with_reducible exact State.modRail_same ..

theorem State.modFuse_same (s : State) (r : RailIx) (f : FuseState → FuseState) : SameBut [.rails] s (State.modFuse
    s r f) := by
  unfold State.modFuse
  with_reducible exact State.modRail_same ..

theorem State.irq_same (s : State) (k : Fin 16) : SameBut [.mb] s (State.irq s k) := by
  unfold State.irq
  extract_lets +onlyGivenNames y; clear_value y
  extract_lets +onlyGivenNames y; clear_value y
  refine same_lit s ?_ ?_
  exact same_refl ..
  intro p hp; cases p <;> first | exact absurd (by decide) hp | rfl

theorem State.irqIf_same (s : State) (b : Bool) (k : Fin 16) : SameBut [.mb] s (State.irqIf s b k) := by
  unfold State.irqIf
  with_reducible refine same_ite ?_ ?_
  with_reducible exact State.irq_same ..
  exact same_refl ..

/-! Flags -/

theorem State.modFeed_same (s : State) (x : FeedId) (f : FeedOne → FeedOne) : SameBut [.feeds] s (State.modFeed s x
    f) := by
  unfold State.modFeed
  split
  refine same_lit s ?_ ?_
  exact same_refl ..
  intro p hp; cases p <;> first | exact absurd (by decide) hp | rfl
  refine same_lit s ?_ ?_
  exact same_refl ..
  intro p hp; cases p <;> first | exact absurd (by decide) hp | rfl

theorem State.refreshFlt_same (s : State) : SameBut [.mb] s (State.refreshFlt s) := by
  unfold State.refreshFlt
  extract_lets +onlyGivenNames y; clear_value y
  extract_lets +onlyGivenNames y; clear_value y
  extract_lets +onlyGivenNames y; clear_value y
  extract_lets +onlyGivenNames t1; refine same_cut (y := t1) ?_ ?_; unfold t1; clear t1
  refine same_lit s ?_ ?_
  exact same_refl ..
  intro p hp; cases p <;> first | exact absurd (by decide) hp | rfl
  intro _; clear_value t1
  with_reducible refine same_step ?_ (State.irqIf_same ..) (by decide)
  assumption

theorem State.refreshPg_same (s : State) : SameBut [.mb] s (State.refreshPg s) := by
  unfold State.refreshPg
  extract_lets +onlyGivenNames y; clear_value y
  extract_lets +onlyGivenNames y; clear_value y
  extract_lets +onlyGivenNames y; clear_value y
  extract_lets +onlyGivenNames t1; refine same_cut (y := t1) ?_ ?_; unfold t1; clear t1
  refine same_lit s ?_ ?_
  exact same_refl ..
  intro p hp; cases p <;> first | exact absurd (by decide) hp | rfl
  intro _; clear_value t1
  with_reducible refine same_step ?_ (State.irqIf_same ..) (by decide)
  assumption

theorem State.refreshFstat_same (s : State) : SameBut [.mb] s (State.refreshFstat s) := by
  unfold State.refreshFstat
  extract_lets +onlyGivenNames y; clear_value y
  extract_lets +onlyGivenNames y; clear_value y
  extract_lets +onlyGivenNames y; clear_value y
  extract_lets +onlyGivenNames t1; refine same_cut (y := t1) ?_ ?_; unfold t1; clear t1
  refine same_lit s ?_ ?_
  exact same_refl ..
  intro p hp; cases p <;> first | exact absurd (by decide) hp | rfl
  intro _; clear_value t1
  with_reducible refine same_step ?_ (State.irqIf_same ..) (by decide)
  assumption

/-! Recorder -/

theorem State.modRec_same (s : State) (f : RecState → RecState) : SameBut [.recd] s (State.modRec s f) := by
  unfold State.modRec
  refine same_lit s ?_ ?_
  exact same_refl ..
  intro p hp; cases p <;> first | exact absurd (by decide) hp | rfl

theorem State.countLost_same (s : State) (n : Nat) : SameBut [.objs] s (State.countLost s n) := by
  unfold State.countLost
  with_reducible exact State.countN_same ..

theorem State.pushRing_same (s : State) (r : Rec) : SameBut [.recd] s (State.pushRing s r) := by
  unfold State.pushRing
  extract_lets +onlyGivenNames y; clear_value y
  with_reducible exact State.modRec_same ..

theorem State.armRec_same (s : State) : SameBut [.nvm] s (State.armRec s) := by
  unfold State.armRec
  refine same_lit s ?_ ?_
  exact same_refl ..
  intro p hp; cases p <;> first | exact absurd (by decide) hp | rfl

theorem State.pushRam_same (s : State) (r : Rec) : SameBut [.objs, .recd, .nvm] s (State.pushRam s r) := by
  unfold State.pushRam
  extract_lets +onlyGivenNames t1; refine same_cut (y := t1) ?_ ?_; unfold t1; clear t1
  with_reducible refine same_mono (State.armRec_same ..) (by decide)
  intro _; clear_value t1
  with_reducible refine same_ite ?_ ?_
  with_reducible refine same_step ?_ (State.modRec_same ..) (by decide)
  assumption
  extract_lets +onlyGivenNames t2; refine same_cut (y := t2) ?_ ?_; unfold t2; clear t2
  with_reducible refine same_step ?_ (State.countLost_same ..) (by decide)
  assumption
  intro _; clear_value t2
  with_reducible refine same_step ?_ (State.modRec_same ..) (by decide)
  assumption

theorem State.toTwin_same (s : State) (m : TwinMsg) : SameBut [.twin] s (State.toTwin s m) := by
  unfold State.toTwin
  with_reducible refine same_ite ?_ ?_
  exact same_refl ..
  refine same_lit s ?_ ?_
  exact same_refl ..
  intro p hp; cases p <;> first | exact absurd (by decide) hp | rfl

theorem State.loseReserve_same (s : State) : SameBut [.objs, .recd] s (State.loseReserve s) := by
  unfold State.loseReserve
  with_reducible refine same_step ?_ (State.modRec_same ..) (by decide)
  with_reducible refine same_mono (State.countLost_same ..) (by decide)

theorem State.mediaFault_same (s : State) (r : Rec) (faultSeq : Nat) : SameBut [.objs, .twin, .recd, .nvm] s
    (State.mediaFault s r faultSeq) := by
  unfold State.mediaFault
  extract_lets +onlyGivenNames t1; refine same_cut (y := t1) ?_ ?_; unfold t1; clear t1
  with_reducible refine same_mono (State.modRec_same ..) (by decide)
  intro _; clear_value t1
  extract_lets +onlyGivenNames y; clear_value y
  with_reducible refine same_ite ?_ ?_
  with_reducible refine same_step ?_ (State.toTwin_same ..) (by decide)
  with_reducible refine same_step ?_ (State.modRec_same ..) (by decide)
  with_reducible refine same_step ?_ (State.pushRam_same ..) (by decide)
  assumption
  with_reducible refine same_step ?_ (State.loseReserve_same ..) (by decide)
  with_reducible refine same_step ?_ (State.modRec_same ..) (by decide)
  assumption

theorem State.commitRec_same (s : State) (r : Rec) (faultSeq : Nat) : SameBut [.objs, .twin, .recd, .nvm] s
    (State.commitRec s r faultSeq) := by
  unfold State.commitRec
  with_reducible refine same_ite ?_ ?_
  with_reducible refine same_mono (State.pushRam_same ..) (by decide)
  with_reducible refine same_ite ?_ ?_
  with_reducible refine same_mono (State.pushRing_same ..) (by decide)
  extract_lets +onlyGivenNames t1; refine same_cut (y := t1) ?_ ?_; unfold t1; clear t1
  with_reducible refine same_mono (State.count_same ..) (by decide)
  intro _; clear_value t1
  extract_lets +onlyGivenNames t2; refine same_cut (y := t2) ?_ ?_; unfold t2; clear t2
  with_reducible refine same_ite ?_ ?_
  with_reducible refine same_step ?_ (State.modRec_same ..) (by decide)
  assumption
  with_reducible refine same_step ?_ (State.pushRam_same ..) (by decide)
  with_reducible refine same_step ?_ (State.count_same ..) (by decide)
  assumption
  intro _; clear_value t2
  with_reducible refine same_step ?_ (State.mediaFault_same ..) (by decide)
  assumption

theorem State.raiseReserve_same (s : State) : SameBut [.recd] s (State.raiseReserve s) := by
  unfold State.raiseReserve
  with_reducible refine same_ite ?_ ?_
  exact same_refl ..
  with_reducible refine same_ite ?_ ?_
  with_reducible exact State.modRec_same ..
  with_reducible exact State.modRec_same ..

theorem State.place_same (s : State) (r : Rec) : SameBut [.objs, .twin, .recd, .nvm] s (State.place s r) := by
  unfold State.place
  with_reducible refine same_ite ?_ ?_
  with_reducible refine same_mono (State.modRec_same ..) (by decide)
  with_reducible exact State.commitRec_same ..

theorem State.writeKeptReserve_same (s : State) : SameBut [.objs, .twin, .recd, .nvm] s (State.writeKeptReserve s)
    := by
  unfold State.writeKeptReserve
  split
  exact same_refl ..
  extract_lets +onlyGivenNames y; clear_value y
  extract_lets +onlyGivenNames t1; refine same_cut (y := t1) ?_ ?_; unfold t1; clear t1
  with_reducible refine same_mono (State.modRec_same ..) (by decide)
  intro _; clear_value t1
  with_reducible refine same_ite ?_ ?_
  assumption
  with_reducible refine same_step ?_ (State.place_same ..) (by decide)
  with_reducible refine same_step ?_ (State.modRec_same ..) (by decide)
  assumption

theorem State.takeSnap_same (s : State) (seq code : Nat) (r : RailIx) (cause : Nat) : SameBut [.rails, .recd] s
    (State.takeSnap s seq code r cause) := by
  unfold State.takeSnap
  extract_lets +onlyGivenNames y; clear_value y
  extract_lets +onlyGivenNames t1; refine same_cut (y := t1) ?_ ?_; unfold t1; clear t1
  with_reducible refine same_mono (State.modRail_same ..) (by decide)
  intro _; clear_value t1
  with_reducible refine same_step ?_ (State.modRec_same ..) (by decide)
  assumption

theorem State.emit_same (s : State) (e : Ev) : SameBut [.objs, .rails, .twin, .recd, .nvm] s (State.emit s e) := by
  unfold State.emit
  extract_lets +onlyGivenNames t1; refine same_cut (y := t1) ?_ ?_; unfold t1; clear t1
  with_reducible refine same_mono (State.raiseReserve_same ..) (by decide)
  intro _; clear_value t1
  with_reducible refine same_ite ?_ ?_
  with_reducible refine same_step ?_ (State.loseReserve_same ..) (by decide)
  assumption
  extract_lets +onlyGivenNames t2; refine same_cut (y := t2) ?_ ?_; unfold t2; clear t2
  with_reducible refine same_step ?_ (State.writeKeptReserve_same ..) (by decide)
  assumption
  intro _; clear_value t2
  extract_lets +onlyGivenNames y; clear_value y
  extract_lets +onlyGivenNames y; clear_value y
  extract_lets +onlyGivenNames y; clear_value y
  extract_lets +onlyGivenNames t3; refine same_cut (y := t3) ?_ ?_; unfold t3; clear t3
  with_reducible refine same_forEach ?_ fun _ _ => same_mono (State.takeSnap_same ..) (by decide)
  assumption
  intro _; clear_value t3
  extract_lets +onlyGivenNames y; clear_value y
  extract_lets +onlyGivenNames t4; refine same_cut (y := t4) ?_ ?_; unfold t4; clear t4
  with_reducible refine same_ite ?_ ?_
  with_reducible refine same_step ?_ (State.toTwin_same ..) (by decide)
  assumption
  assumption
  intro _; clear_value t4
  with_reducible refine same_ite ?_ ?_
  with_reducible refine same_step ?_ (State.modRec_same ..) (by decide)
  with_reducible refine same_step ?_ (State.countLost_same ..) (by decide)
  assumption
  with_reducible refine same_step ?_ (State.place_same ..) (by decide)
  with_reducible refine same_step ?_ (State.modRec_same ..) (by decide)
  assumption

theorem State.event_same (s : State) (e : Ev) : SameBut [.objs, .rails, .twin, .recd, .nvm] s (State.event s e) := by
  unfold State.event
  split
  with_reducible refine same_mono (State.modRec_same ..) (by decide)
  with_reducible exact State.emit_same ..

theorem State.record_same (s : State) (code cls inst sub : Nat) (data : List Byte) : SameBut [.objs, .rails, .twin,
    .recd, .nvm] s (State.record s code cls inst sub data) := by
  unfold State.record
  with_reducible exact State.event_same ..

theorem State.recordSnap_same (s : State) (code cls inst sub : Nat) (data : List Byte) (r : RailIx) (cause : Nat) :
    SameBut [.objs, .rails, .twin, .recd, .nvm] s (State.recordSnap s code cls inst sub data r cause) := by
  unfold State.recordSnap
  with_reducible exact State.event_same ..

theorem State.recordIf_same (s : State) (b : Bool) (code cls inst sub : Nat) (data : List Byte) : SameBut [.objs,
    .rails, .twin, .recd, .nvm] s (State.recordIf s b code cls inst sub data) := by
  unfold State.recordIf
  with_reducible refine same_ite ?_ ?_
  with_reducible exact State.record_same ..
  exact same_refl ..

theorem State.openBatch_same (s : State) : SameBut [.recd] s (State.openBatch s) := by
  unfold State.openBatch
  with_reducible exact State.modRec_same ..

theorem State.closeBatch_same (s : State) : SameBut [.objs, .rails, .twin, .recd, .nvm] s (State.closeBatch s) := by
  unfold State.closeBatch
  split
  exact same_refl ..
  with_reducible refine same_forEach ?_ fun _ _ => ?_
  with_reducible refine same_mono (State.modRec_same ..) (by decide)
  with_reducible exact State.emit_same ..

theorem State.anchor_same (s : State) (sub : Nat) : SameBut [.objs, .time, .rails, .twin, .recd, .nvm] s
    (State.anchor s sub) := by
  unfold State.anchor
  extract_lets +onlyGivenNames t1; refine same_cut (y := t1) ?_ ?_; unfold t1; clear t1
  with_reducible refine same_mono (State.record_same ..) (by decide)
  intro _; clear_value t1
  refine same_lit t1 ?_ ?_
  assumption
  intro p hp; cases p <;> first | exact absurd (by decide) hp | rfl

theorem State.disarmRec_same (s : State) : SameBut [.nvm] s (State.disarmRec s) := by
  unfold State.disarmRec
  with_reducible refine same_ite ?_ ?_
  refine same_lit s ?_ ?_
  exact same_refl ..
  intro p hp; cases p <;> first | exact absurd (by decide) hp | rfl
  exact same_refl ..

theorem State.thaw_same (s : State) : SameBut [.objs, .twin, .recd, .nvm] s (State.thaw s) := by
  unfold State.thaw
  with_reducible refine same_ite ?_ ?_
  exact same_refl ..
  extract_lets +onlyGivenNames y; clear_value y
  extract_lets +onlyGivenNames y; clear_value y
  extract_lets +onlyGivenNames t1; refine same_cut (y := t1) ?_ ?_; unfold t1; clear t1
  with_reducible refine same_mono (State.modRec_same ..) (by decide)
  intro _; clear_value t1
  with_reducible refine same_step ?_ (State.disarmRec_same ..) (by decide)
  with_reducible refine same_forEach ?_ fun _ _ => ?_
  assumption
  with_reducible exact State.commitRec_same ..

theorem State.drainRam_same (s : State) : SameBut [.objs, .twin, .recd, .nvm] s (State.drainRam s) := by
  unfold State.drainRam
  extract_lets +onlyGivenNames y; clear_value y
  extract_lets +onlyGivenNames y; clear_value y
  extract_lets +onlyGivenNames t1; refine same_cut (y := t1) ?_ ?_; unfold t1; clear t1
  with_reducible refine same_mono (State.modRec_same ..) (by decide)
  intro _; clear_value t1
  with_reducible refine same_step ?_ (State.disarmRec_same ..) (by decide)
  with_reducible refine same_forEach ?_ fun _ _ => ?_
  assumption
  with_reducible exact State.commitRec_same ..

/-! Nvm -/

theorem State.modNvm_same (s : State) (f : NvmState → NvmState) : SameBut [.nvm] s (State.modNvm s f) := by
  unfold State.modNvm
  refine same_lit s ?_ ?_
  exact same_refl ..
  intro p hp; cases p <;> first | exact absurd (by decide) hp | rfl

theorem State.storePattern_same (s : State) (r : Nat) (k : PatSave) : SameBut [.rails, .nvm] s (State.storePattern
    s r k) := by
  unfold State.storePattern
  extract_lets +onlyGivenNames t1; refine same_cut (y := t1) ?_ ?_; unfold t1; clear t1
  with_reducible refine same_mono (State.modNvm_same ..) (by decide)
  intro _; clear_value t1
  refine same_dite (fun _ => ?_) (fun _ => ?_)
  with_reducible refine same_step ?_ (State.modFf_same ..) (by decide)
  assumption
  assumption

theorem State.writeSave_same (s : State) (x : Deferred) : SameBut [.rails, .nvm] s (s.writeSave x) := by
  unfold State.writeSave; split
  · exact same_mono (State.modNvm_same ..) (by decide)
  · exact same_mono (State.modNvm_same ..) (by decide)
  · exact same_mono (State.modNvm_same ..) (by decide)
  · exact same_mono (State.modNvm_same ..) (by decide)
  · exact State.storePattern_same ..

theorem State.save_same (s : State) (d : Deferred) : SameBut [.objs, .rails, .twin, .recd, .nvm] s (State.save s d)
    := by
  unfold State.save
  with_reducible refine same_ite ?_ ?_
  with_reducible refine same_mono (State.writeSave_same ..) (by decide)
  extract_lets +onlyGivenNames y; clear_value y
  with_reducible refine same_ite ?_ ?_
  with_reducible refine same_mono (State.modNvm_same ..) (by decide)
  with_reducible exact State.record_same ..

theorem State.flushSaves_same (s : State) : SameBut [.rails, .nvm] s (State.flushSaves s) := by
  unfold State.flushSaves
  extract_lets +onlyGivenNames y; clear_value y
  with_reducible refine same_forEach ?_ fun _ _ => ?_
  with_reducible refine same_mono (State.modNvm_same ..) (by decide)
  with_reducible exact State.writeSave_same ..

theorem State.saveCounters_same (s : State) : SameBut [.objs, .rails, .twin, .recd, .nvm] s (State.saveCounters s)
    := by
  unfold State.saveCounters
  with_reducible exact State.save_same ..

theorem State.saveQacc_same (s : State) : SameBut [.objs, .rails, .twin, .recd, .nvm] s (State.saveQacc s) := by
  unfold State.saveQacc
  with_reducible exact State.save_same ..

theorem State.saveZeros_same (s : State) : SameBut [.objs, .rails, .twin, .recd, .nvm] s (State.saveZeros s) := by
  unfold State.saveZeros
  with_reducible exact State.save_same ..

theorem State.saveFuses_same (s : State) : SameBut [.objs, .rails, .twin, .recd, .nvm] s (State.saveFuses s) := by
  unfold State.saveFuses
  with_reducible exact State.save_same ..

/-! Phases -/

theorem State.dropCarry_same (s : State) (n : PhaseIx) : SameBut [.objs, .phases] s (State.dropCarry s n) := by
  unfold State.dropCarry
  with_reducible refine same_ite ?_ ?_
  exact same_refl ..
  with_reducible refine same_step ?_ (State.modGen_same ..) (by decide)
  with_reducible refine same_mono (State.count_same ..) (by decide)

theorem State.endPeriod_same (s : State) (n : PhaseIx) : SameBut [.phases] s (State.endPeriod s n) := by
  unfold State.endPeriod
  with_reducible exact State.modGen_same ..

theorem State.idlePeriod_same (s : State) (n : PhaseIx) : SameBut [.objs, .phases] s (State.idlePeriod s n) := by
  unfold State.idlePeriod
  with_reducible refine same_step ?_ (State.modGen_same ..) (by decide)
  with_reducible exact State.dropCarry_same ..

theorem State.pulsePeriod_same (s : State) (n : PhaseIx) (set : PhaseSet) (d p : Nat) : SameBut [.objs, .phases] s
    (State.pulsePeriod s n set d p) := by
  unfold State.pulsePeriod
  extract_lets +onlyGivenNames y; clear_value y
  extract_lets +onlyGivenNames y; clear_value y
  extract_lets +onlyGivenNames t1; refine same_cut (y := t1) ?_ ?_; unfold t1; clear t1
  with_reducible refine same_mono (State.countN_same ..) (by decide)
  intro _; clear_value t1
  extract_lets +onlyGivenNames t2; refine same_cut (y := t2) ?_ ?_; unfold t2; clear t2
  with_reducible refine same_step ?_ (State.countN_same ..) (by decide)
  assumption
  intro _; clear_value t2
  extract_lets +onlyGivenNames t3; refine same_cut (y := t3) ?_ ?_; unfold t3; clear t3
  with_reducible refine same_step ?_ (State.countN_same ..) (by decide)
  assumption
  intro _; clear_value t3
  with_reducible refine same_step ?_ (State.modGen_same ..) (by decide)
  assumption

theorem State.startCarrier_same (s : State) (n : PhaseIx) (r : RailIx) : SameBut [.phases, .rails] s
    (State.startCarrier s n r) := by
  unfold State.startCarrier
  extract_lets +onlyGivenNames y; clear_value y
  extract_lets +onlyGivenNames y; clear_value y
  extract_lets +onlyGivenNames y; clear_value y
  extract_lets +onlyGivenNames y; clear_value y
  extract_lets +onlyGivenNames y; clear_value y
  extract_lets +onlyGivenNames y; clear_value y
  extract_lets +onlyGivenNames y; clear_value y
  extract_lets +onlyGivenNames y; clear_value y
  extract_lets +onlyGivenNames t1; refine same_cut (y := t1) ?_ ?_; unfold t1; clear t1
  with_reducible refine same_mono (State.modGen_same ..) (by decide)
  intro _; clear_value t1
  with_reducible refine same_ite ?_ ?_
  with_reducible refine same_step ?_ (State.modRail_same ..) (by decide)
  assumption
  assumption

theorem State.applyForce_same (s : State) (n : PhaseIx) : SameBut [.phases] s (State.applyForce s n) := by
  unfold State.applyForce
  with_reducible exact State.modGen_same ..

theorem State.placeCarrier_same (s : State) (n : PhaseIx) (r : RailIx) : SameBut [.phases] s (State.placeCarrier s
    n r) := by
  unfold State.placeCarrier
  with_reducible refine same_ite ?_ ?_
  exact same_refl ..
  extract_lets +onlyGivenNames y; clear_value y
  extract_lets +onlyGivenNames y; clear_value y
  extract_lets +onlyGivenNames y; clear_value y
  extract_lets +onlyGivenNames y; clear_value y
  with_reducible exact State.modGen_same ..

theorem State.beginSkim_same (s : State) (n : PhaseIx) (r : RailIx) : SameBut [.rails] s (State.beginSkim s n r) := by
  unfold State.beginSkim
  with_reducible refine same_ite ?_ ?_
  with_reducible exact State.modPlc_same ..
  exact same_refl ..

theorem State.startPeriod_same (s : State) (n : PhaseIx) (r : RailIx) : SameBut [.objs, .phases, .rails] s
    (State.startPeriod s n r) := by
  unfold State.startPeriod
  extract_lets +onlyGivenNames t1; refine same_cut (y := t1) ?_ ?_; unfold t1; clear t1
  with_reducible refine same_mono (State.endPeriod_same ..) (by decide)
  intro _; clear_value t1
  extract_lets +onlyGivenNames y; clear_value y
  extract_lets +onlyGivenNames y; clear_value y
  extract_lets +onlyGivenNames t2; refine same_cut (y := t2) ?_ ?_; unfold t2; clear t2
  with_reducible refine same_step ?_ (State.beginSkim_same ..) (by decide)
  with_reducible refine same_step ?_ (State.startCarrier_same ..) (by decide)
  assumption
  intro _; clear_value t2
  extract_lets +onlyGivenNames y; clear_value y
  extract_lets +onlyGivenNames t3; refine same_cut (y := t3) ?_ ?_; unfold t3; clear t3
  with_reducible refine same_step ?_ (State.applyForce_same ..) (by decide)
  assumption
  intro _; clear_value t3
  extract_lets +onlyGivenNames y; clear_value y
  with_reducible refine same_ite ?_ ?_
  with_reducible refine same_step ?_ (State.pulsePeriod_same ..) (by decide)
  assumption
  with_reducible refine same_step ?_ (State.idlePeriod_same ..) (by decide)
  assumption

theorem State.midReload_same (s : State) (n : PhaseIx) : SameBut [.objs, .phases] s (State.midReload s n) := by
  unfold State.midReload
  extract_lets +onlyGivenNames y; clear_value y
  extract_lets +onlyGivenNames y; clear_value y
  extract_lets +onlyGivenNames y; clear_value y
  extract_lets +onlyGivenNames y; clear_value y
  extract_lets +onlyGivenNames y; clear_value y
  extract_lets +onlyGivenNames y; clear_value y
  extract_lets +onlyGivenNames t1; refine same_cut (y := t1) ?_ ?_; unfold t1; clear t1
  with_reducible refine same_mono (State.modGen_same ..) (by decide)
  intro _; clear_value t1
  split
  assumption
  with_reducible refine same_ite ?_ ?_
  assumption
  extract_lets +onlyGivenNames y; clear_value y
  with_reducible refine same_step ?_ (State.modGen_same ..) (by decide)
  with_reducible refine same_step ?_ (State.countN_same ..) (by decide)
  assumption

theorem State.tripAt_same (s : State) (n : PhaseIx) (pos : Nat) : SameBut [.objs, .phases] s (State.tripAt s n pos)
    := by
  unfold State.tripAt
  extract_lets +onlyGivenNames y; clear_value y
  split
  with_reducible refine same_ite ?_ ?_
  exact same_refl ..
  extract_lets +onlyGivenNames t1; refine same_cut (y := t1) ?_ ?_; unfold t1; clear t1
  with_reducible refine same_mono (State.count_same ..) (by decide)
  intro _; clear_value t1
  extract_lets +onlyGivenNames t2; refine same_cut (y := t2) ?_ ?_; unfold t2; clear t2
  with_reducible refine same_step ?_ (State.dropCarry_same ..) (by decide)
  assumption
  intro _; clear_value t2
  with_reducible refine same_step ?_ (State.modGen_same ..) (by decide)
  assumption
  exact same_refl ..

theorem State.tripInput_same (s : State) (n : PhaseIx) (tick : Nat) : SameBut [.objs, .phases] s (State.tripInput s
    n tick) := by
  unfold State.tripInput
  extract_lets +onlyGivenNames y; clear_value y
  with_reducible refine same_ite ?_ ?_
  exact same_refl ..
  with_reducible exact State.tripAt_same ..

theorem State.levelTrip_same (s : State) (n : PhaseIx) : SameBut [.objs, .phases] s (State.levelTrip s n) := by
  unfold State.levelTrip
  split
  exact same_refl ..
  with_reducible refine same_ite ?_ ?_
  with_reducible exact State.tripAt_same ..
  exact same_refl ..

theorem State.latchPhase_same (s : State) (n : PhaseIx) (r : RailIx) : SameBut [.objs, .phases, .rails, .twin,
    .recd, .nvm] s (State.latchPhase s n r) := by
  unfold State.latchPhase
  extract_lets +onlyGivenNames t1; refine same_cut (y := t1) ?_ ?_; unfold t1; clear t1
  with_reducible refine same_mono (State.dropCarry_same ..) (by decide)
  intro _; clear_value t1
  extract_lets +onlyGivenNames t2; refine same_cut (y := t2) ?_ ?_; unfold t2; clear t2
  with_reducible refine same_step ?_ (State.count_same ..) (by decide)
  assumption
  intro _; clear_value t2
  extract_lets +onlyGivenNames t3; refine same_cut (y := t3) ?_ ?_; unfold t3; clear t3
  with_reducible refine same_step ?_ (State.modGen_same ..) (by decide)
  assumption
  intro _; clear_value t3
  with_reducible refine same_step ?_ (State.record_same ..) (by decide)
  assumption

theorem State.alignCarriers_same (s : State) : SameBut [.rails] s (State.alignCarriers s) := by
  unfold State.alignCarriers
  with_reducible refine same_forEach ?_ fun _ _ => ?_
  exact same_refl ..
  with_reducible refine same_ite ?_ ?_
  exact same_refl ..
  with_reducible exact State.modRail_same ..

/-! Rails -/

theorem State.finish_same (s : State) (k : SlotIx) (status : Nat) (payload : List Byte) : SameBut [.mb] s
    (State.finish s k status payload) := by
  unfold State.finish
  with_reducible exact State.modSlot_same ..

theorem State.finishOpt_same (s : State) (k : Option SlotIx) (status : Nat) (payload : List Byte) : SameBut [.mb] s
    (State.finishOpt s k status payload) := by
  unfold State.finishOpt
  split
  with_reducible exact State.finish_same ..
  exact same_refl ..

theorem State.gatherSet_same (s : State) (k : SlotIx) (i code : Nat) (clamped : Bool) : SameBut [.mb] s
    (State.gatherSet s k i code clamped) := by
  unfold State.gatherSet
  extract_lets +onlyGivenNames y
  extract_lets +onlyGivenNames y; clear_value y
  extract_lets +onlyGivenNames y; clear_value y
  extract_lets +onlyGivenNames t1; refine same_cut (y := t1) ?_ ?_; unfold t1; clear t1
  refine same_lit s ?_ ?_
  exact same_refl ..
  intro p hp; cases p <;> first | exact absurd (by decide) hp | rfl
  intro _; clear_value t1
  split
  assumption
  with_reducible refine same_ite ?_ ?_
  extract_lets +onlyGivenNames y; clear_value y
  extract_lets +onlyGivenNames y; clear_value y
  extract_lets +onlyGivenNames t2; refine same_cut (y := t2) ?_ ?_; unfold t2; clear t2
  refine same_lit t1 ?_ ?_
  assumption
  intro p hp; cases p <;> first | exact absurd (by decide) hp | rfl
  intro _; clear_value t2
  with_reducible refine same_step ?_ (State.finish_same ..) (by decide)
  assumption
  assumption

theorem State.endWait_same (s : State) (r : RailIx) (code : Nat) : SameBut [.rails, .mb] s (State.endWait s r code)
    := by
  unfold State.endWait
  split
  exact same_refl ..
  extract_lets +onlyGivenNames t1; refine same_cut (y := t1) ?_ ?_; unfold t1; clear t1
  with_reducible refine same_mono (State.modProf_same ..) (by decide)
  intro _; clear_value t1
  with_reducible refine same_step ?_ (State.gatherSet_same ..) (by decide)
  assumption

theorem State.abortTune_same (s : State) (reason : Nat) : SameBut [.objs, .tune, .mb] s (State.abortTune s reason)
    := by
  unfold State.abortTune
  with_reducible refine same_ite ?_ ?_
  exact same_refl ..
  extract_lets +onlyGivenNames y; clear_value y
  extract_lets +onlyGivenNames t1; refine same_cut (y := t1) ?_ ?_; unfold t1; clear t1
  with_reducible refine same_mono (State.count_same ..) (by decide)
  intro _; clear_value t1
  extract_lets +onlyGivenNames y; clear_value y
  extract_lets +onlyGivenNames y; clear_value y
  extract_lets +onlyGivenNames t2; refine same_cut (y := t2) ?_ ?_; unfold t2; clear t2
  refine same_lit t1 ?_ ?_
  assumption
  intro p hp; cases p <;> first | exact absurd (by decide) hp | rfl
  intro _; clear_value t2
  with_reducible refine same_step ?_ (State.finishOpt_same ..) (by decide)
  assumption

theorem State.abortTuneOn_same (s : State) (r : RailIx) (reason : Nat) : SameBut [.objs, .tune, .mb] s
    (State.abortTuneOn s r reason) := by
  unfold State.abortTuneOn
  with_reducible refine same_ite ?_ ?_
  with_reducible exact State.abortTune_same ..
  exact same_refl ..

theorem State.abortSkim_same (s : State) (r : RailIx) : SameBut [.objs, .rails] s (State.abortSkim s r) := by
  unfold State.abortSkim
  split
  exact same_refl ..
  with_reducible refine same_step ?_ (State.modPlc_same ..) (by decide)
  with_reducible refine same_mono (State.count_same ..) (by decide)

theorem State.abortPassive_same (s : State) (r : RailIx) : SameBut [.objs, .rails] s (State.abortPassive s r) := by
  unfold State.abortPassive
  split
  exact same_refl ..
  with_reducible refine same_step ?_ (State.modPlc_same ..) (by decide)
  with_reducible refine same_mono (State.count_same ..) (by decide)

theorem State.strokeMismatch_same (s : State) (r : RailIx) : SameBut [.rails] s (State.strokeMismatch s r) := by
  unfold State.strokeMismatch
  with_reducible refine same_ite ?_ ?_
  exact same_refl ..
  with_reducible exact State.modFf_same ..

theorem State.preload_same (s : State) (r : RailIx) (d e eI eP eT : Rat) : SameBut [.rails] s (State.preload s r d
    e eI eP eT) := by
  unfold State.preload
  extract_lets +onlyGivenNames y; clear_value y
  with_reducible exact State.modLaw_same ..

theorem State.takeTarget_same (s : State) (r : RailIx) (mv slew tag port : Nat) : SameBut [.rails, .mb] s
    (State.takeTarget s r mv slew tag port) := by
  unfold State.takeTarget
  extract_lets +onlyGivenNames t1; refine same_cut (y := t1) ?_ ?_; unfold t1; clear t1
  with_reducible exact State.endWait_same ..
  intro _; clear_value t1
  extract_lets +onlyGivenNames y; clear_value y
  with_reducible refine same_step ?_ (State.modProf_same ..) (by decide)
  assumption

theorem State.startLaw_same (s : State) (r : RailIx) : SameBut [.phases, .rails] s (State.startLaw s r) := by
  unfold State.startLaw
  extract_lets +onlyGivenNames y; clear_value y
  extract_lets +onlyGivenNames y; clear_value y
  extract_lets +onlyGivenNames y; clear_value y
  extract_lets +onlyGivenNames y; clear_value y
  extract_lets +onlyGivenNames y; clear_value y
  extract_lets +onlyGivenNames y; clear_value y
  extract_lets +onlyGivenNames t1; refine same_cut (y := t1) ?_ ?_; unfold t1; clear t1
  with_reducible refine same_mono (State.modLaw_same ..) (by decide)
  intro _; clear_value t1
  extract_lets +onlyGivenNames t2; refine same_cut (y := t2) ?_ ?_; unfold t2; clear t2
  with_reducible refine same_step ?_ (State.modMeas_same ..) (by decide)
  assumption
  intro _; clear_value t2
  extract_lets +onlyGivenNames t3; refine same_cut (y := t3) ?_ ?_; unfold t3; clear t3
  with_reducible refine same_step ?_ (State.preload_same ..) (by decide)
  assumption
  intro _; clear_value t3
  extract_lets +onlyGivenNames t4; refine same_cut (y := t4) ?_ ?_; unfold t4; clear t4
  with_reducible refine same_step ?_ (State.modProf_same ..) (by decide)
  assumption
  intro _; clear_value t4
  extract_lets +onlyGivenNames t5; refine same_cut (y := t5) ?_ ?_; unfold t5; clear t5
  with_reducible refine same_step ?_ (State.modFf_same ..) (by decide)
  assumption
  intro _; clear_value t5
  extract_lets +onlyGivenNames t6; refine same_cut (y := t6) ?_ ?_; unfold t6; clear t6
  with_reducible refine same_step ?_ (State.modPlc_same ..) (by decide)
  assumption
  intro _; clear_value t6
  extract_lets +onlyGivenNames t7; refine same_cut (y := t7) ?_ ?_; unfold t7; clear t7
  with_reducible refine same_step ?_ (State.modProt_same ..) (by decide)
  assumption
  intro _; clear_value t7
  with_reducible refine same_forEach ?_ fun _ _ => ?_
  assumption
  with_reducible refine same_step ?_ (State.modGen_same ..) (by decide)
  with_reducible refine same_mono (State.modSense_same ..) (by decide)

theorem State.fuseStart_same (s : State) (r : RailIx) : SameBut [.rails] s (State.fuseStart s r) := by
  unfold State.fuseStart
  extract_lets +onlyGivenNames y; clear_value y
  with_reducible refine same_ite ?_ ?_
  with_reducible exact State.modFuse_same ..
  exact same_refl ..

theorem State.fuseOff_same (s : State) (r : RailIx) : SameBut [.rails] s (State.fuseOff s r) := by
  unfold State.fuseOff
  with_reducible refine same_ite ?_ ?_
  with_reducible exact State.modFuse_same ..
  exact same_refl ..

theorem State.leaveRegulation_same (s : State) (r : RailIx) (byCrowbar : Bool) : SameBut [.objs, .phases, .rails,
    .tune, .mb] s (State.leaveRegulation s r byCrowbar) := by
  unfold State.leaveRegulation
  extract_lets +onlyGivenNames t1; refine same_cut (y := t1) ?_ ?_; unfold t1; clear t1
  with_reducible refine same_mono (State.endWait_same ..) (by decide)
  intro _; clear_value t1
  extract_lets +onlyGivenNames t2; refine same_cut (y := t2) ?_ ?_; unfold t2; clear t2
  with_reducible refine same_step ?_ (State.modFf_same ..) (by decide)
  with_reducible refine same_step ?_ (State.strokeMismatch_same ..) (by decide)
  assumption
  intro _; clear_value t2
  extract_lets +onlyGivenNames t3; refine same_cut (y := t3) ?_ ?_; unfold t3; clear t3
  with_reducible refine same_step ?_ (State.abortPassive_same ..) (by decide)
  with_reducible refine same_step ?_ (State.abortSkim_same ..) (by decide)
  assumption
  intro _; clear_value t3
  extract_lets +onlyGivenNames t4; refine same_cut (y := t4) ?_ ?_; unfold t4; clear t4
  with_reducible refine same_step ?_ (State.abortTuneOn_same ..) (by decide)
  assumption
  intro _; clear_value t4
  extract_lets +onlyGivenNames t5; refine same_cut (y := t5) ?_ ?_; unfold t5; clear t5
  with_reducible refine same_forEach ?_ fun _ _ => ?_
  assumption
  with_reducible refine same_step ?_ (State.modPhase_same ..) (by decide)
  with_reducible refine same_mono (State.dropCarry_same ..) (by decide)
  intro _; clear_value t5
  extract_lets +onlyGivenNames t6; refine same_cut (y := t6) ?_ ?_; unfold t6; clear t6
  with_reducible refine same_step ?_ (State.modRail_same ..) (by decide)
  assumption
  intro _; clear_value t6
  with_reducible refine same_ite ?_ ?_
  assumption
  with_reducible refine same_step ?_ (State.fuseOff_same ..) (by decide)
  assumption

theorem State.setDom_same (s : State) (d : DomainIx) (st : DomSt) : SameBut [.domains, .mb] s (State.setDom s d st)
    := by
  unfold State.setDom
  with_reducible refine same_ite ?_ ?_
  exact same_refl ..
  with_reducible refine same_step ?_ (State.irq_same ..) (by decide)
  with_reducible refine same_mono (State.modDomain_same ..) (by decide)

theorem State.settleDev_same (s : State) : SameBut [.dev] s (State.settleDev s) := by
  unfold State.settleDev
  with_reducible refine same_ite ?_ ?_
  extract_lets +onlyGivenNames y; clear_value y
  refine same_lit s ?_ ?_
  exact same_refl ..
  intro p hp; cases p <;> first | exact absurd (by decide) hp | rfl
  exact same_refl ..

theorem State.schedUp_same (s : State) (d : DomainIx) (r : RailIx) : SameBut [.rails, .domains] s (State.schedUp s
    d r) := by
  unfold State.schedUp
  extract_lets +onlyGivenNames t1; refine same_cut (y := t1) ?_ ?_; unfold t1; clear t1
  with_reducible refine same_mono (State.modRail_same ..) (by decide)
  intro _; clear_value t1
  with_reducible refine same_step ?_ (State.modDomain_same ..) (by decide)
  assumption

theorem State.enterUp_same (s : State) (d : DomainIx) (freshRetries : Bool) : SameBut [.objs, .rails, .domains,
    .mb, .dev] s (State.enterUp s d freshRetries) := by
  unfold State.enterUp
  extract_lets +onlyGivenNames t1; refine same_cut (y := t1) ?_ ?_; unfold t1; clear t1
  with_reducible refine same_mono (State.count_same ..) (by decide)
  intro _; clear_value t1
  extract_lets +onlyGivenNames t2; refine same_cut (y := t2) ?_ ?_; unfold t2; clear t2
  with_reducible refine same_step ?_ (State.modDomain_same ..) (by decide)
  with_reducible refine same_step ?_ (State.setDom_same ..) (by decide)
  assumption
  intro _; clear_value t2
  extract_lets +onlyGivenNames t3; refine same_cut (y := t3) ?_ ?_; unfold t3; clear t3
  split
  with_reducible refine same_step ?_ (State.schedUp_same ..) (by decide)
  assumption
  assumption
  intro _; clear_value t3
  with_reducible refine same_step ?_ (State.settleDev_same ..) (by decide)
  assumption

theorem State.downEnd_same (s : State) (d : DomainIx) : SameBut [.objs, .rails, .domains, .twin, .recd, .mb, .nvm,
    .dev] s (State.downEnd s d) := by
  unfold State.downEnd
  extract_lets +onlyGivenNames y; clear_value y
  extract_lets +onlyGivenNames t1; refine same_cut (y := t1) ?_ ?_; unfold t1; clear t1
  with_reducible refine same_mono (State.modDomain_same ..) (by decide)
  intro _; clear_value t1
  extract_lets +onlyGivenNames t2; refine same_cut (y := t2) ?_ ?_; unfold t2; clear t2
  refine same_dite (fun _ => ?_) (fun _ => ?_)
  with_reducible refine same_ite ?_ ?_
  with_reducible refine same_step ?_ (State.modProt_same ..) (by decide)
  assumption
  assumption
  assumption
  intro _; clear_value t2
  extract_lets +onlyGivenNames t3; refine same_cut (y := t3) ?_ ?_; unfold t3; clear t3
  with_reducible refine same_step ?_ (State.count_same ..) (by decide)
  assumption
  intro _; clear_value t3
  extract_lets +onlyGivenNames t4; refine same_cut (y := t4) ?_ ?_; unfold t4; clear t4
  with_reducible refine same_step ?_ (State.modDomain_same ..) (by decide)
  with_reducible refine same_step ?_ (State.setDom_same ..) (by decide)
  assumption
  intro _; clear_value t4
  extract_lets +onlyGivenNames t5; refine same_cut (y := t5) ?_ ?_; unfold t5; clear t5
  with_reducible refine same_step ?_ (State.count_same ..) (by decide)
  assumption
  intro _; clear_value t5
  extract_lets +onlyGivenNames t6; refine same_cut (y := t6) ?_ ?_; unfold t6; clear t6
  with_reducible refine same_step ?_ (State.modDomain_same ..) (by decide)
  with_reducible refine same_step ?_ (State.setDom_same ..) (by decide)
  assumption
  intro _; clear_value t6
  extract_lets +onlyGivenNames t7; refine same_cut (y := t7) ?_ ?_; unfold t7; clear t7
  with_reducible refine same_ite ?_ ?_
  with_reducible refine same_step ?_ (State.record_same ..) (by decide)
  assumption
  with_reducible refine same_ite ?_ ?_
  with_reducible refine same_step ?_ (State.record_same ..) (by decide)
  assumption
  with_reducible refine same_ite ?_ ?_
  with_reducible refine same_step ?_ (State.enterUp_same ..) (by decide)
  assumption
  with_reducible refine same_step ?_ (State.record_same ..) (by decide)
  with_reducible refine same_step ?_ (State.setDom_same ..) (by decide)
  assumption
  intro _; clear_value t7
  with_reducible refine same_step ?_ (State.refreshFlt_same ..) (by decide)
  with_reducible refine same_step ?_ (State.settleDev_same ..) (by decide)
  assumption

theorem State.nextDown_same (s : State) (d : DomainIx) : SameBut [.objs, .rails, .domains, .twin, .recd, .mb, .nvm,
    .dev] s (State.nextDown s d) := by
  unfold State.nextDown
  split
  with_reducible exact State.downEnd_same ..
  extract_lets +onlyGivenNames t1; refine same_cut (y := t1) ?_ ?_; unfold t1; clear t1
  with_reducible refine same_mono (State.modRail_same ..) (by decide)
  intro _; clear_value t1
  with_reducible refine same_step ?_ (State.modDomain_same ..) (by decide)
  assumption

theorem State.enterDown_same (s : State) (d : DomainIx) : SameBut [.objs, .rails, .domains, .twin, .recd, .mb,
    .nvm, .dev] s (State.enterDown s d) := by
  unfold State.enterDown
  extract_lets +onlyGivenNames t1; refine same_cut (y := t1) ?_ ?_; unfold t1; clear t1
  with_reducible refine same_forEach ?_ fun _ _ => ?_
  exact same_refl ..
  with_reducible refine same_mono (State.modRail_same ..) (by decide)
  intro _; clear_value t1
  with_reducible refine same_step ?_ (State.nextDown_same ..) (by decide)
  with_reducible refine same_step ?_ (State.setDom_same ..) (by decide)
  assumption

theorem State.railWentOff_same (s : State) (r : RailIx) : SameBut [.objs, .rails, .domains, .twin, .recd, .mb,
    .nvm, .dev] s (State.railWentOff s r) := by
  unfold State.railWentOff
  split
  exact same_refl ..
  with_reducible refine same_ite ?_ ?_
  with_reducible refine same_ite ?_ ?_
  exact same_refl ..
  with_reducible exact State.nextDown_same ..
  exact same_refl ..

theorem State.reportLatch_same (s : State) (r : RailIx) (cause : Latch) (was : Bool) : SameBut [.objs, .rails,
    .domains, .twin, .recd, .mb, .nvm, .dev] s (State.reportLatch s r cause was) := by
  unfold State.reportLatch
  split
  exact same_refl ..
  extract_lets +onlyGivenNames y; clear_value y
  extract_lets +onlyGivenNames y; clear_value y
  extract_lets +onlyGivenNames y
  split
  with_reducible refine same_step ?_ (State.enterDown_same ..) (by decide)
  unfold y
  with_reducible refine same_mono (State.modDomain_same ..) (by decide)
  with_reducible refine same_ite ?_ ?_
  exact same_refl ..
  with_reducible refine same_step ?_ (State.enterDown_same ..) (by decide)
  unfold y
  with_reducible refine same_mono (State.modDomain_same ..) (by decide)
  with_reducible refine same_ite ?_ ?_
  exact same_refl ..
  with_reducible refine same_ite ?_ ?_
  with_reducible exact State.railWentOff_same ..
  with_reducible refine same_step ?_ (State.railWentOff_same ..) (by decide)
  unfold y
  with_reducible refine same_mono (State.modDomain_same ..) (by decide)
  exact same_refl ..

theorem State.uvFaultReport_same (s : State) (r : RailIx) : SameBut [.objs, .rails, .tune, .twin, .recd, .mb, .nvm]
    s (State.uvFaultReport s r) := by
  unfold State.uvFaultReport
  extract_lets +onlyGivenNames t1; refine same_cut (y := t1) ?_ ?_; unfold t1; clear t1
  with_reducible refine same_step ?_ (State.modProt_same ..) (by decide)
  with_reducible refine same_mono (State.abortTuneOn_same ..) (by decide)
  intro _; clear_value t1
  with_reducible refine same_step ?_ (State.record_same ..) (by decide)
  with_reducible refine same_step ?_ (State.count_same ..) (by decide)
  assumption

theorem State.hicRecord_same (s : State) (r : RailIx) (causes run : Nat) : SameBut [.objs, .rails, .twin, .recd,
    .nvm] s (State.hicRecord s r causes run) := by
  unfold State.hicRecord
  with_reducible exact State.record_same ..

theorem State.clearHic_same (s : State) (r : RailIx) : SameBut [.rails] s (State.clearHic s r) := by
  unfold State.clearHic
  with_reducible exact State.modProt_same ..

theorem State.recordLower_same (s : State) (r : RailIx) : SameBut [.objs, .rails, .tune, .twin, .recd, .mb, .nvm] s
    (State.recordLower s r) := by
  unfold State.recordLower
  with_reducible refine same_ite ?_ ?_
  exact same_refl ..
  extract_lets +onlyGivenNames y; clear_value y
  extract_lets +onlyGivenNames t1; refine same_cut (y := t1) ?_ ?_; unfold t1; clear t1
  with_reducible refine same_ite ?_ ?_
  with_reducible exact State.uvFaultReport_same ..
  exact same_refl ..
  intro _; clear_value t1
  with_reducible refine same_step ?_ (State.clearHic_same ..) (by decide)
  with_reducible refine same_ite ?_ ?_
  assumption
  with_reducible refine same_step ?_ (State.hicRecord_same ..) (by decide)
  assumption

theorem State.afterLatch_same (s : State) (r : RailIx) (cause : Latch) :
    SameBut [.objs, .phases, .rails, .domains, .tune, .twin, .recd, .mb, .nvm, .dev] s
      (State.afterLatch s r cause) := by
  unfold State.afterLatch
  extract_lets +onlyGivenNames t1; refine same_cut (y := t1) ?_ ?_; unfold t1; clear t1
  with_reducible refine same_mono (State.recordLower_same ..) (by decide)
  intro _; clear_value t1
  extract_lets +onlyGivenNames y; clear_value y
  extract_lets +onlyGivenNames t2; refine same_cut (y := t2) ?_ ?_; unfold t2; clear t2
  with_reducible refine same_ite ?_ ?_
  with_reducible refine same_step ?_ (State.leaveRegulation_same ..) (by decide)
  assumption
  assumption
  intro _; clear_value t2
  with_reducible refine same_step ?_ (State.refreshFlt_same ..) (by decide)
  with_reducible refine same_step ?_ (State.reportLatch_same ..) (by decide)
  assumption

theorem State.latchRail_same (s : State) (r : RailIx) (cause : Latch) (code cls inst sub : Nat) (data : List Byte)
    : SameBut [.objs, .phases, .rails, .domains, .tune, .twin, .recd, .mb, .nvm, .dev] s (State.latchRail s r cause
      code cls inst sub data) := by
  unfold State.latchRail
  with_reducible refine same_ite ?_ ?_
  with_reducible refine same_mono (State.record_same ..) (by decide)
  extract_lets +onlyGivenNames t1; refine same_cut (y := t1) ?_ ?_; unfold t1; clear t1
  with_reducible refine same_mono (State.modProt_same ..) (by decide)
  intro _; clear_value t1
  with_reducible refine same_step ?_ (State.afterLatch_same ..) (by decide)
  with_reducible refine same_step ?_ (State.recordSnap_same ..) (by decide)
  assumption

theorem State.latchRails_same (s : State) (rs : List RailIx) (cause : Latch) (code cls inst sub : Nat)
    (data : List Byte) : SameBut [.objs, .phases, .rails, .domains, .tune, .twin, .recd, .mb, .nvm, .dev] s
      (State.latchRails s rs cause code cls inst sub data) := by
  unfold State.latchRails
  extract_lets +onlyGivenNames y; clear_value y
  extract_lets +onlyGivenNames t1; refine same_cut (y := t1) ?_ ?_; unfold t1; clear t1
  with_reducible refine same_forEach (same_refl ..) fun _ _ => ?_
  with_reducible refine same_mono (State.modProt_same ..) (by decide)
  intro _; clear_value t1
  extract_lets +onlyGivenNames t2; refine same_cut (y := t2) ?_ ?_; unfold t2; clear t2
  with_reducible refine same_step ?_ (State.event_same ..) (by decide)
  assumption
  intro _; clear_value t2
  with_reducible refine same_forEach ?_ fun _ _ => State.afterLatch_same ..
  assumption

theorem State.crowbar_same (s : State) (r : RailIx) (sub cmp : Nat) : SameBut [.objs, .phases, .rails, .domains,
    .tune, .twin, .recd, .mb, .nvm, .dev] s (State.crowbar s r sub cmp) := by
  unfold State.crowbar
  extract_lets +onlyGivenNames y; clear_value y
  with_reducible refine same_ite ?_ ?_
  with_reducible refine same_mono (State.record_same ..) (by decide)
  extract_lets +onlyGivenNames y; clear_value y
  extract_lets +onlyGivenNames t1; refine same_cut (y := t1) ?_ ?_; unfold t1; clear t1
  with_reducible refine same_mono (State.count_same ..) (by decide)
  intro _; clear_value t1
  extract_lets +onlyGivenNames t2; refine same_cut (y := t2) ?_ ?_; unfold t2; clear t2
  with_reducible refine same_step ?_ (State.modProt_same ..) (by decide)
  assumption
  intro _; clear_value t2
  extract_lets +onlyGivenNames t3; refine same_cut (y := t3) ?_ ?_; unfold t3; clear t3
  with_reducible refine same_step ?_ (State.recordLower_same ..) (by decide)
  with_reducible refine same_step ?_ (State.recordSnap_same ..) (by decide)
  assumption
  intro _; clear_value t3
  extract_lets +onlyGivenNames t4; refine same_cut (y := t4) ?_ ?_; unfold t4; clear t4
  with_reducible refine same_forEach ?_ fun _ _ => ?_
  assumption
  with_reducible refine same_step ?_ (State.modGen_same ..) (by decide)
  with_reducible refine same_mono (State.dropCarry_same ..) (by decide)
  intro _; clear_value t4
  extract_lets +onlyGivenNames y; clear_value y
  extract_lets +onlyGivenNames t5; refine same_cut (y := t5) ?_ ?_; unfold t5; clear t5
  with_reducible refine same_ite ?_ ?_
  with_reducible refine same_step ?_ (State.leaveRegulation_same ..) (by decide)
  assumption
  assumption
  intro _; clear_value t5
  with_reducible refine same_step ?_ (State.refreshFlt_same ..) (by decide)
  with_reducible refine same_step ?_ (State.reportLatch_same ..) (by decide)
  assumption

theorem State.endCrowbar_same (s : State) (r : RailIx) : SameBut [.phases, .rails] s (State.endCrowbar s r) := by
  unfold State.endCrowbar
  with_reducible refine same_ite ?_ ?_
  exact same_refl ..
  extract_lets +onlyGivenNames t1; refine same_cut (y := t1) ?_ ?_; unfold t1; clear t1
  with_reducible refine same_mono (State.modProt_same ..) (by decide)
  intro _; clear_value t1
  extract_lets +onlyGivenNames t2; refine same_cut (y := t2) ?_ ?_; unfold t2; clear t2
  with_reducible refine same_forEach ?_ fun _ _ => ?_
  assumption
  with_reducible refine same_mono (State.modGen_same ..) (by decide)
  intro _; clear_value t2
  with_reducible refine same_step ?_ (State.fuseOff_same ..) (by decide)
  assumption

theorem State.disablePhases_same (s : State) (r : RailIx) : SameBut [.objs, .phases, .rails] s (State.disablePhases
    s r) := by
  unfold State.disablePhases
  extract_lets +onlyGivenNames t1; refine same_cut (y := t1) ?_ ?_; unfold t1; clear t1
  with_reducible refine same_step ?_ (State.abortPassive_same ..) (by decide)
  with_reducible refine same_mono (State.abortSkim_same ..) (by decide)
  intro _; clear_value t1
  with_reducible refine same_forEach ?_ fun _ _ => ?_
  assumption
  with_reducible refine same_step ?_ (State.modGen_same ..) (by decide)
  with_reducible refine same_mono (State.dropCarry_same ..) (by decide)

theorem State.hiccupRail_same (s : State) (r : RailIx) : SameBut [.objs, .phases, .rails, .domains, .tune, .twin,
    .recd, .mb, .nvm, .dev] s (State.hiccupRail s r) := by
  unfold State.hiccupRail
  extract_lets +onlyGivenNames y; clear_value y
  with_reducible refine same_ite ?_ ?_
  with_reducible refine same_mono (State.clearHic_same ..) (by decide)
  extract_lets +onlyGivenNames y; clear_value y
  extract_lets +onlyGivenNames t1; refine same_cut (y := t1) ?_ ?_; unfold t1; clear t1
  with_reducible refine same_ite ?_ ?_
  with_reducible refine same_mono (State.uvFaultReport_same ..) (by decide)
  exact same_refl ..
  intro _; clear_value t1
  extract_lets +onlyGivenNames t2; refine same_cut (y := t2) ?_ ?_; unfold t2; clear t2
  with_reducible refine same_step ?_ (State.clearHic_same ..) (by decide)
  assumption
  intro _; clear_value t2
  with_reducible refine same_ite ?_ ?_
  with_reducible refine same_step ?_ (State.latchRail_same ..) (by decide)
  assumption
  extract_lets +onlyGivenNames t3; refine same_cut (y := t3) ?_ ?_; unfold t3; clear t3
  with_reducible refine same_step ?_ (State.count_same ..) (by decide)
  assumption
  intro _; clear_value t3
  extract_lets +onlyGivenNames t4; refine same_cut (y := t4) ?_ ?_; unfold t4; clear t4
  with_reducible refine same_step ?_ (State.modProt_same ..) (by decide)
  assumption
  intro _; clear_value t4
  extract_lets +onlyGivenNames t5; refine same_cut (y := t5) ?_ ?_; unfold t5; clear t5
  with_reducible refine same_step ?_ (State.hicRecord_same ..) (by decide)
  assumption
  intro _; clear_value t5
  with_reducible refine same_step ?_ (State.modSeq_same ..) (by decide)
  with_reducible refine same_step ?_ (State.disablePhases_same ..) (by decide)
  assumption

end Sys2Proof.Machine
end

