-- ==== Sys2Proof/Laws/SameLoop.lean ====
section
/-! SUPPORT. The areas of State that sensing, the law, the profile, the learnt pattern and the tuning session change; all others stand
(see Laws/Same.lean). Each proof walks its function's body in order. -/

namespace Sys2Proof.Machine

/-! Sensing -/

theorem State.assignSlots_same (s : State) : SameBut [.objs, .phases] s (State.assignSlots s) := by
  unfold State.assignSlots
  with_reducible refine same_forEach ?_ fun _ _ => ?_
  exact same_refl ..
  with_reducible refine same_forEach ?_ fun _ _ => ?_
  exact same_refl ..
  with_reducible refine same_step ?_ (State.modSense_same ..) (by decide)
  with_reducible refine same_mono (State.countIf_same ..) (by decide)

theorem State.sensePhase_same (s : State) (code : Int) (n : PhaseIx) : SameBut [.phases] s (State.sensePhase s code
    n) := by
  unfold State.sensePhase
  split
  exact same_refl ..
  extract_lets +onlyGivenNames y; clear_value y
  extract_lets +onlyGivenNames y; clear_value y
  extract_lets +onlyGivenNames y; clear_value y
  extract_lets +onlyGivenNames y; clear_value y
  extract_lets +onlyGivenNames y; clear_value y
  with_reducible exact State.modSense_same ..

theorem State.sense_same (s : State) (convs : List Int) : SameBut [.phases] s (State.sense s convs) := by
  unfold State.sense
  with_reducible refine same_forEach ?_ fun _ _ => ?_
  exact same_refl ..
  with_reducible exact State.sensePhase_same ..

theorem State.balance_same (s : State) (r : RailIx) : SameBut [.phases] s (State.balance s r) := by
  unfold State.balance
  extract_lets +onlyGivenNames y; clear_value y
  extract_lets +onlyGivenNames y; clear_value y
  extract_lets +onlyGivenNames y; clear_value y
  extract_lets +onlyGivenNames y; clear_value y
  extract_lets +onlyGivenNames y; clear_value y
  extract_lets +onlyGivenNames y; clear_value y
  with_reducible refine same_forEach ?_ fun _ _ => ?_
  exact same_refl ..
  extract_lets +onlyGivenNames y; clear_value y
  extract_lets +onlyGivenNames y; clear_value y
  extract_lets +onlyGivenNames y; clear_value y
  extract_lets +onlyGivenNames y; clear_value y
  with_reducible exact State.modSense_same ..

theorem State.charge_same (s : State) (r : RailIx) : SameBut [.phases] s (State.charge s r) := by
  unfold State.charge
  with_reducible refine same_forEach ?_ fun _ _ => ?_
  exact same_refl ..
  with_reducible exact State.modSense_same ..

theorem State.joinPhase_same (s : State) (r : RailIx) (n : PhaseIx) : SameBut [.objs, .phases, .rails] s
    (State.joinPhase s r n) := by
  unfold State.joinPhase
  extract_lets +onlyGivenNames t1; refine same_cut (y := t1) ?_ ?_; unfold t1; clear t1
  split
  with_reducible refine same_ite ?_ ?_
  with_reducible refine same_mono (State.abortPassive_same ..) (by decide)
  exact same_refl ..
  exact same_refl ..
  intro _; clear_value t1
  with_reducible refine same_step ?_ (State.modSense_same ..) (by decide)
  assumption

theorem State.joinAll_same (s : State) (r : RailIx) : SameBut [.objs, .phases, .rails] s (State.joinAll s r) := by
  unfold State.joinAll
  with_reducible refine same_forEach ?_ fun _ _ => ?_
  with_reducible refine same_mono (State.modPlc_same ..) (by decide)
  with_reducible exact State.joinPhase_same ..

theorem State.placeAdd_same (s : State) (r : RailIx) : SameBut [.objs, .phases, .rails] s (State.placeAdd s r) := by
  unfold State.placeAdd
  extract_lets +onlyGivenNames y
  with_reducible refine same_ite ?_ ?_
  unfold y
  with_reducible refine same_step ?_ (State.modPlc_same ..) (by decide)
  with_reducible refine same_step ?_ (State.count_same ..) (by decide)
  with_reducible refine same_mono (State.abortSkim_same ..) (by decide)
  split
  exact same_refl ..
  unfold y
  with_reducible refine same_step ?_ (State.modPlc_same ..) (by decide)
  with_reducible refine same_step ?_ (State.count_same ..) (by decide)
  with_reducible exact State.joinPhase_same ..

theorem State.placeShed_same (s : State) (r : RailIx) : SameBut [.objs, .phases, .rails] s (State.placeShed s r) := by
  unfold State.placeShed
  split
  exact same_refl ..
  extract_lets +onlyGivenNames t1; refine same_cut (y := t1) ?_ ?_; unfold t1; clear t1
  with_reducible refine same_mono (State.modSense_same ..) (by decide)
  intro _; clear_value t1
  with_reducible refine same_step ?_ (State.modPlc_same ..) (by decide)
  with_reducible refine same_step ?_ (State.count_same ..) (by decide)
  assumption

theorem State.scaleFrame_same (s : State) (r : RailIx) : SameBut [.rails] s (State.scaleFrame s r) := State.modPlc_same ..

theorem State.placement_same (s : State) (r : RailIx) : SameBut [.objs, .phases, .rails] s (State.placement s r) := by
  unfold State.placement
  extract_lets +onlyGivenNames t1; refine same_cut (y := t1) ?_ ?_; unfold t1; clear t1
  with_reducible refine same_mono (State.modPlc_same ..) (by decide)
  intro _; clear_value t1
  with_reducible refine same_ite ?_ ?_
  assumption
  with_reducible refine same_ite ?_ ?_
  with_reducible refine same_forEach ?_ fun _ _ => ?_
  assumption
  with_reducible exact State.joinPhase_same ..
  with_reducible refine same_ite ?_ ?_
  with_reducible refine same_step ?_ (State.placeAdd_same ..) (by decide)
  assumption
  with_reducible refine same_ite ?_ ?_
  assumption
  with_reducible refine same_ite ?_ ?_
  with_reducible refine same_step ?_ (State.placeShed_same ..) (by decide)
  assumption
  assumption

theorem State.skimFrames_same (s : State) (r : RailIx) : SameBut [.rails] s (State.skimFrames s r) := by
  unfold State.skimFrames
  extract_lets +onlyGivenNames y; clear_value y
  with_reducible exact State.modPlc_same ..

theorem State.gcalFrame_same (s : State) (r : RailIx) : SameBut [.rails] s (State.gcalFrame s r) := by
  unfold State.gcalFrame
  extract_lets +onlyGivenNames y; clear_value y
  extract_lets +onlyGivenNames y; clear_value y
  extract_lets +onlyGivenNames y; clear_value y
  extract_lets +onlyGivenNames y; clear_value y
  with_reducible exact State.modPlc_same ..

/-! Law -/

theorem State.preloadNow_same (s : State) (r : RailIx) : SameBut [.rails] s (State.preloadNow s r) := by
  unfold State.preloadNow
  extract_lets +onlyGivenNames y; clear_value y
  with_reducible exact State.preload_same ..

theorem State.slamReturn_same (s : State) (r : RailIx) : SameBut [.rails] s (State.slamReturn s r) := by
  unfold State.slamReturn
  with_reducible exact State.modPlc_same ..

theorem State.endPark_same (s : State) (r : RailIx) : SameBut [.phases] s (State.endPark s r) := by
  unfold State.endPark
  with_reducible refine same_forEach ?_ fun _ _ => ?_
  exact same_refl ..
  with_reducible exact State.modGen_same ..

theorem State.regimeFrame_same (s : State) (r : RailIx) : SameBut [.objs, .phases, .rails, .tune, .mb] s
    (State.regimeFrame s r) := by
  unfold State.regimeFrame
  extract_lets +onlyGivenNames y; clear_value y
  extract_lets +onlyGivenNames y
  extract_lets +onlyGivenNames y; clear_value y
  extract_lets +onlyGivenNames t1; refine same_cut (y := t1) ?_ ?_; unfold t1; clear t1
  with_reducible refine same_mono (State.modLaw_same ..) (by decide)
  intro _; clear_value t1
  extract_lets +onlyGivenNames t2; refine same_cut (y := t2) ?_ ?_; unfold t2; clear t2
  with_reducible refine same_step ?_ (State.countIf_same ..) (by decide)
  assumption
  intro _; clear_value t2
  extract_lets +onlyGivenNames t3; refine same_cut (y := t3) ?_ ?_; unfold t3; clear t3
  with_reducible refine same_ite ?_ ?_
  with_reducible refine same_step ?_ (State.abortTuneOn_same ..) (by decide)
  with_reducible refine same_step ?_ (State.abortSkim_same ..) (by decide)
  assumption
  assumption
  intro _; clear_value t3
  extract_lets +onlyGivenNames t4; refine same_cut (y := t4) ?_ ?_; unfold t4; clear t4
  with_reducible refine same_ite ?_ ?_
  with_reducible refine same_step ?_ (State.endPark_same ..) (by decide)
  assumption
  assumption
  intro _; clear_value t4
  extract_lets +onlyGivenNames t5; refine same_cut (y := t5) ?_ ?_; unfold t5; clear t5
  with_reducible refine same_ite ?_ ?_
  with_reducible refine same_step ?_ (State.joinAll_same ..) (by decide)
  assumption
  assumption
  intro _; clear_value t5
  extract_lets +onlyGivenNames t6; refine same_cut (y := t6) ?_ ?_; unfold t6; clear t6
  with_reducible refine same_ite ?_ ?_
  with_reducible refine same_forEach ?_ fun _ _ => ?_
  assumption
  with_reducible refine same_mono (State.dropCarry_same ..) (by decide)
  assumption
  intro _; clear_value t6
  with_reducible refine same_ite ?_ ?_
  with_reducible refine same_step ?_ (State.slamReturn_same ..) (by decide)
  with_reducible refine same_step ?_ (State.preloadNow_same ..) (by decide)
  assumption
  assumption

theorem State.voltageDemand_same (s : State) (r : RailIx) (g : Rat) : SameBut [.rails] s (State.voltageDemand s r
    g).1 := by
  unfold State.voltageDemand
  extract_lets +onlyGivenNames y; clear_value y
  extract_lets +onlyGivenNames y; clear_value y
  extract_lets +onlyGivenNames y; clear_value y
  dsimp only
  with_reducible exact State.modLaw_same ..

theorem State.demandFrame_same (s : State) (r : RailIx) : SameBut [.objs, .rails] s (s.demandFrame r) := by
  unfold State.demandFrame
  dsimp only
  split
  · refine same_step ?_ (State.countIf_same ..) (by decide)
    refine same_step ?_ (State.modMeas_same ..) (by decide)
    exact same_mono (State.modLaw_same ..) (by decide)
  · refine same_step ?_ (State.countIf_same ..) (by decide)
    refine same_step ?_ (State.modMeas_same ..) (by decide)
    exact same_step (same_mono (State.voltageDemand_same ..) (by decide)) (State.modLaw_same ..) (by decide)

theorem State.commitPhases_same (s : State) (r : RailIx) (f : PhaseIx → Nat) : SameBut [.phases] s
    (State.commitPhases s r f) := by
  unfold State.commitPhases
  with_reducible refine same_forEach ?_ fun _ _ => ?_
  exact same_refl ..
  with_reducible exact State.modGen_same ..

theorem State.holdCommit_same (s : State) (r : RailIx) : SameBut [.phases] s (State.holdCommit s r) := by
  unfold State.holdCommit
  with_reducible exact State.commitPhases_same ..

theorem State.parkSlam_same (s : State) (r : RailIx) : SameBut [.phases] s (State.parkSlam s r) := by
  unfold State.parkSlam
  extract_lets +onlyGivenNames y; clear_value y
  with_reducible refine same_forEach ?_ fun _ _ => ?_
  exact same_refl ..
  with_reducible exact State.modGen_same ..

theorem State.commitLaw_same (s : State) (r : RailIx) : SameBut [.phases, .rails] s (State.commitLaw s r) := by
  unfold State.commitLaw
  extract_lets +onlyGivenNames y; clear_value y
  extract_lets +onlyGivenNames t1; refine same_cut (y := t1) ?_ ?_; unfold t1; clear t1
  with_reducible refine same_mono (State.modLaw_same ..) (by decide)
  intro _; clear_value t1
  with_reducible refine same_step ?_ (State.commitPhases_same ..) (by decide)
  assumption

theorem State.lawFrame_same (s : State) (r : RailIx) : SameBut [.objs, .phases, .rails, .tune, .mb] s
    (State.lawFrame s r) := by
  unfold State.lawFrame
  extract_lets +onlyGivenNames t1; refine same_cut (y := t1) ?_ ?_; unfold t1; clear t1
  with_reducible exact State.regimeFrame_same ..
  intro _; clear_value t1
  extract_lets +onlyGivenNames t2; refine same_cut (y := t2) ?_ ?_; unfold t2; clear t2
  with_reducible refine same_ite ?_ ?_
  with_reducible refine same_step ?_ (State.modMeas_same ..) (by decide)
  assumption
  with_reducible refine same_step ?_ (State.demandFrame_same ..) (by decide)
  assumption
  intro _; clear_value t2
  extract_lets +onlyGivenNames t3; refine same_cut (y := t3) ?_ ?_; unfold t3; clear t3
  with_reducible refine same_ite ?_ ?_
  with_reducible refine same_step ?_ (State.balance_same ..) (by decide)
  assumption
  assumption
  intro _; clear_value t3
  with_reducible refine same_step ?_ (State.commitLaw_same ..) (by decide)
  assumption

theorem State.arbiter_same (s : State) : SameBut [.rails] s (State.arbiter s) := by
  unfold State.arbiter
  extract_lets +onlyGivenNames y; clear_value y
  extract_lets +onlyGivenNames y; clear_value y
  extract_lets +onlyGivenNames y; clear_value y
  extract_lets +onlyGivenNames t1; refine same_cut (y := t1) ?_ ?_; unfold t1; clear t1
  with_reducible refine same_forEach ?_ fun _ _ => ?_
  exact same_refl ..
  with_reducible exact State.modMeas_same ..
  intro _; clear_value t1
  with_reducible refine same_forEach ?_ fun _ _ => ?_
  assumption
  with_reducible exact State.modMeas_same ..

/-! Profile -/

theorem State.settleCount_same (s : State) (r : RailIx) : SameBut [.rails] s (State.settleCount s r) := by
  unfold State.settleCount
  extract_lets +onlyGivenNames y; clear_value y
  with_reducible exact State.modProf_same ..

theorem State.profileFrame_same (s : State) (r : RailIx) : SameBut [.objs, .rails, .tune, .mb] s
    (State.profileFrame s r) := by
  unfold State.profileFrame
  extract_lets +onlyGivenNames y; clear_value y
  extract_lets +onlyGivenNames y; clear_value y
  extract_lets +onlyGivenNames y; clear_value y
  extract_lets +onlyGivenNames t1; refine same_cut (y := t1) ?_ ?_; unfold t1; clear t1
  with_reducible refine same_mono (State.settleCount_same ..) (by decide)
  intro _; clear_value t1
  extract_lets +onlyGivenNames t2; refine same_cut (y := t2) ?_ ?_; unfold t2; clear t2
  with_reducible refine same_step ?_ (State.modProf_same ..) (by decide)
  assumption
  intro _; clear_value t2
  with_reducible refine same_ite ?_ ?_
  with_reducible refine same_step ?_ (State.abortTuneOn_same ..) (by decide)
  with_reducible refine same_step ?_ (State.abortSkim_same ..) (by decide)
  assumption
  assumption

theorem State.takeRequested_same (s : State) (r : RailIx) : SameBut [.rails, .mb] s (State.takeRequested s r) := by
  unfold State.takeRequested
  extract_lets +onlyGivenNames y; clear_value y
  with_reducible exact State.takeTarget_same ..

theorem State.reclamp_same (s : State) (r : RailIx) : SameBut [.rails] s (State.reclamp s r) := by
  unfold State.reclamp
  with_reducible exact State.modProf_same ..

/-! Pattern -/

theorem State.ffSample_same (s : State) (r : RailIx) (e : Rat) : SameBut [.rails] s (State.ffSample s r e) := by
  unfold State.ffSample
  with_reducible refine same_ite ?_ ?_
  exact same_refl ..
  extract_lets +onlyGivenNames y; clear_value y
  with_reducible exact State.modFf_same ..

theorem State.periodEnd_same (s : State) (r : RailIx) : SameBut [.rails] s (State.periodEnd s r) := by
  unfold State.periodEnd
  extract_lets +onlyGivenNames y; clear_value y
  extract_lets +onlyGivenNames y; clear_value y
  extract_lets +onlyGivenNames t1; refine same_cut (y := t1) ?_ ?_; unfold t1; clear t1
  split
  exact same_refl ..
  with_reducible refine same_ite ?_ ?_
  exact same_refl ..
  extract_lets +onlyGivenNames y; clear_value y
  with_reducible exact State.modFf_same ..
  intro _; clear_value t1
  with_reducible refine same_step ?_ (State.modFf_same ..) (by decide)
  assumption

theorem State.ffFrame_same (s : State) (r : RailIx) (e : Rat) : SameBut [.rails] s (State.ffFrame s r e) := by
  unfold State.ffFrame
  extract_lets +onlyGivenNames t1; refine same_cut (y := t1) ?_ ?_; unfold t1; clear t1
  with_reducible exact State.ffSample_same ..
  intro _; clear_value t1
  extract_lets +onlyGivenNames y; clear_value y
  extract_lets +onlyGivenNames t2; refine same_cut (y := t2) ?_ ?_; unfold t2; clear t2
  with_reducible refine same_ite ?_ ?_
  with_reducible refine same_step ?_ (State.periodEnd_same ..) (by decide)
  assumption
  assumption
  intro _; clear_value t2
  extract_lets +onlyGivenNames y; clear_value y
  extract_lets +onlyGivenNames y; clear_value y
  extract_lets +onlyGivenNames y; clear_value y
  extract_lets +onlyGivenNames y; clear_value y
  extract_lets +onlyGivenNames t3; refine same_cut (y := t3) ?_ ?_; unfold t3; clear t3
  with_reducible refine same_step ?_ (State.modFf_same ..) (by decide)
  assumption
  intro _; clear_value t3
  with_reducible refine same_step ?_ (State.modMeas_same ..) (by decide)
  assumption

theorem State.strokeStart_same (s : State) (r : RailIx) (id expected : Nat) : SameBut [.rails] s (State.strokeStart
    s r id expected) := by
  unfold State.strokeStart
  with_reducible refine same_ite ?_ ?_
  exact same_refl ..
  extract_lets +onlyGivenNames t1; refine same_cut (y := t1) ?_ ?_; unfold t1; clear t1
  with_reducible exact State.strokeMismatch_same ..
  intro _; clear_value t1
  extract_lets +onlyGivenNames y; clear_value y
  extract_lets +onlyGivenNames y; clear_value y
  split
  assumption
  with_reducible refine same_step ?_ (State.modFf_same ..) (by decide)
  assumption

theorem State.strokeEnd_same (s : State) (r : RailIx) (id : Nat) : SameBut [.rails] s (State.strokeEnd s r id) := by
  unfold State.strokeEnd
  split
  exact same_refl ..
  with_reducible refine same_ite ?_ ?_
  exact same_refl ..
  extract_lets +onlyGivenNames y; clear_value y
  extract_lets +onlyGivenNames y; clear_value y
  with_reducible refine same_ite ?_ ?_
  extract_lets +onlyGivenNames t1; refine same_cut (y := t1) ?_ ?_; unfold t1; clear t1
  with_reducible exact State.periodEnd_same ..
  intro _; clear_value t1
  with_reducible refine same_step ?_ (State.modFf_same ..) (by decide)
  assumption
  with_reducible exact State.strokeMismatch_same ..

theorem State.ffPos_same (s : State) (r : RailIx) (pos : Nat) : SameBut [.rails] s (State.ffPos s r pos) := by
  unfold State.ffPos
  with_reducible exact State.modFf_same ..

theorem State.tblAdvance_same (s : State) (r : RailIx) : SameBut [.objs] s (State.tblAdvance s r) := by
  unfold State.tblAdvance
  extract_lets +onlyGivenNames y; clear_value y
  with_reducible exact State.setObj_same ..

theorem State.tblWrite_same (s : State) (r : RailIx) (v : Word) : SameBut [.objs, .rails] s (State.tblWrite s r v)
    := by
  unfold State.tblWrite
  extract_lets +onlyGivenNames y; clear_value y
  extract_lets +onlyGivenNames y; clear_value y
  extract_lets +onlyGivenNames t1; refine same_cut (y := t1) ?_ ?_; unfold t1; clear t1
  with_reducible refine same_mono (State.modFf_same ..) (by decide)
  intro _; clear_value t1
  with_reducible refine same_step ?_ (State.tblAdvance_same ..) (by decide)
  assumption

theorem State.ffClear_same (s : State) (r : RailIx) : SameBut [.rails] s (State.ffClear s r) := by
  unfold State.ffClear
  with_reducible exact State.modFf_same ..

theorem State.ffRestore_same (s : State) (r : RailIx) : SameBut [.rails] s (State.ffRestore s r) := by
  unfold State.ffRestore
  split
  exact same_refl ..
  with_reducible exact State.modFf_same ..

/-! Tune -/

theorem State.tuneBegin_same (s : State) (slot : Option SlotIx) (r : RailIx) (auto : Bool) : SameBut [.objs,
    .rails, .tune, .mb] s (State.tuneBegin s slot r auto) := by
  unfold State.tuneBegin
  extract_lets +onlyGivenNames t1; refine same_cut (y := t1) ?_ ?_; unfold t1; clear t1
  with_reducible refine same_mono (State.abortSkim_same ..) (by decide)
  intro _; clear_value t1
  extract_lets +onlyGivenNames t2; refine same_cut (y := t2) ?_ ?_; unfold t2; clear t2
  with_reducible refine same_step ?_ (State.count_same ..) (by decide)
  assumption
  intro _; clear_value t2
  extract_lets +onlyGivenNames t3; refine same_cut (y := t3) ?_ ?_; unfold t3; clear t3
  refine same_lit t2 ?_ ?_
  assumption
  intro p hp; cases p <;> first | exact absurd (by decide) hp | rfl
  intro _; clear_value t3
  with_reducible refine same_ite ?_ ?_
  assumption
  with_reducible refine same_step ?_ (State.finishOpt_same ..) (by decide)
  assumption

theorem State.injectFrame_same (s : State) : SameBut [.tune] s (State.injectFrame s) := by
  unfold State.injectFrame
  with_reducible refine same_ite ?_ ?_
  refine same_lit s ?_ ?_
  exact same_refl ..
  intro p hp; cases p <;> first | exact absurd (by decide) hp | rfl
  with_reducible refine same_ite ?_ ?_
  extract_lets +onlyGivenNames y; clear_value y
  extract_lets +onlyGivenNames y; clear_value y
  refine same_lit s ?_ ?_
  exact same_refl ..
  intro p hp; cases p <;> first | exact absurd (by decide) hp | rfl
  exact same_refl ..

theorem State.tuneFrame_same (s : State) (held : Bool) : SameBut [.tune] s (State.tuneFrame s held) := by
  unfold State.tuneFrame
  with_reducible refine same_ite ?_ ?_
  exact same_refl ..
  refine same_dite (fun _ => ?_) (fun _ => ?_)
  extract_lets +onlyGivenNames y; clear_value y
  extract_lets +onlyGivenNames y; clear_value y
  extract_lets +onlyGivenNames y; clear_value y
  extract_lets +onlyGivenNames y; clear_value y
  extract_lets +onlyGivenNames t1; refine same_cut (y := t1) ?_ ?_; unfold t1; clear t1
  refine same_lit s ?_ ?_
  exact same_refl ..
  intro p hp; cases p <;> first | exact absurd (by decide) hp | rfl
  intro _; clear_value t1
  with_reducible refine same_ite ?_ ?_
  assumption
  extract_lets +onlyGivenNames y; clear_value y
  extract_lets +onlyGivenNames y; clear_value y
  extract_lets +onlyGivenNames y; clear_value y
  with_reducible refine same_ite ?_ ?_
  refine same_lit t1 ?_ ?_
  assumption
  intro p hp; cases p <;> first | exact absurd (by decide) hp | rfl
  refine same_lit t1 ?_ ?_
  assumption
  intro p hp; cases p <;> first | exact absurd (by decide) hp | rfl
  exact same_refl ..

theorem State.ltBegin_same (s : State) (r : RailIx) : SameBut [.objs, .rails] s (State.ltBegin s r) := by
  unfold State.ltBegin
  with_reducible refine same_step ?_ (State.modLt_same ..) (by decide)
  with_reducible exact State.abortSkim_same ..

theorem State.ltNext_same (s : State) (r : RailIx) : SameBut [.rails] s (State.ltNext s r) := by
  unfold State.ltNext
  extract_lets +onlyGivenNames y; clear_value y
  extract_lets +onlyGivenNames y; clear_value y
  with_reducible refine same_ite ?_ ?_
  with_reducible exact State.modLt_same ..
  with_reducible exact State.modLt_same ..

theorem State.ltFrame_same (s : State) (r : RailIx) : SameBut [.objs, .rails] s (State.ltFrame s r) := by
  unfold State.ltFrame
  extract_lets +onlyGivenNames y; clear_value y
  extract_lets +onlyGivenNames y; clear_value y
  with_reducible refine same_ite ?_ ?_
  with_reducible refine same_mono (State.modLt_same ..) (by decide)
  extract_lets +onlyGivenNames t1; refine same_cut (y := t1) ?_ ?_; unfold t1; clear t1
  with_reducible refine same_mono (State.modLt_same ..) (by decide)
  intro _; clear_value t1
  with_reducible refine same_ite ?_ ?_
  with_reducible refine same_ite ?_ ?_
  with_reducible refine same_step ?_ (State.ltNext_same ..) (by decide)
  with_reducible refine same_step ?_ (State.modLt_same ..) (by decide)
  assumption
  assumption
  with_reducible refine same_ite ?_ ?_
  extract_lets +onlyGivenNames t2; refine same_cut (y := t2) ?_ ?_; unfold t2; clear t2
  with_reducible refine same_ite ?_ ?_
  assumption
  with_reducible refine same_step ?_ (State.modLt_same ..) (by decide)
  assumption
  intro _; clear_value t2
  with_reducible refine same_step ?_ (State.ltNext_same ..) (by decide)
  assumption
  with_reducible refine same_ite ?_ ?_
  assumption
  with_reducible refine same_step ?_ (State.ltBegin_same ..) (by decide)
  assumption

theorem State.ltWindow_same (s : State) (r : RailIx) : SameBut [.objs, .rails] s (State.ltWindow s r) := by
  unfold State.ltWindow
  extract_lets +onlyGivenNames y; clear_value y
  extract_lets +onlyGivenNames y; clear_value y
  extract_lets +onlyGivenNames t1; refine same_cut (y := t1) ?_ ?_; unfold t1; clear t1
  with_reducible refine same_mono (State.modLt_same ..) (by decide)
  intro _; clear_value t1
  with_reducible refine same_ite ?_ ?_
  with_reducible refine same_step ?_ (State.count_same ..) (by decide)
  assumption
  extract_lets +onlyGivenNames y; clear_value y
  with_reducible refine same_ite ?_ ?_
  assumption
  extract_lets +onlyGivenNames y; clear_value y
  extract_lets +onlyGivenNames y; clear_value y
  with_reducible refine same_step ?_ (State.count_same ..) (by decide)
  with_reducible refine same_step ?_ (State.modLt_same ..) (by decide)
  assumption

theorem State.ltClamp_same (s : State) (r : RailIx) : SameBut [.rails] s (State.ltClamp s r) := by
  unfold State.ltClamp
  with_reducible refine same_ite ?_ ?_
  with_reducible exact State.modLt_same ..
  exact same_refl ..

/-! PhaseCmds -/

theorem State.tripPhase_same (s : State) (n : PhaseIx) (tick : Nat) : SameBut [.objs, .phases, .rails] s
    (State.tripPhase s n tick) := by
  unfold State.tripPhase
  split
  exact same_refl ..
  extract_lets +onlyGivenNames y; clear_value y
  split
  with_reducible refine same_ite ?_ ?_
  extract_lets +onlyGivenNames t1; refine same_cut (y := t1) ?_ ?_; unfold t1; clear t1
  with_reducible refine same_step ?_ (State.dropCarry_same ..) (by decide)
  with_reducible refine same_mono (State.count_same ..) (by decide)
  intro _; clear_value t1
  with_reducible refine same_step ?_ (State.modGen_same ..) (by decide)
  with_reducible refine same_step ?_ (State.abortSkim_same ..) (by decide)
  assumption
  exact same_refl ..
  extract_lets +onlyGivenNames t2; refine same_cut (y := t2) ?_ ?_; unfold t2; clear t2
  with_reducible refine same_mono (State.tripInput_same ..) (by decide)
  intro _; clear_value t2
  with_reducible refine same_ite ?_ ?_
  with_reducible refine same_step ?_ (State.abortSkim_same ..) (by decide)
  assumption
  assumption

theorem State.startTrip_same (s : State) (n : PhaseIx) : SameBut [.objs, .phases, .rails] s (State.startTrip s n) := by
  unfold State.startTrip
  extract_lets +onlyGivenNames y; clear_value y
  with_reducible refine same_ite ?_ ?_
  with_reducible exact State.tripPhase_same ..
  exact same_refl ..

theorem State.levelTrips_same (s : State) : SameBut [.objs, .phases, .rails] s (State.levelTrips s) := by
  unfold State.levelTrips
  with_reducible refine same_forEach ?_ fun _ _ => ?_
  exact same_refl ..
  split
  exact same_refl ..
  extract_lets +onlyGivenNames t1; refine same_cut (y := t1) ?_ ?_; unfold t1; clear t1
  with_reducible refine same_mono (State.levelTrip_same ..) (by decide)
  intro _; clear_value t1
  with_reducible refine same_ite ?_ ?_
  with_reducible refine same_step ?_ (State.abortSkim_same ..) (by decide)
  assumption
  assumption

theorem State.forceChange_same (s : State) (n : PhaseIx) (r : RailIx) (was : Bool) : SameBut [.objs, .phases,
    .rails] s (State.forceChange s n r was) := by
  unfold State.forceChange
  extract_lets +onlyGivenNames y; clear_value y
  with_reducible refine same_ite ?_ ?_
  extract_lets +onlyGivenNames t1; refine same_cut (y := t1) ?_ ?_; unfold t1; clear t1
  with_reducible refine same_mono (State.abortSkim_same ..) (by decide)
  intro _; clear_value t1
  split
  with_reducible refine same_ite ?_ ?_
  with_reducible refine same_step ?_ (State.abortPassive_same ..) (by decide)
  assumption
  assumption
  assumption
  with_reducible refine same_ite ?_ ?_
  with_reducible refine same_mono (State.modSense_same ..) (by decide)
  exact same_refl ..

theorem State.nextOnSchedule_same (s : State) (n : PhaseIx) : SameBut [.phases] s (State.nextOnSchedule s n) := by
  unfold State.nextOnSchedule
  with_reducible exact State.modGen_same ..

/-! CurrentCmds -/

theorem State.skimResult_same (s : State) (k : Skim) : SameBut [.objs, .phases, .rails, .twin, .recd, .nvm] s
    (State.skimResult s k).1 := by
  unfold State.skimResult
  extract_lets +onlyGivenNames y; clear_value y
  extract_lets +onlyGivenNames y; clear_value y
  extract_lets +onlyGivenNames y; clear_value y
  split
  dsimp only
  exact same_refl ..
  split
  dsimp only
  with_reducible refine same_step ?_ (State.record_same ..) (by decide)
  with_reducible refine same_mono (State.count_same ..) (by decide)
  dsimp only
  with_reducible refine same_step ?_ (State.modSense_same ..) (by decide)
  with_reducible refine same_mono (State.count_same ..) (by decide)

theorem State.endSkim_same (s : State) (r : RailIx) (k : Skim) (passive : Bool) : SameBut [.objs, .phases, .rails,
    .twin, .recd, .nvm] s (State.endSkim s r k passive) := by
  unfold State.endSkim
  extract_lets +onlyGivenNames t1; refine same_cut (y := t1.1) ?_ ?_; unfold t1; clear t1
  with_reducible exact State.skimResult_same ..
  intro _; clear_value t1
  extract_lets +onlyGivenNames t2; refine same_cut (y := t2) ?_ ?_; unfold t2; clear t2
  with_reducible refine same_step ?_ (State.modSense_same ..) (by decide)
  assumption
  intro _; clear_value t2
  extract_lets +onlyGivenNames t3; refine same_cut (y := t3) ?_ ?_; unfold t3; clear t3
  with_reducible refine same_ite ?_ ?_
  with_reducible refine same_step ?_ (State.saveZeros_same ..) (by decide)
  assumption
  assumption
  intro _; clear_value t3
  with_reducible refine same_step ?_ (State.modPlc_same ..) (by decide)
  assumption

end Sys2Proof.Machine
end

