-- ==== Sys2Proof/Laws/SameLinks.lean ====
section
/-! SUPPORT. The areas of State that links, feeds, domains, protection, the meter and the clocks change; all others stand
(see Laws/Same.lean). Each proof walks its function's body in order. -/

namespace Sys2Proof.Machine

/-! Links -/

theorem State.enqueue_same (s : State) (p : PortIx) (m : TxMsg) : SameBut [.objs, .ports] s (State.enqueue s p m)
    := by
  unfold State.enqueue
  extract_lets +onlyGivenNames y; clear_value y
  with_reducible refine same_step ?_ (State.countN_same ..) (by decide)
  with_reducible refine same_mono (State.modPort_same ..) (by decide)

theorem State.enqueueAck_same (s : State) (p : PortIx) (m : TxMsg) : SameBut [.objs, .ports] s (State.enqueueAck s
    p m) := by
  unfold State.enqueueAck
  with_reducible refine same_step ?_ (State.modPort_same ..) (by decide)
  with_reducible exact State.enqueue_same ..

theorem State.warnAll_same (s : State) : SameBut [.objs, .ports] s (State.warnAll s) := by
  unfold State.warnAll
  with_reducible refine same_forEach ?_ fun _ _ => ?_
  exact same_refl ..
  with_reducible exact State.enqueue_same ..

theorem State.withdraw_same (s : State) (p : PortIx) : SameBut [.objs, .ports] s (State.withdraw s p) := by
  unfold State.withdraw
  with_reducible refine same_ite ?_ ?_
  with_reducible refine same_mono (State.modPort_same ..) (by decide)
  extract_lets +onlyGivenNames t1; refine same_cut (y := t1) ?_ ?_; unfold t1; clear t1
  with_reducible refine same_mono (State.modPort_same ..) (by decide)
  intro _; clear_value t1
  split
  with_reducible refine same_step ?_ (State.count_same ..) (by decide)
  assumption
  assumption

theorem State.emptyPort_same (s : State) (p : PortIx) : SameBut [.objs, .ports] s (State.emptyPort s p) := by
  unfold State.emptyPort
  with_reducible refine same_step ?_ (State.modPort_same ..) (by decide)
  with_reducible exact State.withdraw_same ..

theorem State.storeReq_same (s : State) (p : PortIx) (q : Standing) (wd : Bool) : SameBut [.objs, .ports] s
    (State.storeReq s p q wd) := by
  unfold State.storeReq
  extract_lets +onlyGivenNames y; clear_value y
  extract_lets +onlyGivenNames t1; refine same_cut (y := t1) ?_ ?_; unfold t1; clear t1
  with_reducible refine same_mono (State.modPort_same ..) (by decide)
  intro _; clear_value t1
  split
  with_reducible refine same_step ?_ (State.countIf_same ..) (by decide)
  assumption
  assumption

theorem State.acceptWl2_same (s : State) (p : PortIx) (r : RailIx) (q : Standing) (wd : Bool) : SameBut [.objs,
    .ports] s (State.acceptWl2 s p r q wd) := by
  unfold State.acceptWl2
  extract_lets +onlyGivenNames t1; refine same_cut (y := t1) ?_ ?_; unfold t1; clear t1
  split
  with_reducible refine same_step ?_ (State.enqueue_same ..) (by decide)
  with_reducible refine same_mono (State.count_same ..) (by decide)
  exact same_refl ..
  intro _; clear_value t1
  extract_lets +onlyGivenNames t2; refine same_cut (y := t2) ?_ ?_; unfold t2; clear t2
  with_reducible refine same_step ?_ (State.storeReq_same ..) (by decide)
  assumption
  intro _; clear_value t2
  extract_lets +onlyGivenNames y; clear_value y
  extract_lets +onlyGivenNames y; clear_value y
  extract_lets +onlyGivenNames y; clear_value y
  extract_lets +onlyGivenNames y; clear_value y
  extract_lets +onlyGivenNames t3; refine same_cut (y := t3) ?_ ?_; unfold t3; clear t3
  with_reducible refine same_step ?_ (State.modPort_same ..) (by decide)
  assumption
  intro _; clear_value t3
  with_reducible refine same_step ?_ (State.enqueueAck_same ..) (by decide)
  with_reducible refine same_step ?_ (State.count_same ..) (by decide)
  assumption

theorem State.repeatAck_same (s : State) (p : PortIx) : SameBut [.objs, .ports] s (State.repeatAck s p) := by
  unfold State.repeatAck
  split
  with_reducible exact State.enqueue_same ..
  with_reducible exact State.enqueue_same ..
  with_reducible exact State.enqueue_same ..
  exact same_refl ..

theorem State.vreqOn_same (s : State) (p : PortIx) (wl2 : Bool) (q : Standing) (wd : Bool) :
    SameBut [.objs, .ports] s (State.vreqOn s p wl2 q wd) := by
  have nak : ∀ s reason, SameBut [.objs, .ports] s (if wl2 = true then s.enqueue p (TxMsg.vnak q.tag reason) else
    s) := by
    intro s reason
    split
    · exact same_mono (State.enqueue_same ..) (by decide)
    · exact same_refl ..
  unfold State.vreqOn
  extract_lets +onlyGivenNames y
  refine same_ite (same_mono (State.count_same ..) (by decide)) ?_
  split
  · exact nak ..
  · extract_lets +onlyGivenNames same
    refine same_ite (same_ite (same_mono (State.repeatAck_same ..) (by decide)) (same_refl ..)) ?_
    refine same_ite (nak ..) ?_
    refine same_ite (nak ..) ?_
    refine same_ite ?_ ?_
    · extract_lets +onlyGivenNames z
      have h : SameBut [.objs, .ports] s z := same_mono (State.storeReq_same ..) (by decide)
      clear_value z
      exact same_ite (same_step h (State.enqueueAck_same ..) (by decide)) h
    · refine same_ite (same_mono (State.acceptWl2_same ..) (by decide)) ?_
      refine same_step ?_ (State.modPort_same ..) (by decide)
      exact same_step (same_mono (State.storeReq_same ..) (by decide)) (State.count_same ..) (by decide)

theorem State.rxValid_same (s : State) (p : PortIx) (seq : Nat) : SameBut [.objs, .ports] s (State.rxValid s p seq)
    := by
  unfold State.rxValid
  extract_lets +onlyGivenNames y; clear_value y
  extract_lets +onlyGivenNames t1; refine same_cut (y := t1) ?_ ?_; unfold t1; clear t1
  with_reducible refine same_mono (State.count_same ..) (by decide)
  intro _; clear_value t1
  extract_lets +onlyGivenNames y; clear_value y
  extract_lets +onlyGivenNames t2; refine same_cut (y := t2) ?_ ?_; unfold t2; clear t2
  with_reducible refine same_step ?_ (State.countIf_same ..) (by decide)
  assumption
  intro _; clear_value t2
  with_reducible refine same_step ?_ (State.modPort_same ..) (by decide)
  assumption

theorem State.enterVersion_same (s : State) (p : PortIx) (st : PortSt) : SameBut [.ports] s (State.enterVersion s p
    st) := by
  unfold State.enterVersion
  with_reducible exact State.modPort_same ..

theorem State.rxHello_same (s : State) (p : PortIx) (m : HelloMsg) : SameBut [.objs, .rails, .ports, .twin, .recd,
    .nvm] s (State.rxHello s p m) := by
  unfold State.rxHello
  with_reducible refine same_ite ?_ ?_
  exact same_refl ..
  extract_lets +onlyGivenNames t1; refine same_cut (y := t1) ?_ ?_; unfold t1; clear t1
  with_reducible refine same_mono (State.rxValid_same ..) (by decide)
  intro _; clear_value t1
  extract_lets +onlyGivenNames t2; refine same_cut (y := t2) ?_ ?_; unfold t2; clear t2
  with_reducible refine same_step ?_ (State.modPort_same ..) (by decide)
  assumption
  intro _; clear_value t2
  extract_lets +onlyGivenNames t3; refine same_cut (y := t3) ?_ ?_; unfold t3; clear t3
  with_reducible refine same_ite ?_ ?_
  with_reducible refine same_step ?_ (State.modPort_same ..) (by decide)
  with_reducible refine same_step ?_ (State.emptyPort_same ..) (by decide)
  assumption
  assumption
  intro _; clear_value t3
  with_reducible refine same_ite ?_ ?_
  assumption
  extract_lets +onlyGivenNames y; clear_value y
  extract_lets +onlyGivenNames t4; refine same_cut (y := t4) ?_ ?_; unfold t4; clear t4
  with_reducible refine same_step ?_ (State.enterVersion_same ..) (by decide)
  assumption
  intro _; clear_value t4
  extract_lets +onlyGivenNames t5; refine same_cut (y := t5) ?_ ?_; unfold t5; clear t5
  with_reducible refine same_ite ?_ ?_
  assumption
  with_reducible refine same_step ?_ (State.enqueue_same ..) (by decide)
  assumption
  intro _; clear_value t5
  extract_lets +onlyGivenNames t6; refine same_cut (y := t6) ?_ ?_; unfold t6; clear t6
  with_reducible refine same_step ?_ (State.record_same ..) (by decide)
  assumption
  intro _; clear_value t6
  with_reducible refine same_ite ?_ ?_
  with_reducible refine same_step ?_ (State.enqueue_same ..) (by decide)
  assumption
  assumption

theorem State.impliedWl1_same (s : State) (p : PortIx) : SameBut [.objs, .rails, .ports, .twin, .recd, .nvm] s
    (State.impliedWl1 s p) := by
  unfold State.impliedWl1
  with_reducible refine same_ite ?_ ?_
  exact same_refl ..
  with_reducible refine same_step ?_ (State.record_same ..) (by decide)
  with_reducible refine same_mono (State.enterVersion_same ..) (by decide)

theorem State.rxVreq_same (s : State) (p : PortIx) (m : VreqMsg) : SameBut [.objs, .rails, .ports, .twin, .recd,
    .nvm] s (State.rxVreq s p m) := by
  unfold State.rxVreq
  with_reducible refine same_ite ?_ ?_
  exact same_refl ..
  extract_lets +onlyGivenNames t1; refine same_cut (y := t1) ?_ ?_; unfold t1; clear t1
  with_reducible refine same_step ?_ (State.impliedWl1_same ..) (by decide)
  with_reducible refine same_mono (State.rxValid_same ..) (by decide)
  intro _; clear_value t1
  with_reducible refine same_ite ?_ ?_
  with_reducible refine same_step ?_ (State.vreqOn_same ..) (by decide)
  assumption
  with_reducible refine same_step ?_ (State.vreqOn_same ..) (by decide)
  assumption

theorem State.rxPos_same (s : State) (p : PortIx) (seq position : Nat) : SameBut [.objs, .rails, .ports, .twin,
    .recd, .nvm] s (State.rxPos s p seq position) := by
  unfold State.rxPos
  with_reducible refine same_ite ?_ ?_
  exact same_refl ..
  extract_lets +onlyGivenNames t1; refine same_cut (y := t1) ?_ ?_; unfold t1; clear t1
  with_reducible refine same_step ?_ (State.impliedWl1_same ..) (by decide)
  with_reducible refine same_mono (State.rxValid_same ..) (by decide)
  intro _; clear_value t1
  extract_lets +onlyGivenNames t2; refine same_cut (y := t2) ?_ ?_; unfold t2; clear t2
  with_reducible refine same_step ?_ (State.modPort_same ..) (by decide)
  assumption
  intro _; clear_value t2
  with_reducible refine same_forEach ?_ fun _ _ => ?_
  assumption
  with_reducible refine same_mono (State.ffPos_same ..) (by decide)

theorem State.rxStroke_same (s : State) (p : PortIx) (m : StrokeMsg) : SameBut [.objs, .rails, .ports] s
    (State.rxStroke s p m) := by
  unfold State.rxStroke
  with_reducible refine same_ite ?_ ?_
  exact same_refl ..
  with_reducible refine same_ite ?_ ?_
  with_reducible refine same_mono (State.count_same ..) (by decide)
  extract_lets +onlyGivenNames t1; refine same_cut (y := t1) ?_ ?_; unfold t1; clear t1
  with_reducible refine same_mono (State.rxValid_same ..) (by decide)
  intro _; clear_value t1
  with_reducible refine same_ite ?_ ?_
  assumption
  with_reducible refine same_forEach ?_ fun _ _ => ?_
  assumption
  with_reducible refine same_ite ?_ ?_
  with_reducible refine same_mono (State.strokeStart_same ..) (by decide)
  with_reducible refine same_mono (State.strokeEnd_same ..) (by decide)

theorem State.rxStatus_same (s : State) (p : PortIx) (m : StatusMsg) : SameBut [.objs, .ports] s (State.rxStatus s
    p m) := by
  unfold State.rxStatus
  with_reducible refine same_ite ?_ ?_
  exact same_refl ..
  extract_lets +onlyGivenNames t1; refine same_cut (y := t1) ?_ ?_; unfold t1; clear t1
  with_reducible exact State.rxValid_same ..
  intro _; clear_value t1
  with_reducible refine same_ite ?_ ?_
  assumption
  with_reducible refine same_step ?_ (State.modPort_same ..) (by decide)
  assumption

theorem State.rxPing_same (s : State) (p : PortIx) (seq : Nat) (reply : Bool) (cookie : Nat) : SameBut [.objs,
    .ports] s (State.rxPing s p seq reply cookie) := by
  unfold State.rxPing
  with_reducible refine same_ite ?_ ?_
  exact same_refl ..
  extract_lets +onlyGivenNames t1; refine same_cut (y := t1) ?_ ?_; unfold t1; clear t1
  with_reducible exact State.rxValid_same ..
  intro _; clear_value t1
  with_reducible refine same_ite ?_ ?_
  with_reducible refine same_step ?_ (State.enqueue_same ..) (by decide)
  assumption
  assumption

theorem State.rxFrame_same (s : State) (p : PortIx) (hdr : Nat) (pl : List Byte) : SameBut [.objs, .rails, .ports,
    .twin, .recd, .nvm] s (State.rxFrame s p hdr pl).1 := by
  unfold State.rxFrame
  extract_lets +onlyGivenNames y; clear_value y
  extract_lets +onlyGivenNames y; clear_value y
  extract_lets +onlyGivenNames y; clear_value y
  extract_lets +onlyGivenNames y
  split
  dsimp only
  with_reducible refine same_mono (State.count_same ..) (by decide)
  split
  dsimp only
  with_reducible refine same_mono (State.count_same ..) (by decide)
  dsimp only
  split
  with_reducible exact State.rxHello_same ..
  with_reducible exact State.rxVreq_same ..
  with_reducible exact State.rxPos_same ..
  with_reducible refine same_mono (State.rxStroke_same ..) (by decide)
  with_reducible refine same_mono (State.rxStatus_same ..) (by decide)
  with_reducible refine same_mono (State.rxPing_same ..) (by decide)

theorem State.rxChars_same (s : State) (p : PortIx) (gapEnd : Bool) (n : Nat) (l : List RxChar) :
    SameBut [.objs, .rails, .ports, .twin, .recd, .nvm] s (s.rxChars p gapEnd n l) := by
  induction n generalizing s l with
  | zero => exact same_refl ..
  | succ n ih =>
    cases l with
    | nil => exact same_refl ..
    | cons c cs =>
      have one (item : Nat) : SameBut [.objs, .rails, .ports, .twin, .recd, .nvm] s (s.count Ob.clsPort p.val item) :=
        same_mono (State.count_same ..) (by decide)
      unfold State.rxChars
      dsimp only
      split
      · exact ih ..
      · split
        · split
          · exact one _
          · exact same_refl ..
        · exact same_step (one _) (ih ..) (by decide)
        · exact same_step (one _) (ih ..) (by decide)
        · exact same_step (one _) (ih ..) (by decide)
        · exact same_step (State.rxFrame_same ..) (ih ..) (by decide)

theorem State.takeArb_same (s : State) : SameBut [.ports] s (State.takeArb s) := by
  unfold State.takeArb
  with_reducible refine same_forEach ?_ fun _ _ => ?_
  exact same_refl ..
  split
  with_reducible refine same_ite ?_ ?_
  with_reducible exact State.modPort_same ..
  exact same_refl ..
  exact same_refl ..

theorem State.linkRail_same (s : State) (r : RailIx) : SameBut [.rails, .mb] s (State.linkRail s r) := by
  unfold State.linkRail
  extract_lets +onlyGivenNames y; clear_value y
  extract_lets +onlyGivenNames t1; refine same_cut (y := t1) ?_ ?_; unfold t1; clear t1
  with_reducible refine same_mono (State.modProf_same ..) (by decide)
  intro _; clear_value t1
  extract_lets +onlyGivenNames y; clear_value y
  extract_lets +onlyGivenNames y; clear_value y
  with_reducible refine same_ite ?_ ?_
  with_reducible refine same_step ?_ (State.modProf_same ..) (by decide)
  assumption
  with_reducible refine same_ite ?_ ?_
  with_reducible refine same_ite ?_ ?_
  with_reducible refine same_step ?_ (State.takeRequested_same ..) (by decide)
  assumption
  assumption
  with_reducible refine same_ite ?_ ?_
  assumption
  with_reducible refine same_step ?_ (State.takeRequested_same ..) (by decide)
  assumption

theorem State.ackFrame_same (s : State) (p : PortIx) : SameBut [.objs, .ports] s (State.ackFrame s p) := by
  unfold State.ackFrame
  split
  with_reducible refine same_ite ?_ ?_
  with_reducible refine same_step ?_ (State.modPort_same ..) (by decide)
  with_reducible exact State.enqueueAck_same ..
  extract_lets +onlyGivenNames y; clear_value y
  extract_lets +onlyGivenNames y; clear_value y
  with_reducible refine same_mono (State.modPort_same ..) (by decide)
  exact same_refl ..

theorem State.warnFrame_same (s : State) (p : PortIx) : SameBut [.objs, .ports] s (State.warnFrame s p) := by
  unfold State.warnFrame
  extract_lets +onlyGivenNames y; clear_value y
  extract_lets +onlyGivenNames y; clear_value y
  with_reducible refine same_ite ?_ ?_
  with_reducible exact State.enqueue_same ..
  exact same_refl ..

theorem State.linkFrame_same (s : State) : SameBut [.objs, .rails, .ports, .mb] s (State.linkFrame s) := by
  unfold State.linkFrame
  extract_lets +onlyGivenNames t1; refine same_cut (y := t1) ?_ ?_; unfold t1; clear t1
  with_reducible refine same_mono (State.takeArb_same ..) (by decide)
  intro _; clear_value t1
  extract_lets +onlyGivenNames t2; refine same_cut (y := t2) ?_ ?_; unfold t2; clear t2
  with_reducible refine same_forEach ?_ fun _ _ => ?_
  assumption
  with_reducible refine same_mono (State.linkRail_same ..) (by decide)
  intro _; clear_value t2
  with_reducible refine same_forEach ?_ fun _ _ => ?_
  assumption
  with_reducible refine same_step ?_ (State.warnFrame_same ..) (by decide)
  with_reducible refine same_mono (State.ackFrame_same ..) (by decide)

theorem State.linkPolicy_same (s : State) (r : RailIx) : SameBut [.objs, .ports] s (State.linkPolicy s r) := by
  unfold State.linkPolicy
  with_reducible refine same_forEach ?_ fun _ _ => ?_
  exact same_refl ..
  extract_lets +onlyGivenNames t1; refine same_cut (y := t1) ?_ ?_; unfold t1; clear t1
  with_reducible exact State.withdraw_same ..
  intro _; clear_value t1
  split
  with_reducible refine same_step ?_ (State.modPort_same ..) (by decide)
  with_reducible refine same_step ?_ (State.enqueueAck_same ..) (by decide)
  assumption
  assumption

theorem State.disablePort_same (s : State) (p : PortIx) : SameBut [.objs, .ports] s (State.disablePort s p) := by
  unfold State.disablePort
  with_reducible refine same_step ?_ (State.modPort_same ..) (by decide)
  with_reducible exact State.emptyPort_same ..

theorem State.enablePort_same (s : State) (p : PortIx) : SameBut [.objs, .ports] s (State.enablePort s p) := by
  unfold State.enablePort
  extract_lets +onlyGivenNames y; clear_value y
  with_reducible refine same_ite ?_ ?_
  with_reducible refine same_step ?_ (State.enqueue_same ..) (by decide)
  with_reducible refine same_mono (State.modPort_same ..) (by decide)
  with_reducible refine same_mono (State.enterVersion_same ..) (by decide)

/-! Feeds -/

theorem State.feedSample_same (s : State) (i : FeedIn) : SameBut [.feeds] s (State.feedSample s i) := by
  unfold State.feedSample
  extract_lets +onlyGivenNames y
  extract_lets +onlyGivenNames y; clear_value y
  refine same_lit s ?_ ?_
  exact same_refl ..
  intro p hp; cases p <;> first | exact absurd (by decide) hp | rfl

theorem State.feedClassify_same (s : State) (x : FeedId) : SameBut [.feeds] s (State.feedClassify s x) := by
  unfold State.feedClassify
  extract_lets +onlyGivenNames y
  extract_lets +onlyGivenNames y; clear_value y
  extract_lets +onlyGivenNames y; clear_value y
  extract_lets +onlyGivenNames y; clear_value y
  extract_lets +onlyGivenNames y; clear_value y
  with_reducible exact State.modFeed_same ..

theorem State.feedWrite_same (s : State) (w : ObjWrite) : SameBut [.objs, .feeds] s (State.feedWrite s w) := by
  unfold State.feedWrite
  split
  refine same_lit s ?_ ?_
  exact same_refl ..
  intro p hp; cases p <;> first | exact absurd (by decide) hp | rfl
  refine same_lit s ?_ ?_
  exact same_refl ..
  intro p hp; cases p <;> first | exact absurd (by decide) hp | rfl
  refine same_lit s ?_ ?_
  exact same_refl ..
  intro p hp; cases p <;> first | exact absurd (by decide) hp | rfl
  with_reducible refine same_mono (State.setObj_same ..) (by decide)

theorem State.releaseFeedWrites_same (s : State) : SameBut [.objs, .feeds] s (State.releaseFeedWrites s) := by
  unfold State.releaseFeedWrites
  split
  exact same_refl ..
  exact same_refl ..
  exact same_refl ..
  extract_lets +onlyGivenNames y; clear_value y
  with_reducible refine same_forEach ?_ fun _ _ => ?_
  refine same_lit s ?_ ?_
  exact same_refl ..
  intro p hp; cases p <;> first | exact absurd (by decide) hp | rfl
  with_reducible refine same_mono (State.setObj_same ..) (by decide)

theorem State.setSel_same (s : State) (x : SelState) : SameBut [.objs, .feeds] s (State.setSel s x) := by
  unfold State.setSel
  extract_lets +onlyGivenNames t1; refine same_cut (y := t1) ?_ ?_; unfold t1; clear t1
  with_reducible refine same_mono (State.countIf_same ..) (by decide)
  intro _; clear_value t1
  refine same_lit t1 ?_ ?_
  assumption
  intro p hp; cases p <;> first | exact absurd (by decide) hp | rfl

theorem State.startBreak_same (s : State) (x : FeedId) (target : Option FeedId) (isReturn : Bool) : SameBut [.objs,
    .feeds] s (State.startBreak s x target isReturn) := by
  unfold State.startBreak
  extract_lets +onlyGivenNames t1; refine same_cut (y := t1) ?_ ?_; unfold t1; clear t1
  with_reducible exact State.setSel_same ..
  intro _; clear_value t1
  extract_lets +onlyGivenNames y; clear_value y
  extract_lets +onlyGivenNames t2; refine same_cut (y := t2) ?_ ?_; unfold t2; clear t2
  refine same_lit t1 ?_ ?_
  assumption
  intro p hp; cases p <;> first | exact absurd (by decide) hp | rfl
  intro _; clear_value t2
  extract_lets +onlyGivenNames t3; refine same_cut (y := t3) ?_ ?_; unfold t3; clear t3
  with_reducible refine same_step ?_ (State.countIf_same ..) (by decide)
  assumption
  intro _; clear_value t3
  with_reducible refine same_step ?_ (State.countIf_same ..) (by decide)
  assumption

theorem State.startMake_same (s : State) (x : FeedId) (slow : Bool) : SameBut [.objs, .feeds] s (State.startMake s
    x slow) := by
  unfold State.startMake
  extract_lets +onlyGivenNames t1; refine same_cut (y := t1) ?_ ?_; unfold t1; clear t1
  with_reducible exact State.setSel_same ..
  intro _; clear_value t1
  refine same_lit t1 ?_ ?_
  assumption
  intro p hp; cases p <;> first | exact absurd (by decide) hp | rfl

theorem State.feedRecord_same (s : State) (code : Nat) (x : FeedId) (sub : Nat) : SameBut [.objs, .rails, .twin,
    .recd, .nvm] s (State.feedRecord s code x sub) := by
  unfold State.feedRecord
  with_reducible exact State.record_same ..

theorem State.turnOnFeed_same (s : State) : SameBut [.objs, .feeds] s (State.turnOnFeed s) := by
  unfold State.turnOnFeed
  extract_lets +onlyGivenNames y; clear_value y
  split
  exact same_refl ..
  extract_lets +onlyGivenNames y; clear_value y
  extract_lets +onlyGivenNames t1; refine same_cut (y := t1) ?_ ?_; unfold t1; clear t1
  refine same_lit s ?_ ?_
  exact same_refl ..
  intro p hp; cases p <;> first | exact absurd (by decide) hp | rfl
  intro _; clear_value t1
  with_reducible refine same_step ?_ (State.startMake_same ..) (by decide)
  assumption

theorem State.onRows_same (s : State) (x : FeedId) : SameBut [.objs, .rails, .feeds, .twin, .recd, .nvm] s
    (State.onRows s x) := by
  unfold State.onRows
  extract_lets +onlyGivenNames y; clear_value y
  with_reducible refine same_ite ?_ ?_
  with_reducible refine same_ite ?_ ?_
  with_reducible refine same_mono (State.startBreak_same ..) (by decide)
  with_reducible refine same_step ?_ (State.setSel_same ..) (by decide)
  with_reducible refine same_mono (State.feedRecord_same ..) (by decide)
  with_reducible refine same_ite ?_ ?_
  with_reducible refine same_step ?_ (State.startBreak_same ..) (by decide)
  with_reducible refine same_mono (State.feedRecord_same ..) (by decide)
  with_reducible refine same_ite ?_ ?_
  with_reducible refine same_mono (State.startBreak_same ..) (by decide)
  with_reducible refine same_ite ?_ ?_
  with_reducible refine same_mono (State.startBreak_same ..) (by decide)
  exact same_refl ..

theorem State.selectFrame_same (s : State) : SameBut [.objs, .rails, .feeds, .twin, .recd, .nvm] s
    (State.selectFrame s) := by
  unfold State.selectFrame
  with_reducible refine same_ite ?_ ?_
  exact same_refl ..
  split
  with_reducible refine same_mono (State.turnOnFeed_same ..) (by decide)
  with_reducible exact State.onRows_same ..
  with_reducible exact State.onRows_same ..
  split
  exact same_refl ..
  extract_lets +onlyGivenNames y; clear_value y
  refine same_lit s ?_ ?_
  exact same_refl ..
  intro p hp; cases p <;> first | exact absurd (by decide) hp | rfl
  exact same_refl ..

theorem State.warnRecord_same (s : State) (sub : Nat) : SameBut [.objs, .rails, .twin, .recd, .nvm] s
    (State.warnRecord s sub) := by
  unfold State.warnRecord
  with_reducible exact State.record_same ..

theorem State.warnEdge_same (s : State) : SameBut [.objs, .rails, .ports, .feeds, .twin, .recd, .mb, .nvm] s
    (State.warnEdge s) := by
  unfold State.warnEdge
  extract_lets +onlyGivenNames y; clear_value y
  extract_lets +onlyGivenNames y; clear_value y
  extract_lets +onlyGivenNames y; clear_value y
  extract_lets +onlyGivenNames t1; refine same_cut (y := t1) ?_ ?_; unfold t1; clear t1
  refine same_lit s ?_ ?_
  exact same_refl ..
  intro p hp; cases p <;> first | exact absurd (by decide) hp | rfl
  intro _; clear_value t1
  with_reducible refine same_ite ?_ ?_
  extract_lets +onlyGivenNames y; clear_value y
  extract_lets +onlyGivenNames t2; refine same_cut (y := t2) ?_ ?_; unfold t2; clear t2
  refine same_lit t1 ?_ ?_
  assumption
  intro p hp; cases p <;> first | exact absurd (by decide) hp | rfl
  intro _; clear_value t2
  extract_lets +onlyGivenNames t3; refine same_cut (y := t3) ?_ ?_; unfold t3; clear t3
  with_reducible refine same_step ?_ (State.irq_same ..) (by decide)
  with_reducible refine same_step ?_ (State.count_same ..) (by decide)
  assumption
  intro _; clear_value t3
  with_reducible refine same_step ?_ (State.warnAll_same ..) (by decide)
  with_reducible refine same_step ?_ (State.warnRecord_same ..) (by decide)
  assumption
  assumption

theorem State.feedFrame_same (s : State) (i : FeedIn) : SameBut [.objs, .rails, .ports, .feeds, .twin, .recd, .mb,
    .nvm] s (State.feedFrame s i) := by
  unfold State.feedFrame
  extract_lets +onlyGivenNames t1; refine same_cut (y := t1) ?_ ?_; unfold t1; clear t1
  with_reducible refine same_step ?_ (State.releaseFeedWrites_same ..) (by decide)
  with_reducible refine same_mono (State.feedSample_same ..) (by decide)
  intro _; clear_value t1
  with_reducible refine same_step ?_ (State.warnEdge_same ..) (by decide)
  with_reducible refine same_step ?_ (State.selectFrame_same ..) (by decide)
  with_reducible refine same_step ?_ (State.feedClassify_same ..) (by decide)
  with_reducible refine same_step ?_ (State.feedClassify_same ..) (by decide)
  assumption

theorem State.gateFails_same (s : State) (x : FeedId) (k code : Nat) : SameBut [.objs, .rails, .feeds, .twin,
    .recd, .mb, .nvm] s (State.gateFails s x k code) := by
  unfold State.gateFails
  extract_lets +onlyGivenNames t1; refine same_cut (y := t1) ?_ ?_; unfold t1; clear t1
  with_reducible refine same_mono (State.setObj_same ..) (by decide)
  intro _; clear_value t1
  extract_lets +onlyGivenNames t2; refine same_cut (y := t2) ?_ ?_; unfold t2; clear t2
  with_reducible refine same_step ?_ (State.feedRecord_same ..) (by decide)
  with_reducible refine same_step ?_ (State.count_same ..) (by decide)
  assumption
  intro _; clear_value t2
  with_reducible refine same_step ?_ (State.refreshFlt_same ..) (by decide)
  with_reducible refine same_step ?_ (State.setSel_same ..) (by decide)
  assumption

theorem State.fuseTrip_same (s : State) (r : RailIx) (cause : Nat) : SameBut [.objs, .rails, .twin, .recd, .nvm] s
    (State.fuseTrip s r cause) := by
  unfold State.fuseTrip
  extract_lets +onlyGivenNames y; clear_value y
  extract_lets +onlyGivenNames t1; refine same_cut (y := t1) ?_ ?_; unfold t1; clear t1
  with_reducible refine same_mono (State.modFuse_same ..) (by decide)
  intro _; clear_value t1
  with_reducible refine same_step ?_ (State.record_same ..) (by decide)
  with_reducible refine same_step ?_ (State.count_same ..) (by decide)
  assumption

theorem State.fuseRamp_same (s : State) (r : RailIx) : SameBut [.rails] s (State.fuseRamp s r) := by
  unfold State.fuseRamp
  with_reducible exact State.modFuse_same ..

theorem State.fuseFrame_same (s : State) (r : RailIx) (fsrcMv : Nat) (ftmpUv : Int) : SameBut [.objs, .rails,
    .twin, .recd, .nvm] s (State.fuseFrame s r fsrcMv ftmpUv) := by
  unfold State.fuseFrame
  with_reducible refine same_ite ?_ ?_
  exact same_refl ..
  extract_lets +onlyGivenNames y; clear_value y
  extract_lets +onlyGivenNames y
  extract_lets +onlyGivenNames y; clear_value y
  extract_lets +onlyGivenNames y; clear_value y
  extract_lets +onlyGivenNames y; clear_value y
  extract_lets +onlyGivenNames y; clear_value y
  extract_lets +onlyGivenNames y; clear_value y
  extract_lets +onlyGivenNames t1; refine same_cut (y := t1) ?_ ?_; unfold t1; clear t1
  with_reducible refine same_mono (State.modFuse_same ..) (by decide)
  intro _; clear_value t1
  extract_lets +onlyGivenNames y; clear_value y
  with_reducible refine same_ite ?_ ?_
  with_reducible refine same_step ?_ (State.fuseTrip_same ..) (by decide)
  assumption
  assumption

/-! Domains -/

theorem State.tryStart_same (s : State) (d : DomainIx) : SameBut [.objs, .rails, .domains, .mb, .dev] s
    (State.tryStart s d) := by
  unfold State.tryStart
  extract_lets +onlyGivenNames y; clear_value y
  with_reducible refine same_ite ?_ ?_
  with_reducible exact State.enterUp_same ..
  exact same_refl ..

theorem State.setReq_same (s : State) (d : DomainIx) (on : Bool) : SameBut [.objs, .rails, .domains, .twin, .recd,
    .mb, .nvm, .dev] s (State.setReq s d on) := by
  unfold State.setReq
  extract_lets +onlyGivenNames y; clear_value y
  with_reducible refine same_ite ?_ ?_
  exact same_refl ..
  extract_lets +onlyGivenNames t1; refine same_cut (y := t1) ?_ ?_; unfold t1; clear t1
  with_reducible refine same_mono (State.modDomain_same ..) (by decide)
  intro _; clear_value t1
  with_reducible refine same_ite ?_ ?_
  with_reducible refine same_step ?_ (State.tryStart_same ..) (by decide)
  assumption
  split
  with_reducible refine same_step ?_ (State.enterDown_same ..) (by decide)
  assumption
  with_reducible refine same_step ?_ (State.enterDown_same ..) (by decide)
  assumption
  with_reducible refine same_step ?_ (State.modDomain_same ..) (by decide)
  assumption
  with_reducible refine same_step ?_ (State.settleDev_same ..) (by decide)
  with_reducible refine same_step ?_ (State.setDom_same ..) (by decide)
  assumption
  assumption

theorem State.pinRequest_same (s : State) (d : DomainIx) : SameBut [.objs, .rails, .domains, .twin, .recd, .mb,
    .nvm, .dev] s (State.pinRequest s d) := by
  unfold State.pinRequest
  with_reducible refine same_ite ?_ ?_
  split
  with_reducible exact State.setReq_same ..
  with_reducible exact State.setReq_same ..
  exact same_refl ..

theorem State.powerDownAll_same (s : State) : SameBut [.objs, .rails, .domains, .twin, .recd, .mb, .nvm, .dev] s
    (State.powerDownAll s) := by
  unfold State.powerDownAll
  with_reducible refine same_forEach ?_ fun _ _ => ?_
  exact same_refl ..
  split
  with_reducible exact State.enterDown_same ..
  with_reducible exact State.enterDown_same ..
  exact same_refl ..

theorem State.startStanding_same (s : State) : SameBut [.objs, .rails, .domains, .mb, .dev] s (State.startStanding
    s) := by
  unfold State.startStanding
  with_reducible refine same_forEach ?_ fun _ _ => ?_
  exact same_refl ..
  with_reducible exact State.tryStart_same ..

theorem State.schedAfter_same (s : State) (d : DomainIx) (r : RailIx) (qualified : Bool) : SameBut [.rails,
    .domains] s (State.schedAfter s d r qualified) := by
  unfold State.schedAfter
  split
  exact same_refl ..
  with_reducible refine same_ite ?_ ?_
  with_reducible exact State.schedUp_same ..
  exact same_refl ..

theorem State.fuseAgain_same (s : State) (r : RailIx) : SameBut [.objs, .rails, .twin, .recd, .nvm] s
    (State.fuseAgain s r) := by
  unfold State.fuseAgain
  with_reducible refine same_step ?_ (State.saveFuses_same ..) (by decide)
  with_reducible refine same_step ?_ (State.fuseRamp_same ..) (by decide)
  with_reducible refine same_mono (State.modFuse_same ..) (by decide)

theorem State.fuseWaited_same (s : State) (r : RailIx) : SameBut [.objs, .rails, .twin, .recd, .nvm] s
    (State.fuseWaited s r) := by
  unfold State.fuseWaited
  with_reducible refine same_ite ?_ ?_
  with_reducible exact State.fuseAgain_same ..
  exact same_refl ..

theorem State.enterRamp_same (s : State) (r : RailIx) : SameBut [.objs, .phases, .rails, .twin, .recd, .nvm] s
    (State.enterRamp s r) := by
  unfold State.enterRamp
  extract_lets +onlyGivenNames t1; refine same_cut (y := t1) ?_ ?_; unfold t1; clear t1
  with_reducible refine same_mono (State.modRail_same ..) (by decide)
  intro _; clear_value t1
  with_reducible refine same_step ?_ (State.fuseWaited_same ..) (by decide)
  with_reducible refine same_step ?_ (State.fuseStart_same ..) (by decide)
  with_reducible refine same_step ?_ (State.startLaw_same ..) (by decide)
  assumption

theorem State.disStart_same (s : State) (r : RailIx) : SameBut [.rails] s (State.disStart s r) := by
  unfold State.disStart
  extract_lets +onlyGivenNames y; clear_value y
  extract_lets +onlyGivenNames y; clear_value y
  with_reducible exact State.modSeq_same ..

theorem State.enterDischarge_same (s : State) (r : RailIx) : SameBut [.objs, .phases, .rails, .tune, .mb] s
    (State.enterDischarge s r) := by
  unfold State.enterDischarge
  extract_lets +onlyGivenNames t1; refine same_cut (y := t1) ?_ ?_; unfold t1; clear t1
  with_reducible refine same_step ?_ (State.modFf_same ..) (by decide)
  with_reducible refine same_mono (State.strokeMismatch_same ..) (by decide)
  intro _; clear_value t1
  extract_lets +onlyGivenNames t2; refine same_cut (y := t2) ?_ ?_; unfold t2; clear t2
  with_reducible refine same_step ?_ (State.abortTuneOn_same ..) (by decide)
  with_reducible refine same_step ?_ (State.abortPassive_same ..) (by decide)
  with_reducible refine same_step ?_ (State.abortSkim_same ..) (by decide)
  assumption
  intro _; clear_value t2
  extract_lets +onlyGivenNames t3; refine same_cut (y := t3) ?_ ?_; unfold t3; clear t3
  with_reducible refine same_step ?_ (State.modRail_same ..) (by decide)
  assumption
  intro _; clear_value t3
  extract_lets +onlyGivenNames t4; refine same_cut (y := t4) ?_ ?_; unfold t4; clear t4
  with_reducible refine same_forEach ?_ fun _ _ => ?_
  assumption
  with_reducible refine same_step ?_ (State.modGen_same ..) (by decide)
  with_reducible refine same_mono (State.modSense_same ..) (by decide)
  intro _; clear_value t4
  with_reducible refine same_step ?_ (State.disStart_same ..) (by decide)
  assumption

theorem State.enterOff_same (s : State) (r : RailIx) : SameBut [.objs, .phases, .rails, .domains, .tune, .twin,
    .recd, .mb, .nvm, .dev] s (State.enterOff s r) := by
  unfold State.enterOff
  with_reducible refine same_step ?_ (State.railWentOff_same ..) (by decide)
  with_reducible refine same_step ?_ (State.leaveRegulation_same ..) (by decide)
  with_reducible refine same_mono (State.disablePhases_same ..) (by decide)

theorem State.disFrame_same (s : State) (r : RailIx) : SameBut [.objs, .phases, .rails] s (State.disFrame s r) := by
  unfold State.disFrame
  extract_lets +onlyGivenNames y; clear_value y
  extract_lets +onlyGivenNames y; clear_value y
  extract_lets +onlyGivenNames t1; refine same_cut (y := t1) ?_ ?_; unfold t1; clear t1
  with_reducible refine same_mono (State.modSeq_same ..) (by decide)
  intro _; clear_value t1
  with_reducible refine same_ite ?_ ?_
  assumption
  with_reducible refine same_ite ?_ ?_
  with_reducible refine same_ite ?_ ?_
  with_reducible refine same_step ?_ (State.disStart_same ..) (by decide)
  assumption
  assumption
  with_reducible refine same_ite ?_ ?_
  with_reducible refine same_forEach ?_ fun _ _ => ?_
  with_reducible refine same_step ?_ (State.modSeq_same ..) (by decide)
  assumption
  with_reducible refine same_step ?_ (State.modGen_same ..) (by decide)
  with_reducible refine same_mono (State.dropCarry_same ..) (by decide)
  extract_lets +onlyGivenNames y; clear_value y
  extract_lets +onlyGivenNames y
  extract_lets +onlyGivenNames y; clear_value y
  extract_lets +onlyGivenNames y; clear_value y
  extract_lets +onlyGivenNames t2; refine same_cut (y := t2) ?_ ?_; unfold t2; clear t2
  with_reducible refine same_step ?_ (State.modSeq_same ..) (by decide)
  assumption
  intro _; clear_value t2
  with_reducible refine same_step ?_ (State.commitPhases_same ..) (by decide)
  with_reducible refine same_step ?_ (State.modLaw_same ..) (by decide)
  assumption

theorem State.goodFrame_same (s : State) (r : RailIx) : SameBut [.objs, .rails] s (State.goodFrame s r) := by
  unfold State.goodFrame
  extract_lets +onlyGivenNames y; clear_value y
  extract_lets +onlyGivenNames y; clear_value y
  extract_lets +onlyGivenNames t1; refine same_cut (y := t1) ?_ ?_; unfold t1; clear t1
  with_reducible refine same_mono (State.countIf_same ..) (by decide)
  intro _; clear_value t1
  with_reducible refine same_step ?_ (State.modSeq_same ..) (by decide)
  assumption

theorem State.enFrame_same (s : State) (pins : BitVec 4) : SameBut [.dev] s (State.enFrame s pins) := by
  unfold State.enFrame
  refine same_lit s ?_ ?_
  exact same_refl ..
  intro p hp; cases p <;> first | exact absurd (by decide) hp | rfl

/-! Protection -/

theorem State.cmpRecord_same (s : State) (c : CmpIx) (sub : Nat) : SameBut [.objs, .rails, .twin, .recd, .nvm] s
    (State.cmpRecord s c sub) := by
  unfold State.cmpRecord
  with_reducible exact State.record_same ..

theorem State.cmpRoute_same (s : State) (c : CmpIx) : SameBut [.objs, .phases, .rails, .domains, .cmps, .tune,
    .twin, .recd, .mb, .nvm, .dev] s (State.cmpRoute s c) := by
  unfold State.cmpRoute
  extract_lets +onlyGivenNames y; clear_value y
  split
  with_reducible refine same_mono (State.cmpRecord_same ..) (by decide)
  with_reducible refine same_mono (State.crowbar_same ..) (by decide)
  with_reducible refine same_ite ?_ ?_
  with_reducible refine same_mono (State.cmpRecord_same ..) (by decide)
  with_reducible refine same_mono (State.modProt_same ..) (by decide)
  with_reducible refine same_mono (State.latchRail_same ..) (by decide)
  with_reducible refine same_step ?_ (State.refreshFlt_same ..) (by decide)
  with_reducible refine same_step ?_ (State.powerDownAll_same ..) (by decide)
  with_reducible refine same_step ?_ (State.modCmp_same ..) (by decide)
  with_reducible refine same_mono (State.cmpRecord_same ..) (by decide)
  exact same_refl ..

theorem State.cmpFire_same (s : State) (c : CmpIx) (tick : Nat) : SameBut [.objs, .phases, .rails, .domains, .cmps,
    .tune, .twin, .recd, .mb, .nvm, .dev] s (State.cmpFire s c tick) := by
  unfold State.cmpFire
  extract_lets +onlyGivenNames t1; refine same_cut (y := t1) ?_ ?_; unfold t1; clear t1
  with_reducible refine same_mono (State.modCmp_same ..) (by decide)
  intro _; clear_value t1
  extract_lets +onlyGivenNames t2; refine same_cut (y := t2) ?_ ?_; unfold t2; clear t2
  with_reducible refine same_step ?_ (State.count_same ..) (by decide)
  assumption
  intro _; clear_value t2
  extract_lets +onlyGivenNames t3; refine same_cut (y := t3) ?_ ?_; unfold t3; clear t3
  with_reducible refine same_forEach ?_ fun _ _ => ?_
  assumption
  with_reducible refine same_mono (State.tripPhase_same ..) (by decide)
  intro _; clear_value t3
  with_reducible refine same_step ?_ (State.cmpRoute_same ..) (by decide)
  assumption

theorem State.cmpDecide_same (s : State) (c : CmpIx) (tick : Nat) : SameBut [.objs, .phases, .rails, .domains,
    .cmps, .tune, .twin, .recd, .mb, .nvm, .dev] s (State.cmpDecide s c tick) := by
  unfold State.cmpDecide
  extract_lets +onlyGivenNames y; clear_value y
  extract_lets +onlyGivenNames t1; refine same_cut (y := t1) ?_ ?_; unfold t1; clear t1
  with_reducible refine same_mono (State.modCmp_same ..) (by decide)
  intro _; clear_value t1
  with_reducible refine same_ite ?_ ?_
  assumption
  with_reducible refine same_step ?_ (State.cmpFire_same ..) (by decide)
  assumption

theorem State.cmpRelease_same (s : State) (c : CmpIx) (tick : Nat) : SameBut [.cmps] s (State.cmpRelease s c tick)
    := by
  unfold State.cmpRelease
  extract_lets +onlyGivenNames t1; refine same_cut (y := t1) ?_ ?_; unfold t1; clear t1
  with_reducible exact State.modCmp_same ..
  intro _; clear_value t1
  with_reducible refine same_ite ?_ ?_
  with_reducible refine same_step ?_ (State.modCmp_same ..) (by decide)
  assumption
  assumption

theorem State.cmpRestart_same (s : State) (c : CmpIx) : SameBut [.cmps] s (State.cmpRestart s c) := by
  unfold State.cmpRestart
  extract_lets +onlyGivenNames y; clear_value y
  with_reducible exact State.modCmp_same ..

theorem State.cmpFrame_same (s : State) : SameBut [.objs, .phases, .rails, .domains, .cmps, .tune, .twin, .recd,
    .mb, .nvm, .dev] s (State.cmpFrame s) := by
  unfold State.cmpFrame
  with_reducible refine same_forEach ?_ fun _ _ => ?_
  exact same_refl ..
  extract_lets +onlyGivenNames y; clear_value y
  with_reducible refine same_ite ?_ ?_
  exact same_refl ..
  with_reducible refine same_ite ?_ ?_
  with_reducible exact State.cmpFire_same ..
  with_reducible refine same_ite ?_ ?_
  with_reducible refine same_mono (State.modCmp_same ..) (by decide)
  exact same_refl ..

theorem State.cmpPeriod_same (s : State) (n : PhaseIx) : SameBut [.objs, .phases, .rails, .domains, .cmps, .tune,
    .twin, .recd, .mb, .nvm, .dev] s (State.cmpPeriod s n) := by
  unfold State.cmpPeriod
  extract_lets +onlyGivenNames y; clear_value y
  with_reducible refine same_forEach ?_ fun _ _ => ?_
  exact same_refl ..
  with_reducible refine same_ite ?_ ?_
  extract_lets +onlyGivenNames t1; refine same_cut (y := t1) ?_ ?_; unfold t1; clear t1
  with_reducible refine same_mono (State.modCmp_same ..) (by decide)
  intro _; clear_value t1
  with_reducible refine same_ite ?_ ?_
  with_reducible refine same_step ?_ (State.cmpFire_same ..) (by decide)
  assumption
  assumption
  exact same_refl ..

theorem State.cmpClear_same (s : State) (c : CmpIx) : SameBut [.objs, .phases, .rails, .domains, .cmps, .tune,
    .twin, .recd, .mb, .nvm, .dev] s (State.cmpClear s c) := by
  unfold State.cmpClear
  extract_lets +onlyGivenNames y; clear_value y
  with_reducible refine same_ite ?_ ?_
  with_reducible refine same_ite ?_ ?_
  with_reducible refine same_ite ?_ ?_
  with_reducible exact State.cmpFire_same ..
  with_reducible refine same_mono (State.modCmp_same ..) (by decide)
  exact same_refl ..
  with_reducible refine same_ite ?_ ?_
  with_reducible refine same_step ?_ (State.refreshFlt_same ..) (by decide)
  with_reducible refine same_step ?_ (State.startStanding_same ..) (by decide)
  with_reducible refine same_mono (State.modCmp_same ..) (by decide)
  exact same_refl ..

theorem State.levelFrame_same (s : State) (r : RailIx) : SameBut [.rails] s (State.levelFrame s r) := by
  unfold State.levelFrame
  extract_lets +onlyGivenNames y; clear_value y
  extract_lets +onlyGivenNames y; clear_value y
  extract_lets +onlyGivenNames y; clear_value y
  with_reducible exact State.modProt_same ..

theorem State.limitFrame_same (s : State) (r : RailIx) (lawRan : Bool) : SameBut [.objs, .rails] s
    (State.limitFrame s r lawRan) := by
  unfold State.limitFrame
  extract_lets +onlyGivenNames y; clear_value y
  extract_lets +onlyGivenNames t1; refine same_cut (y := t1) ?_ ?_; unfold t1; clear t1
  with_reducible refine same_mono (State.countIf_same ..) (by decide)
  intro _; clear_value t1
  extract_lets +onlyGivenNames y; clear_value y
  with_reducible refine same_step ?_ (State.modProt_same ..) (by decide)
  assumption

theorem State.inputFrame_same (s : State) (r : RailIx) : SameBut [.rails] s (State.inputFrame s r) := by
  unfold State.inputFrame
  extract_lets +onlyGivenNames y; clear_value y
  extract_lets +onlyGivenNames y; clear_value y
  extract_lets +onlyGivenNames y; clear_value y
  extract_lets +onlyGivenNames y; clear_value y
  extract_lets +onlyGivenNames y; clear_value y
  extract_lets +onlyGivenNames y; clear_value y
  with_reducible exact State.modProt_same ..

theorem State.cmpHiccups_same (s : State) : SameBut [.objs, .phases, .rails, .domains, .tune, .twin, .recd, .mb,
    .nvm, .dev] s (State.cmpHiccups s) := by
  unfold State.cmpHiccups
  with_reducible refine same_forEach ?_ fun _ _ => ?_
  exact same_refl ..
  with_reducible refine same_ite ?_ ?_
  with_reducible exact State.hiccupRail_same ..
  exact same_refl ..

theorem State.restart_same (s : State) (r : RailIx) : SameBut [.phases, .rails] s (State.restart s r) := by
  unfold State.restart
  with_reducible refine same_ite ?_ ?_
  with_reducible exact State.startLaw_same ..
  exact same_refl ..

theorem State.tempMean_same (s : State) (i : TempIx) (v : Int) : SameBut [.temps] s (State.tempMean s i v) := by
  unfold State.tempMean
  extract_lets +onlyGivenNames y; clear_value y
  extract_lets +onlyGivenNames t1; refine same_cut (y := t1) ?_ ?_; unfold t1; clear t1
  with_reducible exact State.modTemp_same ..
  intro _; clear_value t1
  with_reducible refine same_ite ?_ ?_
  with_reducible refine same_step ?_ (State.modTemp_same ..) (by decide)
  assumption
  assumption

theorem State.dieWindow_same (s : State) : SameBut [.nvm, .dev] s (State.dieWindow s) := by
  unfold State.dieWindow
  extract_lets +onlyGivenNames y; clear_value y
  extract_lets +onlyGivenNames y
  extract_lets +onlyGivenNames y; clear_value y
  extract_lets +onlyGivenNames y; clear_value y
  refine same_lit s ?_ ?_
  exact same_refl ..
  intro p hp; cases p <;> first | exact absurd (by decide) hp | rfl

theorem State.tempAct_same (s : State) (i : TempIx) (sub : Nat) : SameBut [.objs, .phases, .rails, .domains,
    .temps, .tune, .twin, .recd, .mb, .nvm, .dev] s (State.tempAct s i sub) := by
  unfold State.tempAct
  extract_lets +onlyGivenNames y; clear_value y
  extract_lets +onlyGivenNames y; clear_value y
  extract_lets +onlyGivenNames y
  split
  extract_lets +onlyGivenNames t1; refine same_cut (y := t1) ?_ ?_; unfold t1; clear t1
  with_reducible refine same_step ?_ (State.modTemp_same ..) (by decide)
  unfold y
  with_reducible refine same_mono (State.record_same ..) (by decide)
  intro _; clear_value t1
  with_reducible refine same_forEach ?_ fun _ _ => ?_
  assumption
  with_reducible refine same_step ?_ (State.modProt_same ..) (by decide)
  with_reducible refine same_mono (State.disablePhases_same ..) (by decide)
  with_reducible refine same_mono (State.latchRails_same ..) (by decide)
  with_reducible refine same_step ?_ (State.refreshFlt_same ..) (by decide)
  with_reducible refine same_step ?_ (State.powerDownAll_same ..) (by decide)
  with_reducible refine same_step ?_ (State.modTemp_same ..) (by decide)
  unfold y
  with_reducible refine same_mono (State.record_same ..) (by decide)
  unfold y
  with_reducible refine same_mono (State.record_same ..) (by decide)

theorem State.tempLevels_same (s : State) (i : TempIx) : SameBut [.objs, .phases, .rails, .domains, .temps, .tune,
    .twin, .recd, .mb, .nvm, .dev] s (State.tempLevels s i) := by
  unfold State.tempLevels
  extract_lets +onlyGivenNames y; clear_value y
  extract_lets +onlyGivenNames y
  extract_lets +onlyGivenNames y; clear_value y
  extract_lets +onlyGivenNames y; clear_value y
  extract_lets +onlyGivenNames y; clear_value y
  extract_lets +onlyGivenNames y; clear_value y
  extract_lets +onlyGivenNames y; clear_value y
  extract_lets +onlyGivenNames y; clear_value y
  extract_lets +onlyGivenNames y; clear_value y
  extract_lets +onlyGivenNames y; clear_value y
  extract_lets +onlyGivenNames t1; refine same_cut (y := t1) ?_ ?_; unfold t1; clear t1
  with_reducible refine same_mono (State.modTemp_same ..) (by decide)
  intro _; clear_value t1
  extract_lets +onlyGivenNames t2; refine same_cut (y := t2) ?_ ?_; unfold t2; clear t2
  with_reducible refine same_step ?_ (State.countIf_same ..) (by decide)
  assumption
  intro _; clear_value t2
  with_reducible refine same_ite ?_ ?_
  with_reducible refine same_step ?_ (State.tempAct_same ..) (by decide)
  with_reducible refine same_step ?_ (State.count_same ..) (by decide)
  assumption
  assumption

/-! Meter -/

theorem State.modMeter_same (s : State) (f : MeterState → MeterState) : SameBut [.meter] s (State.modMeter s f) := by
  unfold State.modMeter
  refine same_lit s ?_ ?_
  exact same_refl ..
  intro p hp; cases p <;> first | exact absurd (by decide) hp | rfl

theorem State.closeIv_same (s : State) (endAt : Rat) (flags : Nat) : SameBut [.meter] s (State.closeIv s endAt
    flags) := by
  unfold State.closeIv
  with_reducible exact State.modMeter_same ..

theorem State.cutIv_same (s : State) (endAt startAt : Rat) (flags : Nat) : SameBut [.meter] s (State.cutIv s endAt
    startAt flags) := by
  unfold State.cutIv
  with_reducible refine same_step ?_ (State.modMeter_same ..) (by decide)
  with_reducible exact State.closeIv_same ..

theorem State.meterTimeSet_same (s : State) (sec : Nat) (ns : Rat) : SameBut [.meter] s (State.meterTimeSet s sec
    ns) := by
  unfold State.meterTimeSet
  extract_lets +onlyGivenNames y; clear_value y
  with_reducible refine same_ite ?_ ?_
  exact same_refl ..
  extract_lets +onlyGivenNames t1; refine same_cut (y := t1) ?_ ?_; unfold t1; clear t1
  with_reducible exact State.closeIv_same ..
  intro _; clear_value t1
  with_reducible refine same_step ?_ (State.modMeter_same ..) (by decide)
  assumption

theorem State.auditAdd_same (s : State) (interval kind point old new : Nat) : SameBut [.meter] s (State.auditAdd s
    interval kind point old new) := by
  unfold State.auditAdd
  with_reducible exact State.modMeter_same ..

theorem State.abandonSession_same (s : State) : SameBut [.meter] s (State.abandonSession s) := by
  unfold State.abandonSession
  with_reducible refine same_ite ?_ ?_
  exact same_refl ..
  extract_lets +onlyGivenNames y; clear_value y
  with_reducible refine same_step ?_ (State.modMeter_same ..) (by decide)
  with_reducible exact State.auditAdd_same ..

theorem State.meterSaved_same (s : State) (closed : Bool) : SameBut [.meter] s (State.meterSaved s closed) := by
  unfold State.meterSaved
  with_reducible exact State.modMeter_same ..

theorem State.meterMedia_same (s : State) : SameBut [.meter] s (State.meterMedia s) := by
  unfold State.meterMedia
  with_reducible refine same_ite ?_ ?_
  exact same_refl ..
  with_reducible refine same_step ?_ (State.auditAdd_same ..) (by decide)
  with_reducible exact State.modMeter_same ..

theorem State.meterPowerFail_same (s : State) : SameBut [.meter] s (State.meterPowerFail s) := by
  unfold State.meterPowerFail
  with_reducible refine same_ite ?_ ?_
  exact same_refl ..
  with_reducible refine same_step ?_ (State.meterSaved_same ..) (by decide)
  with_reducible exact State.cutIv_same ..

theorem State.meterBoot_same (s : State) : SameBut [.meter] s (State.meterBoot s) := by
  unfold State.meterBoot
  with_reducible refine same_ite ?_ ?_
  exact same_refl ..
  extract_lets +onlyGivenNames y; clear_value y
  extract_lets +onlyGivenNames t1; refine same_cut (y := t1) ?_ ?_; unfold t1; clear t1
  with_reducible exact State.modMeter_same ..
  intro _; clear_value t1
  extract_lets +onlyGivenNames t2; refine same_cut (y := t2) ?_ ?_; unfold t2; clear t2
  with_reducible refine same_ite ?_ ?_
  assumption
  with_reducible refine same_step ?_ (State.closeIv_same ..) (by decide)
  assumption
  intro _; clear_value t2
  with_reducible refine same_step ?_ (State.meterSaved_same ..) (by decide)
  with_reducible refine same_step ?_ (State.modMeter_same ..) (by decide)
  assumption

theorem State.publish_same (s : State) : SameBut [.meter] s (State.publish s) := by
  unfold State.publish
  with_reducible exact State.modMeter_same ..

theorem State.meterFrame_same (s : State) : SameBut [.meter] s (State.meterFrame s) := by
  unfold State.meterFrame
  with_reducible exact State.modMeter_same ..

theorem State.clearOver_same (s : State) (i : PointIx) : SameBut [.meter] s (State.clearOver s i) := by
  unfold State.clearOver
  with_reducible exact State.modMeter_same ..

/-! Clocks -/

theorem State.modClk_same (s : State) (f : ClkState → ClkState) : SameBut [.clk] s (State.modClk s f) := by
  unfold State.modClk
  refine same_lit s ?_ ?_
  exact same_refl ..
  intro p hp; cases p <;> first | exact absurd (by decide) hp | rfl

theorem State.modTime_same (s : State) (f : TimeState → TimeState) : SameBut [.time] s (State.modTime s f) := by
  unfold State.modTime
  refine same_lit s ?_ ?_
  exact same_refl ..
  intro p hp; cases p <;> first | exact absurd (by decide) hp | rfl

theorem State.passTime_same (s : State) (dt : Rat) : SameBut [.time, .meter] s (State.passTime s dt) := by
  unfold State.passTime
  extract_lets +onlyGivenNames t1; refine same_cut (y := t1) ?_ ?_; unfold t1; clear t1
  with_reducible refine same_mono (State.modTime_same ..) (by decide)
  intro _; clear_value t1
  with_reducible refine same_ite ?_ ?_
  with_reducible refine same_step ?_ (State.modMeter_same ..) (by decide)
  assumption
  assumption

theorem State.timeTo_same (s : State) (sec : Nat) (ns : Rat) (sub : Nat) : SameBut [.objs, .time, .rails, .twin,
    .meter, .recd, .nvm] s (State.timeTo s sec ns sub) := by
  unfold State.timeTo
  with_reducible refine same_ite ?_ ?_
  exact same_refl ..
  extract_lets +onlyGivenNames t1; refine same_cut (y := t1) ?_ ?_; unfold t1; clear t1
  with_reducible refine same_mono (State.modTime_same ..) (by decide)
  intro _; clear_value t1
  extract_lets +onlyGivenNames t2; refine same_cut (y := t2) ?_ ?_; unfold t2; clear t2
  with_reducible refine same_step ?_ (State.anchor_same ..) (by decide)
  with_reducible refine same_step ?_ (State.count_same ..) (by decide)
  assumption
  intro _; clear_value t2
  with_reducible refine same_ite ?_ ?_
  with_reducible refine same_step ?_ (State.meterTimeSet_same ..) (by decide)
  assumption
  assumption

theorem State.timeIrq_same (s : State) (old : TimeSt) : SameBut [.mb] s (State.timeIrq s old) := by
  unfold State.timeIrq
  with_reducible exact State.irqIf_same ..

theorem State.mainPps_same (s : State) : SameBut [.objs, .time, .rails, .twin, .meter, .recd, .mb, .nvm] s
    (State.mainPps s) := by
  unfold State.mainPps
  extract_lets +onlyGivenNames y; clear_value y
  extract_lets +onlyGivenNames y; clear_value y
  split
  extract_lets +onlyGivenNames y; clear_value y
  extract_lets +onlyGivenNames t1; refine same_cut (y := t1) ?_ ?_; unfold t1; clear t1
  with_reducible refine same_mono (State.modTime_same ..) (by decide)
  intro _; clear_value t1
  extract_lets +onlyGivenNames t2; refine same_cut (y := t2) ?_ ?_; unfold t2; clear t2
  with_reducible refine same_step ?_ (State.modMeter_same ..) (by decide)
  assumption
  intro _; clear_value t2
  with_reducible refine same_step ?_ (State.finishOpt_same ..) (by decide)
  with_reducible refine same_step ?_ (State.timeTo_same ..) (by decide)
  assumption
  extract_lets +onlyGivenNames y; clear_value y
  extract_lets +onlyGivenNames t3; refine same_cut (y := t3) ?_ ?_; unfold t3; clear t3
  with_reducible refine same_mono (State.modTime_same ..) (by decide)
  intro _; clear_value t3
  with_reducible refine same_ite ?_ ?_
  with_reducible refine same_step ?_ (State.timeTo_same ..) (by decide)
  assumption
  assumption

theorem State.meterPps_same (s : State) (mainStepped : Bool) : SameBut [.meter] s (State.meterPps s mainStepped) := by
  unfold State.meterPps
  with_reducible refine same_ite ?_ ?_
  exact same_refl ..
  extract_lets +onlyGivenNames y; clear_value y
  extract_lets +onlyGivenNames y; clear_value y
  extract_lets +onlyGivenNames t1; refine same_cut (y := t1) ?_ ?_; unfold t1; clear t1
  with_reducible exact State.modMeter_same ..
  intro _; clear_value t1
  with_reducible refine same_ite ?_ ?_
  with_reducible refine same_step ?_ (State.meterTimeSet_same ..) (by decide)
  assumption
  assumption

theorem State.freqFrame_same (s : State) (err : Int) : SameBut [.clk] s (State.freqFrame s err) := by
  unfold State.freqFrame
  with_reducible exact State.modClk_same ..

theorem State.tick_same (s : State) (elapsedNs : Nat) (syncErr : Int) :
    SameBut [.now, .clk, .time, .rails, .meter] s (State.tick s elapsedNs syncErr) := by
  unfold State.tick
  extract_lets +onlyGivenNames a b super align c
  have ha : SameBut [.now, .clk, .time, .rails, .meter] s a :=
    same_lit s (same_refl ..) (by intro p hp; cases p <;> first | exact absurd (by decide) hp | rfl)
  have hb : SameBut [.now, .clk, .time, .rails, .meter] s b := same_step ha (State.passTime_same ..) (by decide)
  have hc : SameBut [.now, .clk, .time, .rails, .meter] s c :=
    same_step (same_step hb (State.freqFrame_same ..) (by decide)) (State.modClk_same ..) (by decide)
  clear_value align c
  exact same_ite (same_step hc (State.alignCarriers_same ..) (by decide)) hc

end Sys2Proof.Machine
end

