-- ==== Sys2Proof/Laws/SameHost.lean ====
section
/-! SUPPORT. The areas of State that object access, the edge, the twin, the frame, the mailbox, the requests and the boot change; all others stand
(see Laws/Same.lean). Each proof walks its function's body in order. -/

namespace Sys2Proof.Machine

/-! Access -/

theorem State.latchFrame_same (s : State) : SameBut [.clk] s (State.latchFrame s) := by
  unfold State.latchFrame
  with_reducible exact State.modClk_same ..

theorem State.latchSec_same (s : State) : SameBut [.time] s (State.latchSec s) := by
  unfold State.latchSec
  with_reducible exact State.modTime_same ..

theorem State.latchRec_same (s : State) (which : RecLow) : SameBut [.recd] s (State.latchRec s which) := by
  unfold State.latchRec
  split
  with_reducible exact State.modRec_same ..
  with_reducible exact State.modRec_same ..

theorem State.latchEnergy_same (s : State) (i : PointIx) (dir : EnergyDir) : SameBut [.meter] s (State.latchEnergy
    s i dir) := by
  unfold State.latchEnergy
  extract_lets +onlyGivenNames y; clear_value y
  split
  with_reducible exact State.modMeter_same ..
  with_reducible exact State.modMeter_same ..

theorem State.clearPeak_same (s : State) (e : EngineIx) : SameBut [.dev] s (State.clearPeak s e) := by
  unfold State.clearPeak
  refine same_lit s ?_ ?_
  exact same_refl ..
  intro p hp; cases p <;> first | exact absurd (by decide) hp | rfl

theorem State.readEffect_same (s : State) (o : Obj) : SameBut [.objs, .clk, .time, .meter, .recd, .dev] s
    (State.readEffect s o) := by
  unfold State.readEffect
  with_reducible refine same_ite ?_ ?_
  with_reducible refine same_ite ?_ ?_
  with_reducible refine same_mono (State.latchFrame_same ..) (by decide)
  exact same_refl ..
  with_reducible refine same_ite ?_ ?_
  with_reducible refine same_ite ?_ ?_
  with_reducible refine same_mono (State.latchSec_same ..) (by decide)
  exact same_refl ..
  with_reducible refine same_ite ?_ ?_
  with_reducible refine same_ite ?_ ?_
  with_reducible refine same_mono (State.latchRec_same ..) (by decide)
  with_reducible refine same_ite ?_ ?_
  with_reducible refine same_mono (State.latchRec_same ..) (by decide)
  exact same_refl ..
  with_reducible refine same_ite ?_ ?_
  refine same_dite (fun _ => ?_) (fun _ => ?_)
  with_reducible refine same_ite ?_ ?_
  with_reducible refine same_mono (State.latchEnergy_same ..) (by decide)
  with_reducible refine same_ite ?_ ?_
  with_reducible refine same_mono (State.latchEnergy_same ..) (by decide)
  with_reducible refine same_ite ?_ ?_
  with_reducible refine same_mono (State.clearOver_same ..) (by decide)
  exact same_refl ..
  exact same_refl ..
  with_reducible refine same_ite ?_ ?_
  refine same_dite (fun _ => ?_) (fun _ => ?_)
  with_reducible refine same_mono (State.clearPeak_same ..) (by decide)
  exact same_refl ..
  with_reducible refine same_ite ?_ ?_
  refine same_dite (fun _ => ?_) (fun _ => ?_)
  with_reducible refine same_mono (State.tblAdvance_same ..) (by decide)
  exact same_refl ..
  exact same_refl ..

theorem State.readObj_same {s : State} {o : Obj} {q : State × Word} (h : s.readObj o = some q) :
    SameBut [.objs, .clk, .time, .meter, .recd, .dev] s q.1 := by
  obtain ⟨v, -, rfl⟩ := Option.map_eq_some_iff.mp h
  exact State.readEffect_same ..

theorem State.readBlock_same (s : State) (cls inst item n : Nat) :
    SameBut [.objs, .clk, .time, .meter, .recd, .dev] s (s.readBlock cls inst item n).1 := by
  induction n generalizing s item with
  | zero => exact same_refl ..
  | succ n ih =>
    unfold State.readBlock
    split
    · exact ih ..
    · rename_i p h
      split at h
      · exact same_step (State.readObj_same h) (ih ..) (by decide)
      · cases h

theorem State.writeTarget_same (s : State) (r : RailIx) (v : Word) : SameBut [.objs, .rails, .mb] s
    (State.writeTarget s r v) := by
  unfold State.writeTarget
  extract_lets +onlyGivenNames t1; refine same_cut (y := t1) ?_ ?_; unfold t1; clear t1
  with_reducible refine same_mono (State.setObj_same ..) (by decide)
  intro _; clear_value t1
  with_reducible refine same_ite ?_ ?_
  assumption
  extract_lets +onlyGivenNames y; clear_value y
  with_reducible refine same_ite ?_ ?_
  with_reducible refine same_step ?_ (State.takeTarget_same ..) (by decide)
  assumption
  with_reducible refine same_ite ?_ ?_
  with_reducible refine same_step ?_ (State.takeRequested_same ..) (by decide)
  assumption
  assumption

theorem State.slamDisable_same (s : State) (r : RailIx) : SameBut [.phases, .rails] s (State.slamDisable s r) := by
  unfold State.slamDisable
  with_reducible refine same_ite ?_ ?_
  with_reducible refine same_mono (State.modLaw_same ..) (by decide)
  extract_lets +onlyGivenNames t1; refine same_cut (y := t1) ?_ ?_; unfold t1; clear t1
  with_reducible refine same_step ?_ (State.endPark_same ..) (by decide)
  with_reducible refine same_step ?_ (State.slamReturn_same ..) (by decide)
  with_reducible refine same_mono (State.preloadNow_same ..) (by decide)
  intro _; clear_value t1
  with_reducible refine same_step ?_ (State.modLaw_same ..) (by decide)
  assumption

theorem State.writeLawCtrl_same (s : State) (r : RailIx) (v : Word) : SameBut [.objs, .phases, .rails] s
    (State.writeLawCtrl s r v) := by
  unfold State.writeLawCtrl
  extract_lets +onlyGivenNames y; clear_value y
  extract_lets +onlyGivenNames t1; refine same_cut (y := t1) ?_ ?_; unfold t1; clear t1
  with_reducible refine same_mono (State.setObj_same ..) (by decide)
  intro _; clear_value t1
  with_reducible refine same_ite ?_ ?_
  with_reducible refine same_step ?_ (State.slamDisable_same ..) (by decide)
  assumption
  assumption

theorem State.ltReset_same (s : State) (r : RailIx) : SameBut [.rails] s (State.ltReset s r) := by
  unfold State.ltReset
  with_reducible exact State.modLt_same ..

theorem State.ffCommand_same (s : State) (r : RailIx) (cmd : Nat) : SameBut [.objs, .rails, .twin, .recd, .nvm] s
    (State.ffCommand s r cmd) := by
  unfold State.ffCommand
  split
  with_reducible refine same_mono (State.ffClear_same ..) (by decide)
  with_reducible exact State.save_same ..
  with_reducible refine same_mono (State.ffRestore_same ..) (by decide)
  exact same_refl ..

theorem State.useCoefs_same (s : State) (r : RailIx) (b0 b1 b2 a1 a2 : Word) : SameBut [.rails] s (State.useCoefs s
    r b0 b1 b2 a1 a2) := by
  unfold State.useCoefs
  with_reducible refine same_step ?_ (State.ltReset_same ..) (by decide)
  with_reducible exact State.modLaw_same ..

theorem State.writeRail_same (s : State) (r : RailIx) (item : Nat) (raw v : Word) : SameBut [.objs, .phases,
    .rails, .ports, .twin, .recd, .mb, .nvm] s (State.writeRail s r item raw v) := by
  unfold State.writeRail
  with_reducible refine same_ite ?_ ?_
  with_reducible refine same_mono (State.writeTarget_same ..) (by decide)
  with_reducible refine same_ite ?_ ?_
  with_reducible refine same_mono (State.writeLawCtrl_same ..) (by decide)
  with_reducible refine same_ite ?_ ?_
  with_reducible refine same_mono (State.tblWrite_same ..) (by decide)
  with_reducible refine same_ite ?_ ?_
  exact same_refl ..
  with_reducible refine same_ite ?_ ?_
  with_reducible refine same_mono (State.ffCommand_same ..) (by decide)
  extract_lets +onlyGivenNames t1; refine same_cut (y := t1) ?_ ?_; unfold t1; clear t1
  with_reducible refine same_mono (State.setObj_same ..) (by decide)
  intro _; clear_value t1
  with_reducible refine same_ite ?_ ?_
  with_reducible refine same_step ?_ (State.reclamp_same ..) (by decide)
  assumption
  with_reducible refine same_ite ?_ ?_
  with_reducible refine same_ite ?_ ?_
  with_reducible refine same_step ?_ (State.ltReset_same ..) (by decide)
  assumption
  assumption
  with_reducible refine same_ite ?_ ?_
  with_reducible refine same_step ?_ (State.ltClamp_same ..) (by decide)
  assumption
  with_reducible refine same_ite ?_ ?_
  with_reducible refine same_step ?_ (State.linkPolicy_same ..) (by decide)
  assumption
  assumption

theorem State.armHs_same (s : State) (n : PhaseIx) (v : Word) : SameBut [.phases] s (State.armHs s n v) := by
  unfold State.armHs
  with_reducible refine same_ite ?_ ?_
  with_reducible exact State.modGen_same ..
  exact same_refl ..

theorem State.writeForce_same (s : State) (n : PhaseIx) (v : Word) : SameBut [.objs, .phases] s (State.writeForce s
    n v) := by
  unfold State.writeForce
  with_reducible refine same_step ?_ (State.modGen_same ..) (by decide)
  with_reducible refine same_mono (State.setObj_same ..) (by decide)

theorem State.writeForceDuty_same (s : State) (n : PhaseIx) (v : Word) : SameBut [.objs, .phases] s
    (State.writeForceDuty s n v) := by
  unfold State.writeForceDuty
  with_reducible refine same_step ?_ (State.modGen_same ..) (by decide)
  with_reducible refine same_mono (State.setObj_same ..) (by decide)

theorem State.writePhase_same (s : State) (n : PhaseIx) (item : Nat) (v : Word) : SameBut [.objs, .phases] s
    (State.writePhase s n item v) := by
  unfold State.writePhase
  with_reducible refine same_ite ?_ ?_
  with_reducible exact State.writeForce_same ..
  with_reducible refine same_ite ?_ ?_
  with_reducible exact State.writeForceDuty_same ..
  with_reducible refine same_ite ?_ ?_
  with_reducible refine same_mono (State.armHs_same ..) (by decide)
  with_reducible refine same_mono (State.setObj_same ..) (by decide)

theorem State.requestAlign_same (s : State) : SameBut [.clk] s (State.requestAlign s) := by
  unfold State.requestAlign
  with_reducible refine same_ite ?_ ?_
  exact same_refl ..
  with_reducible exact State.modClk_same ..

theorem State.disableSync_same (s : State) : SameBut [.clk] s (State.disableSync s) := by
  unfold State.disableSync
  split
  with_reducible exact State.modClk_same ..
  with_reducible exact State.modClk_same ..
  exact same_refl ..

theorem State.writeClk_same (s : State) (item : Nat) (v : Word) : SameBut [.objs, .clk] s (State.writeClk s item v)
    := by
  unfold State.writeClk
  with_reducible refine same_ite ?_ ?_
  with_reducible refine same_mono (State.requestAlign_same ..) (by decide)
  extract_lets +onlyGivenNames y; clear_value y
  extract_lets +onlyGivenNames t1; refine same_cut (y := t1) ?_ ?_; unfold t1; clear t1
  with_reducible refine same_mono (State.setObj_same ..) (by decide)
  intro _; clear_value t1
  with_reducible refine same_ite ?_ ?_
  with_reducible refine same_step ?_ (State.disableSync_same ..) (by decide)
  assumption
  assumption

theorem State.writePort_same (s : State) (p : PortIx) (item : Nat) (v : Word) : SameBut [.objs, .ports] s
    (State.writePort s p item v) := by
  unfold State.writePort
  extract_lets +onlyGivenNames y; clear_value y
  extract_lets +onlyGivenNames t1; refine same_cut (y := t1) ?_ ?_; unfold t1; clear t1
  with_reducible refine same_mono (State.setObj_same ..) (by decide)
  intro _; clear_value t1
  with_reducible refine same_ite ?_ ?_
  with_reducible refine same_ite ?_ ?_
  with_reducible refine same_step ?_ (State.enablePort_same ..) (by decide)
  assumption
  with_reducible refine same_ite ?_ ?_
  with_reducible refine same_step ?_ (State.disablePort_same ..) (by decide)
  assumption
  assumption
  assumption

theorem State.writeFeed_same (s : State) (o : Obj) (v : Word) : SameBut [.objs, .feeds, .mb] s (State.writeFeed s o
    v) := by
  unfold State.writeFeed
  with_reducible refine same_ite ?_ ?_
  with_reducible refine same_step ?_ (State.refreshFlt_same ..) (by decide)
  with_reducible refine same_mono (State.setObj_same ..) (by decide)
  with_reducible refine same_mono (State.feedWrite_same ..) (by decide)

theorem State.writeCmp_same (s : State) (c : CmpIx) (item : Nat) (v : Word) : SameBut [.objs, .phases, .rails,
    .domains, .cmps, .tune, .twin, .recd, .mb, .nvm, .dev] s (State.writeCmp s c item v) := by
  unfold State.writeCmp
  with_reducible refine same_ite ?_ ?_
  with_reducible exact State.cmpClear_same ..
  extract_lets +onlyGivenNames t1; refine same_cut (y := t1) ?_ ?_; unfold t1; clear t1
  with_reducible refine same_mono (State.setObj_same ..) (by decide)
  intro _; clear_value t1
  with_reducible refine same_ite ?_ ?_
  with_reducible refine same_step ?_ (State.cmpRestart_same ..) (by decide)
  assumption
  assumption

theorem State.applyKey_same (s : State) : SameBut [.mb] s (State.applyKey s) := by
  unfold State.applyKey
  extract_lets +onlyGivenNames y; clear_value y
  extract_lets +onlyGivenNames y; clear_value y
  refine same_lit s ?_ ?_
  exact same_refl ..
  intro p hp; cases p <;> first | exact absurd (by decide) hp | rfl

theorem State.writeAuth_same (s : State) (item : Nat) (v : Word) : SameBut [.objs, .mb] s (State.writeAuth s item
    v) := by
  unfold State.writeAuth
  with_reducible refine same_ite ?_ ?_
  with_reducible refine same_mono (State.setObj_same ..) (by decide)
  with_reducible refine same_ite ?_ ?_
  with_reducible refine same_mono (State.applyKey_same ..) (by decide)
  extract_lets +onlyGivenNames y; clear_value y
  refine same_lit s ?_ ?_
  exact same_refl ..
  intro p hp; cases p <;> first | exact absurd (by decide) hp | rfl

theorem State.markModified_same (s : State) (o : Obj) : SameBut [.cfg] s (State.markModified s o) := by
  unfold State.markModified
  with_reducible refine same_ite ?_ ?_
  refine same_lit s ?_ ?_
  exact same_refl ..
  intro p hp; cases p <;> first | exact absurd (by decide) hp | rfl
  exact same_refl ..

theorem State.applyWrite_same (s : State) (w : ObjWrite) : SameBut [.objs, .clk, .phases, .rails, .ports, .domains,
    .feeds, .cmps, .tune, .twin, .recd, .mb, .cfg, .nvm, .dev] s (State.applyWrite s w) := by
  unfold State.applyWrite
  extract_lets +onlyGivenNames y; clear_value y
  extract_lets +onlyGivenNames y; clear_value y
  extract_lets +onlyGivenNames t1; refine same_cut (y := t1) ?_ ?_; unfold t1; clear t1
  with_reducible refine same_mono (State.markModified_same ..) (by decide)
  intro _; clear_value t1
  with_reducible refine same_ite ?_ ?_
  refine same_dite (fun _ => ?_) (fun _ => ?_)
  with_reducible refine same_step ?_ (State.writeRail_same ..) (by decide)
  assumption
  assumption
  with_reducible refine same_ite ?_ ?_
  refine same_dite (fun _ => ?_) (fun _ => ?_)
  with_reducible refine same_step ?_ (State.writePhase_same ..) (by decide)
  assumption
  assumption
  with_reducible refine same_ite ?_ ?_
  with_reducible refine same_step ?_ (State.writeClk_same ..) (by decide)
  assumption
  with_reducible refine same_ite ?_ ?_
  refine same_dite (fun _ => ?_) (fun _ => ?_)
  with_reducible refine same_step ?_ (State.writePort_same ..) (by decide)
  assumption
  assumption
  with_reducible refine same_ite ?_ ?_
  with_reducible refine same_step ?_ (State.writeFeed_same ..) (by decide)
  assumption
  with_reducible refine same_ite ?_ ?_
  refine same_dite (fun _ => ?_) (fun _ => ?_)
  with_reducible refine same_step ?_ (State.writeCmp_same ..) (by decide)
  assumption
  assumption
  with_reducible refine same_ite ?_ ?_
  with_reducible refine same_step ?_ (State.abortTune_same ..) (by decide)
  assumption
  with_reducible refine same_ite ?_ ?_
  with_reducible refine same_step ?_ (State.writeAuth_same ..) (by decide)
  assumption
  extract_lets +onlyGivenNames t2; refine same_cut (y := t2) ?_ ?_; unfold t2; clear t2
  with_reducible refine same_step ?_ (State.setObj_same ..) (by decide)
  assumption
  intro _; clear_value t2
  with_reducible refine same_ite ?_ ?_
  refine same_dite (fun _ => ?_) (fun _ => ?_)
  with_reducible refine same_step ?_ (State.pinRequest_same ..) (by decide)
  assumption
  assumption
  with_reducible refine same_ite ?_ ?_
  with_reducible refine same_forEach ?_ fun _ _ => ?_
  assumption
  with_reducible refine same_mono (State.pinRequest_same ..) (by decide)
  assumption

theorem State.atEdge_same (s : State) (a : EdgeAction) : SameBut [.edgeQueue] s (State.atEdge s a) := by
  unfold State.atEdge
  refine same_lit s ?_ ?_
  exact same_refl ..
  intro p hp; cases p <;> first | exact absurd (by decide) hp | rfl

theorem State.replicate_same (s : State) (r : Req) : SameBut [.twin] s (State.replicate s r) := by
  unfold State.replicate
  with_reducible refine same_ite ?_ ?_
  with_reducible exact State.toTwin_same ..
  exact same_refl ..

theorem State.queueCoefs_same (s : State) (ms : List ObjWrite) : SameBut [.edgeQueue] s (State.queueCoefs s ms) := by
  unfold State.queueCoefs
  with_reducible refine same_forEach ?_ fun _ _ => ?_
  exact same_refl ..
  with_reducible refine same_ite ?_ ?_
  refine same_dite (fun _ => ?_) (fun _ => ?_)
  with_reducible exact State.atEdge_same ..
  exact same_refl ..
  exact same_refl ..

theorem State.startSlot_same (s : State) (k : SlotIx) : SameBut [.mb] s (State.startSlot s k) := by
  unfold State.startSlot
  with_reducible exact State.modSlot_same ..

theorem State.acceptSet_same (s : State) (k : SlotIx) (w : ObjWrite) : SameBut [.objs, .edgeQueue, .clk, .phases,
    .rails, .ports, .domains, .feeds, .cmps, .tune, .twin, .recd, .mb, .cfg, .nvm, .dev] s (State.acceptSet s k w)
      := by
  unfold State.acceptSet
  extract_lets +onlyGivenNames t1; refine same_cut (y := t1) ?_ ?_; unfold t1; clear t1
  with_reducible refine same_mono (State.replicate_same ..) (by decide)
  intro _; clear_value t1
  with_reducible refine same_ite ?_ ?_
  with_reducible refine same_step ?_ (State.startSlot_same ..) (by decide)
  with_reducible refine same_step ?_ (State.queueCoefs_same ..) (by decide)
  with_reducible refine same_step ?_ (State.atEdge_same ..) (by decide)
  assumption
  with_reducible refine same_step ?_ (State.finish_same ..) (by decide)
  with_reducible refine same_step ?_ (State.applyWrite_same ..) (by decide)
  assumption

theorem State.doSet_same (s : State) (k : SlotIx) (authed : Bool) (w : ObjWrite) : SameBut [.objs, .edgeQueue,
    .clk, .phases, .rails, .ports, .domains, .feeds, .cmps, .tune, .twin, .recd, .mb, .cfg, .nvm, .dev] s
      (State.doSet s k authed w) := by
  unfold State.doSet
  extract_lets +onlyGivenNames y; clear_value y
  with_reducible refine same_ite ?_ ?_
  with_reducible exact State.acceptSet_same ..
  with_reducible refine same_mono (State.finish_same ..) (by decide)

theorem State.applyMember_same (s : State) (b : Bool) (ws : List ObjWrite) :
    SameBut [.objs, .clk, .phases, .rails, .ports, .domains, .feeds, .cmps, .tune, .twin, .recd, .mb, .cfg, .nvm,
      .dev] s (s.applyMember b ws).1 := by
  unfold State.applyMember
  split
  · exact same_refl ..
  · exact same_forEach (same_refl ..) State.applyWrite_same

theorem State.applyMembers_same (s : State) (b : Bool) (ms : List (List ObjWrite)) :
    SameBut [.objs, .clk, .phases, .rails, .ports, .domains, .feeds, .cmps, .tune, .twin, .recd, .mb, .cfg, .nvm,
      .dev] s (s.applyMembers b ms).1 := by
  induction ms generalizing s with
  | nil => exact same_refl ..
  | cons m ms ih => exact same_step (State.applyMember_same s b m) (ih _) (by decide)

theorem State.finishGroup_same (s : State) (slot : Option SlotIx) (codes : List Nat) : SameBut [.mb] s
    (State.finishGroup s slot codes) := by
  unfold State.finishGroup
  with_reducible exact State.finishOpt_same ..

/-! HostOps -/

theorem State.applyTarget_same (s : State) (slot : Option SlotIx) (i : Nat) (m : TargetMember) :
    SameBut [.objs, .rails, .mb] s (State.applyTarget s slot i m) := by
  unfold State.applyTarget
  extract_lets +onlyGivenNames d code
  have done : ∀ s code clamped, SameBut [.objs, .rails, .mb] s (d s code clamped) := by
    intro s code clamped
    unfold d
    split
    · exact same_mono (State.gatherSet_same ..) (by decide)
    · exact same_refl ..
  refine same_dite (fun h => ?_) (fun h => done ..)
  extract_lets +onlyGivenNames r a
  have ha : SameBut [.objs, .rails, .mb] s a :=
    same_mono (State.setObj_same ..) (by decide)
  clear_value a
  refine same_ite (same_step ha (done ..) (by decide)) ?_
  extract_lets +onlyGivenNames b
  have hb : SameBut [.objs, .rails, .mb] s b := same_step ha (State.takeTarget_same ..) (by decide)
  clear_value b
  split
  · exact same_step hb (State.modProf_same ..) (by decide)
  · exact same_step hb (done ..) (by decide)

theorem State.applyTargets_same (s : State) (slot : Option SlotIx) (i : Nat) (ms : List TargetMember) :
    SameBut [.objs, .rails, .mb] s (s.applyTargets slot i ms) := by
  induction ms generalizing s i with
  | nil => exact same_refl ..
  | cons m ms ih => exact same_step (State.applyTarget_same s slot i m) (ih _ _) (by decide)

theorem State.clearLatch_same (s : State) (r : RailIx) (override : Bool) (key : Nat) : SameBut [.objs, .phases,
    .rails, .domains, .twin, .recd, .mb, .nvm, .dev] s (State.clearLatch s r override key) := by
  unfold State.clearLatch
  extract_lets +onlyGivenNames y; clear_value y
  extract_lets +onlyGivenNames t1; refine same_cut (y := t1) ?_ ?_; unfold t1; clear t1
  with_reducible refine same_step ?_ (State.modProt_same ..) (by decide)
  with_reducible refine same_mono (State.endCrowbar_same ..) (by decide)
  intro _; clear_value t1
  extract_lets +onlyGivenNames t2; refine same_cut (y := t2) ?_ ?_; unfold t2; clear t2
  with_reducible refine same_forEach ?_ fun _ _ => ?_
  assumption
  with_reducible refine same_ite ?_ ?_
  with_reducible refine same_step ?_ (State.modSense_same ..) (by decide)
  with_reducible refine same_mono (State.modGen_same ..) (by decide)
  with_reducible refine same_mono (State.modGen_same ..) (by decide)
  intro _; clear_value t2
  extract_lets +onlyGivenNames t3; refine same_cut (y := t3) ?_ ?_; unfold t3; clear t3
  with_reducible refine same_step ?_ (State.modFuse_same ..) (by decide)
  assumption
  intro _; clear_value t3
  extract_lets +onlyGivenNames t4; refine same_cut (y := t4) ?_ ?_; unfold t4; clear t4
  with_reducible refine same_step ?_ (State.saveFuses_same ..) (by decide)
  assumption
  intro _; clear_value t4
  extract_lets +onlyGivenNames t5; refine same_cut (y := t5) ?_ ?_; unfold t5; clear t5
  split
  assumption
  with_reducible refine same_ite ?_ ?_
  with_reducible refine same_step ?_ (State.settleDev_same ..) (by decide)
  with_reducible refine same_step ?_ (State.modDomain_same ..) (by decide)
  with_reducible refine same_step ?_ (State.setDom_same ..) (by decide)
  assumption
  assumption
  intro _; clear_value t5
  extract_lets +onlyGivenNames t6; refine same_cut (y := t6) ?_ ?_; unfold t6; clear t6
  with_reducible refine same_step ?_ (State.record_same ..) (by decide)
  assumption
  intro _; clear_value t6
  with_reducible refine same_step ?_ (State.refreshFlt_same ..) (by decide)
  with_reducible refine same_step ?_ (State.count_same ..) (by decide)
  assumption

theorem State.freeze_same (s : State) : SameBut [.recd, .nvm] s (State.freeze s) := by
  unfold State.freeze
  with_reducible refine same_step ?_ (State.armRec_same ..) (by decide)
  with_reducible refine same_mono (State.modRec_same ..) (by decide)

theorem State.clearCounters_same (s : State) (cls inst key : Nat) : SameBut [.objs, .rails, .twin, .recd, .nvm] s
    (State.clearCounters s cls inst key) := by
  unfold State.clearCounters
  extract_lets +onlyGivenNames t1; refine same_cut (y := t1) ?_ ?_; unfold t1; clear t1
  refine same_lit s ?_ ?_
  exact same_refl ..
  intro p hp; cases p <;> first | exact absurd (by decide) hp | rfl
  intro _; clear_value t1
  with_reducible refine same_step ?_ (State.record_same ..) (by decide)
  assumption

theorem State.loadCoefs_same (s : State) (r : RailIx) : SameBut [.rails] s (State.loadCoefs s r) := by
  unfold State.loadCoefs
  extract_lets +onlyGivenNames y
  with_reducible exact State.useCoefs_same ..

theorem State.loadTables_same (s : State) (old : Store) (tables : List (Nat × Nat × Sparse)) (r : RailIx) : SameBut
    [.rails] s (State.loadTables s old tables r) := by
  unfold State.loadTables
  extract_lets +onlyGivenNames y; clear_value y
  extract_lets +onlyGivenNames y
  extract_lets +onlyGivenNames y
  with_reducible exact State.modFf_same ..

theorem State.install_same (s : State) (image : Store) (tables : List (Nat × Nat × Sparse)) : SameBut [.objs,
    .phases, .rails, .ports, .cmps] s (State.install s image tables) := by
  unfold State.install
  extract_lets +onlyGivenNames y; clear_value y
  extract_lets +onlyGivenNames t1; refine same_cut (y := t1) ?_ ?_; unfold t1; clear t1
  refine same_lit s ?_ ?_
  exact same_refl ..
  intro p hp; cases p <;> first | exact absurd (by decide) hp | rfl
  intro _; clear_value t1
  extract_lets +onlyGivenNames t2; refine same_cut (y := t2) ?_ ?_; unfold t2; clear t2
  with_reducible refine same_forEach ?_ fun _ _ => ?_
  assumption
  with_reducible refine same_step ?_ (State.loadTables_same ..) (by decide)
  with_reducible refine same_mono (State.loadCoefs_same ..) (by decide)
  intro _; clear_value t2
  extract_lets +onlyGivenNames t3; refine same_cut (y := t3) ?_ ?_; unfold t3; clear t3
  with_reducible refine same_forEach ?_ fun _ _ => ?_
  assumption
  extract_lets +onlyGivenNames y; clear_value y
  with_reducible refine same_mono (State.modGen_same ..) (by decide)
  intro _; clear_value t3
  extract_lets +onlyGivenNames t4; refine same_cut (y := t4) ?_ ?_; unfold t4; clear t4
  with_reducible refine same_forEach ?_ fun _ _ => ?_
  assumption
  with_reducible refine same_ite ?_ ?_
  extract_lets +onlyGivenNames t5; refine same_cut (y := t5) ?_ ?_; unfold t5; clear t5
  with_reducible refine same_ite ?_ ?_
  with_reducible refine same_mono (State.disablePort_same ..) (by decide)
  exact same_refl ..
  intro _; clear_value t5
  with_reducible refine same_ite ?_ ?_
  with_reducible refine same_step ?_ (State.enablePort_same ..) (by decide)
  assumption
  assumption
  exact same_refl ..
  intro _; clear_value t4
  extract_lets +onlyGivenNames t6; refine same_cut (y := t6) ?_ ?_; unfold t6; clear t6
  with_reducible refine same_forEach ?_ fun _ _ => ?_
  assumption
  with_reducible refine same_mono (State.linkPolicy_same ..) (by decide)
  intro _; clear_value t6
  with_reducible refine same_forEach ?_ fun _ _ => ?_
  assumption
  with_reducible refine same_ite ?_ ?_
  with_reducible refine same_mono (State.cmpRestart_same ..) (by decide)
  exact same_refl ..

theorem State.commitAt_same (s : State) (gen : Nat) : SameBut [.objs, .phases, .rails, .ports, .domains, .cmps,
    .twin, .recd, .mb, .cfg, .nvm, .dev] s (State.commitAt s gen) := by
  unfold State.commitAt
  split
  exact same_refl ..
  extract_lets +onlyGivenNames t1; refine same_cut (y := t1) ?_ ?_; unfold t1; clear t1
  with_reducible refine same_mono (State.install_same ..) (by decide)
  intro _; clear_value t1
  extract_lets +onlyGivenNames y; clear_value y
  extract_lets +onlyGivenNames t2; refine same_cut (y := t2) ?_ ?_; unfold t2; clear t2
  refine same_lit t1 ?_ ?_
  assumption
  intro p hp; cases p <;> first | exact absurd (by decide) hp | rfl
  intro _; clear_value t2
  extract_lets +onlyGivenNames t3; refine same_cut (y := t3) ?_ ?_; unfold t3; clear t3
  with_reducible refine same_step ?_ (State.record_same ..) (by decide)
  with_reducible refine same_step ?_ (State.count_same ..) (by decide)
  assumption
  intro _; clear_value t3
  with_reducible refine same_forEach ?_ fun _ _ => ?_
  assumption
  with_reducible refine same_mono (State.pinRequest_same ..) (by decide)

theorem State.applyEdge_same (s : State) (a : EdgeAction) : SameBut [.objs, .clk, .phases, .rails, .ports,
    .domains, .feeds, .cmps, .tune, .twin, .recd, .mb, .cfg, .nvm, .dev] s (State.applyEdge s a) := by
  unfold State.applyEdge
  split
  extract_lets +onlyGivenNames y; clear_value y
  with_reducible refine same_ite ?_ ?_
  with_reducible refine same_step ?_ (State.finishOpt_same ..) (by decide)
  with_reducible exact State.applyWrite_same ..
  with_reducible refine same_mono (State.finishOpt_same ..) (by decide)
  extract_lets +onlyGivenNames t1; refine same_cut (y := t1.1) ?_ ?_; unfold t1; clear t1
  with_reducible exact State.applyMembers_same ..
  intro _; clear_value t1
  with_reducible refine same_step ?_ (State.finishGroup_same ..) (by decide)
  assumption
  extract_lets +onlyGivenNames t2; refine same_cut (y := t2.1) ?_ ?_; unfold t2; clear t2
  with_reducible exact State.applyMembers_same ..
  intro _; clear_value t2
  with_reducible refine same_step ?_ (State.finishGroup_same ..) (by decide)
  assumption
  with_reducible refine same_step ?_ (State.finishOpt_same ..) (by decide)
  with_reducible refine same_forEach ?_ fun _ _ => ?_
  exact same_refl ..
  with_reducible refine same_mono (State.setReq_same ..) (by decide)
  with_reducible refine same_mono (State.applyTargets_same ..) (by decide)
  extract_lets +onlyGivenNames y; clear_value y
  with_reducible refine same_step ?_ (State.finishOpt_same ..) (by decide)
  with_reducible refine same_mono (State.clearLatch_same ..) (by decide)
  split
  with_reducible refine same_mono (State.finishOpt_same ..) (by decide)
  with_reducible refine same_mono (State.tuneBegin_same ..) (by decide)
  with_reducible refine same_step ?_ (State.finishOpt_same ..) (by decide)
  with_reducible refine same_mono (State.freeze_same ..) (by decide)
  with_reducible refine same_step ?_ (State.finishOpt_same ..) (by decide)
  with_reducible refine same_mono (State.clearCounters_same ..) (by decide)
  with_reducible refine same_step ?_ (State.finishOpt_same ..) (by decide)
  with_reducible refine same_mono (State.commitAt_same ..) (by decide)
  with_reducible refine same_mono (State.useCoefs_same ..) (by decide)
  with_reducible refine same_step ?_ (State.finishOpt_same ..) (by decide)
  with_reducible refine same_mono (State.ffCommand_same ..) (by decide)

theorem State.applyQueue_same (s : State) : SameBut [.objs, .edgeQueue, .clk, .phases, .rails, .ports, .domains,
    .feeds, .cmps, .tune, .twin, .recd, .mb, .cfg, .nvm, .dev] s (State.applyQueue s) := by
  unfold State.applyQueue
  extract_lets +onlyGivenNames y; clear_value y
  with_reducible refine same_forEach ?_ fun _ _ => ?_
  with_reducible refine same_forEach ?_ fun _ _ => ?_
  refine same_lit s ?_ ?_
  exact same_refl ..
  intro p hp; cases p <;> first | exact absurd (by decide) hp | rfl
  with_reducible refine same_mono (State.applyEdge_same ..) (by decide)
  with_reducible refine same_mono (State.applyEdge_same ..) (by decide)

/-! Operands -/

theorem State.onRequest_same {ps : List Area} {s : State} {k : SlotIx} {r : Req} {f : Option Nat → State}
    (h : ∀ q, SameBut ps s (f q)) : SameBut ps s (s.onRequest k r f) := by
  unfold State.onRequest
  split
  · split
    · exact h _
    · exact same_refl ..
  · exact same_refl ..

theorem State.doGet_same (s : State) (k : SlotIx) (o : Obj) : SameBut [.objs, .clk, .time, .meter, .recd, .mb,
    .dev] s (s.doGet k o) := by
  unfold State.doGet
  split
  · exact same_step (same_mono (State.readObj_same ‹_›) (by decide)) (State.finish_same ..) (by decide)
  · exact same_mono (State.finish_same ..) (by decide)

/-! Twin -/

theorem State.modTwin_same (s : State) (f : TwinState → TwinState) : SameBut [.twin] s (State.modTwin s f) := by
  unfold State.modTwin
  refine same_lit s ?_ ?_
  exact same_refl ..
  intro p hp; cases p <;> first | exact absurd (by decide) hp | rfl

theorem State.setRole_same (s : State) (x : TwinRole) : SameBut [.objs, .rails, .twin, .recd, .mb, .nvm] s
    (State.setRole s x) := by
  unfold State.setRole
  extract_lets +onlyGivenNames y; clear_value y
  with_reducible refine same_step ?_ (State.irq_same ..) (by decide)
  with_reducible refine same_step ?_ (State.record_same ..) (by decide)
  with_reducible refine same_mono (State.modTwin_same ..) (by decide)

theorem State.abortHandover_same (s : State) : SameBut [.twin, .mb] s (State.abortHandover s) := by
  unfold State.abortHandover
  split
  with_reducible refine same_step ?_ (State.finish_same ..) (by decide)
  with_reducible refine same_mono (State.modTwin_same ..) (by decide)
  exact same_refl ..

theorem State.endArm_same (s : State) : SameBut [.twin, .mb] s (State.endArm s) := by
  unfold State.endArm
  split
  with_reducible refine same_step ?_ (State.finish_same ..) (by decide)
  with_reducible refine same_mono (State.modTwin_same ..) (by decide)
  exact same_refl ..

theorem State.arm_same (s : State) : SameBut [.objs, .rails, .twin, .recd, .mb, .nvm] s (State.arm s) := by
  unfold State.arm
  with_reducible refine same_step ?_ (State.endArm_same ..) (by decide)
  with_reducible refine same_step ?_ (State.irq_same ..) (by decide)
  with_reducible refine same_step ?_ (State.record_same ..) (by decide)
  with_reducible refine same_mono (State.modTwin_same ..) (by decide)

theorem State.unarmFor_same (s : State) (u : Unarm) : SameBut [.objs, .rails, .twin, .recd, .mb, .nvm] s
    (State.unarmFor s u) := by
  unfold State.unarmFor
  extract_lets +onlyGivenNames y; clear_value y
  extract_lets +onlyGivenNames t1; refine same_cut (y := t1) ?_ ?_; unfold t1; clear t1
  with_reducible refine same_mono (State.modTwin_same ..) (by decide)
  intro _; clear_value t1
  extract_lets +onlyGivenNames t2; refine same_cut (y := t2) ?_ ?_; unfold t2; clear t2
  with_reducible refine same_ite ?_ ?_
  with_reducible refine same_step ?_ (State.irq_same ..) (by decide)
  with_reducible refine same_step ?_ (State.record_same ..) (by decide)
  with_reducible refine same_step ?_ (State.count_same ..) (by decide)
  assumption
  assumption
  intro _; clear_value t2
  with_reducible refine same_step ?_ (State.abortHandover_same ..) (by decide)
  with_reducible refine same_step ?_ (State.endArm_same ..) (by decide)
  assumption

theorem State.resync_same (s : State) : SameBut [.twin] s (State.resync s) := by
  unfold State.resync
  with_reducible exact State.modTwin_same ..

theorem State.adoptRail_same (s : State) (r : RailIx) (a : RailAlign) : SameBut [.rails] s (State.adoptRail s r a)
    := by
  unfold State.adoptRail
  with_reducible exact State.modRail_same ..

theorem State.adoptPhase_same (s : State) (n : PhaseIx) (a : PhaseAlign) : SameBut [.phases] s (State.adoptPhase s
    n a) := by
  unfold State.adoptPhase
  with_reducible refine same_step ?_ (State.modGen_same ..) (by decide)
  with_reducible exact State.modSense_same ..

theorem State.adopt_same (s : State) (ar : AlignRec) : SameBut [.phases, .rails, .domains, .feeds] s (State.adopt s
    ar) := by
  unfold State.adopt
  extract_lets +onlyGivenNames t1; refine same_cut (y := t1) ?_ ?_; unfold t1; clear t1
  with_reducible refine same_forEach ?_ fun _ _ => ?_
  exact same_refl ..
  split
  with_reducible refine same_mono (State.adoptRail_same ..) (by decide)
  exact same_refl ..
  intro _; clear_value t1
  extract_lets +onlyGivenNames t2; refine same_cut (y := t2) ?_ ?_; unfold t2; clear t2
  with_reducible refine same_forEach ?_ fun _ _ => ?_
  assumption
  split
  with_reducible refine same_mono (State.adoptPhase_same ..) (by decide)
  exact same_refl ..
  intro _; clear_value t2
  extract_lets +onlyGivenNames y; clear_value y
  extract_lets +onlyGivenNames t3; refine same_cut (y := t3) ?_ ?_; unfold t3; clear t3
  refine same_lit t2 ?_ ?_
  assumption
  intro p hp; cases p <;> first | exact absurd (by decide) hp | rfl
  intro _; clear_value t3
  with_reducible refine same_forEach ?_ fun _ _ => ?_
  assumption
  split
  with_reducible refine same_mono (State.modDomain_same ..) (by decide)
  exact same_refl ..

theorem State.adoptFrame_same (s : State) : SameBut [.objs, .phases, .rails, .domains, .feeds, .twin, .recd, .mb,
    .nvm] s (State.adoptFrame s) := by
  unfold State.adoptFrame
  split
  exact same_refl ..
  extract_lets +onlyGivenNames y; clear_value y
  extract_lets +onlyGivenNames t1; refine same_cut (y := t1) ?_ ?_; unfold t1; clear t1
  with_reducible refine same_step ?_ (State.modTwin_same ..) (by decide)
  with_reducible refine same_mono (State.adopt_same ..) (by decide)
  intro _; clear_value t1
  with_reducible refine same_ite ?_ ?_
  with_reducible refine same_step ?_ (State.resync_same ..) (by decide)
  with_reducible refine same_step ?_ (State.unarmFor_same ..) (by decide)
  assumption
  assumption

theorem State.applyReplicated_same (s : State) : SameBut [.objs, .clk, .phases, .rails, .ports, .domains, .feeds,
    .cmps, .tune, .twin, .recd, .mb, .cfg, .nvm, .dev] s (State.applyReplicated s) := by
  unfold State.applyReplicated
  extract_lets +onlyGivenNames y; clear_value y
  extract_lets +onlyGivenNames y; clear_value y
  with_reducible refine same_forEach ?_ fun _ _ => ?_
  with_reducible refine same_mono (State.modTwin_same ..) (by decide)
  with_reducible exact State.applyEdge_same ..

theorem State.coldStart_same (s : State) : SameBut [.objs, .phases, .rails, .domains, .tune, .mb, .dev] s
    (State.coldStart s) := by
  unfold State.coldStart
  extract_lets +onlyGivenNames t1; refine same_cut (y := t1) ?_ ?_; unfold t1; clear t1
  with_reducible refine same_forEach ?_ fun _ _ => ?_
  exact same_refl ..
  with_reducible refine same_ite ?_ ?_
  with_reducible refine same_step ?_ (State.leaveRegulation_same ..) (by decide)
  with_reducible refine same_mono (State.disablePhases_same ..) (by decide)
  with_reducible refine same_mono (State.modRail_same ..) (by decide)
  intro _; clear_value t1
  extract_lets +onlyGivenNames t1; refine same_cut (y := t1) ?_ ?_; unfold t1; clear t1
  with_reducible refine same_forEach ?_ fun _ _ => ?_
  assumption
  with_reducible refine same_ite ?_ ?_
  exact same_refl ..
  with_reducible refine same_step ?_ (State.modDomain_same ..) (by decide)
  with_reducible refine same_mono (State.setDom_same ..) (by decide)
  intro _; clear_value t1
  with_reducible refine same_step ?_ (State.startStanding_same ..) (by decide)
  with_reducible refine same_step ?_ (State.settleDev_same ..) (by decide)
  assumption

theorem State.drive_same (s : State) : SameBut [.phases, .twin] s (State.drive s) := by
  unfold State.drive
  extract_lets +onlyGivenNames t1; refine same_cut (y := t1) ?_ ?_; unfold t1; clear t1
  with_reducible refine same_mono (State.modTwin_same ..) (by decide)
  intro _; clear_value t1
  with_reducible refine same_forEach ?_ fun _ _ => ?_
  assumption
  with_reducible refine same_step ?_ (State.modGen_same ..) (by decide)
  with_reducible refine same_mono (State.nextOnSchedule_same ..) (by decide)

theorem State.sendAlign_same (s : State) : SameBut [.twin] s (State.sendAlign s) := by
  unfold State.sendAlign
  with_reducible refine same_ite ?_ ?_
  exact same_refl ..
  extract_lets +onlyGivenNames y; clear_value y
  extract_lets +onlyGivenNames t1; refine same_cut (y := t1) ?_ ?_; unfold t1; clear t1
  with_reducible refine same_ite ?_ ?_
  with_reducible exact State.toTwin_same ..
  exact same_refl ..
  intro _; clear_value t1
  with_reducible refine same_ite ?_ ?_
  with_reducible refine same_step ?_ (State.toTwin_same ..) (by decide)
  assumption
  assumption

theorem State.twinFrame_same (s : State) (actN heartbeat twFs : Bool) : SameBut [.objs, .clk, .phases, .rails,
    .ports, .domains, .feeds, .cmps, .tune, .twin, .recd, .mb, .cfg, .nvm, .dev] s (State.twinFrame s actN
      heartbeat twFs) := by
  unfold State.twinFrame
  with_reducible refine same_ite ?_ ?_
  exact same_refl ..
  extract_lets +onlyGivenNames y; clear_value y
  extract_lets +onlyGivenNames t1; refine same_cut (y := t1) ?_ ?_; unfold t1; clear t1
  with_reducible refine same_mono (State.countIf_same ..) (by decide)
  intro _; clear_value t1
  extract_lets +onlyGivenNames y; clear_value y
  extract_lets +onlyGivenNames t2; refine same_cut (y := t2) ?_ ?_; unfold t2; clear t2
  with_reducible refine same_step ?_ (State.modTwin_same ..) (by decide)
  assumption
  intro _; clear_value t2
  extract_lets +onlyGivenNames t3; refine same_cut (y := t3) ?_ ?_; unfold t3; clear t3
  with_reducible refine same_step ?_ (State.modTwin_same ..) (by decide)
  assumption
  intro _; clear_value t3
  extract_lets +onlyGivenNames t4; refine same_cut (y := t4) ?_ ?_; unfold t4; clear t4
  with_reducible refine same_step ?_ (State.sendAlign_same ..) (by decide)
  assumption
  intro _; clear_value t4
  extract_lets +onlyGivenNames t5; refine same_cut (y := t5) ?_ ?_; unfold t5; clear t5
  split
  with_reducible refine same_ite ?_ ?_
  with_reducible refine same_step ?_ (State.drive_same ..) (by decide)
  assumption
  assumption
  assumption
  intro _; clear_value t5
  extract_lets +onlyGivenNames t6; refine same_cut (y := t6) ?_ ?_; unfold t6; clear t6
  split
  with_reducible refine same_ite ?_ ?_
  with_reducible refine same_step ?_ (State.finish_same ..) (by decide)
  with_reducible refine same_step ?_ (State.modTwin_same ..) (by decide)
  assumption
  assumption
  assumption
  intro _; clear_value t6
  with_reducible refine same_ite ?_ ?_
  extract_lets +onlyGivenNames t7; refine same_cut (y := t7) ?_ ?_; unfold t7; clear t7
  with_reducible refine same_step ?_ (State.applyReplicated_same ..) (by decide)
  with_reducible refine same_step ?_ (State.adoptFrame_same ..) (by decide)
  assumption
  intro _; clear_value t7
  with_reducible refine same_ite ?_ ?_
  with_reducible refine same_step ?_ (State.resync_same ..) (by decide)
  assumption
  assumption
  assumption

theorem State.followStarted_same (s : State) (started : List Nat) : SameBut [.ports, .twin] s (State.followStarted
    s started) := by
  unfold State.followStarted
  extract_lets +onlyGivenNames y; clear_value y
  extract_lets +onlyGivenNames t1; refine same_cut (y := t1) ?_ ?_; unfold t1; clear t1
  with_reducible refine same_forEach ?_ fun _ _ => ?_
  exact same_refl ..
  extract_lets +onlyGivenNames y; clear_value y
  with_reducible refine same_mono (State.modPort_same ..) (by decide)
  intro _; clear_value t1
  with_reducible refine same_step ?_ (State.modTwin_same ..) (by decide)
  assumption

theorem State.markDuplicate_same (s : State) : SameBut [.ports] s (State.markDuplicate s) := by
  unfold State.markDuplicate
  with_reducible refine same_forEach ?_ fun _ _ => ?_
  exact same_refl ..
  with_reducible exact State.modPort_same ..

/-! Frame -/

theorem State.railFrame_same (s : State) (r : RailIx) (i : RailIn) : SameBut [.objs, .phases, .rails, .tune, .mb] s
    (State.railFrame s r i) := by
  unfold State.railFrame
  extract_lets +onlyGivenNames y; clear_value y
  extract_lets +onlyGivenNames y; clear_value y
  extract_lets +onlyGivenNames y; clear_value y
  extract_lets +onlyGivenNames t1; refine same_cut (y := t1) ?_ ?_; unfold t1; clear t1
  with_reducible refine same_mono (State.modMeas_same ..) (by decide)
  intro _; clear_value t1
  extract_lets +onlyGivenNames t2; refine same_cut (y := t2) ?_ ?_; unfold t2; clear t2
  with_reducible refine same_ite ?_ ?_
  exact same_refl ..
  with_reducible refine same_ite ?_ ?_
  with_reducible refine same_mono (State.holdCommit_same ..) (by decide)
  with_reducible refine same_ite ?_ ?_
  with_reducible refine same_step ?_ (State.count_same ..) (by decide)
  with_reducible refine same_step ?_ (State.modMeas_same ..) (by decide)
  with_reducible refine same_mono (State.holdCommit_same ..) (by decide)
  with_reducible refine same_ite ?_ ?_
  with_reducible refine same_step ?_ (State.disFrame_same ..) (by decide)
  assumption
  with_reducible refine same_step ?_ (State.lawFrame_same ..) (by decide)
  with_reducible refine same_step ?_ (State.ffFrame_same ..) (by decide)
  assumption
  intro _; clear_value t2
  with_reducible refine same_step ?_ (State.modMeas_same ..) (by decide)
  assumption

theorem State.measureFrame_same (s : State) (r : RailIx) : SameBut [.rails] s (State.measureFrame s r) := by
  unfold State.measureFrame
  extract_lets
  with_reducible exact State.modMeas_same ..

theorem State.slamFrame_same (s : State) (r : RailIx) (i : RailIn) : SameBut [.phases] s (State.slamFrame s r i) := by
  unfold State.slamFrame
  with_reducible refine same_ite ?_ ?_
  with_reducible exact State.parkSlam_same ..
  exact same_refl ..

theorem State.railJudge_same (s : State) (r : RailIx) (i : RailIn) : SameBut [.objs, .rails, .tune, .mb] s
    (State.railJudge s r i) := by
  unfold State.railJudge
  extract_lets +onlyGivenNames y; clear_value y
  extract_lets +onlyGivenNames t1; refine same_cut (y := t1) ?_ ?_; unfold t1; clear t1
  with_reducible refine same_step ?_ (State.limitFrame_same ..) (by decide)
  with_reducible refine same_mono (State.levelFrame_same ..) (by decide)
  intro _; clear_value t1
  with_reducible refine same_ite ?_ ?_
  with_reducible refine same_step ?_ (State.ltFrame_same ..) (by decide)
  with_reducible refine same_step ?_ (State.profileFrame_same ..) (by decide)
  assumption
  assumption

theorem State.railPlace_same (s : State) (r : RailIx) : SameBut [.objs, .phases, .rails] s (State.railPlace s r) := by
  unfold State.railPlace
  with_reducible refine same_ite ?_ ?_
  extract_lets +onlyGivenNames t1; refine same_cut (y := t1) ?_ ?_; unfold t1; clear t1
  with_reducible refine same_ite ?_ ?_
  exact same_refl ..
  with_reducible exact State.placement_same ..
  intro _; clear_value t1
  with_reducible refine same_step ?_ (State.charge_same ..) (by decide)
  with_reducible refine same_ite ?_ ?_
  assumption
  with_reducible refine same_step ?_ (State.gcalFrame_same ..) (by decide)
  with_reducible refine same_step ?_ (State.skimFrames_same ..) (by decide)
  assumption
  with_reducible refine same_mono (State.modPlc_same ..) (by decide)

theorem State.historyFrame_same (s : State) (r : RailIx) : SameBut [.rails] s (State.historyFrame s r) := by
  unfold State.historyFrame
  extract_lets +onlyGivenNames y; clear_value y
  with_reducible exact State.modRail_same ..

theorem State.pinFrame_same (s : State) (inp : FrameIn) : SameBut [.dev] s (State.pinFrame s inp) := by
  unfold State.pinFrame
  extract_lets +onlyGivenNames t1; refine same_cut (y := t1) ?_ ?_; unfold t1; clear t1
  with_reducible exact State.enFrame_same ..
  intro _; clear_value t1
  extract_lets +onlyGivenNames y; clear_value y
  refine same_lit t1 ?_ ?_
  assumption
  intro p hp; cases p <;> first | exact absurd (by decide) hp | rfl

theorem State.peakFrame_same (s : State) (cycles : List Nat) : SameBut [.dev] s (State.peakFrame s cycles) := by
  unfold State.peakFrame
  refine same_lit s ?_ ?_
  exact same_refl ..
  intro p hp; cases p <;> first | exact absurd (by decide) hp | rfl

theorem State.engineBack_same (s : State) : SameBut [.ports, .dev] s (State.engineBack s) := by
  unfold State.engineBack
  extract_lets +onlyGivenNames y; clear_value y
  extract_lets +onlyGivenNames t1; refine same_cut (y := t1) ?_ ?_; unfold t1; clear t1
  split
  with_reducible refine same_ite ?_ ?_
  refine same_lit s ?_ ?_
  exact same_refl ..
  intro p hp; cases p <;> first | exact absurd (by decide) hp | rfl
  exact same_refl ..
  exact same_refl ..
  intro _; clear_value t1
  split
  with_reducible refine same_ite ?_ ?_
  with_reducible refine same_forEach ?_ fun _ _ => ?_
  refine same_lit t1 ?_ ?_
  assumption
  intro p hp; cases p <;> first | exact absurd (by decide) hp | rfl
  with_reducible refine same_mono (State.modPort_same ..) (by decide)
  assumption
  assumption

theorem State.frameLaw_same (s : State) (inp : FrameIn) : SameBut [.now, .objs, .edgeQueue, .clk, .time, .phases,
    .rails, .ports, .domains, .feeds, .cmps, .tune, .twin, .meter, .recd, .mb, .cfg, .nvm, .dev] s (State.frameLaw
      s inp) := by
  unfold State.frameLaw
  extract_lets +onlyGivenNames t1; refine same_cut (y := t1) ?_ ?_; unfold t1; clear t1
  with_reducible refine same_step ?_ (State.engineBack_same ..) (by decide)
  with_reducible refine same_mono (State.tick_same ..) (by decide)
  intro _; clear_value t1
  extract_lets +onlyGivenNames t2; refine same_cut (y := t2) ?_ ?_; unfold t2; clear t2
  with_reducible refine same_step ?_ (State.twinFrame_same ..) (by decide)
  with_reducible refine same_step ?_ (State.applyQueue_same ..) (by decide)
  assumption
  intro _; clear_value t2
  extract_lets +onlyGivenNames t3; refine same_cut (y := t3) ?_ ?_; unfold t3; clear t3
  with_reducible refine same_forEach ?_ fun _ _ => ?_
  assumption
  with_reducible refine same_mono (State.railFrame_same ..) (by decide)
  intro _; clear_value t3
  extract_lets +onlyGivenNames t4; refine same_cut (y := t4) ?_ ?_; unfold t4; clear t4
  with_reducible refine same_step ?_ (State.sense_same ..) (by decide)
  assumption
  intro _; clear_value t4
  extract_lets +onlyGivenNames t5; refine same_cut (y := t5) ?_ ?_; unfold t5; clear t5
  with_reducible refine same_forEach ?_ fun _ _ => ?_
  assumption
  with_reducible refine same_mono (State.measureFrame_same ..) (by decide)
  intro _; clear_value t5
  with_reducible refine same_forEach ?_ fun _ _ => ?_
  assumption
  with_reducible refine same_mono (State.slamFrame_same ..) (by decide)

theorem State.frameJudge_same (s : State) (inp : FrameIn) : SameBut [.objs, .phases, .rails, .domains, .tune,
    .twin, .recd, .mb, .nvm, .dev] s (State.frameJudge s inp) := by
  unfold State.frameJudge
  extract_lets +onlyGivenNames y; clear_value y
  extract_lets +onlyGivenNames t1; refine same_cut (y := t1) ?_ ?_; unfold t1; clear t1
  with_reducible refine same_mono (State.tuneFrame_same ..) (by decide)
  intro _; clear_value t1
  extract_lets +onlyGivenNames t2; refine same_cut (y := t2) ?_ ?_; unfold t2; clear t2
  with_reducible refine same_forEach ?_ fun _ _ => ?_
  assumption
  with_reducible refine same_mono (State.railJudge_same ..) (by decide)
  intro _; clear_value t2
  extract_lets +onlyGivenNames t3; refine same_cut (y := t3) ?_ ?_; unfold t3; clear t3
  with_reducible refine same_step ?_ (State.cmpHiccups_same ..) (by decide)
  with_reducible refine same_step ?_ (State.injectFrame_same ..) (by decide)
  assumption
  intro _; clear_value t3
  extract_lets +onlyGivenNames t4; refine same_cut (y := t4) ?_ ?_; unfold t4; clear t4
  with_reducible refine same_forEach ?_ fun _ _ => ?_
  assumption
  with_reducible refine same_mono (State.scaleFrame_same ..) (by decide)
  intro _; clear_value t4
  extract_lets +onlyGivenNames t5; refine same_cut (y := t5) ?_ ?_; unfold t5; clear t5
  with_reducible refine same_forEach ?_ fun _ _ => ?_
  assumption
  with_reducible refine same_mono (State.railPlace_same ..) (by decide)
  intro _; clear_value t5
  with_reducible refine same_ite ?_ ?_
  assumption
  with_reducible refine same_step ?_ (State.arbiter_same ..) (by decide)
  assumption

theorem State.frameRest_same (s : State) (inp : FrameIn) : SameBut [.objs, .phases, .rails, .ports, .domains,
    .feeds, .cmps, .tune, .twin, .meter, .recd, .mb, .nvm, .dev] s (State.frameRest s inp) := by
  unfold State.frameRest
  extract_lets +onlyGivenNames t1; refine same_cut (y := t1) ?_ ?_; unfold t1; clear t1
  with_reducible refine same_mono (State.feedFrame_same ..) (by decide)
  intro _; clear_value t1
  extract_lets +onlyGivenNames t2; refine same_cut (y := t2) ?_ ?_; unfold t2; clear t2
  with_reducible refine same_forEach ?_ fun _ _ => ?_
  assumption
  with_reducible refine same_mono (State.inputFrame_same ..) (by decide)
  intro _; clear_value t2
  extract_lets +onlyGivenNames t3; refine same_cut (y := t3) ?_ ?_; unfold t3; clear t3
  with_reducible refine same_ite ?_ ?_
  assumption
  with_reducible refine same_step ?_ (State.linkFrame_same ..) (by decide)
  assumption
  intro _; clear_value t3
  extract_lets +onlyGivenNames t4; refine same_cut (y := t4) ?_ ?_; unfold t4; clear t4
  with_reducible refine same_forEach ?_ fun _ _ => ?_
  assumption
  with_reducible refine same_mono (State.fuseFrame_same ..) (by decide)
  intro _; clear_value t4
  extract_lets +onlyGivenNames t5; refine same_cut (y := t5) ?_ ?_; unfold t5; clear t5
  with_reducible refine same_forEach ?_ fun _ _ => ?_
  assumption
  with_reducible refine same_mono (State.goodFrame_same ..) (by decide)
  intro _; clear_value t5
  extract_lets +onlyGivenNames t6; refine same_cut (y := t6) ?_ ?_; unfold t6; clear t6
  with_reducible refine same_step ?_ (State.cmpFrame_same ..) (by decide)
  with_reducible refine same_step ?_ (State.levelTrips_same ..) (by decide)
  assumption
  intro _; clear_value t6
  with_reducible refine same_step ?_ (State.assignSlots_same ..) (by decide)
  with_reducible refine same_step ?_ (State.meterFrame_same ..) (by decide)
  with_reducible refine same_step ?_ (State.peakFrame_same ..) (by decide)
  with_reducible refine same_step ?_ (State.pinFrame_same ..) (by decide)
  assumption

theorem State.frameEnd_same (s : State) : SameBut [.objs, .rails, .twin, .recd, .mb, .nvm] s (State.frameEnd s) := by
  unfold State.frameEnd
  extract_lets +onlyGivenNames t1; refine same_cut (y := t1) ?_ ?_; unfold t1; clear t1
  with_reducible refine same_forEach ?_ fun _ _ => ?_
  exact same_refl ..
  with_reducible refine same_mono (State.historyFrame_same ..) (by decide)
  intro _; clear_value t1
  extract_lets +onlyGivenNames t2; refine same_cut (y := t2) ?_ ?_; unfold t2; clear t2
  with_reducible refine same_step ?_ (State.closeBatch_same ..) (by decide)
  with_reducible refine same_step ?_ (State.refreshPg_same ..) (by decide)
  with_reducible refine same_step ?_ (State.refreshFlt_same ..) (by decide)
  assumption
  intro _; clear_value t2
  with_reducible refine same_step ?_ (State.refreshFstat_same ..) (by decide)
  with_reducible refine same_step ?_ (State.refreshFlt_same ..) (by decide)
  assumption

theorem State.frame_same (s : State) (inp : FrameIn) : SameBut [.now, .objs, .edgeQueue, .clk, .time, .phases,
    .rails, .ports, .domains, .feeds, .cmps, .tune, .twin, .meter, .recd, .mb, .cfg, .nvm, .dev] s (State.frame s
      inp) := by
  unfold State.frame
  with_reducible refine same_step ?_ (State.frameEnd_same ..) (by decide)
  with_reducible refine same_step ?_ (State.frameRest_same ..) (by decide)
  with_reducible refine same_step ?_ (State.frameJudge_same ..) (by decide)
  with_reducible refine same_step ?_ (State.frameLaw_same ..) (by decide)
  with_reducible refine same_mono (State.openBatch_same ..) (by decide)

/-! Mailbox -/

theorem State.modMb_same (s : State) (f : MbState → MbState) : SameBut [.mb] s (State.modMb s f) := by
  unfold State.modMb
  refine same_lit s ?_ ?_
  exact same_refl ..
  intro p hp; cases p <;> first | exact absurd (by decide) hp | rfl

theorem State.hostErr_same (s : State) : SameBut [.mb] s (State.hostErr s) := by
  unfold State.hostErr
  with_reducible exact State.irq_same ..

theorem State.istatClear_same (s : State) (v : Word) : SameBut [.mb] s (State.istatClear s v) := by
  unfold State.istatClear
  with_reducible exact State.modMb_same ..

theorem State.ringSlot_same (s : State) (k : SlotIx) : SameBut [.mb] s (State.ringSlot s k) := by
  unfold State.ringSlot
  with_reducible refine same_ite ?_ ?_
  with_reducible refine same_step ?_ (State.modMb_same ..) (by decide)
  with_reducible exact State.modSlot_same ..
  with_reducible exact State.hostErr_same ..

theorem State.ring_same (s : State) (v : Word) : SameBut [.mb] s (State.ring s v) := by
  unfold State.ring
  extract_lets +onlyGivenNames t1; refine same_cut (y := t1) ?_ ?_; unfold t1; clear t1
  with_reducible exact State.modMb_same ..
  intro _; clear_value t1
  with_reducible refine same_forEach ?_ fun _ _ => ?_
  assumption
  with_reducible exact State.ringSlot_same ..

theorem State.armingNow_same (s : State) (k : SlotIx) : SameBut [.mb] s (State.armingNow s k) := by
  unfold State.armingNow
  with_reducible exact State.modMb_same ..

theorem State.releaseSlot_same (s : State) (k : SlotIx) : SameBut [.mb] s (State.releaseSlot s k) := by
  unfold State.releaseSlot
  split
  with_reducible exact State.hostErr_same ..
  with_reducible refine same_step ?_ (State.modMb_same ..) (by decide)
  with_reducible exact State.modSlot_same ..
  with_reducible exact State.modSlot_same ..
  with_reducible refine same_step ?_ (State.armingNow_same ..) (by decide)
  with_reducible exact State.modSlot_same ..
  with_reducible refine same_step ?_ (State.armingNow_same ..) (by decide)
  with_reducible exact State.modSlot_same ..
  exact same_refl ..

theorem State.releaseSlots_same (s : State) (v : Word) : SameBut [.mb] s (State.releaseSlots s v) := by
  unfold State.releaseSlots
  with_reducible refine same_forEach ?_ fun _ _ => ?_
  exact same_refl ..
  with_reducible exact State.releaseSlot_same ..

theorem State.writeReg_same (s : State) (off : Nat) (v : Word) : SameBut [.mb] s (State.writeReg s off v) := by
  unfold State.writeReg
  with_reducible refine same_ite ?_ ?_
  with_reducible exact State.istatClear_same ..
  with_reducible refine same_ite ?_ ?_
  with_reducible exact State.modMb_same ..
  with_reducible refine same_ite ?_ ?_
  with_reducible exact State.ring_same ..
  with_reducible refine same_ite ?_ ?_
  with_reducible exact State.releaseSlots_same ..
  with_reducible refine same_ite ?_ ?_
  with_reducible exact State.modMb_same ..
  with_reducible exact State.hostErr_same ..

theorem State.writeWindow_same (s : State) (a : Nat) (data : List Byte) : SameBut [.mb] s (State.writeWindow s a
    data) := by
  unfold State.writeWindow
  extract_lets +onlyGivenNames y; clear_value y
  with_reducible refine same_forEach ?_ fun _ _ => ?_
  exact same_refl ..
  with_reducible refine same_ite ?_ ?_
  with_reducible exact State.writeReg_same ..
  with_reducible exact State.hostErr_same ..

theorem State.writeRequest_same (s : State) (k : SlotIx) (off : Nat) (data : List Byte) : SameBut [.mb] s
    (State.writeRequest s k off data) := by
  unfold State.writeRequest
  with_reducible refine same_ite ?_ ?_
  with_reducible exact State.modSlot_same ..
  with_reducible exact State.hostErr_same ..

theorem State.hostWrite_same (s : State) (a : Nat) (data : List Byte) : SameBut [.mb] s (State.hostWrite s a data)
    := by
  unfold State.hostWrite
  with_reducible refine same_ite ?_ ?_
  exact same_refl ..
  with_reducible refine same_ite ?_ ?_
  with_reducible exact State.writeWindow_same ..
  split
  with_reducible exact State.writeRequest_same ..
  with_reducible exact State.hostErr_same ..

theorem State.headerRead_same (s : State) (k : SlotIx) : SameBut [.mb] s (State.headerRead s k).1 := by
  unfold State.headerRead
  extract_lets +onlyGivenNames y; clear_value y
  split
  dsimp only
  exact same_refl ..
  dsimp only
  exact same_refl ..
  dsimp only
  exact same_refl ..
  dsimp only
  exact same_refl ..
  dsimp only
  with_reducible exact State.modSlot_same ..
  dsimp only
  exact same_refl ..

theorem State.readRegion_same (s : State) (a n : Nat) : SameBut [.mb] s (State.readRegion s a n).1 := by
  unfold State.readRegion
  split
  dsimp only
  exact same_refl ..
  split
  dsimp only
  exact same_refl ..
  split
  with_reducible exact State.headerRead_same ..
  split
  dsimp only
  exact same_refl ..
  dsimp only
  exact same_refl ..
  dsimp only
  exact same_refl ..

theorem State.hostRead_same (s : State) (a n : Nat) : SameBut [.mb] s (State.hostRead s a n).1 := by
  unfold State.hostRead
  extract_lets +onlyGivenNames t1; refine same_cut (y := t1.1) ?_ ?_; unfold t1; clear t1
  with_reducible exact State.readRegion_same ..
  intro _; clear_value t1
  dsimp only
  assumption

theorem State.authFailed_same (s : State) (keySlot op : Nat) : SameBut [.objs, .rails, .twin, .recd, .mb, .nvm] s
    (State.authFailed s keySlot op) := by
  unfold State.authFailed
  extract_lets +onlyGivenNames t1; refine same_cut (y := t1) ?_ ?_; unfold t1; clear t1
  with_reducible refine same_step ?_ (State.irq_same ..) (by decide)
  with_reducible refine same_step ?_ (State.record_same ..) (by decide)
  with_reducible refine same_mono (State.count_same ..) (by decide)
  intro _; clear_value t1
  with_reducible refine same_step ?_ (State.modMb_same ..) (by decide)
  assumption

theorem State.authCheck_same (s : State) (r : Req) (op : Nat) (body : List Byte) (block : Option (List Byte)) :
    SameBut [.objs, .rails, .twin, .recd, .mb, .nvm] s (State.authCheck s r op body block).1 := by
  unfold State.authCheck
  split
  dsimp only
  exact same_refl ..
  extract_lets +onlyGivenNames y; clear_value y
  extract_lets +onlyGivenNames t1; refine same_cut (y := t1) ?_ ?_; unfold t1; clear t1
  with_reducible refine same_mono (State.modMb_same ..) (by decide)
  intro _; clear_value t1
  split
  dsimp only
  with_reducible refine same_step ?_ (State.modMb_same ..) (by decide)
  with_reducible refine same_step ?_ (State.count_same ..) (by decide)
  assumption
  dsimp only
  with_reducible refine same_step ?_ (State.authFailed_same ..) (by decide)
  assumption

theorem State.checkRequest_same (s : State) (k : SlotIx) : SameBut [.objs, .rails, .twin, .recd, .mb, .nvm] s
    (State.checkRequest s k).1 := by
  unfold State.checkRequest
  split
  dsimp only
  exact same_refl ..
  extract_lets +onlyGivenNames y; clear_value y
  extract_lets +onlyGivenNames t1; refine same_cut (y := t1.1) ?_ ?_; unfold t1; clear t1
  with_reducible exact State.authCheck_same ..
  intro _; clear_value t1
  split
  dsimp only
  assumption
  dsimp only
  assumption

theorem State.takeSlot_same (s : State) (k : SlotIx) : SameBut [.objs, .rails, .twin, .recd, .mb, .nvm] s
    (State.takeSlot s k) := by
  unfold State.takeSlot
  extract_lets +onlyGivenNames y; clear_value y
  extract_lets +onlyGivenNames t1; refine same_cut (y := t1.1) ?_ ?_; unfold t1; clear t1
  with_reducible exact State.checkRequest_same ..
  intro _; clear_value t1
  extract_lets +onlyGivenNames t2; refine same_cut (y := t2) ?_ ?_; unfold t2; clear t2
  with_reducible refine same_step ?_ (State.modMb_same ..) (by decide)
  assumption
  intro _; clear_value t2
  extract_lets +onlyGivenNames t3; refine same_cut (y := t3) ?_ ?_; unfold t3; clear t3
  with_reducible refine same_step ?_ (State.modSlot_same ..) (by decide)
  assumption
  intro _; clear_value t3
  split
  with_reducible refine same_step ?_ (State.finish_same ..) (by decide)
  assumption
  assumption

theorem State.respond_same (s : State) (k : SlotIx) : SameBut [.mb] s (State.respond s k) := by
  unfold State.respond
  extract_lets +onlyGivenNames y; clear_value y
  split
  with_reducible refine same_ite ?_ ?_
  with_reducible refine same_step ?_ (State.armingNow_same ..) (by decide)
  with_reducible exact State.modSlot_same ..
  extract_lets +onlyGivenNames y; clear_value y
  extract_lets +onlyGivenNames t1; refine same_cut (y := t1) ?_ ?_; unfold t1; clear t1
  with_reducible exact State.modSlot_same ..
  intro _; clear_value t1
  extract_lets +onlyGivenNames t2; refine same_cut (y := t2) ?_ ?_; unfold t2; clear t2
  with_reducible refine same_step ?_ (State.modMb_same ..) (by decide)
  assumption
  intro _; clear_value t2
  with_reducible refine same_step ?_ (State.irq_same ..) (by decide)
  assumption
  exact same_refl ..

theorem State.advance_same (s : State) (n : Nat) : SameBut [.mb] s (State.advance s n) := by
  unfold State.advance
  with_reducible refine same_ite ?_ ?_
  exact same_refl ..
  extract_lets +onlyGivenNames y; clear_value y
  with_reducible exact State.modMb_same ..

theorem State.i2cWrite_same (s : State) (bs : List Byte) : SameBut [.mb] s (State.i2cWrite s bs) := by
  unfold State.i2cWrite
  split
  extract_lets +onlyGivenNames y; clear_value y
  extract_lets +onlyGivenNames t1; refine same_cut (y := t1) ?_ ?_; unfold t1; clear t1
  with_reducible exact State.modMb_same ..
  intro _; clear_value t1
  with_reducible refine same_step ?_ (State.advance_same ..) (by decide)
  with_reducible refine same_step ?_ (State.hostWrite_same ..) (by decide)
  assumption
  exact same_refl ..

theorem State.i2cRead_same (s : State) (n : Nat) : SameBut [.mb] s (State.i2cRead s n) := by
  unfold State.i2cRead
  with_reducible refine same_ite ?_ ?_
  with_reducible exact State.modMb_same ..
  extract_lets +onlyGivenNames t1; refine same_cut (y := t1.1) ?_ ?_; unfold t1; clear t1
  split
  dsimp only
  exact same_refl ..
  with_reducible exact State.hostRead_same ..
  intro _; clear_value t1
  with_reducible refine same_step ?_ (State.advance_same ..) (by decide)
  with_reducible refine same_step ?_ (State.modMb_same ..) (by decide)
  assumption

/-! HostCmds -/

theorem State.acceptEdge_same (s : State) (k : SlotIx) (r : Req) (a : EdgeAction) : SameBut [.edgeQueue, .twin,
    .mb] s (State.acceptEdge s k r a) := by
  unfold State.acceptEdge
  with_reducible refine same_step ?_ (State.startSlot_same ..) (by decide)
  with_reducible refine same_step ?_ (State.atEdge_same ..) (by decide)
  with_reducible refine same_mono (State.replicate_same ..) (by decide)

theorem State.domainReq_same (s : State) (k : SlotIx) (r : Req) (mask : BitVec 8) (on : Bool) : SameBut
    [.edgeQueue, .twin, .mb] s (State.domainReq s k r mask on) := by
  unfold State.domainReq
  with_reducible refine same_ite ?_ ?_
  with_reducible exact State.acceptEdge_same ..
  with_reducible refine same_mono (State.finish_same ..) (by decide)

theorem State.clearRecords_same (s : State) (n key : Nat) : SameBut [.objs, .rails, .twin, .recd, .nvm] s
    (s.clearRecords n key).1 := by
  unfold State.clearRecords
  dsimp only
  refine same_step ?_ (State.disarmRec_same ..) (by decide)
  refine same_step ?_ (State.record_same ..) (by decide)
  exact same_step (same_mono (State.modRec_same ..) (by decide)) (State.count_same ..) (by decide)

theorem State.rejectCommit_same (s : State) (k : SlotIx) (status : Nat) (f : Option ImageFault) : SameBut [.objs,
    .mb, .cfg] s (State.rejectCommit s k status f) := by
  unfold State.rejectCommit
  extract_lets +onlyGivenNames y; clear_value y
  extract_lets +onlyGivenNames t1; refine same_cut (y := t1) ?_ ?_; unfold t1; clear t1
  refine same_lit s ?_ ?_
  exact same_refl ..
  intro p hp; cases p <;> first | exact absurd (by decide) hp | rfl
  intro _; clear_value t1
  with_reducible refine same_step ?_ (State.finish_same ..) (by decide)
  with_reducible refine same_step ?_ (State.count_same ..) (by decide)
  assumption

theorem State.storeCommit_same (s : State) (k : SlotIx) (r : Req) (i : Image) : SameBut [.edgeQueue, .twin, .mb,
    .cfg] s (State.storeCommit s k r i) := by
  unfold State.storeCommit
  extract_lets +onlyGivenNames y; clear_value y
  extract_lets +onlyGivenNames y; clear_value y
  extract_lets +onlyGivenNames t1; refine same_cut (y := t1) ?_ ?_; unfold t1; clear t1
  refine same_lit s ?_ ?_
  exact same_refl ..
  intro p hp; cases p <;> first | exact absurd (by decide) hp | rfl
  intro _; clear_value t1
  with_reducible refine same_step ?_ (State.acceptEdge_same ..) (by decide)
  assumption

theorem State.commitStaged_same (s : State) (k : SlotIx) (len : Nat) : SameBut [.free, .objs, .edgeQueue, .twin,
    .mb, .cfg] s (State.commitStaged s k len) := by
  unfold State.commitStaged
  with_reducible refine same_ite ?_ ?_
  with_reducible refine same_mono (State.finish_same ..) (by decide)
  with_reducible refine same_ite ?_ ?_
  with_reducible refine same_mono (State.rejectCommit_same ..) (by decide)
  split
  with_reducible refine same_mono (State.rejectCommit_same ..) (by decide)
  extract_lets +onlyGivenNames y; clear_value y
  extract_lets +onlyGivenNames y; clear_value y
  extract_lets +onlyGivenNames t1; refine same_cut (y := t1) ?_ ?_; unfold t1; clear t1
  with_reducible refine same_ite ?_ ?_
  refine same_lit s ?_ ?_
  exact same_refl ..
  intro p hp; cases p <;> first | exact absurd (by decide) hp | rfl
  exact same_refl ..
  intro _; clear_value t1
  with_reducible refine same_ite ?_ ?_
  with_reducible refine same_step ?_ (State.rejectCommit_same ..) (by decide)
  assumption
  with_reducible refine same_ite ?_ ?_
  with_reducible refine same_step ?_ (State.rejectCommit_same ..) (by decide)
  assumption
  with_reducible refine same_step ?_ (State.storeCommit_same ..) (by decide)
  assumption

theorem State.setFwImage_same (s : State) (k : Nat) (i : FwImage) : SameBut [.fw] s (State.setFwImage s k i) := by
  unfold State.setFwImage
  with_reducible refine same_ite ?_ ?_
  refine same_lit s ?_ ?_
  exact same_refl ..
  intro p hp; cases p <;> first | exact absurd (by decide) hp | rfl
  refine same_lit s ?_ ?_
  exact same_refl ..
  intro p hp; cases p <;> first | exact absurd (by decide) hp | rfl

theorem State.armSlot_same (s : State) (k : SlotIx) (cause : Nat) : SameBut [.mb] s (State.armSlot s k cause) := by
  unfold State.armSlot
  with_reducible refine same_step ?_ (State.finish_same ..) (by decide)
  with_reducible exact State.modMb_same ..

theorem State.supersedeSet_same (s : State) : SameBut [.time, .mb] s (State.supersedeSet s) := by
  unfold State.supersedeSet
  split
  with_reducible refine same_step ?_ (State.finishOpt_same ..) (by decide)
  with_reducible refine same_mono (State.modTime_same ..) (by decide)
  exact same_refl ..

theorem State.timeNow_same (s : State) (sec ns : Nat) : SameBut [.objs, .time, .rails, .twin, .meter, .recd, .mb,
    .nvm] s (State.timeNow s sec ns) := by
  unfold State.timeNow
  extract_lets +onlyGivenNames y; clear_value y
  extract_lets +onlyGivenNames t1; refine same_cut (y := t1) ?_ ?_; unfold t1; clear t1
  with_reducible refine same_step ?_ (State.modTime_same ..) (by decide)
  with_reducible refine same_step ?_ (State.timeTo_same ..) (by decide)
  with_reducible refine same_mono (State.supersedeSet_same ..) (by decide)
  intro _; clear_value t1
  extract_lets +onlyGivenNames t2; refine same_cut (y := t2) ?_ ?_; unfold t2; clear t2
  with_reducible refine same_ite ?_ ?_
  with_reducible refine same_step ?_ (State.modMeter_same ..) (by decide)
  assumption
  assumption
  intro _; clear_value t2
  with_reducible refine same_step ?_ (State.timeIrq_same ..) (by decide)
  assumption

theorem State.startTune_same (s : State) (slot : SlotIx) (r : Req) (rail : Nat) (auto : Bool) : SameBut
    [.edgeQueue, .twin, .mb] s (State.startTune s slot r rail auto) := by
  unfold State.startTune
  refine same_dite (fun _ => ?_) (fun _ => ?_)
  with_reducible refine same_ite ?_ ?_
  with_reducible refine same_mono (State.finish_same ..) (by decide)
  split
  with_reducible refine same_mono (State.finish_same ..) (by decide)
  with_reducible exact State.acceptEdge_same ..
  with_reducible refine same_mono (State.finish_same ..) (by decide)

/-! MeterCmds -/

theorem State.meterAnswer_same (s : State) (k : SlotIx) (status : Nat) : SameBut [.mb] s (State.meterAnswer s k
    status) := by
  unfold State.meterAnswer
  with_reducible exact State.finish_same ..

theorem State.sealStep_same (s : State) (interval kind point old new : Nat) : SameBut [.meter] s (State.sealStep s
    interval kind point old new) := by
  unfold State.sealStep
  with_reducible refine same_step ?_ (State.auditAdd_same ..) (by decide)
  with_reducible exact State.modMeter_same ..

theorem State.meterApply_same (first : Nat) (closed : List PointIx) (s : State) (q : Nat × Nat × Word) : SameBut
    [.meter] s (State.meterApply first closed s q) := by
  unfold State.meterApply
  extract_lets +onlyGivenNames y; clear_value y
  extract_lets +onlyGivenNames y; clear_value y
  extract_lets +onlyGivenNames t1; refine same_cut (y := t1) ?_ ?_; unfold t1; clear t1
  with_reducible exact State.modMeter_same ..
  intro _; clear_value t1
  with_reducible refine same_step ?_ (State.sealStep_same ..) (by decide)
  assumption

theorem State.meterImage_same (s : State) (interval : Nat) (bs : List Byte) : SameBut [.meter] s (State.meterImage
    s interval bs) := by
  unfold State.meterImage
  extract_lets +onlyGivenNames y; clear_value y
  extract_lets +onlyGivenNames t1; refine same_cut (y := t1) ?_ ?_; unfold t1; clear t1
  with_reducible exact State.modMeter_same ..
  intro _; clear_value t1
  with_reducible refine same_step ?_ (State.sealStep_same ..) (by decide)
  assumption

theorem State.meterCommit_same (s : State) : SameBut [.meter] s (State.meterCommit s) := by
  unfold State.meterCommit
  extract_lets +onlyGivenNames y; clear_value y
  extract_lets +onlyGivenNames y; clear_value y
  extract_lets +onlyGivenNames y; clear_value y
  extract_lets +onlyGivenNames y; clear_value y
  extract_lets +onlyGivenNames y; clear_value y
  extract_lets +onlyGivenNames y; clear_value y
  extract_lets +onlyGivenNames t1; refine same_cut (y := t1) ?_ ?_; unfold t1; clear t1
  with_reducible refine same_ite ?_ ?_
  with_reducible exact State.closeIv_same ..
  exact same_refl ..
  intro _; clear_value t1
  extract_lets +onlyGivenNames t2; refine same_cut (y := t2) ?_ ?_; unfold t2; clear t2
  with_reducible refine same_foldl ?_ fun _ _ => ?_
  assumption
  with_reducible exact State.meterApply_same ..
  intro _; clear_value t2
  extract_lets +onlyGivenNames t3; refine same_cut (y := t3) ?_ ?_; unfold t3; clear t3
  split
  with_reducible refine same_step ?_ (State.meterImage_same ..) (by decide)
  assumption
  assumption
  intro _; clear_value t3
  extract_lets +onlyGivenNames t4; refine same_cut (y := t4) ?_ ?_; unfold t4; clear t4
  with_reducible refine same_ite ?_ ?_
  with_reducible refine same_step ?_ (State.modMeter_same ..) (by decide)
  assumption
  assumption
  intro _; clear_value t4
  extract_lets +onlyGivenNames t5; refine same_cut (y := t5) ?_ ?_; unfold t5; clear t5
  split
  with_reducible refine same_step ?_ (State.sealStep_same ..) (by decide)
  with_reducible refine same_step ?_ (State.modMeter_same ..) (by decide)
  assumption
  assumption
  intro _; clear_value t5
  with_reducible refine same_step ?_ (State.modMeter_same ..) (by decide)
  assumption

theorem State.inSession_same {ps : List Area} {s : State} {k : SlotIx} {f : State → State}
    (hm : .mb ∈ ps) (ht : .meter ∈ ps) (h : ∀ s, SameBut ps s (f s)) : SameBut ps s (s.inSession k f) := by
  unfold State.inSession
  split
  · exact same_mono (State.meterAnswer_same ..) (by simpa using hm)
  · exact same_step (same_mono (State.modMeter_same ..) (by simpa using ht)) (h _) fun _ hp => hp

theorem State.meterStage_same (s : State) (k : SlotIx) (x : Staged) : SameBut [.meter, .mb] s (State.meterStage s k
    x) := by
  unfold State.meterStage
  with_reducible refine same_step ?_ (State.meterAnswer_same ..) (by decide)
  with_reducible refine same_mono (State.modMeter_same ..) (by decide)

/-! ObjectCmds -/

theorem State.onGet_same (s : State) (k : SlotIx) (o : Obj) : SameBut [.objs, .clk, .time, .meter, .recd, .mb,
    .dev] s (State.onGet s k o) := by
  unfold State.onGet
  refine State.onRequest_same fun _ => ?_
  with_reducible exact State.doGet_same ..

theorem State.onSet_same (s : State) (k : SlotIx) (o : Obj) (v : Word) : SameBut [.objs, .edgeQueue, .clk, .phases,
    .rails, .ports, .domains, .feeds, .cmps, .tune, .twin, .recd, .mb, .cfg, .nvm, .dev] s (State.onSet s k o v) := by
  unfold State.onSet
  refine State.onRequest_same fun _ => ?_
  with_reducible exact State.doSet_same ..

/-! RecorderCmds -/

theorem State.storeSnap_same (s : State) (q : Snap) : SameBut [.objs, .rails, .twin, .recd, .mb, .nvm] s
    (State.storeSnap s q) := by
  unfold State.storeSnap
  extract_lets +onlyGivenNames y; clear_value y
  extract_lets +onlyGivenNames t1; refine same_cut (y := t1) ?_ ?_; unfold t1; clear t1
  with_reducible refine same_mono (State.modRec_same ..) (by decide)
  intro _; clear_value t1
  with_reducible refine same_step ?_ (State.saveCounters_same ..) (by decide)
  with_reducible refine same_step ?_ (State.irq_same ..) (by decide)
  assumption

theorem State.thawHistory_same (s : State) (q : Snap) : SameBut [.rails] s (State.thawHistory s q) := by
  unfold State.thawHistory
  extract_lets +onlyGivenNames y; clear_value y
  with_reducible refine same_ite ?_ ?_
  exact same_refl ..
  refine same_dite (fun _ => ?_) (fun _ => ?_)
  with_reducible exact State.modRail_same ..
  exact same_refl ..

theorem State.takeDue_same (s : State) (ok : Bool) : SameBut [.objs, .rails, .twin, .recd, .mb, .nvm] s
    (State.takeDue s ok) := by
  unfold State.takeDue
  split
  exact same_refl ..
  extract_lets +onlyGivenNames t1; refine same_cut (y := t1) ?_ ?_; unfold t1; clear t1
  with_reducible refine same_step ?_ (State.thawHistory_same ..) (by decide)
  with_reducible refine same_mono (State.modRec_same ..) (by decide)
  intro _; clear_value t1
  with_reducible refine same_ite ?_ ?_
  with_reducible refine same_step ?_ (State.storeSnap_same ..) (by decide)
  assumption
  with_reducible refine same_step ?_ (State.modRec_same ..) (by decide)
  assumption

theorem State.storeWaiting_same (s : State) : SameBut [.objs, .rails, .twin, .recd, .mb, .nvm] s
    (State.storeWaiting s) := by
  unfold State.storeWaiting
  split
  with_reducible refine same_ite ?_ ?_
  with_reducible refine same_step ?_ (State.storeSnap_same ..) (by decide)
  with_reducible refine same_mono (State.modRec_same ..) (by decide)
  exact same_refl ..
  exact same_refl ..

theorem State.moveToSpare_same (s : State) : SameBut [.objs, .recd] s s.moveToSpare.1 := by
  unfold State.moveToSpare
  dsimp only
  exact same_step (same_mono (State.count_same ..) (by decide)) (State.modRec_same ..) (by decide)

theorem State.mediaBack_same (s : State) (moved : Nat) : SameBut [.objs, .rails, .twin, .recd, .nvm] s
    (State.mediaBack s moved) := by
  unfold State.mediaBack
  with_reducible exact State.record_same ..

theorem State.mediaRetry_same (s : State) : SameBut [.objs, .rails, .twin, .recd, .nvm] s (State.mediaRetry s) := by
  unfold State.mediaRetry
  with_reducible refine same_ite ?_ ?_
  with_reducible refine same_step ?_ (State.mediaBack_same ..) (by decide)
  with_reducible refine same_mono (State.drainRam_same ..) (by decide)
  with_reducible refine same_ite ?_ ?_
  extract_lets +onlyGivenNames t1; refine same_cut (y := t1.1) ?_ ?_; unfold t1; clear t1
  with_reducible refine same_mono (State.moveToSpare_same ..) (by decide)
  intro _; clear_value t1
  with_reducible refine same_step ?_ (State.mediaBack_same ..) (by decide)
  with_reducible refine same_step ?_ (State.disarmRec_same ..) (by decide)
  with_reducible refine same_step ?_ (State.modRec_same ..) (by decide)
  assumption
  with_reducible refine same_mono (State.countN_same ..) (by decide)

/-! Boot -/

theorem State.resetTo_same (s : State) (cause : Nat) : SameBut [.objs, .edgeQueue, .clk, .time, .phases, .rails,
    .ports, .domains, .feeds, .cmps, .temps, .tune, .twin, .meter, .recd, .mb, .cfg, .nvm, .dev] s (State.resetTo s
      cause) := by
  unfold State.resetTo
  extract_lets +onlyGivenNames y
  have h : SameBut [.objs, .edgeQueue, .clk, .time, .phases, .rails, .ports, .domains, .feeds, .cmps, .temps,
    .tune, .twin, .meter, .recd, .mb, .cfg, .nvm, .dev] s y := same_mono (State.abandonSession_same s) (by decide)
  exact same_lit y h (by intro p hp; cases p <;> first | exact absurd (by decide) hp | rfl)

theorem State.loseRetention_same (s : State) : SameBut [.rails, .recd, .nvm] s (State.loseRetention s) := by
  unfold State.loseRetention
  extract_lets +onlyGivenNames t1; refine same_cut (y := t1) ?_ ?_; unfold t1; clear t1
  refine same_lit s ?_ ?_
  exact same_refl ..
  intro p hp; cases p <;> first | exact absurd (by decide) hp | rfl
  intro _; clear_value t1
  extract_lets +onlyGivenNames t2; refine same_cut (y := t2) ?_ ?_; unfold t2; clear t2
  with_reducible refine same_step ?_ (State.modRec_same ..) (by decide)
  assumption
  intro _; clear_value t2
  with_reducible refine same_step ?_ (State.modNvm_same ..) (by decide)
  assumption

theorem State.trialFailed_same (s : State) : SameBut [.fw] s (State.trialFailed s) := by
  unfold State.trialFailed
  with_reducible refine same_ite ?_ ?_
  refine same_lit s ?_ ?_
  exact same_refl ..
  intro p hp; cases p <;> first | exact absurd (by decide) hp | rfl
  exact same_refl ..

theorem State.bootFirmware_same (s : State) (k : Nat) : SameBut [.fw] s (State.bootFirmware s k) := by
  unfold State.bootFirmware
  extract_lets +onlyGivenNames y; clear_value y
  refine same_lit s ?_ ?_
  exact same_refl ..
  intro p hp; cases p <;> first | exact absurd (by decide) hp | rfl

theorem State.bootTables_same (tables : List (Nat × Nat × Sparse)) (s : State) (r : RailIx) : SameBut [.rails] s
    (State.bootTables tables s r) := by
  unfold State.bootTables
  extract_lets +onlyGivenNames y
  extract_lets +onlyGivenNames t1; refine same_cut (y := t1) ?_ ?_; unfold t1; clear t1
  with_reducible exact State.modFf_same ..
  intro _; clear_value t1
  split
  assumption
  extract_lets +onlyGivenNames y; clear_value y
  with_reducible refine same_step ?_ (State.modFf_same ..) (by decide)
  with_reducible refine same_ite ?_ ?_
  with_reducible refine same_step ?_ (State.ffRestore_same ..) (by decide)
  assumption
  assumption

theorem State.bootConfig_same (s : State) : SameBut [.objs, .clk, .phases, .rails, .ports, .twin, .cfg] s
    (State.bootConfig s) := by
  unfold State.bootConfig
  extract_lets +onlyGivenNames y; clear_value y
  extract_lets +onlyGivenNames y; clear_value y
  extract_lets +onlyGivenNames t1; refine same_cut (y := t1) ?_ ?_; unfold t1; clear t1
  split
  refine same_lit s ?_ ?_
  exact same_refl ..
  intro p hp; cases p <;> first | exact absurd (by decide) hp | rfl
  refine same_lit s ?_ ?_
  exact same_refl ..
  intro p hp; cases p <;> first | exact absurd (by decide) hp | rfl
  intro _; clear_value t1
  extract_lets +onlyGivenNames y; clear_value y
  extract_lets +onlyGivenNames t2; refine same_cut (y := t2) ?_ ?_; unfold t2; clear t2
  with_reducible refine same_forEach ?_ fun _ _ => ?_
  assumption
  with_reducible refine same_step ?_ (State.bootTables_same ..) (by decide)
  with_reducible refine same_mono (State.loadCoefs_same ..) (by decide)
  intro _; clear_value t2
  extract_lets +onlyGivenNames t3; refine same_cut (y := t3) ?_ ?_; unfold t3; clear t3
  with_reducible refine same_forEach ?_ fun _ _ => ?_
  assumption
  with_reducible refine same_mono (State.modGen_same ..) (by decide)
  intro _; clear_value t3
  extract_lets +onlyGivenNames t4; refine same_cut (y := t4) ?_ ?_; unfold t4; clear t4
  with_reducible refine same_forEach ?_ fun _ _ => ?_
  assumption
  with_reducible refine same_ite ?_ ?_
  with_reducible refine same_mono (State.enablePort_same ..) (by decide)
  exact same_refl ..
  intro _; clear_value t4
  extract_lets +onlyGivenNames y; clear_value y
  refine same_lit t4 ?_ ?_
  assumption
  intro p hp; cases p <;> first | exact absurd (by decide) hp | rfl

theorem State.bootZero_same (l : List (Nat × Rat × Rat)) (s : State) (n : PhaseIx) : SameBut [.phases] s
    (State.bootZero l s n) := by
  unfold State.bootZero
  split
  exact same_refl ..
  with_reducible refine same_ite ?_ ?_
  with_reducible exact State.modSense_same ..
  exact same_refl ..

theorem State.bootStates_same (s : State) : SameBut [.objs, .phases, .rails] s (State.bootStates s) := by
  unfold State.bootStates
  extract_lets +onlyGivenNames y; clear_value y
  extract_lets +onlyGivenNames y
  extract_lets +onlyGivenNames t1; refine same_cut (y := t1) ?_ ?_; unfold t1; clear t1
  refine same_lit s ?_ ?_
  exact same_refl ..
  intro p hp; cases p <;> first | exact absurd (by decide) hp | rfl
  intro _; clear_value t1
  extract_lets +onlyGivenNames t2; refine same_cut (y := t2) ?_ ?_; unfold t2; clear t2
  with_reducible refine same_forEach ?_ fun _ _ => ?_
  assumption
  with_reducible refine same_step ?_ (State.modSense_same ..) (by decide)
  with_reducible refine same_mono (State.bootZero_same ..) (by decide)
  intro _; clear_value t2
  extract_lets +onlyGivenNames t3; refine same_cut (y := t3) ?_ ?_; unfold t3; clear t3
  with_reducible refine same_forEach ?_ fun _ _ => ?_
  assumption
  with_reducible refine same_mono (State.modFuse_same ..) (by decide)
  intro _; clear_value t3
  with_reducible refine same_step ?_ (State.count_same ..) (by decide)
  assumption

theorem State.noteRestart_same (s : State) (e : Nat) : SameBut [.dev] s (State.noteRestart s e) := by
  unfold State.noteRestart
  refine same_lit s ?_ ?_
  exact same_refl ..
  intro p hp; cases p <;> first | exact absurd (by decide) hp | rfl

theorem State.bootLost_same (s : State) (intact : Bool) : SameBut [.objs, .rails, .twin, .recd, .mb, .nvm] s
    (State.bootLost s intact) := by
  unfold State.bootLost
  with_reducible refine same_ite ?_ ?_
  exact same_refl ..
  extract_lets +onlyGivenNames t1; refine same_cut (y := t1) ?_ ?_; unfold t1; clear t1
  with_reducible refine same_mono (State.recordIf_same ..) (by decide)
  intro _; clear_value t1
  extract_lets +onlyGivenNames t2; refine same_cut (y := t2) ?_ ?_; unfold t2; clear t2
  with_reducible refine same_step ?_ (State.recordIf_same ..) (by decide)
  assumption
  intro _; clear_value t2
  with_reducible refine same_step ?_ (State.irqIf_same ..) (by decide)
  assumption

theorem State.bootHeld_same (s : State) : SameBut [.objs, .twin, .recd, .nvm] s (State.bootHeld s) := by
  unfold State.bootHeld
  with_reducible refine same_step ?_ (State.thaw_same ..) (by decide)
  with_reducible refine same_mono (State.modRec_same ..) (by decide)

theorem State.bootRecords_same (s : State) (intact : Bool) : SameBut [.objs, .time, .rails, .twin, .recd, .mb,
    .nvm] s (State.bootRecords s intact) := by
  unfold State.bootRecords
  extract_lets +onlyGivenNames t1; refine same_cut (y := t1) ?_ ?_; unfold t1; clear t1
  with_reducible refine same_mono (State.modRec_same ..) (by decide)
  intro _; clear_value t1
  extract_lets +onlyGivenNames t2; refine same_cut (y := t2) ?_ ?_; unfold t2; clear t2
  with_reducible refine same_step ?_ (State.recordIf_same ..) (by decide)
  assumption
  intro _; clear_value t2
  extract_lets +onlyGivenNames y; clear_value y
  extract_lets +onlyGivenNames t3; refine same_cut (y := t3) ?_ ?_; unfold t3; clear t3
  with_reducible refine same_step ?_ (State.record_same ..) (by decide)
  assumption
  intro _; clear_value t3
  extract_lets +onlyGivenNames t4; refine same_cut (y := t4) ?_ ?_; unfold t4; clear t4
  with_reducible refine same_step ?_ (State.bootHeld_same ..) (by decide)
  with_reducible refine same_step ?_ (State.bootLost_same ..) (by decide)
  with_reducible refine same_step ?_ (State.anchor_same ..) (by decide)
  assumption
  intro _; clear_value t4
  extract_lets +onlyGivenNames t5; refine same_cut (y := t5) ?_ ?_; unfold t5; clear t5
  with_reducible refine same_step ?_ (State.recordIf_same ..) (by decide)
  assumption
  intro _; clear_value t5
  with_reducible refine same_ite ?_ ?_
  with_reducible refine same_step ?_ (State.drainRam_same ..) (by decide)
  assumption
  with_reducible refine same_step ?_ (State.disarmRec_same ..) (by decide)
  assumption

theorem State.bootTime_same (s : State) (n : Nat) : SameBut [.now, .clk, .time, .meter] s (State.bootTime s n) := by
  unfold State.bootTime
  with_reducible refine same_step ?_ (State.passTime_same ..) (by decide)
  with_reducible refine same_step ?_ (State.modClk_same ..) (by decide)
  refine same_lit s ?_ ?_
  exact same_refl ..
  intro p hp; cases p <;> first | exact absurd (by decide) hp | rfl

theorem State.bootMeter_same (s : State) : SameBut [.meter] s (State.bootMeter s) := by
  unfold State.bootMeter
  with_reducible refine same_ite ?_ ?_
  exact same_refl ..
  extract_lets +onlyGivenNames t1; refine same_cut (y := t1) ?_ ?_; unfold t1; clear t1
  with_reducible exact State.modMeter_same ..
  intro _; clear_value t1
  with_reducible refine same_ite ?_ ?_
  with_reducible refine same_step ?_ (State.meterBoot_same ..) (by decide)
  assumption
  assumption

theorem State.bootFull_same (s : State) (k : Nat) : SameBut [.now, .objs, .clk, .time, .phases, .rails, .ports,
    .cmps, .twin, .meter, .recd, .mb, .cfg, .fw, .nvm, .dev] s (State.bootFull s k) := by
  unfold State.bootFull
  extract_lets +onlyGivenNames y; clear_value y
  extract_lets +onlyGivenNames t1; refine same_cut (y := t1) ?_ ?_; unfold t1; clear t1
  with_reducible refine same_step ?_ (State.bootTime_same ..) (by decide)
  with_reducible refine same_step ?_ (State.bootMeter_same ..) (by decide)
  with_reducible refine same_mono (State.bootFirmware_same ..) (by decide)
  intro _; clear_value t1
  extract_lets +onlyGivenNames t2; refine same_cut (y := t2) ?_ ?_; unfold t2; clear t2
  with_reducible refine same_step ?_ (State.modNvm_same ..) (by decide)
  with_reducible refine same_step ?_ (State.bootStates_same ..) (by decide)
  with_reducible refine same_step ?_ (State.bootConfig_same ..) (by decide)
  assumption
  intro _; clear_value t2
  extract_lets +onlyGivenNames t3; refine same_cut (y := t3) ?_ ?_; unfold t3; clear t3
  with_reducible refine same_forEach ?_ fun _ _ => ?_
  with_reducible refine same_step ?_ (State.bootRecords_same ..) (by decide)
  assumption
  with_reducible refine same_mono (State.cmpRestart_same ..) (by decide)
  intro _; clear_value t3
  extract_lets +onlyGivenNames t4; refine same_cut (y := t4) ?_ ?_; unfold t4; clear t4
  with_reducible refine same_step ?_ (State.bootTime_same ..) (by decide)
  assumption
  intro _; clear_value t4
  extract_lets +onlyGivenNames y; clear_value y
  extract_lets +onlyGivenNames y; clear_value y
  extract_lets +onlyGivenNames t5; refine same_cut (y := t5) ?_ ?_; unfold t5; clear t5
  refine same_lit t4 ?_ ?_
  assumption
  intro p hp; cases p <;> first | exact absurd (by decide) hp | rfl
  intro _; clear_value t5
  extract_lets +onlyGivenNames t6; refine same_cut (y := t6) ?_ ?_; unfold t6; clear t6
  with_reducible refine same_ite ?_ ?_
  with_reducible refine same_step ?_ (State.flushSaves_same ..) (by decide)
  assumption
  assumption
  intro _; clear_value t6
  with_reducible refine same_step ?_ (State.refreshFstat_same ..) (by decide)
  with_reducible refine same_step ?_ (State.irq_same ..) (by decide)
  with_reducible refine same_step ?_ (State.refreshPg_same ..) (by decide)
  with_reducible refine same_step ?_ (State.refreshFlt_same ..) (by decide)
  assumption

theorem State.bootRecovery_same (s : State) : SameBut [.now, .clk, .time, .meter, .mb, .fw, .dev] s
    (State.bootRecovery s) := by
  unfold State.bootRecovery
  extract_lets +onlyGivenNames t1; refine same_cut (y := t1) ?_ ?_; unfold t1; clear t1
  with_reducible refine same_mono (State.bootTime_same ..) (by decide)
  intro _; clear_value t1
  extract_lets +onlyGivenNames y; clear_value y
  extract_lets +onlyGivenNames y; clear_value y
  extract_lets +onlyGivenNames t2; refine same_cut (y := t2) ?_ ?_; unfold t2; clear t2
  refine same_lit t1 ?_ ?_
  assumption
  intro p hp; cases p <;> first | exact absurd (by decide) hp | rfl
  intro _; clear_value t2
  with_reducible refine same_step ?_ (State.refreshFstat_same ..) (by decide)
  with_reducible refine same_step ?_ (State.irq_same ..) (by decide)
  assumption

theorem State.bootNow_same (s : State) : SameBut [.now, .objs, .clk, .time, .phases, .rails, .ports, .cmps, .twin,
    .meter, .recd, .mb, .cfg, .fw, .nvm, .dev] s (State.bootNow s) := by
  unfold State.bootNow
  extract_lets +onlyGivenNames y; clear_value y
  extract_lets +onlyGivenNames t1; refine same_cut (y := t1) ?_ ?_; unfold t1; clear t1
  refine same_lit s ?_ ?_
  exact same_refl ..
  intro p hp; cases p <;> first | exact absurd (by decide) hp | rfl
  intro _; clear_value t1
  split
  with_reducible refine same_step ?_ (State.bootFull_same ..) (by decide)
  assumption
  with_reducible refine same_step ?_ (State.bootRecovery_same ..) (by decide)
  assumption

theorem State.enterSleep_same (s : State) : SameBut [.objs, .clk, .feeds, .cmps, .twin, .recd, .mb, .nvm, .dev] s
    (State.enterSleep s) := by
  unfold State.enterSleep
  extract_lets +onlyGivenNames y; clear_value y
  extract_lets +onlyGivenNames t1; refine same_cut (y := t1) ?_ ?_; unfold t1; clear t1
  with_reducible refine same_step ?_ (State.thaw_same ..) (by decide)
  with_reducible refine same_mono (State.modMb_same ..) (by decide)
  intro _; clear_value t1
  extract_lets +onlyGivenNames t2; refine same_cut (y := t2) ?_ ?_; unfold t2; clear t2
  with_reducible refine same_forEach ?_ fun _ _ => ?_
  assumption
  with_reducible refine same_ite ?_ ?_
  exact same_refl ..
  with_reducible refine same_mono (State.modCmp_same ..) (by decide)
  intro _; clear_value t2
  extract_lets +onlyGivenNames t3; refine same_cut (y := t3) ?_ ?_; unfold t3; clear t3
  with_reducible refine same_step ?_ (State.modClk_same ..) (by decide)
  assumption
  intro _; clear_value t3
  with_reducible refine same_step ?_ (State.refreshFstat_same ..) (by decide)
  refine same_lit t3 ?_ ?_
  assumption
  intro p hp; cases p <;> first | exact absurd (by decide) hp | rfl

theorem State.sleepTime_same (s : State) (n : Nat) : SameBut [.now, .time, .meter] s (State.sleepTime s n) := by
  unfold State.sleepTime
  with_reducible refine same_step ?_ (State.passTime_same ..) (by decide)
  refine same_lit s ?_ ?_
  exact same_refl ..
  intro p hp; cases p <;> first | exact absurd (by decide) hp | rfl

theorem State.wakeNow_same (s : State) (src : Nat) : SameBut [.clk, .ports, .cmps, .mb, .dev] s (State.wakeNow s
    src) := by
  unfold State.wakeNow
  extract_lets +onlyGivenNames y; clear_value y
  extract_lets +onlyGivenNames t1; refine same_cut (y := t1) ?_ ?_; unfold t1; clear t1
  refine same_lit s ?_ ?_
  exact same_refl ..
  intro p hp; cases p <;> first | exact absurd (by decide) hp | rfl
  intro _; clear_value t1
  extract_lets +onlyGivenNames f; clear_value f
  extract_lets +onlyGivenNames t2; refine same_cut (y := t2) ?_ ?_; unfold t2; clear t2
  with_reducible refine same_step ?_ (State.modClk_same ..) (by decide)
  assumption
  intro _; clear_value t2
  extract_lets +onlyGivenNames t3; refine same_cut (y := t3) ?_ ?_; unfold t3; clear t3
  with_reducible refine same_forEach ?_ fun _ _ => ?_
  assumption
  with_reducible refine same_mono (State.cmpRestart_same ..) (by decide)
  intro _; clear_value t3
  with_reducible refine same_step ?_ (State.refreshFstat_same ..) (by decide)
  with_reducible refine same_forEach ?_ fun _ _ => ?_
  assumption
  with_reducible refine same_mono (State.modPort_same ..) (by decide)

theorem State.loseRegion_same (s : State) (k : Nat) : SameBut [.objs, .rails, .twin, .meter, .recd, .nvm] s
    (State.loseRegion s k) := by
  unfold State.loseRegion
  extract_lets +onlyGivenNames lost
  refine same_dite (fun _ => same_mono (State.modFf_same ..) (by decide)) (fun _ => ?_)
  refine same_ite ?_ (same_ite ?_ (same_ite ?_ (same_ite ?_ (same_refl ..))))
  · exact same_step (same_step (same_mono (State.modRec_same ..) (by decide)) (State.countLost_same ..) (by decide))
      (State.recordIf_same ..) (by decide)
  · exact same_step (same_step (same_mono (State.modRec_same ..) (by decide)) (State.countLost_same ..) (by decide))
      (State.recordIf_same ..) (by decide)
  · exact same_step (same_mono (State.modNvm_same ..) (by decide)) (State.recordIf_same ..) (by decide)
  · exact same_mono (State.modMeter_same ..) (by decide)

end Sys2Proof.Machine
end

