-- ==== Sys2Proof/Laws/State.lean ====
section
/-! SUPPORT. State, field by field: what each update leaves alone and what it writes. Every lemma is one field of one
update, so that no proof unfolds a record update; the updates of a part of a rail or phase rewrite to those of the whole. -/

namespace Sys2Proof.Machine

/-! setObj -/

@[simp] theorem State.pending_setObj (s : State) (c i k : Nat) (v : Word) : (s.setObj c i k v).pending = s.pending := rfl
@[simp] theorem State.now_setObj (s : State) (c i k : Nat) (v : Word) : (s.setObj c i k v).now = s.now := rfl
@[simp] theorem State.free_setObj (s : State) (c i k : Nat) (v : Word) : (s.setObj c i k v).free = s.free := rfl
@[simp] theorem State.edgeQueue_setObj (s : State) (c i k : Nat) (v : Word) : (s.setObj c i k v).edgeQueue = s.edgeQueue := rfl
@[simp] theorem State.clk_setObj (s : State) (c i k : Nat) (v : Word) : (s.setObj c i k v).clk = s.clk := rfl
@[simp] theorem State.time_setObj (s : State) (c i k : Nat) (v : Word) : (s.setObj c i k v).time = s.time := rfl
@[simp] theorem State.phases_setObj (s : State) (c i k : Nat) (v : Word) : (s.setObj c i k v).phases = s.phases := rfl
@[simp] theorem State.rails_setObj (s : State) (c i k : Nat) (v : Word) : (s.setObj c i k v).rails = s.rails := rfl
@[simp] theorem State.ports_setObj (s : State) (c i k : Nat) (v : Word) : (s.setObj c i k v).ports = s.ports := rfl
@[simp] theorem State.domains_setObj (s : State) (c i k : Nat) (v : Word) : (s.setObj c i k v).domains = s.domains := rfl
@[simp] theorem State.feeds_setObj (s : State) (c i k : Nat) (v : Word) : (s.setObj c i k v).feeds = s.feeds := rfl
@[simp] theorem State.cmps_setObj (s : State) (c i k : Nat) (v : Word) : (s.setObj c i k v).cmps = s.cmps := rfl
@[simp] theorem State.temps_setObj (s : State) (c i k : Nat) (v : Word) : (s.setObj c i k v).temps = s.temps := rfl
@[simp] theorem State.tune_setObj (s : State) (c i k : Nat) (v : Word) : (s.setObj c i k v).tune = s.tune := rfl
@[simp] theorem State.twin_setObj (s : State) (c i k : Nat) (v : Word) : (s.setObj c i k v).twin = s.twin := rfl
@[simp] theorem State.meter_setObj (s : State) (c i k : Nat) (v : Word) : (s.setObj c i k v).meter = s.meter := rfl
@[simp] theorem State.recd_setObj (s : State) (c i k : Nat) (v : Word) : (s.setObj c i k v).recd = s.recd := rfl
@[simp] theorem State.mb_setObj (s : State) (c i k : Nat) (v : Word) : (s.setObj c i k v).mb = s.mb := rfl
@[simp] theorem State.cfg_setObj (s : State) (c i k : Nat) (v : Word) : (s.setObj c i k v).cfg = s.cfg := rfl
@[simp] theorem State.fw_setObj (s : State) (c i k : Nat) (v : Word) : (s.setObj c i k v).fw = s.fw := rfl
@[simp] theorem State.nvm_setObj (s : State) (c i k : Nat) (v : Word) : (s.setObj c i k v).nvm = s.nvm := rfl
@[simp] theorem State.dev_setObj (s : State) (c i k : Nat) (v : Word) : (s.setObj c i k v).dev = s.dev := rfl
@[simp] theorem State.rail_setObj (s : State) (c i k : Nat) (v : Word) (q : RailIx) :
    (s.setObj c i k v).rail q = s.rail q := rfl
@[simp] theorem State.phase_setObj (s : State) (c i k : Nat) (v : Word) (m : PhaseIx) :
    (s.setObj c i k v).phase m = s.phase m := rfl
@[simp] theorem State.port_setObj (s : State) (c i k : Nat) (v : Word) (q : PortIx) :
    (s.setObj c i k v).port q = s.port q := rfl
@[simp] theorem State.domain_setObj (s : State) (c i k : Nat) (v : Word) (e : DomainIx) :
    (s.setObj c i k v).domain e = s.domain e := rfl
@[simp] theorem State.cmp_setObj (s : State) (c i k : Nat) (v : Word) (e : CmpIx) :
    (s.setObj c i k v).cmp e = s.cmp e := rfl
@[simp] theorem State.temp_setObj (s : State) (c i k : Nat) (v : Word) (j : TempIx) :
    (s.setObj c i k v).temp j = s.temp j := rfl
@[simp] theorem State.slot_setObj (s : State) (c i k : Nat) (v : Word) (j : SlotIx) :
    (s.setObj c i k v).slot j = s.slot j := rfl

/-! modRail -/

@[simp] theorem State.pending_modRail (s : State) (r : RailIx) (f : RailState → RailState) : (s.modRail r f).pending = s.pending := rfl
@[simp] theorem State.now_modRail (s : State) (r : RailIx) (f : RailState → RailState) : (s.modRail r f).now = s.now := rfl
@[simp] theorem State.free_modRail (s : State) (r : RailIx) (f : RailState → RailState) : (s.modRail r f).free = s.free := rfl
@[simp] theorem State.objs_modRail (s : State) (r : RailIx) (f : RailState → RailState) : (s.modRail r f).objs = s.objs := rfl
@[simp] theorem State.edgeQueue_modRail (s : State) (r : RailIx) (f : RailState → RailState) : (s.modRail r f).edgeQueue = s.edgeQueue := rfl
@[simp] theorem State.clk_modRail (s : State) (r : RailIx) (f : RailState → RailState) : (s.modRail r f).clk = s.clk := rfl
@[simp] theorem State.time_modRail (s : State) (r : RailIx) (f : RailState → RailState) : (s.modRail r f).time = s.time := rfl
@[simp] theorem State.phases_modRail (s : State) (r : RailIx) (f : RailState → RailState) : (s.modRail r f).phases = s.phases := rfl
@[simp] theorem State.ports_modRail (s : State) (r : RailIx) (f : RailState → RailState) : (s.modRail r f).ports = s.ports := rfl
@[simp] theorem State.domains_modRail (s : State) (r : RailIx) (f : RailState → RailState) : (s.modRail r f).domains = s.domains := rfl
@[simp] theorem State.feeds_modRail (s : State) (r : RailIx) (f : RailState → RailState) : (s.modRail r f).feeds = s.feeds := rfl
@[simp] theorem State.cmps_modRail (s : State) (r : RailIx) (f : RailState → RailState) : (s.modRail r f).cmps = s.cmps := rfl
@[simp] theorem State.temps_modRail (s : State) (r : RailIx) (f : RailState → RailState) : (s.modRail r f).temps = s.temps := rfl
@[simp] theorem State.tune_modRail (s : State) (r : RailIx) (f : RailState → RailState) : (s.modRail r f).tune = s.tune := rfl
@[simp] theorem State.twin_modRail (s : State) (r : RailIx) (f : RailState → RailState) : (s.modRail r f).twin = s.twin := rfl
@[simp] theorem State.meter_modRail (s : State) (r : RailIx) (f : RailState → RailState) : (s.modRail r f).meter = s.meter := rfl
@[simp] theorem State.recd_modRail (s : State) (r : RailIx) (f : RailState → RailState) : (s.modRail r f).recd = s.recd := rfl
@[simp] theorem State.mb_modRail (s : State) (r : RailIx) (f : RailState → RailState) : (s.modRail r f).mb = s.mb := rfl
@[simp] theorem State.cfg_modRail (s : State) (r : RailIx) (f : RailState → RailState) : (s.modRail r f).cfg = s.cfg := rfl
@[simp] theorem State.fw_modRail (s : State) (r : RailIx) (f : RailState → RailState) : (s.modRail r f).fw = s.fw := rfl
@[simp] theorem State.nvm_modRail (s : State) (r : RailIx) (f : RailState → RailState) : (s.modRail r f).nvm = s.nvm := rfl
@[simp] theorem State.dev_modRail (s : State) (r : RailIx) (f : RailState → RailState) : (s.modRail r f).dev = s.dev := rfl
@[simp] theorem State.phase_modRail (s : State) (r : RailIx) (f : RailState → RailState) (m : PhaseIx) :
    (s.modRail r f).phase m = s.phase m := rfl
@[simp] theorem State.port_modRail (s : State) (r : RailIx) (f : RailState → RailState) (q : PortIx) :
    (s.modRail r f).port q = s.port q := rfl
@[simp] theorem State.domain_modRail (s : State) (r : RailIx) (f : RailState → RailState) (e : DomainIx) :
    (s.modRail r f).domain e = s.domain e := rfl
@[simp] theorem State.cmp_modRail (s : State) (r : RailIx) (f : RailState → RailState) (e : CmpIx) :
    (s.modRail r f).cmp e = s.cmp e := rfl
@[simp] theorem State.temp_modRail (s : State) (r : RailIx) (f : RailState → RailState) (j : TempIx) :
    (s.modRail r f).temp j = s.temp j := rfl
@[simp] theorem State.slot_modRail (s : State) (r : RailIx) (f : RailState → RailState) (j : SlotIx) :
    (s.modRail r f).slot j = s.slot j := rfl
@[simp] theorem State.obj_modRail (s : State) (r : RailIx) (f : RailState → RailState) (x y z : Nat) : (s.modRail r f).obj x y z = s.obj x y z := rfl

/-! modPhase -/

@[simp] theorem State.pending_modPhase (s : State) (n : PhaseIx) (f : PhaseState → PhaseState) : (s.modPhase n f).pending = s.pending := rfl
@[simp] theorem State.now_modPhase (s : State) (n : PhaseIx) (f : PhaseState → PhaseState) : (s.modPhase n f).now = s.now := rfl
@[simp] theorem State.free_modPhase (s : State) (n : PhaseIx) (f : PhaseState → PhaseState) : (s.modPhase n f).free = s.free := rfl
@[simp] theorem State.objs_modPhase (s : State) (n : PhaseIx) (f : PhaseState → PhaseState) : (s.modPhase n f).objs = s.objs := rfl
@[simp] theorem State.edgeQueue_modPhase (s : State) (n : PhaseIx) (f : PhaseState → PhaseState) : (s.modPhase n f).edgeQueue = s.edgeQueue := rfl
@[simp] theorem State.clk_modPhase (s : State) (n : PhaseIx) (f : PhaseState → PhaseState) : (s.modPhase n f).clk = s.clk := rfl
@[simp] theorem State.time_modPhase (s : State) (n : PhaseIx) (f : PhaseState → PhaseState) : (s.modPhase n f).time = s.time := rfl
@[simp] theorem State.rails_modPhase (s : State) (n : PhaseIx) (f : PhaseState → PhaseState) : (s.modPhase n f).rails = s.rails := rfl
@[simp] theorem State.ports_modPhase (s : State) (n : PhaseIx) (f : PhaseState → PhaseState) : (s.modPhase n f).ports = s.ports := rfl
@[simp] theorem State.domains_modPhase (s : State) (n : PhaseIx) (f : PhaseState → PhaseState) : (s.modPhase n f).domains = s.domains := rfl
@[simp] theorem State.feeds_modPhase (s : State) (n : PhaseIx) (f : PhaseState → PhaseState) : (s.modPhase n f).feeds = s.feeds := rfl
@[simp] theorem State.cmps_modPhase (s : State) (n : PhaseIx) (f : PhaseState → PhaseState) : (s.modPhase n f).cmps = s.cmps := rfl
@[simp] theorem State.temps_modPhase (s : State) (n : PhaseIx) (f : PhaseState → PhaseState) : (s.modPhase n f).temps = s.temps := rfl
@[simp] theorem State.tune_modPhase (s : State) (n : PhaseIx) (f : PhaseState → PhaseState) : (s.modPhase n f).tune = s.tune := rfl
@[simp] theorem State.twin_modPhase (s : State) (n : PhaseIx) (f : PhaseState → PhaseState) : (s.modPhase n f).twin = s.twin := rfl
@[simp] theorem State.meter_modPhase (s : State) (n : PhaseIx) (f : PhaseState → PhaseState) : (s.modPhase n f).meter = s.meter := rfl
@[simp] theorem State.recd_modPhase (s : State) (n : PhaseIx) (f : PhaseState → PhaseState) : (s.modPhase n f).recd = s.recd := rfl
@[simp] theorem State.mb_modPhase (s : State) (n : PhaseIx) (f : PhaseState → PhaseState) : (s.modPhase n f).mb = s.mb := rfl
@[simp] theorem State.cfg_modPhase (s : State) (n : PhaseIx) (f : PhaseState → PhaseState) : (s.modPhase n f).cfg = s.cfg := rfl
@[simp] theorem State.fw_modPhase (s : State) (n : PhaseIx) (f : PhaseState → PhaseState) : (s.modPhase n f).fw = s.fw := rfl
@[simp] theorem State.nvm_modPhase (s : State) (n : PhaseIx) (f : PhaseState → PhaseState) : (s.modPhase n f).nvm = s.nvm := rfl
@[simp] theorem State.dev_modPhase (s : State) (n : PhaseIx) (f : PhaseState → PhaseState) : (s.modPhase n f).dev = s.dev := rfl
@[simp] theorem State.rail_modPhase (s : State) (n : PhaseIx) (f : PhaseState → PhaseState) (q : RailIx) :
    (s.modPhase n f).rail q = s.rail q := rfl
@[simp] theorem State.port_modPhase (s : State) (n : PhaseIx) (f : PhaseState → PhaseState) (q : PortIx) :
    (s.modPhase n f).port q = s.port q := rfl
@[simp] theorem State.domain_modPhase (s : State) (n : PhaseIx) (f : PhaseState → PhaseState) (e : DomainIx) :
    (s.modPhase n f).domain e = s.domain e := rfl
@[simp] theorem State.cmp_modPhase (s : State) (n : PhaseIx) (f : PhaseState → PhaseState) (e : CmpIx) :
    (s.modPhase n f).cmp e = s.cmp e := rfl
@[simp] theorem State.temp_modPhase (s : State) (n : PhaseIx) (f : PhaseState → PhaseState) (j : TempIx) :
    (s.modPhase n f).temp j = s.temp j := rfl
@[simp] theorem State.slot_modPhase (s : State) (n : PhaseIx) (f : PhaseState → PhaseState) (j : SlotIx) :
    (s.modPhase n f).slot j = s.slot j := rfl
@[simp] theorem State.obj_modPhase (s : State) (n : PhaseIx) (f : PhaseState → PhaseState) (x y z : Nat) : (s.modPhase n f).obj x y z = s.obj x y z := rfl

/-! modPort -/

@[simp] theorem State.pending_modPort (s : State) (p : PortIx) (f : PortState → PortState) : (s.modPort p f).pending = s.pending := rfl
@[simp] theorem State.now_modPort (s : State) (p : PortIx) (f : PortState → PortState) : (s.modPort p f).now = s.now := rfl
@[simp] theorem State.free_modPort (s : State) (p : PortIx) (f : PortState → PortState) : (s.modPort p f).free = s.free := rfl
@[simp] theorem State.objs_modPort (s : State) (p : PortIx) (f : PortState → PortState) : (s.modPort p f).objs = s.objs := rfl
@[simp] theorem State.edgeQueue_modPort (s : State) (p : PortIx) (f : PortState → PortState) : (s.modPort p f).edgeQueue = s.edgeQueue := rfl
@[simp] theorem State.clk_modPort (s : State) (p : PortIx) (f : PortState → PortState) : (s.modPort p f).clk = s.clk := rfl
@[simp] theorem State.time_modPort (s : State) (p : PortIx) (f : PortState → PortState) : (s.modPort p f).time = s.time := rfl
@[simp] theorem State.phases_modPort (s : State) (p : PortIx) (f : PortState → PortState) : (s.modPort p f).phases = s.phases := rfl
@[simp] theorem State.rails_modPort (s : State) (p : PortIx) (f : PortState → PortState) : (s.modPort p f).rails = s.rails := rfl
@[simp] theorem State.domains_modPort (s : State) (p : PortIx) (f : PortState → PortState) : (s.modPort p f).domains = s.domains := rfl
@[simp] theorem State.feeds_modPort (s : State) (p : PortIx) (f : PortState → PortState) : (s.modPort p f).feeds = s.feeds := rfl
@[simp] theorem State.cmps_modPort (s : State) (p : PortIx) (f : PortState → PortState) : (s.modPort p f).cmps = s.cmps := rfl
@[simp] theorem State.temps_modPort (s : State) (p : PortIx) (f : PortState → PortState) : (s.modPort p f).temps = s.temps := rfl
@[simp] theorem State.tune_modPort (s : State) (p : PortIx) (f : PortState → PortState) : (s.modPort p f).tune = s.tune := rfl
@[simp] theorem State.twin_modPort (s : State) (p : PortIx) (f : PortState → PortState) : (s.modPort p f).twin = s.twin := rfl
@[simp] theorem State.meter_modPort (s : State) (p : PortIx) (f : PortState → PortState) : (s.modPort p f).meter = s.meter := rfl
@[simp] theorem State.recd_modPort (s : State) (p : PortIx) (f : PortState → PortState) : (s.modPort p f).recd = s.recd := rfl
@[simp] theorem State.mb_modPort (s : State) (p : PortIx) (f : PortState → PortState) : (s.modPort p f).mb = s.mb := rfl
@[simp] theorem State.cfg_modPort (s : State) (p : PortIx) (f : PortState → PortState) : (s.modPort p f).cfg = s.cfg := rfl
@[simp] theorem State.fw_modPort (s : State) (p : PortIx) (f : PortState → PortState) : (s.modPort p f).fw = s.fw := rfl
@[simp] theorem State.nvm_modPort (s : State) (p : PortIx) (f : PortState → PortState) : (s.modPort p f).nvm = s.nvm := rfl
@[simp] theorem State.dev_modPort (s : State) (p : PortIx) (f : PortState → PortState) : (s.modPort p f).dev = s.dev := rfl
@[simp] theorem State.rail_modPort (s : State) (p : PortIx) (f : PortState → PortState) (q : RailIx) :
    (s.modPort p f).rail q = s.rail q := rfl
@[simp] theorem State.phase_modPort (s : State) (p : PortIx) (f : PortState → PortState) (m : PhaseIx) :
    (s.modPort p f).phase m = s.phase m := rfl
@[simp] theorem State.domain_modPort (s : State) (p : PortIx) (f : PortState → PortState) (e : DomainIx) :
    (s.modPort p f).domain e = s.domain e := rfl
@[simp] theorem State.cmp_modPort (s : State) (p : PortIx) (f : PortState → PortState) (e : CmpIx) :
    (s.modPort p f).cmp e = s.cmp e := rfl
@[simp] theorem State.temp_modPort (s : State) (p : PortIx) (f : PortState → PortState) (j : TempIx) :
    (s.modPort p f).temp j = s.temp j := rfl
@[simp] theorem State.slot_modPort (s : State) (p : PortIx) (f : PortState → PortState) (j : SlotIx) :
    (s.modPort p f).slot j = s.slot j := rfl
@[simp] theorem State.obj_modPort (s : State) (p : PortIx) (f : PortState → PortState) (x y z : Nat) : (s.modPort p f).obj x y z = s.obj x y z := rfl

/-! modDomain -/

@[simp] theorem State.pending_modDomain (s : State) (d : DomainIx) (f : DomainState → DomainState) : (s.modDomain d f).pending = s.pending := rfl
@[simp] theorem State.now_modDomain (s : State) (d : DomainIx) (f : DomainState → DomainState) : (s.modDomain d f).now = s.now := rfl
@[simp] theorem State.free_modDomain (s : State) (d : DomainIx) (f : DomainState → DomainState) : (s.modDomain d f).free = s.free := rfl
@[simp] theorem State.objs_modDomain (s : State) (d : DomainIx) (f : DomainState → DomainState) : (s.modDomain d f).objs = s.objs := rfl
@[simp] theorem State.edgeQueue_modDomain (s : State) (d : DomainIx) (f : DomainState → DomainState) : (s.modDomain d f).edgeQueue = s.edgeQueue := rfl
@[simp] theorem State.clk_modDomain (s : State) (d : DomainIx) (f : DomainState → DomainState) : (s.modDomain d f).clk = s.clk := rfl
@[simp] theorem State.time_modDomain (s : State) (d : DomainIx) (f : DomainState → DomainState) : (s.modDomain d f).time = s.time := rfl
@[simp] theorem State.phases_modDomain (s : State) (d : DomainIx) (f : DomainState → DomainState) : (s.modDomain d f).phases = s.phases := rfl
@[simp] theorem State.rails_modDomain (s : State) (d : DomainIx) (f : DomainState → DomainState) : (s.modDomain d f).rails = s.rails := rfl
@[simp] theorem State.ports_modDomain (s : State) (d : DomainIx) (f : DomainState → DomainState) : (s.modDomain d f).ports = s.ports := rfl
@[simp] theorem State.feeds_modDomain (s : State) (d : DomainIx) (f : DomainState → DomainState) : (s.modDomain d f).feeds = s.feeds := rfl
@[simp] theorem State.cmps_modDomain (s : State) (d : DomainIx) (f : DomainState → DomainState) : (s.modDomain d f).cmps = s.cmps := rfl
@[simp] theorem State.temps_modDomain (s : State) (d : DomainIx) (f : DomainState → DomainState) : (s.modDomain d f).temps = s.temps := rfl
@[simp] theorem State.tune_modDomain (s : State) (d : DomainIx) (f : DomainState → DomainState) : (s.modDomain d f).tune = s.tune := rfl
@[simp] theorem State.twin_modDomain (s : State) (d : DomainIx) (f : DomainState → DomainState) : (s.modDomain d f).twin = s.twin := rfl
@[simp] theorem State.meter_modDomain (s : State) (d : DomainIx) (f : DomainState → DomainState) : (s.modDomain d f).meter = s.meter := rfl
@[simp] theorem State.recd_modDomain (s : State) (d : DomainIx) (f : DomainState → DomainState) : (s.modDomain d f).recd = s.recd := rfl
@[simp] theorem State.mb_modDomain (s : State) (d : DomainIx) (f : DomainState → DomainState) : (s.modDomain d f).mb = s.mb := rfl
@[simp] theorem State.cfg_modDomain (s : State) (d : DomainIx) (f : DomainState → DomainState) : (s.modDomain d f).cfg = s.cfg := rfl
@[simp] theorem State.fw_modDomain (s : State) (d : DomainIx) (f : DomainState → DomainState) : (s.modDomain d f).fw = s.fw := rfl
@[simp] theorem State.nvm_modDomain (s : State) (d : DomainIx) (f : DomainState → DomainState) : (s.modDomain d f).nvm = s.nvm := rfl
@[simp] theorem State.dev_modDomain (s : State) (d : DomainIx) (f : DomainState → DomainState) : (s.modDomain d f).dev = s.dev := rfl
@[simp] theorem State.rail_modDomain (s : State) (d : DomainIx) (f : DomainState → DomainState) (q : RailIx) :
    (s.modDomain d f).rail q = s.rail q := rfl
@[simp] theorem State.phase_modDomain (s : State) (d : DomainIx) (f : DomainState → DomainState) (m : PhaseIx) :
    (s.modDomain d f).phase m = s.phase m := rfl
@[simp] theorem State.port_modDomain (s : State) (d : DomainIx) (f : DomainState → DomainState) (q : PortIx) :
    (s.modDomain d f).port q = s.port q := rfl
@[simp] theorem State.cmp_modDomain (s : State) (d : DomainIx) (f : DomainState → DomainState) (e : CmpIx) :
    (s.modDomain d f).cmp e = s.cmp e := rfl
@[simp] theorem State.temp_modDomain (s : State) (d : DomainIx) (f : DomainState → DomainState) (j : TempIx) :
    (s.modDomain d f).temp j = s.temp j := rfl
@[simp] theorem State.slot_modDomain (s : State) (d : DomainIx) (f : DomainState → DomainState) (j : SlotIx) :
    (s.modDomain d f).slot j = s.slot j := rfl
@[simp] theorem State.obj_modDomain (s : State) (d : DomainIx) (f : DomainState → DomainState) (x y z : Nat) : (s.modDomain d f).obj x y z = s.obj x y z := rfl

/-! modCmp -/

@[simp] theorem State.pending_modCmp (s : State) (c : CmpIx) (f : CmpState → CmpState) : (s.modCmp c f).pending = s.pending := rfl
@[simp] theorem State.now_modCmp (s : State) (c : CmpIx) (f : CmpState → CmpState) : (s.modCmp c f).now = s.now := rfl
@[simp] theorem State.free_modCmp (s : State) (c : CmpIx) (f : CmpState → CmpState) : (s.modCmp c f).free = s.free := rfl
@[simp] theorem State.objs_modCmp (s : State) (c : CmpIx) (f : CmpState → CmpState) : (s.modCmp c f).objs = s.objs := rfl
@[simp] theorem State.edgeQueue_modCmp (s : State) (c : CmpIx) (f : CmpState → CmpState) : (s.modCmp c f).edgeQueue = s.edgeQueue := rfl
@[simp] theorem State.clk_modCmp (s : State) (c : CmpIx) (f : CmpState → CmpState) : (s.modCmp c f).clk = s.clk := rfl
@[simp] theorem State.time_modCmp (s : State) (c : CmpIx) (f : CmpState → CmpState) : (s.modCmp c f).time = s.time := rfl
@[simp] theorem State.phases_modCmp (s : State) (c : CmpIx) (f : CmpState → CmpState) : (s.modCmp c f).phases = s.phases := rfl
@[simp] theorem State.rails_modCmp (s : State) (c : CmpIx) (f : CmpState → CmpState) : (s.modCmp c f).rails = s.rails := rfl
@[simp] theorem State.ports_modCmp (s : State) (c : CmpIx) (f : CmpState → CmpState) : (s.modCmp c f).ports = s.ports := rfl
@[simp] theorem State.domains_modCmp (s : State) (c : CmpIx) (f : CmpState → CmpState) : (s.modCmp c f).domains = s.domains := rfl
@[simp] theorem State.feeds_modCmp (s : State) (c : CmpIx) (f : CmpState → CmpState) : (s.modCmp c f).feeds = s.feeds := rfl
@[simp] theorem State.temps_modCmp (s : State) (c : CmpIx) (f : CmpState → CmpState) : (s.modCmp c f).temps = s.temps := rfl
@[simp] theorem State.tune_modCmp (s : State) (c : CmpIx) (f : CmpState → CmpState) : (s.modCmp c f).tune = s.tune := rfl
@[simp] theorem State.twin_modCmp (s : State) (c : CmpIx) (f : CmpState → CmpState) : (s.modCmp c f).twin = s.twin := rfl
@[simp] theorem State.meter_modCmp (s : State) (c : CmpIx) (f : CmpState → CmpState) : (s.modCmp c f).meter = s.meter := rfl
@[simp] theorem State.recd_modCmp (s : State) (c : CmpIx) (f : CmpState → CmpState) : (s.modCmp c f).recd = s.recd := rfl
@[simp] theorem State.mb_modCmp (s : State) (c : CmpIx) (f : CmpState → CmpState) : (s.modCmp c f).mb = s.mb := rfl
@[simp] theorem State.cfg_modCmp (s : State) (c : CmpIx) (f : CmpState → CmpState) : (s.modCmp c f).cfg = s.cfg := rfl
@[simp] theorem State.fw_modCmp (s : State) (c : CmpIx) (f : CmpState → CmpState) : (s.modCmp c f).fw = s.fw := rfl
@[simp] theorem State.nvm_modCmp (s : State) (c : CmpIx) (f : CmpState → CmpState) : (s.modCmp c f).nvm = s.nvm := rfl
@[simp] theorem State.dev_modCmp (s : State) (c : CmpIx) (f : CmpState → CmpState) : (s.modCmp c f).dev = s.dev := rfl
@[simp] theorem State.rail_modCmp (s : State) (c : CmpIx) (f : CmpState → CmpState) (q : RailIx) :
    (s.modCmp c f).rail q = s.rail q := rfl
@[simp] theorem State.phase_modCmp (s : State) (c : CmpIx) (f : CmpState → CmpState) (m : PhaseIx) :
    (s.modCmp c f).phase m = s.phase m := rfl
@[simp] theorem State.port_modCmp (s : State) (c : CmpIx) (f : CmpState → CmpState) (q : PortIx) :
    (s.modCmp c f).port q = s.port q := rfl
@[simp] theorem State.domain_modCmp (s : State) (c : CmpIx) (f : CmpState → CmpState) (e : DomainIx) :
    (s.modCmp c f).domain e = s.domain e := rfl
@[simp] theorem State.temp_modCmp (s : State) (c : CmpIx) (f : CmpState → CmpState) (j : TempIx) :
    (s.modCmp c f).temp j = s.temp j := rfl
@[simp] theorem State.slot_modCmp (s : State) (c : CmpIx) (f : CmpState → CmpState) (j : SlotIx) :
    (s.modCmp c f).slot j = s.slot j := rfl
@[simp] theorem State.obj_modCmp (s : State) (c : CmpIx) (f : CmpState → CmpState) (x y z : Nat) : (s.modCmp c f).obj x y z = s.obj x y z := rfl

/-! modTemp -/

@[simp] theorem State.pending_modTemp (s : State) (i : TempIx) (f : TempState → TempState) : (s.modTemp i f).pending = s.pending := rfl
@[simp] theorem State.now_modTemp (s : State) (i : TempIx) (f : TempState → TempState) : (s.modTemp i f).now = s.now := rfl
@[simp] theorem State.free_modTemp (s : State) (i : TempIx) (f : TempState → TempState) : (s.modTemp i f).free = s.free := rfl
@[simp] theorem State.objs_modTemp (s : State) (i : TempIx) (f : TempState → TempState) : (s.modTemp i f).objs = s.objs := rfl
@[simp] theorem State.edgeQueue_modTemp (s : State) (i : TempIx) (f : TempState → TempState) : (s.modTemp i f).edgeQueue = s.edgeQueue := rfl
@[simp] theorem State.clk_modTemp (s : State) (i : TempIx) (f : TempState → TempState) : (s.modTemp i f).clk = s.clk := rfl
@[simp] theorem State.time_modTemp (s : State) (i : TempIx) (f : TempState → TempState) : (s.modTemp i f).time = s.time := rfl
@[simp] theorem State.phases_modTemp (s : State) (i : TempIx) (f : TempState → TempState) : (s.modTemp i f).phases = s.phases := rfl
@[simp] theorem State.rails_modTemp (s : State) (i : TempIx) (f : TempState → TempState) : (s.modTemp i f).rails = s.rails := rfl
@[simp] theorem State.ports_modTemp (s : State) (i : TempIx) (f : TempState → TempState) : (s.modTemp i f).ports = s.ports := rfl
@[simp] theorem State.domains_modTemp (s : State) (i : TempIx) (f : TempState → TempState) : (s.modTemp i f).domains = s.domains := rfl
@[simp] theorem State.feeds_modTemp (s : State) (i : TempIx) (f : TempState → TempState) : (s.modTemp i f).feeds = s.feeds := rfl
@[simp] theorem State.cmps_modTemp (s : State) (i : TempIx) (f : TempState → TempState) : (s.modTemp i f).cmps = s.cmps := rfl
@[simp] theorem State.tune_modTemp (s : State) (i : TempIx) (f : TempState → TempState) : (s.modTemp i f).tune = s.tune := rfl
@[simp] theorem State.twin_modTemp (s : State) (i : TempIx) (f : TempState → TempState) : (s.modTemp i f).twin = s.twin := rfl
@[simp] theorem State.meter_modTemp (s : State) (i : TempIx) (f : TempState → TempState) : (s.modTemp i f).meter = s.meter := rfl
@[simp] theorem State.recd_modTemp (s : State) (i : TempIx) (f : TempState → TempState) : (s.modTemp i f).recd = s.recd := rfl
@[simp] theorem State.mb_modTemp (s : State) (i : TempIx) (f : TempState → TempState) : (s.modTemp i f).mb = s.mb := rfl
@[simp] theorem State.cfg_modTemp (s : State) (i : TempIx) (f : TempState → TempState) : (s.modTemp i f).cfg = s.cfg := rfl
@[simp] theorem State.fw_modTemp (s : State) (i : TempIx) (f : TempState → TempState) : (s.modTemp i f).fw = s.fw := rfl
@[simp] theorem State.nvm_modTemp (s : State) (i : TempIx) (f : TempState → TempState) : (s.modTemp i f).nvm = s.nvm := rfl
@[simp] theorem State.dev_modTemp (s : State) (i : TempIx) (f : TempState → TempState) : (s.modTemp i f).dev = s.dev := rfl
@[simp] theorem State.rail_modTemp (s : State) (i : TempIx) (f : TempState → TempState) (q : RailIx) :
    (s.modTemp i f).rail q = s.rail q := rfl
@[simp] theorem State.phase_modTemp (s : State) (i : TempIx) (f : TempState → TempState) (m : PhaseIx) :
    (s.modTemp i f).phase m = s.phase m := rfl
@[simp] theorem State.port_modTemp (s : State) (i : TempIx) (f : TempState → TempState) (q : PortIx) :
    (s.modTemp i f).port q = s.port q := rfl
@[simp] theorem State.domain_modTemp (s : State) (i : TempIx) (f : TempState → TempState) (e : DomainIx) :
    (s.modTemp i f).domain e = s.domain e := rfl
@[simp] theorem State.cmp_modTemp (s : State) (i : TempIx) (f : TempState → TempState) (e : CmpIx) :
    (s.modTemp i f).cmp e = s.cmp e := rfl
@[simp] theorem State.slot_modTemp (s : State) (i : TempIx) (f : TempState → TempState) (j : SlotIx) :
    (s.modTemp i f).slot j = s.slot j := rfl
@[simp] theorem State.obj_modTemp (s : State) (i : TempIx) (f : TempState → TempState) (x y z : Nat) : (s.modTemp i f).obj x y z = s.obj x y z := rfl

/-! modSlot -/

@[simp] theorem State.pending_modSlot (s : State) (k : SlotIx) (f : Slot → Slot) : (s.modSlot k f).pending = s.pending := rfl
@[simp] theorem State.now_modSlot (s : State) (k : SlotIx) (f : Slot → Slot) : (s.modSlot k f).now = s.now := rfl
@[simp] theorem State.free_modSlot (s : State) (k : SlotIx) (f : Slot → Slot) : (s.modSlot k f).free = s.free := rfl
@[simp] theorem State.objs_modSlot (s : State) (k : SlotIx) (f : Slot → Slot) : (s.modSlot k f).objs = s.objs := rfl
@[simp] theorem State.edgeQueue_modSlot (s : State) (k : SlotIx) (f : Slot → Slot) : (s.modSlot k f).edgeQueue = s.edgeQueue := rfl
@[simp] theorem State.clk_modSlot (s : State) (k : SlotIx) (f : Slot → Slot) : (s.modSlot k f).clk = s.clk := rfl
@[simp] theorem State.time_modSlot (s : State) (k : SlotIx) (f : Slot → Slot) : (s.modSlot k f).time = s.time := rfl
@[simp] theorem State.phases_modSlot (s : State) (k : SlotIx) (f : Slot → Slot) : (s.modSlot k f).phases = s.phases := rfl
@[simp] theorem State.rails_modSlot (s : State) (k : SlotIx) (f : Slot → Slot) : (s.modSlot k f).rails = s.rails := rfl
@[simp] theorem State.ports_modSlot (s : State) (k : SlotIx) (f : Slot → Slot) : (s.modSlot k f).ports = s.ports := rfl
@[simp] theorem State.domains_modSlot (s : State) (k : SlotIx) (f : Slot → Slot) : (s.modSlot k f).domains = s.domains := rfl
@[simp] theorem State.feeds_modSlot (s : State) (k : SlotIx) (f : Slot → Slot) : (s.modSlot k f).feeds = s.feeds := rfl
@[simp] theorem State.cmps_modSlot (s : State) (k : SlotIx) (f : Slot → Slot) : (s.modSlot k f).cmps = s.cmps := rfl
@[simp] theorem State.temps_modSlot (s : State) (k : SlotIx) (f : Slot → Slot) : (s.modSlot k f).temps = s.temps := rfl
@[simp] theorem State.tune_modSlot (s : State) (k : SlotIx) (f : Slot → Slot) : (s.modSlot k f).tune = s.tune := rfl
@[simp] theorem State.twin_modSlot (s : State) (k : SlotIx) (f : Slot → Slot) : (s.modSlot k f).twin = s.twin := rfl
@[simp] theorem State.meter_modSlot (s : State) (k : SlotIx) (f : Slot → Slot) : (s.modSlot k f).meter = s.meter := rfl
@[simp] theorem State.recd_modSlot (s : State) (k : SlotIx) (f : Slot → Slot) : (s.modSlot k f).recd = s.recd := rfl
@[simp] theorem State.cfg_modSlot (s : State) (k : SlotIx) (f : Slot → Slot) : (s.modSlot k f).cfg = s.cfg := rfl
@[simp] theorem State.fw_modSlot (s : State) (k : SlotIx) (f : Slot → Slot) : (s.modSlot k f).fw = s.fw := rfl
@[simp] theorem State.nvm_modSlot (s : State) (k : SlotIx) (f : Slot → Slot) : (s.modSlot k f).nvm = s.nvm := rfl
@[simp] theorem State.dev_modSlot (s : State) (k : SlotIx) (f : Slot → Slot) : (s.modSlot k f).dev = s.dev := rfl
@[simp] theorem State.rail_modSlot (s : State) (k : SlotIx) (f : Slot → Slot) (q : RailIx) :
    (s.modSlot k f).rail q = s.rail q := rfl
@[simp] theorem State.phase_modSlot (s : State) (k : SlotIx) (f : Slot → Slot) (m : PhaseIx) :
    (s.modSlot k f).phase m = s.phase m := rfl
@[simp] theorem State.port_modSlot (s : State) (k : SlotIx) (f : Slot → Slot) (q : PortIx) :
    (s.modSlot k f).port q = s.port q := rfl
@[simp] theorem State.domain_modSlot (s : State) (k : SlotIx) (f : Slot → Slot) (e : DomainIx) :
    (s.modSlot k f).domain e = s.domain e := rfl
@[simp] theorem State.cmp_modSlot (s : State) (k : SlotIx) (f : Slot → Slot) (e : CmpIx) :
    (s.modSlot k f).cmp e = s.cmp e := rfl
@[simp] theorem State.temp_modSlot (s : State) (k : SlotIx) (f : Slot → Slot) (j : TempIx) :
    (s.modSlot k f).temp j = s.temp j := rfl
@[simp] theorem State.obj_modSlot (s : State) (k : SlotIx) (f : Slot → Slot) (x y z : Nat) : (s.modSlot k f).obj x y z = s.obj x y z := rfl

/-! irq -/

@[simp] theorem State.pending_irq (s : State) (k : Fin 16) : (s.irq k).pending = s.pending := rfl
@[simp] theorem State.now_irq (s : State) (k : Fin 16) : (s.irq k).now = s.now := rfl
@[simp] theorem State.free_irq (s : State) (k : Fin 16) : (s.irq k).free = s.free := rfl
@[simp] theorem State.objs_irq (s : State) (k : Fin 16) : (s.irq k).objs = s.objs := rfl
@[simp] theorem State.edgeQueue_irq (s : State) (k : Fin 16) : (s.irq k).edgeQueue = s.edgeQueue := rfl
@[simp] theorem State.clk_irq (s : State) (k : Fin 16) : (s.irq k).clk = s.clk := rfl
@[simp] theorem State.time_irq (s : State) (k : Fin 16) : (s.irq k).time = s.time := rfl
@[simp] theorem State.phases_irq (s : State) (k : Fin 16) : (s.irq k).phases = s.phases := rfl
@[simp] theorem State.rails_irq (s : State) (k : Fin 16) : (s.irq k).rails = s.rails := rfl
@[simp] theorem State.ports_irq (s : State) (k : Fin 16) : (s.irq k).ports = s.ports := rfl
@[simp] theorem State.domains_irq (s : State) (k : Fin 16) : (s.irq k).domains = s.domains := rfl
@[simp] theorem State.feeds_irq (s : State) (k : Fin 16) : (s.irq k).feeds = s.feeds := rfl
@[simp] theorem State.cmps_irq (s : State) (k : Fin 16) : (s.irq k).cmps = s.cmps := rfl
@[simp] theorem State.temps_irq (s : State) (k : Fin 16) : (s.irq k).temps = s.temps := rfl
@[simp] theorem State.tune_irq (s : State) (k : Fin 16) : (s.irq k).tune = s.tune := rfl
@[simp] theorem State.twin_irq (s : State) (k : Fin 16) : (s.irq k).twin = s.twin := rfl
@[simp] theorem State.meter_irq (s : State) (k : Fin 16) : (s.irq k).meter = s.meter := rfl
@[simp] theorem State.recd_irq (s : State) (k : Fin 16) : (s.irq k).recd = s.recd := rfl
@[simp] theorem State.cfg_irq (s : State) (k : Fin 16) : (s.irq k).cfg = s.cfg := rfl
@[simp] theorem State.fw_irq (s : State) (k : Fin 16) : (s.irq k).fw = s.fw := rfl
@[simp] theorem State.nvm_irq (s : State) (k : Fin 16) : (s.irq k).nvm = s.nvm := rfl
@[simp] theorem State.dev_irq (s : State) (k : Fin 16) : (s.irq k).dev = s.dev := rfl
@[simp] theorem State.rail_irq (s : State) (k : Fin 16) (q : RailIx) :
    (s.irq k).rail q = s.rail q := rfl
@[simp] theorem State.phase_irq (s : State) (k : Fin 16) (m : PhaseIx) :
    (s.irq k).phase m = s.phase m := rfl
@[simp] theorem State.port_irq (s : State) (k : Fin 16) (q : PortIx) :
    (s.irq k).port q = s.port q := rfl
@[simp] theorem State.domain_irq (s : State) (k : Fin 16) (e : DomainIx) :
    (s.irq k).domain e = s.domain e := rfl
@[simp] theorem State.cmp_irq (s : State) (k : Fin 16) (e : CmpIx) :
    (s.irq k).cmp e = s.cmp e := rfl
@[simp] theorem State.temp_irq (s : State) (k : Fin 16) (j : TempIx) :
    (s.irq k).temp j = s.temp j := rfl
@[simp] theorem State.obj_irq (s : State) (k : Fin 16) (x y z : Nat) : (s.irq k).obj x y z = s.obj x y z := rfl

/-! modMb -/

@[simp] theorem State.pending_modMb (s : State) (f : MbState → MbState) : (s.modMb f).pending = s.pending := rfl
@[simp] theorem State.now_modMb (s : State) (f : MbState → MbState) : (s.modMb f).now = s.now := rfl
@[simp] theorem State.free_modMb (s : State) (f : MbState → MbState) : (s.modMb f).free = s.free := rfl
@[simp] theorem State.objs_modMb (s : State) (f : MbState → MbState) : (s.modMb f).objs = s.objs := rfl
@[simp] theorem State.edgeQueue_modMb (s : State) (f : MbState → MbState) : (s.modMb f).edgeQueue = s.edgeQueue := rfl
@[simp] theorem State.clk_modMb (s : State) (f : MbState → MbState) : (s.modMb f).clk = s.clk := rfl
@[simp] theorem State.time_modMb (s : State) (f : MbState → MbState) : (s.modMb f).time = s.time := rfl
@[simp] theorem State.phases_modMb (s : State) (f : MbState → MbState) : (s.modMb f).phases = s.phases := rfl
@[simp] theorem State.rails_modMb (s : State) (f : MbState → MbState) : (s.modMb f).rails = s.rails := rfl
@[simp] theorem State.ports_modMb (s : State) (f : MbState → MbState) : (s.modMb f).ports = s.ports := rfl
@[simp] theorem State.domains_modMb (s : State) (f : MbState → MbState) : (s.modMb f).domains = s.domains := rfl
@[simp] theorem State.feeds_modMb (s : State) (f : MbState → MbState) : (s.modMb f).feeds = s.feeds := rfl
@[simp] theorem State.cmps_modMb (s : State) (f : MbState → MbState) : (s.modMb f).cmps = s.cmps := rfl
@[simp] theorem State.temps_modMb (s : State) (f : MbState → MbState) : (s.modMb f).temps = s.temps := rfl
@[simp] theorem State.tune_modMb (s : State) (f : MbState → MbState) : (s.modMb f).tune = s.tune := rfl
@[simp] theorem State.twin_modMb (s : State) (f : MbState → MbState) : (s.modMb f).twin = s.twin := rfl
@[simp] theorem State.meter_modMb (s : State) (f : MbState → MbState) : (s.modMb f).meter = s.meter := rfl
@[simp] theorem State.recd_modMb (s : State) (f : MbState → MbState) : (s.modMb f).recd = s.recd := rfl
@[simp] theorem State.cfg_modMb (s : State) (f : MbState → MbState) : (s.modMb f).cfg = s.cfg := rfl
@[simp] theorem State.fw_modMb (s : State) (f : MbState → MbState) : (s.modMb f).fw = s.fw := rfl
@[simp] theorem State.nvm_modMb (s : State) (f : MbState → MbState) : (s.modMb f).nvm = s.nvm := rfl
@[simp] theorem State.dev_modMb (s : State) (f : MbState → MbState) : (s.modMb f).dev = s.dev := rfl
@[simp] theorem State.rail_modMb (s : State) (f : MbState → MbState) (q : RailIx) :
    (s.modMb f).rail q = s.rail q := rfl
@[simp] theorem State.phase_modMb (s : State) (f : MbState → MbState) (m : PhaseIx) :
    (s.modMb f).phase m = s.phase m := rfl
@[simp] theorem State.port_modMb (s : State) (f : MbState → MbState) (q : PortIx) :
    (s.modMb f).port q = s.port q := rfl
@[simp] theorem State.domain_modMb (s : State) (f : MbState → MbState) (e : DomainIx) :
    (s.modMb f).domain e = s.domain e := rfl
@[simp] theorem State.cmp_modMb (s : State) (f : MbState → MbState) (e : CmpIx) :
    (s.modMb f).cmp e = s.cmp e := rfl
@[simp] theorem State.temp_modMb (s : State) (f : MbState → MbState) (j : TempIx) :
    (s.modMb f).temp j = s.temp j := rfl
@[simp] theorem State.obj_modMb (s : State) (f : MbState → MbState) (x y z : Nat) : (s.modMb f).obj x y z = s.obj x y z := rfl
@[simp] theorem State.mb_modMb (s : State) (f : MbState → MbState) : (s.modMb f).mb = f s.mb := rfl

/-! modRec -/

@[simp] theorem State.pending_modRec (s : State) (f : RecState → RecState) : (s.modRec f).pending = s.pending := rfl
@[simp] theorem State.now_modRec (s : State) (f : RecState → RecState) : (s.modRec f).now = s.now := rfl
@[simp] theorem State.free_modRec (s : State) (f : RecState → RecState) : (s.modRec f).free = s.free := rfl
@[simp] theorem State.objs_modRec (s : State) (f : RecState → RecState) : (s.modRec f).objs = s.objs := rfl
@[simp] theorem State.edgeQueue_modRec (s : State) (f : RecState → RecState) : (s.modRec f).edgeQueue = s.edgeQueue := rfl
@[simp] theorem State.clk_modRec (s : State) (f : RecState → RecState) : (s.modRec f).clk = s.clk := rfl
@[simp] theorem State.time_modRec (s : State) (f : RecState → RecState) : (s.modRec f).time = s.time := rfl
@[simp] theorem State.phases_modRec (s : State) (f : RecState → RecState) : (s.modRec f).phases = s.phases := rfl
@[simp] theorem State.rails_modRec (s : State) (f : RecState → RecState) : (s.modRec f).rails = s.rails := rfl
@[simp] theorem State.ports_modRec (s : State) (f : RecState → RecState) : (s.modRec f).ports = s.ports := rfl
@[simp] theorem State.domains_modRec (s : State) (f : RecState → RecState) : (s.modRec f).domains = s.domains := rfl
@[simp] theorem State.feeds_modRec (s : State) (f : RecState → RecState) : (s.modRec f).feeds = s.feeds := rfl
@[simp] theorem State.cmps_modRec (s : State) (f : RecState → RecState) : (s.modRec f).cmps = s.cmps := rfl
@[simp] theorem State.temps_modRec (s : State) (f : RecState → RecState) : (s.modRec f).temps = s.temps := rfl
@[simp] theorem State.tune_modRec (s : State) (f : RecState → RecState) : (s.modRec f).tune = s.tune := rfl
@[simp] theorem State.twin_modRec (s : State) (f : RecState → RecState) : (s.modRec f).twin = s.twin := rfl
@[simp] theorem State.meter_modRec (s : State) (f : RecState → RecState) : (s.modRec f).meter = s.meter := rfl
@[simp] theorem State.mb_modRec (s : State) (f : RecState → RecState) : (s.modRec f).mb = s.mb := rfl
@[simp] theorem State.cfg_modRec (s : State) (f : RecState → RecState) : (s.modRec f).cfg = s.cfg := rfl
@[simp] theorem State.fw_modRec (s : State) (f : RecState → RecState) : (s.modRec f).fw = s.fw := rfl
@[simp] theorem State.nvm_modRec (s : State) (f : RecState → RecState) : (s.modRec f).nvm = s.nvm := rfl
@[simp] theorem State.dev_modRec (s : State) (f : RecState → RecState) : (s.modRec f).dev = s.dev := rfl
@[simp] theorem State.rail_modRec (s : State) (f : RecState → RecState) (q : RailIx) :
    (s.modRec f).rail q = s.rail q := rfl
@[simp] theorem State.phase_modRec (s : State) (f : RecState → RecState) (m : PhaseIx) :
    (s.modRec f).phase m = s.phase m := rfl
@[simp] theorem State.port_modRec (s : State) (f : RecState → RecState) (q : PortIx) :
    (s.modRec f).port q = s.port q := rfl
@[simp] theorem State.domain_modRec (s : State) (f : RecState → RecState) (e : DomainIx) :
    (s.modRec f).domain e = s.domain e := rfl
@[simp] theorem State.cmp_modRec (s : State) (f : RecState → RecState) (e : CmpIx) :
    (s.modRec f).cmp e = s.cmp e := rfl
@[simp] theorem State.temp_modRec (s : State) (f : RecState → RecState) (j : TempIx) :
    (s.modRec f).temp j = s.temp j := rfl
@[simp] theorem State.slot_modRec (s : State) (f : RecState → RecState) (j : SlotIx) :
    (s.modRec f).slot j = s.slot j := rfl
@[simp] theorem State.obj_modRec (s : State) (f : RecState → RecState) (x y z : Nat) : (s.modRec f).obj x y z = s.obj x y z := rfl
@[simp] theorem State.recd_modRec (s : State) (f : RecState → RecState) : (s.modRec f).recd = f s.recd := rfl

/-! modNvm -/

@[simp] theorem State.pending_modNvm (s : State) (f : NvmState → NvmState) : (s.modNvm f).pending = s.pending := rfl
@[simp] theorem State.now_modNvm (s : State) (f : NvmState → NvmState) : (s.modNvm f).now = s.now := rfl
@[simp] theorem State.free_modNvm (s : State) (f : NvmState → NvmState) : (s.modNvm f).free = s.free := rfl
@[simp] theorem State.objs_modNvm (s : State) (f : NvmState → NvmState) : (s.modNvm f).objs = s.objs := rfl
@[simp] theorem State.edgeQueue_modNvm (s : State) (f : NvmState → NvmState) : (s.modNvm f).edgeQueue = s.edgeQueue := rfl
@[simp] theorem State.clk_modNvm (s : State) (f : NvmState → NvmState) : (s.modNvm f).clk = s.clk := rfl
@[simp] theorem State.time_modNvm (s : State) (f : NvmState → NvmState) : (s.modNvm f).time = s.time := rfl
@[simp] theorem State.phases_modNvm (s : State) (f : NvmState → NvmState) : (s.modNvm f).phases = s.phases := rfl
@[simp] theorem State.rails_modNvm (s : State) (f : NvmState → NvmState) : (s.modNvm f).rails = s.rails := rfl
@[simp] theorem State.ports_modNvm (s : State) (f : NvmState → NvmState) : (s.modNvm f).ports = s.ports := rfl
@[simp] theorem State.domains_modNvm (s : State) (f : NvmState → NvmState) : (s.modNvm f).domains = s.domains := rfl
@[simp] theorem State.feeds_modNvm (s : State) (f : NvmState → NvmState) : (s.modNvm f).feeds = s.feeds := rfl
@[simp] theorem State.cmps_modNvm (s : State) (f : NvmState → NvmState) : (s.modNvm f).cmps = s.cmps := rfl
@[simp] theorem State.temps_modNvm (s : State) (f : NvmState → NvmState) : (s.modNvm f).temps = s.temps := rfl
@[simp] theorem State.tune_modNvm (s : State) (f : NvmState → NvmState) : (s.modNvm f).tune = s.tune := rfl
@[simp] theorem State.twin_modNvm (s : State) (f : NvmState → NvmState) : (s.modNvm f).twin = s.twin := rfl
@[simp] theorem State.meter_modNvm (s : State) (f : NvmState → NvmState) : (s.modNvm f).meter = s.meter := rfl
@[simp] theorem State.recd_modNvm (s : State) (f : NvmState → NvmState) : (s.modNvm f).recd = s.recd := rfl
@[simp] theorem State.mb_modNvm (s : State) (f : NvmState → NvmState) : (s.modNvm f).mb = s.mb := rfl
@[simp] theorem State.cfg_modNvm (s : State) (f : NvmState → NvmState) : (s.modNvm f).cfg = s.cfg := rfl
@[simp] theorem State.fw_modNvm (s : State) (f : NvmState → NvmState) : (s.modNvm f).fw = s.fw := rfl
@[simp] theorem State.dev_modNvm (s : State) (f : NvmState → NvmState) : (s.modNvm f).dev = s.dev := rfl
@[simp] theorem State.rail_modNvm (s : State) (f : NvmState → NvmState) (q : RailIx) :
    (s.modNvm f).rail q = s.rail q := rfl
@[simp] theorem State.phase_modNvm (s : State) (f : NvmState → NvmState) (m : PhaseIx) :
    (s.modNvm f).phase m = s.phase m := rfl
@[simp] theorem State.port_modNvm (s : State) (f : NvmState → NvmState) (q : PortIx) :
    (s.modNvm f).port q = s.port q := rfl
@[simp] theorem State.domain_modNvm (s : State) (f : NvmState → NvmState) (e : DomainIx) :
    (s.modNvm f).domain e = s.domain e := rfl
@[simp] theorem State.cmp_modNvm (s : State) (f : NvmState → NvmState) (e : CmpIx) :
    (s.modNvm f).cmp e = s.cmp e := rfl
@[simp] theorem State.temp_modNvm (s : State) (f : NvmState → NvmState) (j : TempIx) :
    (s.modNvm f).temp j = s.temp j := rfl
@[simp] theorem State.slot_modNvm (s : State) (f : NvmState → NvmState) (j : SlotIx) :
    (s.modNvm f).slot j = s.slot j := rfl
@[simp] theorem State.obj_modNvm (s : State) (f : NvmState → NvmState) (x y z : Nat) : (s.modNvm f).obj x y z = s.obj x y z := rfl
@[simp] theorem State.nvm_modNvm (s : State) (f : NvmState → NvmState) : (s.modNvm f).nvm = f s.nvm := rfl

/-! modMeter -/

@[simp] theorem State.pending_modMeter (s : State) (f : MeterState → MeterState) : (s.modMeter f).pending = s.pending := rfl
@[simp] theorem State.now_modMeter (s : State) (f : MeterState → MeterState) : (s.modMeter f).now = s.now := rfl
@[simp] theorem State.free_modMeter (s : State) (f : MeterState → MeterState) : (s.modMeter f).free = s.free := rfl
@[simp] theorem State.objs_modMeter (s : State) (f : MeterState → MeterState) : (s.modMeter f).objs = s.objs := rfl
@[simp] theorem State.edgeQueue_modMeter (s : State) (f : MeterState → MeterState) : (s.modMeter f).edgeQueue = s.edgeQueue := rfl
@[simp] theorem State.clk_modMeter (s : State) (f : MeterState → MeterState) : (s.modMeter f).clk = s.clk := rfl
@[simp] theorem State.time_modMeter (s : State) (f : MeterState → MeterState) : (s.modMeter f).time = s.time := rfl
@[simp] theorem State.phases_modMeter (s : State) (f : MeterState → MeterState) : (s.modMeter f).phases = s.phases := rfl
@[simp] theorem State.rails_modMeter (s : State) (f : MeterState → MeterState) : (s.modMeter f).rails = s.rails := rfl
@[simp] theorem State.ports_modMeter (s : State) (f : MeterState → MeterState) : (s.modMeter f).ports = s.ports := rfl
@[simp] theorem State.domains_modMeter (s : State) (f : MeterState → MeterState) : (s.modMeter f).domains = s.domains := rfl
@[simp] theorem State.feeds_modMeter (s : State) (f : MeterState → MeterState) : (s.modMeter f).feeds = s.feeds := rfl
@[simp] theorem State.cmps_modMeter (s : State) (f : MeterState → MeterState) : (s.modMeter f).cmps = s.cmps := rfl
@[simp] theorem State.temps_modMeter (s : State) (f : MeterState → MeterState) : (s.modMeter f).temps = s.temps := rfl
@[simp] theorem State.tune_modMeter (s : State) (f : MeterState → MeterState) : (s.modMeter f).tune = s.tune := rfl
@[simp] theorem State.twin_modMeter (s : State) (f : MeterState → MeterState) : (s.modMeter f).twin = s.twin := rfl
@[simp] theorem State.recd_modMeter (s : State) (f : MeterState → MeterState) : (s.modMeter f).recd = s.recd := rfl
@[simp] theorem State.mb_modMeter (s : State) (f : MeterState → MeterState) : (s.modMeter f).mb = s.mb := rfl
@[simp] theorem State.cfg_modMeter (s : State) (f : MeterState → MeterState) : (s.modMeter f).cfg = s.cfg := rfl
@[simp] theorem State.fw_modMeter (s : State) (f : MeterState → MeterState) : (s.modMeter f).fw = s.fw := rfl
@[simp] theorem State.nvm_modMeter (s : State) (f : MeterState → MeterState) : (s.modMeter f).nvm = s.nvm := rfl
@[simp] theorem State.dev_modMeter (s : State) (f : MeterState → MeterState) : (s.modMeter f).dev = s.dev := rfl
@[simp] theorem State.rail_modMeter (s : State) (f : MeterState → MeterState) (q : RailIx) :
    (s.modMeter f).rail q = s.rail q := rfl
@[simp] theorem State.phase_modMeter (s : State) (f : MeterState → MeterState) (m : PhaseIx) :
    (s.modMeter f).phase m = s.phase m := rfl
@[simp] theorem State.port_modMeter (s : State) (f : MeterState → MeterState) (q : PortIx) :
    (s.modMeter f).port q = s.port q := rfl
@[simp] theorem State.domain_modMeter (s : State) (f : MeterState → MeterState) (e : DomainIx) :
    (s.modMeter f).domain e = s.domain e := rfl
@[simp] theorem State.cmp_modMeter (s : State) (f : MeterState → MeterState) (e : CmpIx) :
    (s.modMeter f).cmp e = s.cmp e := rfl
@[simp] theorem State.temp_modMeter (s : State) (f : MeterState → MeterState) (j : TempIx) :
    (s.modMeter f).temp j = s.temp j := rfl
@[simp] theorem State.slot_modMeter (s : State) (f : MeterState → MeterState) (j : SlotIx) :
    (s.modMeter f).slot j = s.slot j := rfl
@[simp] theorem State.obj_modMeter (s : State) (f : MeterState → MeterState) (x y z : Nat) : (s.modMeter f).obj x y z = s.obj x y z := rfl
@[simp] theorem State.meter_modMeter (s : State) (f : MeterState → MeterState) : (s.modMeter f).meter = f s.meter := rfl

/-! modClk -/

@[simp] theorem State.pending_modClk (s : State) (f : ClkState → ClkState) : (s.modClk f).pending = s.pending := rfl
@[simp] theorem State.now_modClk (s : State) (f : ClkState → ClkState) : (s.modClk f).now = s.now := rfl
@[simp] theorem State.free_modClk (s : State) (f : ClkState → ClkState) : (s.modClk f).free = s.free := rfl
@[simp] theorem State.objs_modClk (s : State) (f : ClkState → ClkState) : (s.modClk f).objs = s.objs := rfl
@[simp] theorem State.edgeQueue_modClk (s : State) (f : ClkState → ClkState) : (s.modClk f).edgeQueue = s.edgeQueue := rfl
@[simp] theorem State.time_modClk (s : State) (f : ClkState → ClkState) : (s.modClk f).time = s.time := rfl
@[simp] theorem State.phases_modClk (s : State) (f : ClkState → ClkState) : (s.modClk f).phases = s.phases := rfl
@[simp] theorem State.rails_modClk (s : State) (f : ClkState → ClkState) : (s.modClk f).rails = s.rails := rfl
@[simp] theorem State.ports_modClk (s : State) (f : ClkState → ClkState) : (s.modClk f).ports = s.ports := rfl
@[simp] theorem State.domains_modClk (s : State) (f : ClkState → ClkState) : (s.modClk f).domains = s.domains := rfl
@[simp] theorem State.feeds_modClk (s : State) (f : ClkState → ClkState) : (s.modClk f).feeds = s.feeds := rfl
@[simp] theorem State.cmps_modClk (s : State) (f : ClkState → ClkState) : (s.modClk f).cmps = s.cmps := rfl
@[simp] theorem State.temps_modClk (s : State) (f : ClkState → ClkState) : (s.modClk f).temps = s.temps := rfl
@[simp] theorem State.tune_modClk (s : State) (f : ClkState → ClkState) : (s.modClk f).tune = s.tune := rfl
@[simp] theorem State.twin_modClk (s : State) (f : ClkState → ClkState) : (s.modClk f).twin = s.twin := rfl
@[simp] theorem State.meter_modClk (s : State) (f : ClkState → ClkState) : (s.modClk f).meter = s.meter := rfl
@[simp] theorem State.recd_modClk (s : State) (f : ClkState → ClkState) : (s.modClk f).recd = s.recd := rfl
@[simp] theorem State.mb_modClk (s : State) (f : ClkState → ClkState) : (s.modClk f).mb = s.mb := rfl
@[simp] theorem State.cfg_modClk (s : State) (f : ClkState → ClkState) : (s.modClk f).cfg = s.cfg := rfl
@[simp] theorem State.fw_modClk (s : State) (f : ClkState → ClkState) : (s.modClk f).fw = s.fw := rfl
@[simp] theorem State.nvm_modClk (s : State) (f : ClkState → ClkState) : (s.modClk f).nvm = s.nvm := rfl
@[simp] theorem State.dev_modClk (s : State) (f : ClkState → ClkState) : (s.modClk f).dev = s.dev := rfl
@[simp] theorem State.rail_modClk (s : State) (f : ClkState → ClkState) (q : RailIx) :
    (s.modClk f).rail q = s.rail q := rfl
@[simp] theorem State.phase_modClk (s : State) (f : ClkState → ClkState) (m : PhaseIx) :
    (s.modClk f).phase m = s.phase m := rfl
@[simp] theorem State.port_modClk (s : State) (f : ClkState → ClkState) (q : PortIx) :
    (s.modClk f).port q = s.port q := rfl
@[simp] theorem State.domain_modClk (s : State) (f : ClkState → ClkState) (e : DomainIx) :
    (s.modClk f).domain e = s.domain e := rfl
@[simp] theorem State.cmp_modClk (s : State) (f : ClkState → ClkState) (e : CmpIx) :
    (s.modClk f).cmp e = s.cmp e := rfl
@[simp] theorem State.temp_modClk (s : State) (f : ClkState → ClkState) (j : TempIx) :
    (s.modClk f).temp j = s.temp j := rfl
@[simp] theorem State.slot_modClk (s : State) (f : ClkState → ClkState) (j : SlotIx) :
    (s.modClk f).slot j = s.slot j := rfl
@[simp] theorem State.obj_modClk (s : State) (f : ClkState → ClkState) (x y z : Nat) : (s.modClk f).obj x y z = s.obj x y z := rfl
@[simp] theorem State.clk_modClk (s : State) (f : ClkState → ClkState) : (s.modClk f).clk = f s.clk := rfl

/-! modTime -/

@[simp] theorem State.pending_modTime (s : State) (f : TimeState → TimeState) : (s.modTime f).pending = s.pending := rfl
@[simp] theorem State.now_modTime (s : State) (f : TimeState → TimeState) : (s.modTime f).now = s.now := rfl
@[simp] theorem State.free_modTime (s : State) (f : TimeState → TimeState) : (s.modTime f).free = s.free := rfl
@[simp] theorem State.objs_modTime (s : State) (f : TimeState → TimeState) : (s.modTime f).objs = s.objs := rfl
@[simp] theorem State.edgeQueue_modTime (s : State) (f : TimeState → TimeState) : (s.modTime f).edgeQueue = s.edgeQueue := rfl
@[simp] theorem State.clk_modTime (s : State) (f : TimeState → TimeState) : (s.modTime f).clk = s.clk := rfl
@[simp] theorem State.phases_modTime (s : State) (f : TimeState → TimeState) : (s.modTime f).phases = s.phases := rfl
@[simp] theorem State.rails_modTime (s : State) (f : TimeState → TimeState) : (s.modTime f).rails = s.rails := rfl
@[simp] theorem State.ports_modTime (s : State) (f : TimeState → TimeState) : (s.modTime f).ports = s.ports := rfl
@[simp] theorem State.domains_modTime (s : State) (f : TimeState → TimeState) : (s.modTime f).domains = s.domains := rfl
@[simp] theorem State.feeds_modTime (s : State) (f : TimeState → TimeState) : (s.modTime f).feeds = s.feeds := rfl
@[simp] theorem State.cmps_modTime (s : State) (f : TimeState → TimeState) : (s.modTime f).cmps = s.cmps := rfl
@[simp] theorem State.temps_modTime (s : State) (f : TimeState → TimeState) : (s.modTime f).temps = s.temps := rfl
@[simp] theorem State.tune_modTime (s : State) (f : TimeState → TimeState) : (s.modTime f).tune = s.tune := rfl
@[simp] theorem State.twin_modTime (s : State) (f : TimeState → TimeState) : (s.modTime f).twin = s.twin := rfl
@[simp] theorem State.meter_modTime (s : State) (f : TimeState → TimeState) : (s.modTime f).meter = s.meter := rfl
@[simp] theorem State.recd_modTime (s : State) (f : TimeState → TimeState) : (s.modTime f).recd = s.recd := rfl
@[simp] theorem State.mb_modTime (s : State) (f : TimeState → TimeState) : (s.modTime f).mb = s.mb := rfl
@[simp] theorem State.cfg_modTime (s : State) (f : TimeState → TimeState) : (s.modTime f).cfg = s.cfg := rfl
@[simp] theorem State.fw_modTime (s : State) (f : TimeState → TimeState) : (s.modTime f).fw = s.fw := rfl
@[simp] theorem State.nvm_modTime (s : State) (f : TimeState → TimeState) : (s.modTime f).nvm = s.nvm := rfl
@[simp] theorem State.dev_modTime (s : State) (f : TimeState → TimeState) : (s.modTime f).dev = s.dev := rfl
@[simp] theorem State.rail_modTime (s : State) (f : TimeState → TimeState) (q : RailIx) :
    (s.modTime f).rail q = s.rail q := rfl
@[simp] theorem State.phase_modTime (s : State) (f : TimeState → TimeState) (m : PhaseIx) :
    (s.modTime f).phase m = s.phase m := rfl
@[simp] theorem State.port_modTime (s : State) (f : TimeState → TimeState) (q : PortIx) :
    (s.modTime f).port q = s.port q := rfl
@[simp] theorem State.domain_modTime (s : State) (f : TimeState → TimeState) (e : DomainIx) :
    (s.modTime f).domain e = s.domain e := rfl
@[simp] theorem State.cmp_modTime (s : State) (f : TimeState → TimeState) (e : CmpIx) :
    (s.modTime f).cmp e = s.cmp e := rfl
@[simp] theorem State.temp_modTime (s : State) (f : TimeState → TimeState) (j : TempIx) :
    (s.modTime f).temp j = s.temp j := rfl
@[simp] theorem State.slot_modTime (s : State) (f : TimeState → TimeState) (j : SlotIx) :
    (s.modTime f).slot j = s.slot j := rfl
@[simp] theorem State.obj_modTime (s : State) (f : TimeState → TimeState) (x y z : Nat) : (s.modTime f).obj x y z = s.obj x y z := rfl
@[simp] theorem State.time_modTime (s : State) (f : TimeState → TimeState) : (s.modTime f).time = f s.time := rfl

/-! modTwin -/

@[simp] theorem State.pending_modTwin (s : State) (f : TwinState → TwinState) : (s.modTwin f).pending = s.pending := rfl
@[simp] theorem State.now_modTwin (s : State) (f : TwinState → TwinState) : (s.modTwin f).now = s.now := rfl
@[simp] theorem State.free_modTwin (s : State) (f : TwinState → TwinState) : (s.modTwin f).free = s.free := rfl
@[simp] theorem State.objs_modTwin (s : State) (f : TwinState → TwinState) : (s.modTwin f).objs = s.objs := rfl
@[simp] theorem State.edgeQueue_modTwin (s : State) (f : TwinState → TwinState) : (s.modTwin f).edgeQueue = s.edgeQueue := rfl
@[simp] theorem State.clk_modTwin (s : State) (f : TwinState → TwinState) : (s.modTwin f).clk = s.clk := rfl
@[simp] theorem State.time_modTwin (s : State) (f : TwinState → TwinState) : (s.modTwin f).time = s.time := rfl
@[simp] theorem State.phases_modTwin (s : State) (f : TwinState → TwinState) : (s.modTwin f).phases = s.phases := rfl
@[simp] theorem State.rails_modTwin (s : State) (f : TwinState → TwinState) : (s.modTwin f).rails = s.rails := rfl
@[simp] theorem State.ports_modTwin (s : State) (f : TwinState → TwinState) : (s.modTwin f).ports = s.ports := rfl
@[simp] theorem State.domains_modTwin (s : State) (f : TwinState → TwinState) : (s.modTwin f).domains = s.domains := rfl
@[simp] theorem State.feeds_modTwin (s : State) (f : TwinState → TwinState) : (s.modTwin f).feeds = s.feeds := rfl
@[simp] theorem State.cmps_modTwin (s : State) (f : TwinState → TwinState) : (s.modTwin f).cmps = s.cmps := rfl
@[simp] theorem State.temps_modTwin (s : State) (f : TwinState → TwinState) : (s.modTwin f).temps = s.temps := rfl
@[simp] theorem State.tune_modTwin (s : State) (f : TwinState → TwinState) : (s.modTwin f).tune = s.tune := rfl
@[simp] theorem State.meter_modTwin (s : State) (f : TwinState → TwinState) : (s.modTwin f).meter = s.meter := rfl
@[simp] theorem State.recd_modTwin (s : State) (f : TwinState → TwinState) : (s.modTwin f).recd = s.recd := rfl
@[simp] theorem State.mb_modTwin (s : State) (f : TwinState → TwinState) : (s.modTwin f).mb = s.mb := rfl
@[simp] theorem State.cfg_modTwin (s : State) (f : TwinState → TwinState) : (s.modTwin f).cfg = s.cfg := rfl
@[simp] theorem State.fw_modTwin (s : State) (f : TwinState → TwinState) : (s.modTwin f).fw = s.fw := rfl
@[simp] theorem State.nvm_modTwin (s : State) (f : TwinState → TwinState) : (s.modTwin f).nvm = s.nvm := rfl
@[simp] theorem State.dev_modTwin (s : State) (f : TwinState → TwinState) : (s.modTwin f).dev = s.dev := rfl
@[simp] theorem State.rail_modTwin (s : State) (f : TwinState → TwinState) (q : RailIx) :
    (s.modTwin f).rail q = s.rail q := rfl
@[simp] theorem State.phase_modTwin (s : State) (f : TwinState → TwinState) (m : PhaseIx) :
    (s.modTwin f).phase m = s.phase m := rfl
@[simp] theorem State.port_modTwin (s : State) (f : TwinState → TwinState) (q : PortIx) :
    (s.modTwin f).port q = s.port q := rfl
@[simp] theorem State.domain_modTwin (s : State) (f : TwinState → TwinState) (e : DomainIx) :
    (s.modTwin f).domain e = s.domain e := rfl
@[simp] theorem State.cmp_modTwin (s : State) (f : TwinState → TwinState) (e : CmpIx) :
    (s.modTwin f).cmp e = s.cmp e := rfl
@[simp] theorem State.temp_modTwin (s : State) (f : TwinState → TwinState) (j : TempIx) :
    (s.modTwin f).temp j = s.temp j := rfl
@[simp] theorem State.slot_modTwin (s : State) (f : TwinState → TwinState) (j : SlotIx) :
    (s.modTwin f).slot j = s.slot j := rfl
@[simp] theorem State.obj_modTwin (s : State) (f : TwinState → TwinState) (x y z : Nat) : (s.modTwin f).obj x y z = s.obj x y z := rfl
@[simp] theorem State.twin_modTwin (s : State) (f : TwinState → TwinState) : (s.modTwin f).twin = f s.twin := rfl

/-! One place of a vector -/

theorem vset_get {α : Type} {n : Nat} (v : Vector α n) (i j : Fin n) (x : α) :
    (vset v i x).get j = if j = i then x else v.get j := by
  unfold vset
  by_cases h : j = i
  · subst h
    simp [Vector.get_eq_getElem]
  · have : i.val ≠ j.val := fun e => h (Fin.ext e.symm)
    simp [Vector.get_eq_getElem, h, this]

theorem vmod_get {α : Type} {n : Nat} (v : Vector α n) (i j : Fin n) (f : α → α) :
    (vmod v i f).get j = if j = i then f (v.get i) else v.get j := vset_get ..

@[simp] theorem State.rail_modRail (s : State) (i j : RailIx) (f : RailState → RailState) :
    (s.modRail i f).rail j = if j = i then f (s.rail i) else s.rail j := vmod_get ..
@[simp] theorem State.phase_modPhase (s : State) (i j : PhaseIx) (f : PhaseState → PhaseState) :
    (s.modPhase i f).phase j = if j = i then f (s.phase i) else s.phase j := vmod_get ..
@[simp] theorem State.port_modPort (s : State) (i j : PortIx) (f : PortState → PortState) :
    (s.modPort i f).port j = if j = i then f (s.port i) else s.port j := vmod_get ..
@[simp] theorem State.domain_modDomain (s : State) (i j : DomainIx) (f : DomainState → DomainState) :
    (s.modDomain i f).domain j = if j = i then f (s.domain i) else s.domain j := vmod_get ..
@[simp] theorem State.cmp_modCmp (s : State) (i j : CmpIx) (f : CmpState → CmpState) :
    (s.modCmp i f).cmp j = if j = i then f (s.cmp i) else s.cmp j := vmod_get ..
@[simp] theorem State.temp_modTemp (s : State) (i j : TempIx) (f : TempState → TempState) :
    (s.modTemp i f).temp j = if j = i then f (s.temp i) else s.temp j := vmod_get ..
@[simp] theorem State.slot_modSlot (s : State) (i j : SlotIx) (f : Slot → Slot) :
    (s.modSlot i f).slot j = if j = i then f (s.slot i) else s.slot j := vmod_get ..

/-! Updates of a part, as updates of the whole -/

@[simp] theorem State.modLaw_eq (s : State) (r : RailIx) (f : LawState → LawState) :
    s.modLaw r f = s.modRail r fun x => ⟨f x.law, x.meas, x.prof, x.ff, x.lt, x.plc, x.prot, x.seq, x.fuse, x.hist, x.histFrozen, x.carrierBase, x.period, x.upDue, x.dnDue⟩ := rfl
@[simp] theorem State.modMeas_eq (s : State) (r : RailIx) (f : MeasState → MeasState) :
    s.modMeas r f = s.modRail r fun x => ⟨x.law, f x.meas, x.prof, x.ff, x.lt, x.plc, x.prot, x.seq, x.fuse, x.hist, x.histFrozen, x.carrierBase, x.period, x.upDue, x.dnDue⟩ := rfl
@[simp] theorem State.modProf_eq (s : State) (r : RailIx) (f : ProfState → ProfState) :
    s.modProf r f = s.modRail r fun x => ⟨x.law, x.meas, f x.prof, x.ff, x.lt, x.plc, x.prot, x.seq, x.fuse, x.hist, x.histFrozen, x.carrierBase, x.period, x.upDue, x.dnDue⟩ := rfl
@[simp] theorem State.modFf_eq (s : State) (r : RailIx) (f : FfState → FfState) :
    s.modFf r f = s.modRail r fun x => ⟨x.law, x.meas, x.prof, f x.ff, x.lt, x.plc, x.prot, x.seq, x.fuse, x.hist, x.histFrozen, x.carrierBase, x.period, x.upDue, x.dnDue⟩ := rfl
@[simp] theorem State.modLt_eq (s : State) (r : RailIx) (f : LtState → LtState) :
    s.modLt r f = s.modRail r fun x => ⟨x.law, x.meas, x.prof, x.ff, f x.lt, x.plc, x.prot, x.seq, x.fuse, x.hist, x.histFrozen, x.carrierBase, x.period, x.upDue, x.dnDue⟩ := rfl
@[simp] theorem State.modPlc_eq (s : State) (r : RailIx) (f : PlcState → PlcState) :
    s.modPlc r f = s.modRail r fun x => ⟨x.law, x.meas, x.prof, x.ff, x.lt, f x.plc, x.prot, x.seq, x.fuse, x.hist, x.histFrozen, x.carrierBase, x.period, x.upDue, x.dnDue⟩ := rfl
@[simp] theorem State.modProt_eq (s : State) (r : RailIx) (f : ProtState → ProtState) :
    s.modProt r f = s.modRail r fun x => ⟨x.law, x.meas, x.prof, x.ff, x.lt, x.plc, f x.prot, x.seq, x.fuse, x.hist, x.histFrozen, x.carrierBase, x.period, x.upDue, x.dnDue⟩ := rfl
@[simp] theorem State.modSeq_eq (s : State) (r : RailIx) (f : SeqState → SeqState) :
    s.modSeq r f = s.modRail r fun x => ⟨x.law, x.meas, x.prof, x.ff, x.lt, x.plc, x.prot, f x.seq, x.fuse, x.hist, x.histFrozen, x.carrierBase, x.period, x.upDue, x.dnDue⟩ := rfl
@[simp] theorem State.modFuse_eq (s : State) (r : RailIx) (f : FuseState → FuseState) :
    s.modFuse r f = s.modRail r fun x => ⟨x.law, x.meas, x.prof, x.ff, x.lt, x.plc, x.prot, x.seq, f x.fuse, x.hist, x.histFrozen, x.carrierBase, x.period, x.upDue, x.dnDue⟩ := rfl
@[simp] theorem State.modGen_eq (s : State) (n : PhaseIx) (f : GenState → GenState) :
    s.modGen n f = s.modPhase n fun p => ⟨f p.gen, p.sense⟩ := rfl
@[simp] theorem State.modSense_eq (s : State) (n : PhaseIx) (f : SenseState → SenseState) :
    s.modSense n f = s.modPhase n fun p => ⟨p.gen, f p.sense⟩ := rfl

/-! Counters, replies, interrupts -/

@[simp] theorem State.countN_eq (s : State) (c i k n : Nat) :
    s.countN c i k n = s.setObj c i k (satWord ((s.obj c i k).toNat + n)) := rfl
@[simp] theorem State.count_eq (s : State) (c i k : Nat) :
    s.count c i k = s.setObj c i k (satWord ((s.obj c i k).toNat + 1)) := rfl
@[simp] theorem State.finish_eq (s : State) (k : SlotIx) (status : Nat) (payload : List Byte) :
    s.finish k status payload = s.modSlot k fun x => { x with reply := some ⟨status, payload⟩ } := rfl
@[simp] theorem State.slot_irq (s : State) (k : Fin 16) (j : SlotIx) : (s.irq k).slot j = s.slot j := rfl
@[simp] theorem State.istat_irq (s : State) (k : Fin 16) :
    (s.irq k).mb.istat = s.mb.istat ||| BitVec.ofNat 32 (2 ^ k.val) := rfl

/-- Where the store is canonical, an object reads what was last written to it. -/
theorem State.obj_setObj_self {s : State} (h : StoreOk s.objs) (c i k : Nat) (v : Word) :
    (s.setObj c i k v).obj c i k = v := Store.val_setVal h ..

theorem State.obj_setObj_ne {s : State} (h : StoreOk s.objs) (c i k c' i' k' : Nat) (v : Word)
    (hk : objKey c' i' k' ≠ objKey c i k) : (s.setObj c i k v).obj c' i' k' = s.obj c' i' k' :=
  Store.val_setVal_ne h _ _ _ _ _ _ _ hk

end Sys2Proof.Machine
end

