-- ==== Sys2Proof/WellFormed.lean ====
section
/-! DEFINITION. Which commands carry operands that their row can carry: fields within the widths of the payloads of R315, of the
frames of R168 and of what one frame can sample. A command that is not well formed matches no request and no event. -/

namespace Sys2Proof

/-- Numbers of 8, 16, 32 and 48 bits. -/
def u8 (n : Nat) : Bool := decide (n < 256)
def u16 (n : Nat) : Bool := decide (n < 65536)
def u32 (n : Nat) : Bool := decide (n ≤ maxWord)
def u48 (n : Nat) : Bool := decide (n < two48)

/-- An object address of three bytes. -/
def objOk (o : Obj) : Bool := u8 o.cls && u8 o.inst && u8 o.item

/-- A COUNT of one byte. -/
def listOk {α : Type} (l : List α) : Bool := decide (l.length < 256)

/-- Data of 1 … n bytes. -/
def dataOk (n : Nat) (l : List Byte) : Bool := !l.isEmpty && decide (l.length ≤ n)

/-- What the converters of one frame can give (R89, R105, R106): 16 rails with eight fine codes and a 12-bit coarse one, 48 phases,
four engines. -/
def frameOk (f : FrameIn) : Bool :=
  decide (f.rails.length ≤ 16) && decide (f.convs.length ≤ 48) && decide (f.cycles.length ≤ 4) &&
    f.rails.all fun r => decide (r.coarse < 4096) && decide (r.fine.length ≤ 8)

/-- Is a command well formed? -/
def wellFormed : Instr → Bool
  | .hello _ major minor hostId => u8 major && u8 minor && u16 hostId
  | .identify _ => true
  | .get _ o => objOk o
  | .set _ o _ => objOk o
  | .getBlock _ o count => objOk o && u8 count
  | .setGroup _ ms => listOk ms && ms.all fun m => objOk m.obj
  | .domainOn _ _ => true
  | .domainOff _ _ => true
  | .railTarget _ ms => listOk ms && ms.all fun m => u8 m.rail && decide (m.slew < 4) && u8 m.tag && u16 m.mv
  | .railClearLatch _ rail _ => u8 rail
  | .phaseForce _ ms => listOk ms && ms.all fun m => u8 m.phase && u8 m.force && u16 m.duty
  | .tuneStart _ rail => u8 rail
  | .tuneRead _ what first count => u8 what && u16 first && u8 count
  | .autotune _ rail => u8 rail
  | .recRead _ n => u48 n
  | .recFreeze _ => true
  | .recThaw _ => true
  | .recClear _ n => u48 n
  | .snapRead _ snap offset len => u8 snap && u16 offset && u8 len
  | .cntClear _ cls inst => u8 cls && u8 inst
  | .authChallenge _ key => u8 key
  | .cfgStage _ offset data => u32 offset && dataOk 248 data
  | .cfgCommit _ length => u32 length
  | .cfgRead _ copy offset len => u8 copy && u32 offset && u8 len
  | .fwStage _ offset data => u32 offset && dataOk 248 data
  | .fwActivate _ fwSlot => u8 fwSlot
  | .twinHandover _ => true
  | .twinArm _ => true
  | .meterRead _ what first index count => u8 what && u8 first && u16 index && u8 count
  | .meterIntervals _ number max => u32 number && u8 max
  | .meterSessionOpen _ => true
  | .meterSessionStage _ param point _ => u8 param && u8 point
  | .meterSessionCommit _ => true
  | .meterSessionAbandon _ => true
  | .meterSessionFwChunk _ offset data => u32 offset && dataOk 227 data
  | .meterSessionKeyLoad _ key => decide (key.length = 32)
  | .timeSetAtPps _ sec => u48 sec
  | .timeSetNow _ sec ns => u48 sec && u32 ns
  | .timeGet _ => true
  | .sleep _ wakeMs => u32 wakeMs
  | .reset _ => true
  | .spiTransaction mosi => !mosi.isEmpty
  | .i2cTransaction addr _ _ => decide (addr < 128)
  | .alertResponse _ => true
  | .windowRegisterWrite off data => decide (off < 256) && !data.isEmpty
  | .istatClear _ => true
  | .doorbell _ => true
  | .release _ => true
  | .headerRead _ => true
  | .requestSlotWrite _ off data => decide (off < 256) && !data.isEmpty
  | .slotTaken _ => true
  | .responseReady _ => true
  | .frameLoRead _ => true
  | .secLoRead _ => true
  | .recFirstLastLoRead _ _ => true
  | .meterLoRead _ _ _ => true
  | .cebudRead _ _ => true
  | .meterStatRead _ _ => true
  | .tblDataAccess _ _ _ => true
  | .align _ _ => true
  | .coefApply _ _ _ => true
  | .tuneStop _ _ => true
  | .cmpClr _ _ _ => true
  | .hsunlock _ _ _ => true
  | .ltReset _ _ _ => true
  | .keyApply _ _ => true
  | .ffCmdClear _ _ => true
  | .ffCmdSave _ _ => true
  | .ffCmdRestore _ _ => true
  | .targetWrite _ _ _ => true
  | .forceWrite _ _ _ _ => true
  | .busModeWrite _ _ => true
  | .portEnable _ _ _ => true
  | .portDisable _ _ _ => true
  | .linkCtrlWrite _ _ _ _ => true
  | .slamDisable _ _ _ => true
  | .syncDisable _ _ => true
  | .frameEdge inp => frameOk inp
  | .overrun _ => true
  | .slamTimeout _ => true
  | .periodStart _ _ => true
  | .cleanRunLeak _ => true
  | .cmpAssert _ _ tick => decide (tick < 6400)
  | .tripLatch _ => true
  | .cmpFirstDecision _ _ => true
  | .clockFault _ => true
  | .dlcal _ _ _ => true
  | .syncInEdge _ => true
  | .syncAcquire => true
  | .syncLock => true
  | .syncLoss => true
  | .holdoverExpiry => true
  | .returnComplete => true
  | .alignComplete => true
  | .ppsEdge _ => true
  | .ppsLoss => true
  | .timeSetTimeout => true
  | .periodicTimeAnchor => true
  | .supervisorWatchdog => true
  | .housekeepingWatchdog => true
  | .linkEngineWatchdog => true
  | .debugHalt _ => true
  | .debugResume _ => true
  | .skimStart _ => true
  | .skimMeasureStart _ => true
  | .skimEnd _ => true
  | .passiveSkimStart _ => true
  | .gcalWindowEnd _ => true
  | .phaseLagging _ => true
  | .laggingClear _ => true
  | .qaccSave => true
  | .commandDone _ => true
  | .softstartEnd _ => true
  | .ffFadeEnd _ => true
  | .strokeTimeout _ => true
  | .posStale _ => true
  | .tuneSettleEnd => true
  | .tuneDone => true
  | .autotuneDesignEnd => true
  | .ltWindowEnd _ => true
  | .ltResume _ => true
  | .wairelHello _ m => decide (m.seq < 16) && u8 m.major && u8 m.minor && u16 m.senderId && u8 m.caps
  | .vreq _ m => decide (m.seq < 16) && u16 m.mv && decide (m.slew < 4) && u8 m.tag
  | .vackDone _ => true
  | .pos _ seq position => decide (seq < 16) && u16 position
  | .stroke _ m => decide (m.seq < 16) && u8 m.kind && u8 m.id && u16 m.expectedMs
  | .loadStatus _ m => decide (m.seq < 16) && decide (m.data.length = 8)
  | .ping _ seq _ cookie => decide (seq < 16) && u8 cookie
  | .linkFrameDiscarded _ _ => true
  | .frameGapTimeout _ _ => true
  | .linkFrameTransmit _ => true
  | .helloRetry _ => true
  | .portLost _ => true
  | .pingTimer _ => true
  | .statusTimer _ => true
  | .warnRepeat _ => true
  | .feedReturn => true
  | .breakConfirm => true
  | .breakFail => true
  | .deadEnd => true
  | .feedOn => true
  | .makeFail => true
  | .ewarnClear => true
  | .fuseRampDone _ => true
  | .fuseInsertTimeout _ => true
  | .fuseRetry _ => true
  | .passShort _ => true
  | .passShortArm _ => true
  | .loadDetectChange _ _ => true
  | .uvWarnCrossing _ => true
  | .ovWarnCrossing _ => true
  | .uvFaultCrossing _ => true
  | .ovFaultCrossing _ => true
  | .levelCrossingEnd _ _ => true
  | .hiccup _ => true
  | .hiccupRestart _ => true
  | .hicRunReset _ => true
  | .inputUv _ => true
  | .inputOv _ => true
  | .inputHoldEnd _ => true
  | .tempUpdate _ _ => true
  | .tempStopClear _ => true
  | .tempDeviceClear => true
  | .enPinChange _ => true
  | .domainUnblocked _ => true
  | .railUpStep _ => true
  | .railQualified _ => true
  | .startFail _ => true
  | .railDownStep _ => true
  | .dischargeDone _ => true
  | .dischargeTimeout _ => true
  | .domainRetry _ => true
  | .twinHeartbeat hb => decide (hb.frame < two48)
  | .twinAlignmentRecord ar => decide (ar.edge < two48)
  | .twinTakeover => true
  | .twinSplit => true
  | .twinFrameSyncLoss => true
  | .twinLinkUp major minor digest _ => u8 major && u8 minor && u32 digest
  | .listenJoin => true
  | .listenClaim => true
  | .twinPartnerLost => true
  | .twinResyncComplete frame _ => decide (frame < two48)
  | .handoverEdge => true
  | .rejoinHoldoffEnd => true
  | .partnerRecord rr => u16 rr.code && u8 rr.srcClass && u8 rr.srcInst && u8 rr.sub && u48 rr.seq && decide (rr.data.length ≤ 16)
  | .meterSample _ _ _ => true
  | .meterSave _ => true
  | .powerFailWarning => true
  | .intervalBoundary => true
  | .meterFwCheck _ => true
  | .mirrorPublish => true
  | .sessionTimeout => true
  | .sealRelease => true
  | .freezeExpiry => true
  | .recorderMediaRetry _ _ => true
  | .snapshotStore _ => true
  | .snapshotRetry _ => true
  | .counterSave => true
  | .windowOpen => true
  | .deferArmedClear => true
  | .nvmRefresh _ _ => true
  | .eccScrub _ lost => lost.all fun k => decide (k < 20)
  | .trialEnd => true
  | .authLockEnd => true
  | .nonceExpiry => true
  | .hsunlockExpiry _ => true
  | .uvloRelease => true
  | .uvloReset => true
  | .resetN => true
  | .boot => true
  | .commandResetExecute => true
  | .sleepEntry => true
  | .wake source _ => decide (source < 4)
  | .wakeTimer => true
  | .meterCoreWatchdog => true
  | .twinLinkDown => true
  | .twinReplicatedCommand edge _ => decide (edge < two48)
  | .sweepStepEnd => true
  | .slowTick _ => true
  | .cmpDeassert _ _ => true
  | .actLineFault => true

end Sys2Proof
end

