-- ==== Sys2Proof/Tests/Slice0.lean ====
section
/-! SUPPORT. The model's own tests: ill-formed commands refused, single steps whose results the manual gives, and states
that meet the hypotheses of the statements of Certificates/Slice0/Obligations.lean, clause by clause. -/

namespace Sys2Proof.Tests

open Sys2Proof Sys2Proof.Machine

/-! States -/

/-- A device in RUN whose host has agreed on MP2 minor 4. -/
def up : State := { State.reset with
  dev := { State.reset.dev with dstate := .run }
  mb := { State.reset.mb with mp := 2, minor := 4 } }

/-- The same at a frame of the clock. -/
def at' (n : Nat) : State := { up with now := n }

/-- A request taken in slot 0, which waits for its effect; `key` authorised it. -/
def askKey (s : State) (key : Option Nat) (op : Nat) (body : List Byte) : State :=
  s.modSlot 0 fun x => { x with st := .pending, taken := some ⟨op, 7, body, key, false⟩ }

def ask (s : State) (op : Nat) (body : List Byte) : State := askKey s none op body

/-- A SET taken in slot 0. -/
def askSet (s : State) (cls inst item : Nat) (v : Word) : State :=
  ask s Op.set ([BitVec.ofNat 8 cls, BitVec.ofNat 8 inst, BitVec.ofNat 8 item, 0] ++ wordBytes v)

/-- A GET taken in slot 0. -/
def askGet (s : State) (cls inst item : Nat) : State :=
  ask s Op.get [BitVec.ofNat 8 cls, BitVec.ofNat 8 inst, BitVec.ofNat 8 item]

/-- Order is decidable. -/
def orderlyB (s : State) : Bool :=
  decide (s.objs.Pairwise fun a b => a.1 < b.1) && s.objs.all (fun p => p.2 != keyDflt p.1) &&
  decide (s.recd.ring.length ≤ 16384) && decide (s.recd.spare.length ≤ 256) && decide (s.recd.ram.length ≤ 512) &&
  decide (s.recd.hold.length ≤ 256) && decide (s.meter.intervals.length ≤ 10240) && decide (s.meter.audit.length ≤ 2048)

theorem orderly {s : State} (h : orderlyB s = true) : Orderly s := by
  simp only [orderlyB, Bool.and_eq_true, decide_eq_true_eq, List.all_eq_true, bne_iff_ne, ne_eq] at h
  obtain ⟨⟨⟨⟨⟨⟨⟨h1, h2⟩, h3⟩, h4⟩, h5⟩, h6⟩, h7⟩, h8⟩ := h
  exact ⟨⟨h1, h2⟩, h3, h4, h5, h6, h7, h8⟩

/-! Ill-formed commands, one for each check of WellFormed -/

theorem test_illFormed_hello_major : wellFormed (.hello 0 256 0 0) = false := by decide
theorem test_illFormed_hello_host : wellFormed (.hello 0 2 0 65536) = false := by decide
theorem test_illFormed_get : wellFormed (.get 0 ⟨256, 0, 0⟩) = false := by decide
theorem test_illFormed_getBlock : wellFormed (.getBlock 0 ⟨1, 0, 0⟩ 256) = false := by decide
theorem test_illFormed_setGroup : wellFormed (.setGroup 0 [⟨⟨1, 0, 256⟩, 0⟩]) = false := by decide
theorem test_illFormed_setGroup_count (ms : List ObjWrite) (h : 255 < ms.length) : wellFormed (.setGroup 0 ms) = false := by
  simp only [wellFormed, listOk, Bool.and_eq_false_iff, decide_eq_false_iff_not]; omega
theorem test_illFormed_railTarget : wellFormed (.railTarget 0 [⟨0, 4, false, 0, 0⟩]) = false := by decide
theorem test_illFormed_phaseForce : wellFormed (.phaseForce 0 [⟨0, 0, 65536⟩]) = false := by decide
theorem test_illFormed_railClearLatch : wellFormed (.railClearLatch 0 256 false) = false := by decide
theorem test_illFormed_tuneRead : wellFormed (.tuneRead 0 0 65536 0) = false := by decide
theorem test_illFormed_recRead : wellFormed (.recRead 0 281474976710656) = false := by decide
theorem test_illFormed_snapRead : wellFormed (.snapRead 0 0 0 256) = false := by decide
theorem test_illFormed_cfgStage_empty : wellFormed (.cfgStage 0 0 []) = false := by decide
theorem test_illFormed_cfgStage_long (d : List Byte) (h : 248 < d.length) : wellFormed (.cfgStage 0 0 d) = false := by
  simp [wellFormed, dataOk, h]
theorem test_illFormed_fwStage : wellFormed (.fwStage 0 4294967296 [0]) = false := by decide
theorem test_illFormed_fwChunk (d : List Byte) (h : 227 < d.length) : wellFormed (.meterSessionFwChunk 0 0 d) = false := by
  simp [wellFormed, dataOk, h]
theorem test_illFormed_keyLoad : wellFormed (.meterSessionKeyLoad 0 (List.replicate 31 0)) = false := by decide
theorem test_illFormed_timeSet : wellFormed (.timeSetNow 0 281474976710656 0) = false := by decide
theorem test_illFormed_timeSet_ns : wellFormed (.timeSetNow 0 0 4294967296) = false := by decide
theorem test_illFormed_sleep : wellFormed (.sleep 0 4294967296) = false := by decide
theorem test_illFormed_spi : wellFormed (.spiTransaction []) = false := by decide
theorem test_illFormed_i2c : wellFormed (.i2cTransaction 128 [] 1) = false := by decide
theorem test_illFormed_window : wellFormed (.windowRegisterWrite 256 [0]) = false := by decide
theorem test_illFormed_window_empty : wellFormed (.windowRegisterWrite 12 []) = false := by decide
theorem test_illFormed_slotWrite : wellFormed (.requestSlotWrite 0 256 [0]) = false := by decide
theorem test_illFormed_slotWrite_empty : wellFormed (.requestSlotWrite 0 0 []) = false := by decide
theorem test_illFormed_cmpAssert : wellFormed (.cmpAssert 0 0 6400) = false := by decide
theorem test_illFormed_wairelHello : wellFormed (.wairelHello 0 ⟨16, 2, 0, false, 0, 0⟩) = false := by decide
theorem test_illFormed_vreq : wellFormed (.vreq 0 ⟨0, 1000, 4, false, 0⟩) = false := by decide
theorem test_illFormed_pos : wellFormed (.pos 0 0 65536) = false := by decide
theorem test_illFormed_stroke : wellFormed (.stroke 0 ⟨0, 0, 256, 0⟩) = false := by decide
theorem test_illFormed_status : wellFormed (.loadStatus 0 ⟨0, []⟩) = false := by decide
theorem test_illFormed_ping : wellFormed (.ping 0 0 false 256) = false := by decide
theorem test_illFormed_linkUp : wellFormed (.twinLinkUp 256 0 0 false) = false := by decide
theorem test_illFormed_resync (a : AlignRec) : wellFormed (.twinResyncComplete 281474976710656 a) = false := by
  simp [wellFormed, two48]
theorem test_illFormed_replicated (a : EdgeAction) : wellFormed (.twinReplicatedCommand 281474976710656 a) = false := by
  simp [wellFormed, two48]
theorem test_illFormed_partner : wellFormed (.partnerRecord ⟨0, 0, 0, 256, 0, []⟩) = false := by decide
theorem test_illFormed_ecc : wellFormed (.eccScrub 0 [20]) = false := by decide
theorem test_illFormed_wake : wellFormed (.wake 4 0) = false := by decide


/-! States for the hypotheses of the statements, in their order -/

theorem wit_StepRunsTheFrontCommand : State.reset.pending = [] := rfl

theorem wit_NoCommandStops : ∃ t, step (withFront (.doorbell 1) up) = .next t := ⟨_, rfl⟩

theorem wit_StepKeepsOrder : Orderly (withFront .boot State.reset) ∧ ∃ t, step (withFront .boot State.reset) = .next t :=
  ⟨orderly rfl, _, rfl⟩

theorem wit_StepKeepsEvidence : ∃ t, step (withFront (.meterSessionCommit 0) up) = .next t := ⟨_, rfl⟩

theorem wit_ObjectsReadBack : Orderly up := orderly rfl

theorem wit_CountersSaturate : Orderly (up.setObj Ob.clsRail 15 Ob.Rail.slamEvents 4294967295) ∧
    (up.setObj Ob.clsRail 15 Ob.Rail.slamEvents 4294967295).obj Ob.clsRail 15 Ob.Rail.slamEvents = 4294967295 :=
  ⟨orderly rfl, rfl⟩

theorem wit_WindowWritesAct : State.reset.powered = true := rfl

theorem wit_SlotsAreReadAndWritten : up.powered = true ∧ (up.slot 3).req.length = 256 :=
  ⟨rfl, List.length_replicate⟩

/-- ALERT_N is low: an unmasked interrupt with the alert enabled. -/
def alerting : State := { up with mb := { up.mb with istat := 0x8000, imask := 0xFFFF, hostcfg := 1 } }

theorem wit_SerialTransports :
    up.powered = true ∧ 0 ≠ up.mb.i2cAddr ∧ up.mb.i2cStop = false ∧ alerting.powered = true ∧ alerting.alertActive = true := by
  decide

/-- Slot 2 posted with the bytes of a request, behind no other. -/
def posted (s : State) (req : List Byte) : State :=
  let t := s.modSlot 2 fun x => { x with st := .posted, req := padTo 256 req }
  { t with mb := { t.mb with order := [2] } }

theorem wit_SlotsAreTakenInOrder :
    let s := posted up [0x79, 7, 0, 0]
    s.ready = true ∧ s.mb.order.head? = some 2 ∧ (s.slot 2).st = .posted ∧ (s.slotParts 2).2.2 = none ∧
      s.readRequest 2 = .ok .timeGet ∧ s.needsAuth .timeGet = false ∧ s.barred (s.slotParts 2).1 = none ∧
      (posted up [0x02, 7, 9, 0]).readRequest 2 = .error St.badLength ∧ up.needsAuth .reset = true := by
  refine ⟨rfl, rfl, rfl, rfl, rfl, rfl, rfl, rfl, rfl⟩

theorem wit_Authorisation :
    (let s := posted up ([0x7F, 7, 17, 1] ++ List.replicate 17 0)
     s.ready = true ∧ s.mb.order.head? = some 2 ∧ (s.slot 2).st = .posted ∧ s.readRequest 2 = .ok .reset ∧
       (s.slotParts 2).2.2 = some (List.replicate 17 0)) ∧
    Asks (ask up Op.authChallenge [2]) 0 (.authChallenge 2) ∧
    ({ up with mb := { up.mb with lockEnd := some 0 } } : State).mb.lockEnd = some 0 ∧
    ({ up with mb := { up.mb with nonce := some (0, [], 0) } } : State).mb.nonce = some (0, [], 0) := by
  refine ⟨⟨rfl, rfl, rfl, rfl, rfl⟩, rfl, rfl, rfl⟩

/-- Slot 0 with an outcome of the largest payload. -/
def done (st : SlotSt) : State :=
  (ask up Op.identify []).modSlot 0 fun x => { x with st := st, reply := some ⟨0, List.replicate 252 1⟩ }

theorem wit_ResponsesBecomeReady (st : SlotSt) : ∃ r x, ((done st).slot 0).reply = some r ∧
    ((done st).slot 0).taken = some x ∧ r.payload.length ≤ 252 ∧ ((done st).slot 0).st = st :=
  ⟨_, _, rfl, rfl, Nat.le_of_eq List.length_replicate, rfl⟩

/-- An image stands in copy 0, a snapshot in slot 7, and a session is done with one result. -/
def stored : State := { up with
  recd := { up.recd with snaps := up.recd.snaps.set 7 (some ⟨List.replicate 2812 1⟩) }
  cfg := { up.cfg with copy0 := some ⟨[1, 2, 3], 1, [], [], false⟩ }
  tune := { up.tune with tstate := .done, results := [⟨100, 0, 0, 0⟩] } }

theorem wit_HelloAndReads :
    Asks (ask up Op.hello [0, 4, 1, 0]) 0 (.hello 0 4 1) ∧ Asks (ask up Op.hello [2, 9, 1, 0]) 0 (.hello 2 9 1) ∧
    Asks (ask up Op.timeGet []) 0 .timeGet ∧ Asks (ask up Op.identify []) 0 .identify ∧
    Asks (ask up Op.recRead [255, 255, 255, 255, 255, 255]) 0 (.recRead 281474976710655) ∧
    (Asks (ask stored Op.snapRead [7, 0, 0, 240]) 0 (.snapRead (7 : Fin 8).val 0 240) ∧
      (ask stored Op.snapRead [7, 0, 0, 240]).recd.snaps.get 7 = some ⟨List.replicate 2812 1⟩) ∧
    (Asks (ask up Op.snapRead [8, 0, 0, 1]) 0 (.snapRead 8 0 1) ∧
      (ask up Op.snapRead [8, 0, 0, 1]).recd.snaps.toList.getD 8 none = none) ∧
    (Asks (ask stored Op.cfgRead [0, 0, 0, 0, 0, 3]) 0 (.cfgRead 0 0 3) ∧
      (ask stored Op.cfgRead [0, 0, 0, 0, 0, 3]).cfgBytes 0 = some [1, 2, 3]) ∧
    Asks (ask stored Op.tuneRead [0, 0, 0, 1]) 0 (.tuneRead 0 0 1) ∧
    (Asks (ask up Op.meterRead [0, 2, 0, 0, 14]) 0 (.meterRead 0 2 0 14) ∧
      (ask up Op.meterRead [0, 2, 0, 0, 14]).dev.part = .m) ∧
    Asks (ask up Op.meterIntervals [1, 0, 0, 0, 7]) 0 (.meterIntervals 1 7) := by
  refine ⟨rfl, rfl, rfl, rfl, rfl, ⟨rfl, rfl⟩, ⟨rfl, rfl⟩, ⟨rfl, rfl⟩, rfl, ⟨rfl, rfl⟩, rfl⟩

theorem wit_GetsReadObjects :
    Asks (askGet up Ob.clsClk 0 Ob.Clk.ctrl) 0 (.get ⟨Ob.clsClk, 0, Ob.Clk.ctrl⟩) ∧
    (askGet up Ob.clsClk 0 Ob.Clk.ctrl).getValue ⟨Ob.clsClk, 0, Ob.Clk.ctrl⟩ = some 2 ∧
    (askGet up 255 0 0).getValue ⟨255, 0, 0⟩ = none ∧
    Asks (ask up Op.getBlock [Ob.clsClk, 0, 0, 60]) 0 (.getBlock ⟨Ob.clsClk, 0, 0⟩ 60) := by
  refine ⟨rfl, rfl, rfl, rfl⟩

theorem wit_ReadsThatLatch :
    Asks (askGet up Ob.clsClk 0 Ob.Clk.frameLo) 0 (.get ⟨Ob.clsClk, 0, Ob.Clk.frameLo⟩) ∧
    Asks (askGet up Ob.clsTime 0 Ob.Time.secLo) 0 (.get ⟨Ob.clsTime, 0, Ob.Time.secLo⟩) ∧
    Asks (askGet up Ob.clsRec 0 Ob.Rec.firstLo) 0 (.get ⟨Ob.clsRec, 0, Ob.Rec.firstLo⟩) ∧
    Asks (askGet up Ob.clsRec 0 Ob.Rec.lastLo) 0 (.get ⟨Ob.clsRec, 0, Ob.Rec.lastLo⟩) ∧
    (askGet up Ob.clsMeter 15 Ob.Meter.impLo).dev.part = .m ∧
    Asks (askGet up Ob.clsMeter 15 Ob.Meter.impLo) 0 (.get ⟨Ob.clsMeter, 15, Ob.Meter.impLo⟩) ∧
    Asks (askGet up Ob.clsMeter 15 Ob.Meter.expLo) 0 (.get ⟨Ob.clsMeter, 15, Ob.Meter.expLo⟩) ∧
    Asks (askGet up Ob.clsMeter 15 Ob.Meter.stat) 0 (.get ⟨Ob.clsMeter, 15, Ob.Meter.stat⟩) ∧
    Asks (askGet up Ob.clsDev 0 (Ob.Dev.cebud0 + 3)) 0 (.get ⟨Ob.clsDev, 0, Ob.Dev.cebud0 + 3⟩) ∧
    Orderly (askGet up Ob.clsRail 15 Ob.Rail.tblData) ∧
    Asks (askGet up Ob.clsRail 15 Ob.Rail.tblData) 0 (.get ⟨Ob.clsRail, 15, Ob.Rail.tblData⟩) := by
  refine ⟨rfl, rfl, rfl, rfl, rfl, rfl, rfl, rfl, rfl, orderly rfl, rfl⟩

theorem wit_SetsAreCheckedFirst :
    (askSet up Ob.clsClk 0 Ob.Clk.stat 1).request 0 = some (.set ⟨⟨Ob.clsClk, 0, Ob.Clk.stat⟩, 1⟩, none) ∧
    (askSet up Ob.clsClk 0 Ob.Clk.stat 1).writeStatus false [] ⟨⟨Ob.clsClk, 0, Ob.Clk.stat⟩, 1⟩ = St.badObject ∧
    MaySet (askSet up Ob.clsRail 15 Ob.Rail.target 5) 0 ⟨Ob.clsRail, 15, Ob.Rail.target⟩ 5 ∧
    State.edgeObj ⟨Ob.clsRail, 15, Ob.Rail.target⟩ 5 = true ∧
    MaySet (askSet up Ob.clsClk 0 Ob.Clk.align 1) 0 ⟨Ob.clsClk, 0, Ob.Clk.align⟩ 1 ∧
    State.edgeObj ⟨Ob.clsClk, 0, Ob.Clk.align⟩ 1 = false := by
  refine ⟨rfl, rfl, ⟨none, rfl, rfl⟩, rfl, ⟨none, rfl, rfl⟩, rfl⟩

theorem wit_GroupsAreAllOrNothing :
    (ask up Op.setGroup [1, BitVec.ofNat 8 Ob.clsRail, 15, BitVec.ofNat 8 Ob.Rail.target, 0, 5, 0, 0, 0]).request 0
      = some (.setGroup [⟨⟨Ob.clsRail, 15, Ob.Rail.target⟩, 5⟩], none) ∧
    up.groupRefusal false [⟨⟨Ob.clsRail, 15, Ob.Rail.target⟩, 5⟩] = none ∧
    up.groupRefusal false [⟨⟨Ob.clsClk, 0, Ob.Clk.stat⟩, 5⟩] = some [St.badObject] := by
  refine ⟨rfl, rfl, rfl⟩

/-- Rail 15 enabled in domain 7 with phase 47. -/
def rig : State :=
  (((up.setObj Ob.clsRail 15 Ob.Rail.cfg 1).setObj Ob.clsRail 15 Ob.Rail.domain 7).setObj Ob.clsPhase 47 Ob.Phase.rail 15)

/-- The same rail regulating. -/
def reg : State := rig.modSeq 15 fun x => { x with rseq := .on }

/-- A saved pattern of rail 15. -/
def patterned : State := { rig with nvm := { rig.nvm with patterns := [(15, ⟨[(0, 5)], [], 1, 2, 3, 4⟩)] } }

/-- A rail on which a session may begin. -/
def tunable : State :=
  ((reg.setObj Ob.clsRail 15 Ob.Rail.tuneCtrl 1).setObj Ob.clsTune 0 Ob.Tune.amp 4096).setObj Ob.clsTune 0 Ob.Tune.fLoHz 977

/-- Rail 15 latched by a comparator. -/
def latched : State := rig.modProt 15 fun x => { x with latch := .cmp }

theorem wit_EdgeEffectsWait :
    (MaySet (askSet up Ob.clsRail 15 Ob.Rail.target 5) 0 ⟨Ob.clsRail, 15, Ob.Rail.target⟩ 5 ∧
      MaySet (askSet up Ob.clsRail 15 Ob.Rail.coefApply 1) 0 ⟨Ob.clsRail, 15, Ob.Rail.coefApply⟩ 1 ∧
      MaySet (askSet up Ob.clsRail 15 Ob.Rail.ffCmd 1) 0 ⟨Ob.clsRail, 15, Ob.Rail.ffCmd⟩ 1 ∧
      MaySet (askSet up Ob.clsRail 15 Ob.Rail.ffCmd 2) 0 ⟨Ob.clsRail, 15, Ob.Rail.ffCmd⟩ 2 ∧
      MaySet (askSet patterned Ob.clsRail 15 Ob.Rail.ffCmd 3) 0 ⟨Ob.clsRail, 15, Ob.Rail.ffCmd⟩ 3 ∧
      (bit 4 2 = true ∧ MaySet (askSet up Ob.clsRail 15 Ob.Rail.tuneCtrl 4) 0 ⟨Ob.clsRail, 15, Ob.Rail.tuneCtrl⟩ 4) ∧
      (bit 0 0 = false ∧ MaySet (askSet up Ob.clsRail 15 Ob.Rail.ctrl 0) 0 ⟨Ob.clsRail, 15, Ob.Rail.ctrl⟩ 0) ∧
      MaySet (askSet up Ob.clsRail 15 Ob.Rail.linkCtrl 1) 0 ⟨Ob.clsRail, 15, Ob.Rail.linkCtrl⟩ 1 ∧
      MaySet (askSet up Ob.clsRail 15 Ob.Rail.linkAuth 1) 0 ⟨Ob.clsRail, 15, Ob.Rail.linkAuth⟩ 1 ∧
      MaySet (askSet up Ob.clsPhase 47 Ob.Phase.force 3) 0 ⟨Ob.clsPhase, 47, Ob.Phase.force⟩ 3 ∧
      MaySet (askSet up Ob.clsPhase 47 Ob.Phase.forceDuty 1) 0 ⟨Ob.clsPhase, 47, Ob.Phase.forceDuty⟩ 1 ∧
      MaySet (askSet up Ob.clsFeed 2 Ob.Feed.busCtrl 0) 0 ⟨Ob.clsFeed, 2, Ob.Feed.busCtrl⟩ 0) ∧
    (Asks (ask rig Op.domainOn [128]) 0 (.domainOn 128) ∧
      (∀ d : DomainIx, (128 : BitVec 8).getLsbD d.val = true →
        rig.srcPin d = false ∧ rig.railsOf d.val ≠ [] ∧ rig.domBlocks d = false) ∧
      Asks (ask rig Op.domainOff [128]) 0 (.domainOff 128) ∧
      (ask latched Op.railClearLatch [15, 0]).request 0 = some (.railClearLatch 15 false, none) ∧ latched.clearable 15 = true ∧
      (ask up Op.phaseForce [1, 47, 3, 1, 0]).request 0 = some (.phaseForce [⟨47, 3, 1⟩], none) ∧
      (∀ w ∈ State.forceWrites ⟨47, 3, 1⟩, up.writeStatus false [] w = St.ok) ∧
      (tunable.tuneHeld = false ∧ tunable.tuneRefusal 15 false = none ∧ tunable.tuneRefusal 15 true = none ∧
        Asks (ask tunable Op.tuneStart [15]) 0 (.tuneStart 15) ∧ Asks (ask tunable Op.autotune [15]) 0 (.autotune 15)) ∧
      Asks (ask up Op.recFreeze []) 0 .recFreeze ∧
      (askKey up (some 1) Op.cntClear [255, 255]).request 0 = some (.cntClear 255 255, some 1)) := by
  refine ⟨⟨⟨none, rfl, rfl⟩, ⟨none, rfl, rfl⟩, ⟨none, rfl, rfl⟩, ⟨none, rfl, rfl⟩, ⟨none, rfl, rfl⟩, ⟨rfl, none, rfl, rfl⟩,
    ⟨rfl, none, rfl, rfl⟩, ⟨none, rfl, rfl⟩, ⟨none, rfl, rfl⟩, ⟨none, rfl, rfl⟩, ⟨none, rfl, rfl⟩, ⟨none, rfl, rfl⟩⟩,
    rfl, by decide, rfl, rfl, rfl, rfl, by decide, ⟨rfl, rfl, rfl, rfl, rfl⟩, rfl, rfl⟩

/-- Port 31 enabled. -/
def ported : State := up.setObj Ob.clsPort 31 Ob.Port.ctrl 5

/-- Comparator 31 latched after its decision has gone. -/
def cmpHeld : State :=
  (up.setObj Ob.clsCmp 31 Ob.Cmp.ctrl 1024).modCmp 31 fun x => { x with out := true, latched := true }

/-- Eight key words for slot 0. -/
def keyed : State := { up with mb := { up.mb with keyWords := (List.range 8).map fun i => (i, 7) } }

theorem wit_WritesAtOnce :
    (MaySet (askSet up Ob.clsClk 0 Ob.Clk.align 1) 0 ⟨Ob.clsClk, 0, Ob.Clk.align⟩ 1 ∧
      (MaySet (askSet up Ob.clsTune 0 Ob.Tune.stop 1) 0 ⟨Ob.clsTune, 0, Ob.Tune.stop⟩ 1 ∧ up.tune.slot = none) ∧
      MaySet (askKey up (some 0) Op.set ([BitVec.ofNat 8 Ob.clsPhase, 47, 10, 0] ++ wordBytes 1)) 0
        ⟨Ob.clsPhase, 47, Ob.Phase.hsunlock⟩ 1 ∧
      (keyed.keySelAfter [] ≠ 2 ∧
        MaySet (askSet keyed Ob.clsAuth 0 Ob.Auth.keyApply 1) 0 ⟨Ob.clsAuth, 0, Ob.Auth.keyApply⟩ 1) ∧
      (Orderly (askSet up Ob.clsRail 15 Ob.Rail.tblData 5) ∧
        MaySet (askSet up Ob.clsRail 15 Ob.Rail.tblData 5) 0 ⟨Ob.clsRail, 15, Ob.Rail.tblData⟩ 5)) ∧
    ((Orderly (askSet up Ob.clsPort 31 Ob.Port.ctrl 5) ∧ bit 5 0 = true ∧ bit (up.portCtrl 31) 0 = false ∧
        MaySet (askSet up Ob.clsPort 31 Ob.Port.ctrl 5) 0 ⟨Ob.clsPort, 31, Ob.Port.ctrl⟩ 5) ∧
      (Orderly (askSet ported Ob.clsPort 31 Ob.Port.ctrl 4) ∧ bit 4 0 = false ∧ bit (ported.portCtrl 31) 0 = true ∧
        MaySet (askSet ported Ob.clsPort 31 Ob.Port.ctrl 4) 0 ⟨Ob.clsPort, 31, Ob.Port.ctrl⟩ 4) ∧
      (let s := up.setObj Ob.clsClk 0 Ob.Clk.ctrl 6
       s.syncEn = true ∧ bit 2 2 = false ∧ MaySet (askSet s Ob.clsClk 0 Ob.Clk.ctrl 2) 0 ⟨Ob.clsClk, 0, Ob.Clk.ctrl⟩ 2) ∧
      ((cmpHeld.cmp 31).out = true ∧ (cmpHeld.cmp 31).latched = true ∧ (cmpHeld.cmp 31).decision = false ∧
        cmpHeld.cmpLatch 31 = 1 ∧ MaySet (askSet cmpHeld Ob.clsCmp 31 Ob.Cmp.clr 1) 0 ⟨Ob.clsCmp, 31, Ob.Cmp.clr⟩ 1)) := by
  refine ⟨⟨⟨none, rfl, rfl⟩, ⟨⟨none, rfl, rfl⟩, rfl⟩, ⟨some 0, rfl, rfl⟩, ⟨by decide, none, rfl, rfl⟩, orderly rfl, none, rfl, rfl⟩,
    ⟨orderly rfl, rfl, rfl, none, rfl, rfl⟩, ⟨orderly rfl, rfl, rfl, none, rfl, rfl⟩, ⟨rfl, rfl, none, rfl, rfl⟩,
    rfl, rfl, rfl, rfl, none, rfl, rfl⟩

theorem wit_RailTargetsAreChecked :
    Asks (ask rig Op.railTarget [1, 15, 0, 1, 0, 4]) 0 (.railTarget [⟨15, 0, false, 1, 1024⟩]) ∧ rig.mb.mp = 2 ∧
    (rig.targetCodes [] [⟨15, 0, false, 1, 1024⟩]).all (· == St.ok) = true ∧
    (rig.targetCodes [] [⟨15, 0, false, 1, 1024⟩, ⟨15, 0, false, 1, 1024⟩]).all (· == St.ok) = false ∧
    Asks (ask rig Op.railTarget [0]) 0 (.railTarget []) := by
  refine ⟨rfl, rfl, rfl, rfl, rfl⟩

theorem wit_EdgeEffects :
    patterned.savedPattern 15 = some ⟨[(0, 5)], [], 1, 2, 3, 4⟩ ∧ patterned.canWrite = true ∧ Orderly reg ∧
    reg.regulating 15 = true ∧ bit (reg.obj Ob.clsRail 15 Ob.Rail.profCtrl) 0 = false ∧ (reg.rail 15).prof.waiter = none :=
  ⟨rfl, rfl, orderly rfl, rfl, rfl, rfl⟩

/-- The smallest image of CIF2, staged. -/
def imaged : State := { up with cfg := { up.cfg with staging := imageBytes false 1 [] [], staged := 200 } }

theorem wit_StagingAndCommits :
    Asks (ask up Op.cfgStage [255, 255, 1, 0, 9]) 0 (.cfgStage 131071 [9]) ∧ up.commitWaits = false ∧
    Asks (ask up Op.fwStage [255, 255, 15, 0, 9]) 0 (.fwStage 1048575 [9]) ∧ up.firmwareHeld = false ∧
    Orderly (ask imaged Op.cfgCommit [114, 0, 0, 0]) ∧ Asks (ask imaged Op.cfgCommit [114, 0, 0, 0]) 0 (.cfgCommit 114) ∧
    imaged.commitWaits = false ∧ imaged.twin.role ≠ .active ∧ up.checkStaged 0 = .error { reason := 1 } := by
  refine ⟨rfl, rfl, rfl, rfl, orderly rfl, rfl, rfl, by decide, rfl⟩

theorem wit_RequestsThatGoDown :
    Asks (ask up Op.reset []) 0 .reset ∧ Asks (ask up Op.sleep [255, 255, 255, 255]) 0 (.sleep 4294967295) ∧
    (ask up Op.sleep [0, 0, 0, 0]).sleepOk 0 = true ∧ Asks (ask up Op.fwActivate [1]) 0 (.fwActivate 1) ∧
    up.firmwareHeld = false ∧ State.fwVerifies (up.fwImage 0) = true ∧ State.fwVerifies (up.fwImage 1) = false :=
  ⟨rfl, rfl, rfl, rfl, rfl, rfl, rfl⟩

/-- A TIME_SET for slot 3 waits for its PPS edge. -/
def setWaits : State := { up.setObj Ob.clsTime 0 Ob.Time.ctrl 1 with
  time := { up.time with setPending := some (some 3, 9, 0) } }

theorem wit_TheTimeCounter :
    Asks (ask up Op.timeSet [1, 0, 0, 0, 0, 0, 0, 255, 201, 154, 59]) 0 (.timeSet 1 0 999999999) ∧
    Asks (ask up Op.timeSet [0, 9, 0, 0, 0, 0, 0, 0, 0, 0, 0]) 0 (.timeSet 0 9 0) ∧
    setWaits.time.setPending = some (some 3, 9, 0) ∧ (up.setObj Ob.clsTime 0 Ob.Time.ctrl 0).ppsEn = false ∧ setWaits.ppsEn = true ∧ setWaits.dev.dstate = .run ∧
    setWaits.time.edgeValid = true ∧
    ({ up.time with lastPps := some 0, mono := 2000100001, tstate := .locked } : TimeState).edgesLost = true ∧
    (at' 120000000).framesRun = true ∧ (at' 120000000).time.lastAnchor + 120000000 ≤ (at' 120000000).now := by
  refine ⟨rfl, rfl, rfl, rfl, rfl, rfl, rfl, by decide +kernel, rfl, by decide⟩

/-- A standby whose partner agrees with it in everything that arming asks for. -/
def standby : State := { up with twin := { up.twin with
  role := .standby, linkUp := true, fsLock := true, peerVer := 512, peerDigest := up.cfgDigest.toNat } }

theorem standby_armReason : standby.armReason = .none := by
  show (if (up.cfgDigest.toNat != standby.cfgDigest.toNat) = true then Unarm.config else Unarm.none) = Unarm.none
  rw [show standby.cfgDigest = up.cfgDigest from rfl]; simp

theorem wit_TwinRequests :
    Asks (ask up Op.twinHandover []) 0 .twinHandover ∧ Asks (ask standby Op.twinArm []) 0 .twinArm ∧
    standby.twin.role = .standby ∧ standby.twin.armed = false ∧ standby.armReason = .none ∧
    ({ up with twin := { up.twin with role := .standby } } : State).armReason = .link :=
  ⟨rfl, rfl, rfl, rfl, standby_armReason, rfl⟩

/-- The seal has been broken for 100 ms and a session is open. -/
def inSession : State := { at' 200000 with meter := { up.meter with session := true, sealLowSince := some 0 } }

theorem wit_SealedSessions :
    Asks (ask inSession Op.meterSession [0, 0, 0, 0]) 0 .meterOpen ∧ inSession.dev.part = .m ∧
    inSession.meter.session = true ∧ inSession.sealed = true ∧
    Asks (ask inSession Op.meterSession [1, 1, 15, 0, 50, 0, 0, 0]) 0 (.meterStage 1 15 50) ∧ meterRange 1 15 50 = true ∧
    Asks (ask inSession Op.meterSession [1, 1, 16, 0, 50, 0, 0, 0]) 0 (.meterStage 1 16 50) ∧ meterRange 1 16 50 = false ∧
    Asks (ask inSession Op.meterSession [4, 0, 0, 0, 255, 127, 1, 0, 9]) 0 (.meterFwChunk 98303 [9]) ∧
    Asks (ask inSession Op.meterSession [3, 0, 0, 0]) 0 .meterAbandon ∧ inSession.meter.audit.length < 2048 ∧
    Asks (ask inSession Op.meterSession ([5, 0, 0, 0] ++ List.replicate 32 1)) 0 (.meterKeyLoad (List.replicate 32 1)) ∧
    inSession.meter.key = none ∧ inSession.meter.sealCount < maxWord ∧
    Asks (ask inSession Op.meterSession [2, 0, 0, 0]) 0 .meterCommit := by
  refine ⟨rfl, rfl, rfl, rfl, rfl, rfl, rfl, rfl, rfl, rfl, by decide, rfl, rfl, by decide, rfl⟩

/-- Point 15 measures, and an interval boundary has passed. -/
def metering : State := { up with meter := { up.meter with
  points := up.meter.points.set 15 { up.meter.points.get 15 with par := { (up.meter.points.get 15).par with en := true } }
  time := { up.meter.time with sec := 900 } } }

theorem wit_EnergyAndIntervals :
    metering.meterRuns = true ∧ (metering.meter.points.get 15).par.en = true ∧ metering.meter.fwFault = false ∧
    (up.meter.points.get 15).par.en = false ∧ metering.meter.intervals.length + 16 ≤ 10240 ∧
    metering.meter.ivStart < ((metering.meter.time.sec / (60 * max metering.meter.intervalMin 1) *
      (60 * max metering.meter.intervalMin 1) : Nat) : Rat) := by
  refine ⟨rfl, rfl, rfl, rfl, by decide, ?_⟩
  show (0 : Rat) < ((900 : Nat) : Rat)
  norm_num

theorem wit_MeterEvents : inSession.meterRuns = true ∧ inSession.meter.session = true ∧ inSession.meter.fwFault = false ∧
    inSession.meter.fwCrc ≠ 1 ∧ inSession.meter.audit.length < 2048 ∧ (metering.meter.points.get 15).par.en = true ∧
    (metering.meter.points.get 14).par.en = false := by
  refine ⟨rfl, rfl, rfl, by decide, by decide, rfl, rfl⟩

/-- The device in a state of R322. -/
def devIn (d : DevSt) : State := { up with dev := { up.dev with dstate := d } }

theorem wit_FrameEdgesCount : up.framesRun = true ∧ (devIn .recovery).dev.dstate = .recovery ∧
    (devIn .sleep).dev.dstate = .sleep := ⟨rfl, rfl, rfl⟩

/-- A device at a synchronisation state, at frame 0. -/
def syncAt (c : ClkState) : State := { up.setObj Ob.clsClk 0 Ob.Clk.ctrl 6 with clk := c }

theorem wit_SynchronisationStates :
    (475000 ≤ (⟨525000, 0, 100⟩ : SyncPulse).sincePs ∧ (⟨525000, 0, 100⟩ : SyncPulse).sincePs ≤ 525000) ∧
    ((syncAt { validRun := 8 }).framesRun = true ∧ (syncAt { validRun := 8 }).syncEn = true ∧
      8 ≤ (syncAt { validRun := 8 }).clk.validRun ∧ (syncAt { validRun := 8 }).clk.sync = .own) ∧
    ((syncAt { sync := .acquiring, lockFrames := 64 }).clk.sync = .acquiring ∧
      64 ≤ (syncAt { sync := .acquiring, lockFrames := 64 }).clk.lockFrames) ∧
    ((syncAt { sync := .locked, missRun := 3 }).clk.sync = .locked ∧ 3 ≤ (syncAt { sync := .locked, missRun := 3 }).clk.missRun ∧
      Orderly (syncAt { sync := .locked, missRun := 3 })) ∧
    (syncAt { sync := .holdover, holdoverEnd := some 0 }).clk.holdoverEnd = some 0 ∧
    (syncAt { sync := .returning }).clk.freqOfs = 0 ∧
    ((syncAt { alignBusy := true }).clk.alignReq = false ∧ (syncAt { alignBusy := true }).carriersAligned = true) := by
  refine ⟨by decide, ⟨rfl, rfl, by decide, rfl⟩, ⟨rfl, by decide⟩, ⟨rfl, by decide, orderly rfl⟩, rfl, rfl, rfl, rfl⟩

/-- A state with an armed command whose frame has come, in a slot of a resting device. -/
def armed (cause : Nat) (d : DevSt) : State := { devIn d with mb := { up.mb with arming := [⟨0, cause, some 0⟩] } }

theorem wit_ResetsKeepWhatTheyMust : up.powered = true ∧ up.ready = true ∧ (armed 2 .run).mb.arming = [⟨0, 2, some 0⟩] ∧
    (armed 5 .run).mb.arming = [⟨0, 5, some 0⟩] ∧ 0 ≤ (armed 2 .run).now ∧
    ({ up with fw := { up.fw with trial := true } } : State).fw.trial = true ∧ up.fw.trial = false :=
  ⟨rfl, rfl, rfl, rfl, Nat.zero_le _, rfl, rfl⟩

/-- A device asleep whose four wake sources and timer are enabled, with an event of source 0. -/
def asleep : State := { (devIn .sleep).setObj Ob.clsDev 0 Ob.Dev.wakeCtrl 31 with
  now := 2000, mb := { up.mb with order := [0] }, dev := { up.dev with dstate := .sleep, wakeMs := 1 } }

theorem wit_SupplyAndSleep : up.powered = true ∧ (devIn .unpowered).dev.dstate = .unpowered ∧ up.ready = true ∧
    up.meterRuns = true ∧ up.nvm.window = true ∧
    ((armed 0 .standby).dev.dstate = .standby ∧ (armed 0 .standby).mb.arming = [⟨0, 0, some 0⟩]) ∧
    (asleep.dev.dstate = .sleep ∧ asleep.wakeCause 0 = true ∧
      ((asleep.setObj Ob.clsPort 31 Ob.Port.ctrl 1).wakeCause 2 = true)) ∧
    bit (asleep.obj Ob.clsDev 0 Ob.Dev.wakeCtrl) 4 = true ∧ 0 < asleep.dev.wakeMs ∧
    asleep.dev.sleepAt + 2000 * asleep.dev.wakeMs ≤ asleep.now := by
  refine ⟨rfl, rfl, rfl, rfl, rfl, ⟨rfl, rfl⟩, ⟨rfl, rfl, rfl⟩, rfl, by decide, by decide⟩

theorem wit_BootSequence :
    (({ State.reset with fw := { State.reset.fw with slotA := .empty } } : State).dev.dstate = .boot ∧
      ({ State.reset with fw := { State.reset.fw with slotA := .empty } } : State).bootSlot = none) ∧
    State.reset.dev.dstate = .boot ∧ State.reset.bootSlot = some 0 ∧
    (let u : State := { up with fw := { up.fw with trial := true } }
     u.fw.trial = true ∧ u.ready = true ∧ u.fw.trialEnd ≤ u.now) := by
  refine ⟨⟨rfl, rfl⟩, rfl, rfl, rfl, rfl, by decide⟩

/-- Two restarts of housekeeping just now. -/
def restarted : State := { up with dev := { up.dev with wdStamps := [(2, 0), (2, 0)] } }

theorem wit_WatchdogsAndMemories : up.framesRun = true ∧ up.teleStale = false ∧ up.linkSilent = false ∧
    (up.noteRestart 2).restarts 2 < 3 ∧ 3 ≤ (restarted.noteRestart 2).restarts 2 ∧ Orderly up ∧
    (let s : State := { at' 2000000 with nvm := { up.nvm with window := false, goodSince := some 0 } }
     s.nvm.goodSince = some 0 ∧ s.powered = true ∧ s.nvm.window = false ∧ 0 + 2000000 ≤ s.now ∧ Orderly s) ∧
    up.ready = true ∧ up.nvm.window = true := by
  refine ⟨rfl, rfl, rfl, by decide, by decide, orderly rfl, ⟨rfl, rfl, rfl, by decide, orderly rfl⟩, rfl, rfl⟩

theorem wit_PulsesKeepTheirLimits : 0 < 640 ∧ 640 ≤ 640 ∧ 640 + 640 ≤ 1280 ∧ (onTime 1 1280 + 0 < 640) ∧
    640 ≤ onTime 65535 1280 + 0 := by
  norm_num [onTime]

/-- Phase 47 of the rig is placed and due at frame 3, or halted. -/
def placed (f : Option OutState) : State :=
  { rig.modGen 47 fun g => { g with placed := true, frozen := f, midDue := true } with now := 3 }

theorem wit_PeriodStarts : Orderly (placed none) ∧ (placed none).phaseRail 47 = some 15 ∧ (placed none).framesRun = true ∧
    ((placed none).phase 47).gen.placed = true ∧ ((placed none).phase 47).gen.frozen = none ∧
    (placed none).startDue 47 = true ∧ (∀ c, (placed none).refPhase c ≠ some 47) ∧ (placed none).tripAsserted 47 = false ∧
    ((placed none).phase 47).gen.midDue = true ∧
    ((placed none).phase 47).gen.startTick + ((placed none).phase 47).gen.thisPeriod / 2 < (placed none).frameTick + 6400 ∧
    ((placed (some .hsOn)).phase 47).gen.frozen ≠ none := by
  refine ⟨orderly rfl, rfl, rfl, rfl, rfl, by decide, ?_, rfl, rfl, by decide, by decide⟩
  decide

theorem wit_LatchingTurnsTheRailOff : Orderly reg ∧ reg.latchedOff 15 = false ∧ Latch.cmp ≠ Latch.none ∧
    (reg.rail 15).prot.crowbar = false ∧ reg.phaseRail 47 = some 15 ∧ reg.available 47 = true :=
  ⟨orderly rfl, rfl, by decide, rfl, rfl, rfl⟩

/-- Phase 47, the only active one of rail 15, has reached TRIP_N and TRIP_LEAK. -/
def tripping : State := reg.modGen 47 fun g => { g with tripCount := 255, cleanRun := 65535, hsUnlock := some 0 }

theorem wit_TripsUnlockAndCalibration :
    tripping.phaseN 47 Ob.Phase.tripLeak ≤ (tripping.phase 47).gen.cleanRun ∧ tripping.phaseRail 47 = some 15 ∧
    (tripping.phase 47).gen.tripped = false ∧ 0 < (tripping.phase 47).gen.tripCount ∧
    tripping.phaseN 47 Ob.Phase.tripN ≤ (tripping.phase 47).gen.tripCount ∧ rig.regulating 15 = false ∧ Orderly tripping ∧
    tripping.activeOf 15 = [47] ∧ (tripping.rail 15).plc.skim = none ∧ tripping.latchedOff 15 = false ∧
    (tripping.phase 47).gen.hsUnlock = some 0 ∧ tripping.framesRun = true ∧ tripping.teleStale = false ∧
    (tripping.phaseRail 47).isSome = true := by
  refine ⟨by decide, rfl, rfl, by decide, by decide, rfl, orderly rfl, rfl, rfl, rfl, rfl, rfl, rfl, rfl⟩

/-- Rail 15 with three active phases and skims of both kinds allowed. -/
def skimmable : State :=
  ((reg.setObj Ob.clsPhase 46 Ob.Phase.rail 15).setObj Ob.clsPhase 45 Ob.Phase.rail 15).setObj Ob.clsRail 15 Ob.Rail.plcCtrl 44

/-- Phase 44 of it shed long ago. -/
def shedOne : State :=
  { (skimmable.setObj Ob.clsPhase 44 Ob.Phase.rail 15).modSense 44 fun x => { x with shed := true } with now := 100000 }

/-- A skim of phase 47 of that rail. -/
def skims (k : Skim) : State := { skimmable.modPlc 15 fun x => { x with skim := some k } with now := 100000 }

theorem wit_SkimsLearnZero :
    (skimmable.skimReady 15 = true ∧ (skimmable.rail 15).lt.running = false ∧ skimmable.teleStale = false) ∧
    (bit (shedOne.obj Ob.clsRail 15 Ob.Rail.plcCtrl) 5 = true ∧ bit (shedOne.obj Ob.clsRail 15 Ob.Rail.plcCtrl) 2 = true ∧
      (shedOne.rail 15).plc.passive = none ∧ shedOne.lawRuns 15 = true ∧ shedOne.passiveReady 15 ≠ []) ∧
    (let s := skims ⟨47, some 0, 4, false, 0, 15⟩
     s.phaseRail 47 = some 15 ∧ (s.rail 15).plc.skim = some ⟨47, some 0, 4, false, 0, 15⟩ ∧ (s.rail 15).plc.passive = none ∧
       s.skimOver 15 ⟨47, some 0, 4, false, 0, 15⟩ = true ∧ Orderly s) ∧
    (let s := skims ⟨47, some 0, 4, true, 0, 16⟩
     s.skimOver 15 ⟨47, some 0, 4, true, 0, 16⟩ = true ∧ Orderly s) := by
  refine ⟨⟨by decide +kernel, rfl, rfl⟩, ⟨rfl, rfl, rfl, rfl, by decide⟩, ⟨rfl, rfl, rfl, rfl, orderly rfl⟩, rfl, orderly rfl⟩

/-- Gain calibration of rail 15 at the end of a window. -/
def calibrating : State := { rig.setObj Ob.clsRail 15 Ob.Rail.plcCtrl 8 with now := 131070000 }

theorem wit_GainsAndLagging :
    bit ((rig.setObj Ob.clsRail 15 Ob.Rail.plcCtrl 0).obj Ob.clsRail 15 Ob.Rail.plcCtrl) 3 = false ∧ bit (calibrating.obj Ob.clsRail 15 Ob.Rail.plcCtrl) 3 = true ∧
    calibrating.dev.part = .m ∧
    (calibrating.rail 15).plc.gcalStart + 2000 * calibrating.railN 15 Ob.Rail.skimPeriodMs ≤ calibrating.now ∧
    -1 / 20 ≤ (calibrating.phase 47).sense.gainCorr ∧ (calibrating.phase 47).sense.gainCorr ≤ 1 / 20 ∧
    (let s := rig.modSense 47 fun x => { x with limitRun := 2000 }
     (s.phase 47).sense.lagging = false ∧ 2000 ≤ (s.phase 47).sense.limitRun ∧ Orderly s) ∧
    (let s := rig.modSense 47 fun x => { x with lagging := true, offRun := 2000 }
     (s.phase 47).sense.lagging = true ∧ 2000 ≤ (s.phase 47).sense.offRun) := by
  refine ⟨by decide, rfl, rfl, by decide, ?_, ?_, ⟨rfl, by decide, orderly rfl⟩, rfl, by decide⟩
  · show (-1 / 20 : Rat) ≤ 0
    norm_num
  · show (0 : Rat) ≤ 1 / 20
    norm_num

/-- So late that every timer has run out. -/
def late (s : State) : State := { s with now := 10000000000 }

/-- Rail 15 of the rig in a slam that has lasted long, with overruns. -/
def slamming : State := (reg.modLaw 15 fun x => { x with regime := .slamUp, slamFrames := 65535 }).modMeas 15 fun m =>
  { m with ovrCount := 255 }

/-- Rail 15 rests at its target after a soft start, with a request waiting in slot 3. -/
def resting : State :=
  let s := reg.modProf 15 fun x => { x with softStart := true, inBand := 65535, waiter := some (3, 0) }
  { s with mb := { s.mb with gathers := [⟨3, [(none, false)], true⟩] } }

/-- Rail 15 with an ended fade, an open stroke and a position of long ago. -/
def stroking : State := late (reg.modFf 15 fun f =>
  { f with fade := some (1, 0), stroke := some ⟨9, 0, 0, 65535⟩, applied := true, mode := 3, pos := some 5 })

theorem wit_RailEvents :
    (Orderly slamming ∧ slamming.framesRun = true ∧ slamming.regulating 15 = true ∧ slamming.latchedOff 15 = false ∧
      0 < (slamming.rail 15).meas.ovrCount ∧ slamming.clkN Ob.Clk.ovrLimit ≤ (slamming.rail 15).meas.ovrCount) ∧
    ((slamming.rail 15).law.regime ≠ .linear ∧
      slamming.railN 15 Ob.Rail.slamMax ≤ (slamming.rail 15).law.slamFrames ∧ slamming.lawRuns 15 = true) ∧
    (Orderly resting ∧ resting.lawRuns 15 = true ∧ (resting.rail 15).prof.done = false ∧ resting.atTarget 15 = true ∧
      resting.railN 15 Ob.Rail.settle ≤ (resting.rail 15).prof.inBand ∧ (resting.rail 15).prof.waiter = some (3, 0) ∧
      (resting.mb.gathers.find? fun g => g.slot == 3) = some { slot := 3, codes := [(none, false)], pairs := true }) ∧
    (resting.rail 15).prof.softStart = true ∧
    (Orderly stroking ∧ (stroking.rail 15).ff.fade = some (1, 0) ∧ (stroking.rail 15).ff.stroke = some ⟨9, 0, 0, 65535⟩ ∧
      5 * msFrames 65535 ≤ 4 * (stroking.now - 0) ∧ (stroking.rail 15).ff.mode = 3 ∧ (stroking.rail 15).ff.pos ≠ none ∧
      (stroking.rail 15).ff.stale = false ∧
      elapsed stroking.now (stroking.rail 15).ff.posAt (msFrames 10) = true) := by
  refine ⟨⟨orderly rfl, rfl, rfl, rfl, by decide, by decide⟩, ⟨by decide, by decide, rfl⟩,
    ⟨orderly rfl, rfl, rfl, by decide +kernel, by decide, rfl, rfl⟩, rfl,
    orderly rfl, rfl, rfl, by decide, rfl, by decide, rfl, by decide⟩

/-- A session on rail 15; `full` says that its records are. -/
def session (t : TuneSt) (full : Bool) : State := late { reg with tune := { reg.tune with
  tstate := t, rail := 15, recording := full, recA := if full then List.replicate 4096 0 else [] } }

/-- AUTOTUNE of slot 3 waits for its design. -/
def designing : State := { reg with tune := { reg.tune with tstate := .done, rail := 15, auto := true, slot := some 3 } }

/-- Live tuning of rail 15. -/
def live (l : LtState) : State := (reg.setObj Ob.clsRail 15 Ob.Rail.tuneCtrl 2).modLt 15 fun _ => l

theorem wit_TuningRunsToItsEnd :
    (Orderly (session .running false) ∧ (session .running false).tune.tstate = .running ∧
      (session .running false).tune.recording = false ∧
      elapsed (session .running false).now (session .running false).tune.stepAt
        ((session .running false).tuneN Ob.Tune.settleFr) = true) ∧
    ((session .running true).tune.recording = true ∧ 4096 ≤ (session .running true).tune.recA.length ∧
      (session .running true).lastStep = true ∧ ({ session .running true with tune := { (session .running true).tune with
        auto := true, step := 14 } } : State).lastStep = false ∧ Orderly (session .running true)) ∧
    (designing.tune.tstate = .done ∧ designing.tune.auto = true ∧ designing.tune.slot = some 3 ∧ designing.tune.rail < 16 ∧
      Orderly designing) ∧
    (Orderly (live { running := true, windowFrames := 20000 }) ∧
      ((live { running := true, windowFrames := 20000 }).rail 15).lt.running = true ∧
      ((live { running := true, windowFrames := 20000 }).rail 15).lt.ending = false ∧
      20000 ≤ ((live { running := true, windowFrames := 20000 }).rail 15).lt.windowFrames) ∧
    ((live { paused := true, clearRun := 2000 }).ltEn 15 = true ∧
      ((live { paused := true, clearRun := 2000 }).rail 15).lt.paused = true ∧
      ((live { paused := true, clearRun := 2000 }).rail 15).lt.running = false ∧
      2000 ≤ ((live { paused := true, clearRun := 2000 }).rail 15).lt.clearRun) := by
  refine ⟨⟨orderly rfl, rfl, rfl, by decide⟩, ⟨rfl, Nat.le_of_eq List.length_replicate.symm, by decide, by decide, orderly rfl⟩,
    ⟨rfl, rfl, rfl, by decide, orderly rfl⟩, ⟨orderly rfl, rfl, rfl, by decide⟩, rfl, rfl, rfl, by decide⟩

/-- Port 31 in a state, mapped to rail 15, which takes link requests of any port of its own. -/
def linked (p : PortState) : State :=
  let s := ((reg.setObj Ob.clsPort 31 Ob.Port.ctrl 5).setObj Ob.clsPort 31 Ob.Port.rail 15).setObj Ob.clsRail 15 Ob.Rail.ffPort 31
  ((s.setObj Ob.clsRail 15 Ob.Rail.profCtrl 1).setObj Ob.clsRail 15 Ob.Rail.linkAuth 31).modPort 31 fun _ => p

theorem wit_LoadFramesAreTaken :
    Orderly up ∧ up.portOn 31 = false ∧ Orderly (linked { pstate := .wl2, rxSeq := some 15 }) ∧
    (linked { pstate := .wl2, rxSeq := some 15 }).portOn 31 = true ∧
    (linked { pstate := .wl2, rxSeq := some 15 }).portUp 31 = true ∧
    ((linked { pstate := .wl2, rxSeq := some 15 }).port 31).rxSeq = some 15 ∧
    15 ∈ (linked { pstate := .wl2 }).ffRails 31 ∧
    (((linked { pstate := .wl2 }).modFf 15 fun f => { f with mode := 2 }).rail 15).ff.mode = 2 ∧
    (linked { pstate := .wl2 }).regulating 15 = true ∧
    bits (((linked { pstate := .wl2 }).setObj Ob.clsRail 15 Ob.Rail.patId 9).obj Ob.clsRail 15 Ob.Rail.patId) 7 0 = 9 ∧
    State.rxAfterSync [] = .incomplete ∧
    State.rxAfterSync [⟨5, false, 400⟩, ⟨0, false, 0⟩, ⟨1, false, 0⟩, ⟨2, false, 0⟩] = .crc := by
  refine ⟨orderly rfl, rfl, orderly rfl, rfl, rfl, rfl, by decide, rfl, rfl, rfl, rfl, by decide +kernel⟩

theorem wit_VoltageRequests :
    (let s := linked { pstate := .wl2, standing := some ⟨65535, 3, 255⟩ }
     Orderly s ∧ s.portOn 31 = true ∧ (s.port 31).pstate = .wl2 ∧ ((s.port 31).queue.filter State.isAck).length ≤ 4 ∧
       s.portRail 31 = some 15 ∧ (s.port 31).standing = some ⟨65535, 7 % 4, 511 % 256⟩ ∧
       bit (s.obj Ob.clsRail 15 Ob.Rail.profCtrl) 0 = true ∧ s.permitted 15 31 = true ∧ s.regulating 15 = true) ∧
    ((linked {}).setObj Ob.clsPort 31 Ob.Port.rail 255).portRail 31 = none ∧
    bit (((linked {}).setObj Ob.clsRail 15 Ob.Rail.profCtrl 0).obj Ob.clsRail 15 Ob.Rail.profCtrl) 0 = false ∧
    (((linked {}).setObj Ob.clsRail 15 Ob.Rail.linkAuth 30).setObj Ob.clsRail 15 Ob.Rail.linkCtrl 0).permitted 15 31 = false ∧
    ((linked {}).modSeq 15 fun x => { x with rseq := .off }).regulating 15 = false ∧
    (let s := (linked { pstate := .wl2, pending := some ⟨7, false, false, 0⟩ }).modProf 15 fun x =>
       { x with linkReq := some (31, 5), port := 31, tag := 7, done := true }
     (s.port 31).pending = some ⟨7, false, false, 0⟩ ∧ s.portInForce 31 = true ∧ (s.rail 15).prof.port = 31 ∧
       (s.rail 15).prof.tag = 7 ∧ (s.rail 15).prof.done = true) := by
  refine ⟨⟨orderly rfl, rfl, rfl, by decide, rfl, rfl, rfl, by decide, rfl⟩, rfl, rfl, by decide, rfl, rfl, rfl, rfl, rfl, rfl⟩

/-- Port 31 long after everything, with a frame in its queue. -/
def longAgo (st : PortSt) : State :=
  let s := (linked { pstate := st, queue := [.hello 2 0 false] }).setObj Ob.clsPort 31 Ob.Port.statusMs 10
  late { s.setObj Ob.clsPort 31 Ob.Port.timeoutMs 100 with feeds := { s.feeds with ewarn := true } }

theorem wit_PortsSendAndTimeOut :
    Orderly (longAgo .wl2) ∧ nextTx ((longAgo .wl2).port 31).queue = some (.hello 2 0 false) ∧ (longAgo .wl2).portOn 31 = true ∧
    (longAgo .wl2).twin.driving = true ∧ (longAgo .wl2).tooLate (.hello 2 0 false) = false ∧
    ((linked { pstate := .wl2 }).port 31).queue = [] ∧ (longAgo .wl2).linkSilent = false ∧
    (((longAgo .lost).port 31).pstate = .lost ∧ ((longAgo .lost).port 31).wlmax = 2 ∧
      elapsed (longAgo .lost).now ((longAgo .lost).port 31).lastHello (msFrames 10) = true) ∧
    (((longAgo .wl2).port 31).pstate = .wl2 ∧ (longAgo .wl2).portN 31 Ob.Port.timeoutMs = 100 ∧
      elapsed (longAgo .wl2).now ((longAgo .wl2).port 31).lastValid (500 * 100) = true ∧
      elapsed (longAgo .wl2).now ((longAgo .wl2).port 31).lastPing (500 * 100) = true) ∧
    ((longAgo .wl2).portN 31 Ob.Port.statusMs = 10 ∧
      elapsed (longAgo .wl2).now ((longAgo .wl2).port 31).lastStatus (msFrames 10) = true) ∧
    ((longAgo .wl2).feeds.ewarn = true ∧ elapsed (longAgo .wl2).now ((longAgo .wl2).port 31).lastWarn
      (msFrames ((longAgo .wl2).portN 31 Ob.Port.warnRepeatMs)) = true) ∧
    (longAgo .wl2).portUp 31 = true ∧ elapsed (longAgo .wl2).now ((longAgo .wl2).port 31).lastValid (msFrames 100) = true := by
  refine ⟨orderly rfl, rfl, rfl, rfl, rfl, rfl, rfl, ⟨rfl, rfl, by decide⟩, ⟨rfl, rfl, by decide, by decide⟩,
    ⟨rfl, by decide⟩, ⟨rfl, by decide⟩, rfl, by decide⟩

/-- The selector at a state, long after. -/
def selecting (f : FeedState) : State := late { up with feeds := f }

theorem wit_FeedsChangeOver :
    (let s := selecting { sel := .onB, fa := { cls := .good, goodSince := some 0 } }
     Orderly s ∧ (s.feed .a).goodSince = some 0 ∧ s.feeds.sel = .onB ∧ s.twin.driving = true ∧ s.selClass .a = .good ∧
       elapsed s.now (max 0 s.feeds.selAt) (msFrames (s.feedN 2 Ob.Feed.returnDelayMs)) = true) ∧
    (let s := selecting { sel := .brk, confirmRun := 2 }
     s.feeds.sel = .brk ∧ 2 ≤ s.feeds.confirmRun) ∧
    (let s := selecting { sel := .brk, confirmRun := 1 }
     s.feeds.confirmRun < 2 ∧ elapsed s.now s.feeds.selAt (usFrames (s.feedN 2 Ob.Feed.confirmUs)) = true) ∧
    (let s := selecting { sel := .dead, target := some .b, fb := { cls := .good } }
     s.feeds.sel = .dead ∧ elapsed s.now s.feeds.selAt (usFrames (s.feedN 2 Ob.Feed.deadUs)) = true ∧
       s.feeds.target = some .b ∧ s.selFault .b = false) ∧
    (let s := selecting { sel := .dead, target := some .b, fa := { cls := .good } }
     s.selFault .b = true ∧ s.selFault s.feedFrom = false) ∧
    (selecting { sel := .dead, target := some .b }).selFault .a = true ∧
    (let s := selecting { sel := .make, target := some .b, fb := { gate := 8000 } }
     s.feeds.sel = .make ∧ 8000 ≤ (s.feed s.feedTo).gate ∧ s.feeds.slow = false ∧
       elapsed s.now s.feeds.selAt (if s.feeds.slow then msFrames 100 else usFrames 20) = true) ∧
    (let s := selecting { sel := .onA, fa := { cls := .good }, ewarn := true }
     s.feeds.ewarn = true ∧ s.warnCause = false ∧
       elapsed s.now s.feeds.causeGone (msFrames (s.feedN 2 Ob.Feed.ewHoldMs)) = true) := by
  refine ⟨⟨orderly rfl, rfl, rfl, rfl, rfl, by decide⟩, ⟨rfl, by decide⟩, ⟨by decide, by decide⟩, ⟨rfl, by decide, rfl, rfl⟩,
    ⟨rfl, rfl⟩, rfl, ⟨rfl, by decide, rfl, by decide⟩, rfl, rfl, by decide⟩

/-- The fuse of rail 15 fitted, with detection of loads, long after. -/
def fused (f : FuseState) : State := late ((reg.setObj Ob.clsRail 15 Ob.Rail.fuseCtrl 9).modFuse 15 fun _ => f)

theorem wit_FusesRampTripAndRetry :
    (Orderly (fused { fstate := .ramp }) ∧ ((fused { fstate := .ramp }).rail 15).fuse.fstate = .ramp ∧
      ((fused { fstate := .ramp }).rail 15).meas.v * 1000 - (fused { fstate := .ramp }).railQ 15 Ob.Rail.insDropMv
        ≤ (((fused { fstate := .ramp }).rail 15).fuse.voutMv : Rat) ∧
      elapsed (fused { fstate := .ramp }).now 0 (msFrames ((fused { fstate := .ramp }).railN 15 Ob.Rail.insTmoMs)) = true) ∧
    (elapsed (fused { fstate := .tripped }).now 0 (msFrames ((fused { fstate := .tripped }).railN 15 Ob.Rail.fuseRetryMs)) = true ∧
      (fused { fstate := .tripped, retry := 255 }).railN 15 Ob.Rail.fuseRetries ≤ 255 ∧
      0 < (fused { fstate := .tripped }).railN 15 Ob.Rail.fuseRetries ∧ (fused { fstate := .tripped }).regulating 15 = true ∧
      (late latched).regulating 15 = false ∧ (fused { fstate := .tripped }).canWrite = true) ∧
    ((fused { aboveRun := 200 }).fitted 15 = true ∧ ((fused { aboveRun := 200 }).rail 15).fuse.fstate ≠ .passShort ∧
      200 ≤ ((fused { aboveRun := 200 }).rail 15).fuse.aboveRun ∧ (fused { aboveRun := 200 }).latchedOff 15 = false) ∧
    ((fused {}).gateOff 15 = true ∧
      elapsed (fused {}).now 0 (msFrames ((fused {}).railN 15 Ob.Rail.psArmMs)) = true) ∧
    (bit ((fused { fstate := .latched }).fuseCtrl 15) 3 = true ∧ ((fused { fstate := .latched }).rail 15).fuse.load = false ∧
      ((fused { fstate := .tripped, load := true }).rail 15).fuse.load = true) := by
  refine ⟨⟨orderly rfl, rfl, by decide +kernel, by decide⟩, ⟨by decide, by decide, by decide, rfl, rfl, rfl⟩,
    ⟨rfl, by decide, by decide, rfl⟩, ⟨rfl, by decide⟩, rfl, rfl, rfl⟩

/-- Comparator 31 on the pin of comparator 31, with a threshold of 1 V and an action. -/
def watching (route : Word) (c : CmpState) : State :=
  ((up.setObj Ob.clsCmp 31 Ob.Cmp.ctrl 1).setObj Ob.clsCmp 31 Ob.Cmp.route route).modCmp 31 fun _ => c

theorem wit_ComparatorsAssertAndRelease :
    Orderly (watching 0xF02 { decided := true }) ∧ (watching 0xF02 { decided := true }).cmpRuns 31 = true ∧
    (watching 0xF02 { decided := true }).cmpRail 31 = 15 ∧
    (watching 0xF02 { decided := true }).cmpOver 31 ((watching 0xF02 { decided := true }).cmpInput 31 2400000) 6399 = true ∧
    (watching 0xF02 { decided := true }).cmpBlanked 31 6399 = false ∧
    (watching 0xF02 { decided := true }).cmpUnder 31 ((watching 0xF02 { decided := true }).cmpInput 31 (-100000))
      (watching 0xF02 { decided := true }).frameTick = true ∧
    (watching 0xF02 { decided := true }).cmpLatch 31 = 0 ∧ cmpHeld.cmpLatch 31 ≠ 0 ∧
    ((watching 0xF02 { initHold := true, out := true }).cmp 31).decided = false ∧
    ((watching 0xF02 { initHold := true, out := true }).cmp 31).initHold = true ∧
    (watching 0xF02 {}).cmpOver 31 ((watching 0xF02 {}).cmpInput 31 0) (watching 0xF02 {}).frameTick = false := by
  refine ⟨orderly rfl, rfl, rfl, by decide +kernel, rfl, by decide +kernel, rfl, by decide, rfl, rfl, by decide +kernel⟩

/-- Rail 15 of the rig with its protection in a state, long after. -/
def guarded (ctrl : Word) (p : ProtState) : State :=
  late ((reg.setObj Ob.clsRail 15 Ob.Rail.protCtrl ctrl).modProt 15 fun _ => p)

theorem wit_LevelsAndHiccup :
    (let s := guarded 0 { uvfRun := 255, ovfRun := 255, limRun := 65535 }
     Orderly s ∧ s.framesRun = true ∧ s.regulating 15 = true ∧ s.uvPending 15 = true ∧ (s.rail 15).prot.ovf = false ∧
       s.levelQual 15 .ovFault ≤ 255 ∧ s.railN 15 Ob.Rail.hicN ≤ 65535 ∧ (s.rail 15).prot.hicEnd = none ∧
       s.latchedOff 15 = false ∧ (s.rail 15).seq.rseq = .on ∧ 0 < s.railN 15 Ob.Rail.hicMax ∧
       bit (s.obj Ob.clsRail 15 Ob.Rail.protCtrl) 0 = false ∧ bit (s.obj Ob.clsRail 15 Ob.Rail.protCtrl) 1 = false) ∧
    (let s := guarded 3 { hicRun := 255 }
     bit (s.obj Ob.clsRail 15 Ob.Rail.protCtrl) 0 = true ∧ bit (s.obj Ob.clsRail 15 Ob.Rail.protCtrl) 1 = true ∧
       (s.rail 15).prot.crowbar = false ∧ s.railN 15 Ob.Rail.hicMax ≤ 255) ∧
    (let s := guarded 0 { uvf := true, ovf := true, uvfRun := 255, ovfRun := 255 }
     (s.rail 15).prot.uvf = true ∧ s.levelQual 15 .uvFault ≤ 255 ∧ (s.rail 15).prot.ovf = true ∧ s.levelQual 15 .ovFault ≤ 255) ∧
    (let s := guarded 0 { hicEnd := some 0 }
     (s.rail 15).prot.hicEnd = some 0 ∧ s.heldOff 15 = false ∧ (guarded 0 { hicEnd := some 0, inuv := true }).heldOff 15 = true) ∧
    (let s := guarded 0 { hicRun := 1, hicClean := 120000000 }
     sFrames 60 ≤ (s.rail 15).prot.hicClean ∧ (s.rail 15).prot.hicRun ≠ 0) := by
  refine ⟨⟨orderly rfl, rfl, rfl, by decide, rfl, by decide, by decide, rfl, rfl, rfl, by decide, rfl, rfl⟩,
    ⟨rfl, rfl, rfl, by decide⟩, ⟨rfl, by decide, rfl, by decide⟩, ⟨rfl, rfl, rfl⟩, by decide, by decide⟩

/-- Every sensor that stops rail 15 has been below its level for long, and sensor 27 held the device. -/
def cooled : State := late ((guarded 0 { thold := true }).modTemp 27 fun x =>
  { x with stops := [15], belowAt := some 0, device := true })

theorem wit_HoldsBeginAndEnd :
    (let s := guarded 0 { inuvRun := 64, inovRun := 2, inGoodSince := some 0 }
     Orderly s ∧ s.framesRun = true ∧ (s.rail 15).prot.inuv = false ∧ 64 ≤ (s.rail 15).prot.inuvRun ∧
       (s.rail 15).prot.inov = false ∧ 2 ≤ (s.rail 15).prot.inovRun ∧ (s.rail 15).prot.inGoodSince = some 0 ∧
       elapsed s.now 0 (msFrames 10) = true) ∧
    ((cooled.rail 15).prot.thold = true ∧
      (∀ i, (cooled.temp i).stops.contains 15 = true →
        ∃ b, (cooled.temp i).belowAt = some b ∧ elapsed cooled.now b (sFrames 1) = true)) ∧
    (cooled.temps.toList.any (·.device) = true ∧
      ∀ i, (cooled.temp i).device = true → ∃ b, (cooled.temp i).belowAt = some b ∧ elapsed cooled.now b (sFrames 10) = true) ∧
    (let s := (((rig.setObj Ob.clsTemp 27 Ob.Temp.ctrl 3).setObj Ob.clsTemp 27 Ob.Temp.rails 0x8000))
     s.teleStale = false ∧ bit (s.obj Ob.clsTemp 27 Ob.Temp.ctrl) 0 = true ∧ bits (s.obj Ob.clsTemp 27 Ob.Temp.ctrl) 2 1 = 1 ∧
       (s.temp 27).fault = false ∧ 15 ∈ s.tempRails 27) ∧
    (let s := rig.setObj Ob.clsTemp 7 Ob.Temp.ctrl 7
     bits (s.obj Ob.clsTemp 7 Ob.Temp.ctrl) 2 1 = 3 ∧ (s.obj Ob.clsTemp 7 Ob.Temp.fault).toInt ≤ s.tempValue 7 20000) := by
  refine ⟨⟨orderly rfl, rfl, rfl, by decide, rfl, by decide, rfl, by decide⟩, ⟨rfl, ?_⟩, ⟨rfl, ?_⟩,
    ⟨rfl, rfl, rfl, rfl, by decide⟩, rfl, by decide⟩
  · have h : ∀ i, (cooled.temp i).stops.contains 15 = true → (cooled.temp i).belowAt = some 0 := by decide
    exact fun i hi => ⟨0, h i hi, by decide⟩
  · have h : ∀ i, (cooled.temp i).device = true → (cooled.temp i).belowAt = some 0 := by decide
    exact fun i hi => ⟨0, h i hi, by decide⟩

/-- Domain 7 and its rail 15 in a state, long after. -/
def sequencing (d : DomainState) (q : SeqState) (up down : Option Nat) : State :=
  late ((rig.modDomain 7 fun _ => d).modRail 15 fun x => { x with seq := q, upDue := up, dnDue := down })

theorem wit_DomainsSequence :
    (let s := { sequencing {} {} none none with dev := { up.dev with enRun := up.dev.enRun.set 3 40 } }
     Orderly s ∧ s.framesRun = true ∧ 40 ≤ s.dev.enRun.get 3) ∧
    (let s := ((rig.setObj Ob.clsDomain 7 Ob.Domain.ctrl 1).setObj Ob.clsPin 0 Ob.Pin.enMap 0x3FFFFFFF)
     s.srcPin 7 = true ∧ s.enPinOf 7 = some 3) ∧
    (let s := sequencing { req := true } {} none none
     s.deviceHold = false ∧ s.domBlocks 7 = false ∧ (s.domain 7).dstate = .off ∧ s.railsOf 7 ≠ [] ∧
       (s.upOrder 7).head? = some 15) ∧
    (let s := sequencing { dstate := .retryWait } {} none none
     (s.domain 7).dstate = .retryWait ∧ (s.domain 7).retryEnd ≤ s.now) ∧
    (let s := sequencing { dstate := .up } {} (some 10000000000) none
     s.railDomain 15 = some 7 ∧ s.railEn 15 = true ∧ (s.rail 15).upDue = some 10000000000 ∧ (s.domain 7).dstate = .up ∧
       (s.rail 15).seq.rseq = .off ∧ 10000000000 ≤ s.now ∧ (s.rail 15).seq.minOffEnd ≤ s.now ∧ s.hsOnPhase 15 = false ∧
       s.heldOff 15 = false) ∧
    (let s := sequencing { dstate := .up } { rseq := .ramp, qualStart := some 0 } none none
     (s.rail 15).seq.qualStart = some 0 ∧ (s.rail 15).seq.rseq = .ramp ∧
       elapsed s.now 0 (usFrames (s.railN 15 Ob.Rail.qualUs)) = true ∧
       (∀ x ∈ s.railsOf 7, x ≠ 15 → (s.rail x).seq.rseq = .on) ∧ (s.rail 15).seq.upEnd ≤ s.now ∧
       (s.domain 7).retryLeft = 0) ∧
    (sequencing { dstate := .up, retryLeft := 255 } { rseq := .ramp } none none).domain 7 = { dstate := .up, retryLeft := 255 } ∧
    (let s := sequencing { dstate := .down } { rseq := .on } none (some 10000000000)
     (s.rail 15).dnDue = some 10000000000 ∧ 10000000000 ≤ s.now ∧ (s.rail 15).seq.rseq = .on) ∧
    (let s := sequencing { dstate := .down } { rseq := .discharge, disRun := 4 } none none
     (s.rail 15).seq.rseq = .discharge ∧ 4 ≤ (s.rail 15).seq.disRun ∧ (s.rail 15).seq.disEnd ≤ s.now) := by
  refine ⟨⟨orderly rfl, rfl, by decide⟩, ⟨rfl, rfl⟩, ⟨rfl, rfl, rfl, by decide, rfl⟩, ⟨rfl, by decide⟩,
    ⟨rfl, rfl, rfl, rfl, rfl, by decide, by decide, rfl, rfl⟩, ⟨rfl, rfl, by decide, by decide, by decide, rfl⟩, rfl,
    ⟨rfl, by decide, rfl⟩, rfl, by decide, by decide⟩

/-- One of a pair, with its twin state. -/
def paired (t : TwinState) : State := { up with twin := t }

theorem wit_TwinLinkEvents :
    Orderly up ∧ up.framesRun = true ∧ up.linkSilent = false ∧ up.twin.role = .solo ∧
    (paired { role := .listen }).twin.role ≠ .solo ∧
    (⟨0, 0, false, none, [], false⟩ : Heartbeat).valid = false ∧ (⟨0, 0, true, some 9, [], true⟩ : Heartbeat).valid = true ∧
    (up.recd.batch = none ∧ up.recd.reserveFail = false ∧ up.recd.next + 1 < up.reserve ∧ up.recd.keptReserve = none ∧
      up.recd.frozen = false ∧ up.canWrite = true ∧ up.recd.ringOk = true ∧ up.recd.ram = [] ∧ up.recd.ring.length < 16384) ∧
    (let s := paired { role := .standby, armed := true, fsLock := true, fsMiss := 3, linkUp := true }
     s.follows = true ∧ s.clk.frame < 1 ∧ s.replOk (.freeze none) = true ∧
       s.replOk (.write none ⟨⟨Ob.clsClk, 0, Ob.Clk.stat⟩, 1⟩) = false ∧ 0 ≤ s.clk.frame ∧ s.twin.armed = true ∧
       s.twin.fsLock = true ∧ 3 ≤ s.twin.fsMiss ∧ s.twin.linkUp = true) ∧
    (let s := paired { role := .active, driveActN := true }
     s.twin.role = .active ∧ s.twin.driveActN = true ∧ s.twin.actN = true) := by
  refine ⟨orderly rfl, rfl, rfl, rfl, by decide, rfl, rfl, ⟨rfl, rfl, by decide, rfl, rfl, rfl, rfl, rfl, by decide⟩,
    ⟨rfl, by decide, rfl, rfl, by decide, rfl, rfl, by decide, rfl⟩, rfl, rfl, rfl⟩

theorem wit_TwinRolesChange :
    (let s := paired { role := .standby, armed := true, hbMiss := 4 }
     Orderly s ∧ s.twin.role = .standby ∧ 4 ≤ s.twin.hbMiss ∧ s.twin.armed = true ∧ s.twin.actN = true) ∧
    (let s := paired { role := .standby, hbMiss := 4, actN := false }
     s.twin.actN = false ∧ s.twin.split = false ∧ s.twin.armed = false) ∧
    (let s := paired { role := .listen, actLowRun := 20, actHighRun := 4000, seatB := true }
     s.twin.role = .listen ∧ 20 ≤ s.twin.actLowRun ∧ (if s.twin.seatB then 4000 else 2000) ≤ s.twin.actHighRun ∧
       s.twin.linkUp = false) ∧
    (let s := paired { role := .monitor, noHbRun := 20000 }
     s.follows = true ∧ s.twin.armed = false ∧ s.twin.actN = true ∧ 20000 ≤ s.twin.noHbRun) ∧
    (let s := paired { role := .active, partner := true, hbMiss := 4, pendingHo := some (3, 0) }
     s.twin.role = .active ∧ s.twin.partner = true ∧ 4 ≤ s.twin.hbMiss ∧ s.twin.pendingHo = some (3, 0) ∧ 0 ≤ s.clk.frame) ∧
    (let s := paired { role := .standby, resyncing := true, resyncOnly := true }
     s.twin.resyncing = true ∧ s.twin.resyncOnly = true) ∧
    ({ standby with twin := { standby.twin with resyncing := true } } : State).armReason = .none ∧
    (let s := paired { role := .standby, partnerHo := some 0, armed := true }
     s.twin.partnerHo = some 0 ∧ 0 ≤ s.clk.frame ∧ s.twin.armed = true) := by
  refine ⟨⟨orderly rfl, rfl, by decide, rfl, rfl⟩, ⟨rfl, rfl, rfl⟩, ⟨rfl, by decide, by decide, rfl⟩,
    ⟨rfl, rfl, rfl, by decide⟩, ⟨rfl, rfl, by decide, rfl, by decide⟩, ⟨rfl, rfl⟩, standby_armReason, rfl, by decide, rfl⟩

/-- A recorder state in an orderly device. -/
def recording (r : RecState) (window : Bool) : State := { up with recd := r, nvm := { up.nvm with window := window } }

theorem wit_EventsAreNumbered :
    (recording { batch := some [] } true).recd.batch = some [] ∧
    (let s := recording { next := 4094 } true
     Orderly s ∧ s.recd.batch = none ∧ s.recd.reserveFail = false ∧ s.recd.keptReserve = none ∧ s.recd.next + 1 < s.reserve ∧
       s.recd.frozen = false ∧ s.canWrite = true ∧ s.recd.ringOk = true ∧ s.recd.ram = []) ∧
    (let s := recording { next := 4095 } true
     s.canWrite = true ∧ s.recd.ringOk = true ∧ s.recd.next < s.reserve) ∧
    (let s := recording { frozen := true, hold := List.replicate 256 ⟨0, 0, 0, 0, 0, 0, []⟩ } true
     s.recd.frozen = true ∧ s.recd.hold.length = 256) ∧
    (let s := recording {} false
     s.recd.frozen = false ∧ s.canWrite = false ∧ s.recd.ram.length < 512 ∧ s.recd.next + 1 < s.reserve) := by
  refine ⟨rfl, ⟨orderly rfl, rfl, rfl, rfl, by decide, rfl, rfl, rfl, rfl⟩, ⟨rfl, rfl, by decide⟩,
    ⟨rfl, List.length_replicate⟩, rfl, rfl, by decide, by decide⟩

theorem wit_ThawClearRetryAndStore :
    Asks (ask up Op.recThaw []) 0 .recThaw ∧
    (Asks (ask up Op.recClear [0, 0, 0, 0, 0, 0]) 0 (.recClear 0) ∧ up.recd.batch = none ∧ up.recd.keptReserve = none ∧
      0 < (recording { next := 1 } true).recd.next ∧ up.recLast < 1) ∧
    (let s := recording { frozen := true } true
     s.recd.frozen = true ∧ s.recd.freezeEnd ≤ s.now) ∧
    (let s := recording { frozen := true, freezeEnd := 1 } true
     s.now < s.recd.freezeEnd) ∧
    (let s := recording { mediaFault := true, ram := [⟨0, 0, 0, 0, 0, 0, []⟩] } true
     Orderly s ∧ s.recd.mediaFault = true ∧ s.canWrite = true ∧ s.recd.ram ≠ []) ∧
    (let s := recording { snapNext := 7, due := [⟨[]⟩], waiting := some ⟨[]⟩ } true
     s.recd.snapNext = (7 : Fin 8).val ∧ s.recd.due = ⟨[]⟩ :: [] ∧ s.recd.waiting = some ⟨[]⟩ ∧ s.canWrite = true) ∧
    (recording { snapNext := 7, due := [⟨[]⟩] } false).canWrite = false := by
  refine ⟨rfl, ⟨rfl, rfl, rfl, by decide, by decide⟩, ⟨rfl, by decide⟩, by decide, ⟨orderly rfl, rfl, rfl, by decide⟩,
    ⟨rfl, rfl, rfl, rfl⟩, rfl⟩

theorem wit_WarningsOnlyReport :
    (let s := guarded 8 { uvwRun := 255, ovwRun := 255 }
     Orderly s ∧ s.framesRun = true ∧ bit (s.obj Ob.clsRail 15 Ob.Rail.protCtrl) 3 = true ∧ (s.rail 15).prot.uvw = false ∧
       s.levelQual 15 .uvWarn ≤ 255 ∧ (s.rail 15).prot.ovw = false ∧ s.levelQual 15 .ovWarn ≤ 255) ∧
    (let s := guarded 0 { uvw := true, ovw := true, uvwRun := 255, ovwRun := 255 }
     bit (s.obj Ob.clsRail 15 Ob.Rail.protCtrl) 3 = false ∧ (s.rail 15).prot.uvw = true ∧ (s.rail 15).prot.ovw = true) := by
  refine ⟨⟨orderly rfl, rfl, rfl, rfl, by decide, rfl, by decide⟩, rfl, rfl, rfl⟩

/-- Rail 15 runs on engine 3, which the debug port may halt. -/
def debugged (halted : Bool) : State :=
  let s := (reg.setObj Ob.clsRail 15 Ob.Rail.engine 3).setObj Ob.clsDev 0 Ob.Dev.dbgPermit 1
  { s with dev := { s.dev with dbgen := true, halted := s.dev.halted.set 3 halted } }

theorem wit_DebugPortHaltsEngines :
    Orderly (debugged false) ∧ up.obj Ob.clsDev 0 Ob.Dev.dbgPermit = 0 ∧ (debugged false).dev.dbgen = true ∧
    (debugged false).obj Ob.clsDev 0 Ob.Dev.dbgPermit ≠ 0 ∧ (debugged false).dev.halted.get 3 = false ∧
    (debugged false).framesRun = true ∧ (debugged false).railEn 15 = true ∧ (debugged false).railN 15 Ob.Rail.engine = 3 ∧
    (debugged false).phaseRail 47 = some 15 ∧ Orderly (debugged true) ∧ (debugged true).dev.halted.get 3 = true := by
  refine ⟨orderly rfl, rfl, rfl, by decide, rfl, rfl, rfl, rfl, rfl, orderly rfl, rfl⟩

/-- The die sensors have been within their limits since frame 0, long ago. -/
def armGood : State := late { up with nvm := { up.nvm with armGood := some 0, deferArmed := true } }

theorem wit_DeferArmedFollowsTheSensors :
    up.framesRun = true ∧ up.teleStale = false ∧ bit ((up.setObj Ob.clsTemp 7 Ob.Temp.ctrl 1).obj Ob.clsTemp 7 Ob.Temp.ctrl) 0 = true ∧
    up.nvm.window = true ∧ (∀ j : TempIx, j.val < 8 → j ≠ 7 → -2200 ≤ (up.temp j).value ∧ (up.temp j).value ≤ 11200) ∧
    armGood.framesRun = true ∧ armGood.nvm.armGood = some 0 ∧ 0 + 20000000 ≤ armGood.now ∧ armGood.nvm.queue = [] ∧
    (∀ g, up.nvm.armGood = some g → up.now < g + 20000000) ∧
    ({ up with nvm := { up.nvm with queue := [.fuses []] } } : State).nvm.queue ≠ [] := by
  refine ⟨rfl, rfl, rfl, rfl, by decide, rfl, rfl, by decide, rfl, ?_, by decide⟩
  exact fun g h => nomatch (show (none : Option Nat) = some g from h)

theorem wit_HoldOffDelaysArming :
    (let s := paired { role := .standby, holdoffEnd := some 1, linkUp := true }
     s.twin.role ≠ .solo ∧ s.linkSilent = false ∧ s.framesRun = true ∧ s.twin.role = .standby ∧ s.twin.armed = false ∧
       s.twin.holdoffEnd ≠ none ∧ s.now < 1 ∧ s.twin.linkUp = true ∧ (∃ w, s.viewTwin Ob.Twin.stat = some w) ∧
       exec .actLineFault s = .next s) ∧
    (paired { role := .standby, holdoffEnd := some 0 }).twin.holdoffEnd = some 0 := by
  refine ⟨⟨by decide, rfl, rfl, rfl, rfl, by decide, by decide, rfl, ⟨_, rfl⟩, rfl⟩, rfl⟩

/-! Single steps and operations, with the results that the manual's examples or its rules give -/

/-- An idle block stays as it is (log entry 3). -/
theorem test_idle : step State.reset = .next State.reset := rfl

/-- R310: bits of one DOORBELL post their slots in ascending order. -/
theorem test_doorbell_order : (match exec (.doorbell 0b1010) up with | .next t => t.mb.order | _ => []) = [1, 3] := rfl

/-- R308: a RELEASE of a FREE slot sets ISTAT.HOST_ERR (bit 13) alone. -/
theorem test_release_free : (match exec (.release 1) up with | .next t => t.mb.istat | _ => 0) = 0x2000 := by decide

/-- R311: HELLO with major 0 is answered VERSION. -/
theorem test_hello_zero : (match exec (.hello 0 0 4 1) (ask up Op.hello [0, 4, 1, 0]) with
    | .next t => (t.slot 0).reply | _ => none) = some ⟨St.version, []⟩ := rfl

/-- R311: a HELLO of 2.9 agrees on 2.4. -/
theorem test_hello_minor : (match exec (.hello 0 2 9 1) (ask up Op.hello [2, 9, 1, 0]) with
    | .next t => (t.mb.mp, t.mb.minor) | _ => (0, 0)) = (2, 4) := rfl

/-- R322: no frame edge occurs in BOOT. -/
theorem test_frameEdge_boot (i : FrameIn) : exec (.frameEdge i) State.reset = .next State.reset := rfl

/-- R320: RESET_N resets with cause 1. -/
theorem test_resetN : (match exec .resetN up with | .next t => (t.dev.dstate, t.dev.cause) | _ => (.run, 0)) = (.boot, 1) := rfl

/-- Example 8.1: the CRC of a VREQ frame, and the receiver's judgement of its nine characters. -/
theorem test_crc16_example_8_1 : crc16 [0x13, 0x04, 0xA0, 0x8C, 0x01, 0x5A] = 0x3FB1 := by decide +kernel

theorem test_rx_example_8_1 :
    State.rxAfterSync ([0x13, 0x04, 0xA0, 0x8C, 0x01, 0x5A, 0x3F, 0xB1].map fun b => ⟨b, false, 0⟩)
      = .frame 0x13 [0xA0, 0x8C, 0x01, 0x5A] [] := by decide +kernel

/-- The check value of CRC-32 (IEEE 802.3) over the digits 1 … 9. -/
theorem test_crc32_check : crc32 [0x31, 0x32, 0x33, 0x34, 0x35, 0x36, 0x37, 0x38, 0x39] = 0xCBF43926 := by decide +kernel

/-- FIPS 180-4: the first bytes of SHA-256 of "abc". -/
theorem test_sha256_abc : (sha256 [0x61, 0x62, 0x63]).take 4 = [0xBA, 0x78, 0x16, 0xBF] := by decide +kernel

/-- Example 3.1: the on-time of a COMP phase and its high-side edges. -/
theorem test_edges_example_3_1 :
    onTime 0x3000 32000 = 6000 ∧ riseOf 32000 6000 = 13000 ∧ fallOf 32000 6000 = 19000 := by decide +kernel

/-- Example 3.2: DROP_CARRY drops at 250 and 500 ticks and issues 750; HEM gives 640. -/
theorem test_pulse_example_3_2 :
    (pulseOf false 0x500 12800 0 640 640 12800).carry = 250 ∧ (pulseOf false 0x500 12800 250 640 640 12800).carry = 500 ∧
    (pulseOf false 0x500 12800 500 640 640 12800).te = 750 ∧ (pulseOf true 0x500 12800 0 640 640 12800).te = 640 := by
  decide +kernel

/-- Example 3.4, period 8: the third clean period in a row takes one trip from the count. -/
theorem test_leak_example_3_4 :
    (match exec (.cleanRunLeak 9) ((up.setObj Ob.clsPhase 9 Ob.Phase.tripLeak 3).modGen 9 fun g =>
      { g with tripCount := 3, cleanRun := 3 }) with
     | .next t => ((t.phase 9).gen.tripCount, (t.phase 9).gen.cleanRun) | _ => (0, 9)) = (2, 0) := by decide

/-- Example 5.1: 79.5 mV is not above 80 mV, 84.1 mV is; both on an armed rail with BAND_QUAL = 1. -/
theorem test_regime_example_5_1 :
    (regimeStep true 1 (80 / 1000) (30 / 1000) (795 / 10000) { armed := true }).regime = .linear ∧
    (regimeStep true 1 (80 / 1000) (30 / 1000) (841 / 10000) { armed := true }).regime = .slamUp := by decide +kernel

/-- Example 5.2: the shares of three rails before and after the second door starts. -/
theorem test_shares_example_5_2 :
    State.sharesOf 2250 [(4, 1600), (4, 400), (1, 160)] = [1550, 1000, 250] ∧
    State.sharesOf 2250 [(4, 1600), (4, 900), (1, 160)] = [1025, 1025, 250] := by decide +kernel

/-- Example 6.1: the first of the 100 frames of jerk, with a = J t and v = J t² / 2 after 0.5 µs. -/
theorem test_profile_first_frame :
    (planFrame ⟨24000, 0, 0⟩ 36000 2000 20000 400000).a = 200 ∧
    (planFrame ⟨24000, 0, 0⟩ 36000 2000 20000 400000).v = fineQ (1 / 20) := by decide +kernel

/-- Example 6.2: what bin 35 learns over three strokes. -/
theorem test_learn_example_6_2 :
    learnBin (0x0CCD / 65536) (0xFF00 / 65536) 0x0CCD 0 (40 / 1000) = 131 ∧
    learnBin (0x0CCD / 65536) (0xFF00 / 65536) 0x0CCD 131 (22 / 1000) = 203 ∧
    learnBin (0x0CCD / 65536) (0xFF00 / 65536) 0x0CCD 203 (9 / 1000) = 232 := by decide +kernel

/-- Example 10.1: comparator 5 on phase 24; the threshold at the rising edge, and after the ramp of a 222.2 ns pulse. -/
theorem test_threshold_example_10_1 :
    let s := (((up.setObj Ob.clsCmp 5 Ob.Cmp.dac 555).setObj Ob.clsCmp 5 Ob.Cmp.ramp 0x8078).setObj Ob.clsCmp 5 Ob.Cmp.refph 24).modGen
      24 fun g => { g with rise := some 0, thisPeriod := 12800 }
    s.cmpThreshold 5 0 = 1300781 + 1 / 4 ∧ 1294110 < s.cmpThreshold 5 2844 ∧ s.cmpThreshold 5 2844 < 1294120 := by
  decide +kernel

/-- R179: a STROKE of KIND 2 is discarded and counts a format error, not a valid frame. -/
theorem test_stroke_badKind :
    let t := (linked { pstate := .wl2 }).rxStroke 31 ⟨0, 2, 0, 0⟩
    t.obj Ob.clsPort 31 Ob.Port.formatErrors = 1 ∧ t.obj Ob.clsPort 31 Ob.Port.rxFrames = 0 := by decide +kernel

/-- R76: a level trips at the end of blanking, tick 740 here, where it stood by then, and not where it asserted after it. -/
theorem test_level_trip_after_blanking :
    let s (at' : Nat) : State :=
      { (((reg.setObj Ob.clsPhase 47 Ob.Phase.tripsel 0x80000000).setObj Ob.clsPhase 47 Ob.Phase.blank 640).modGen 47 fun g =>
          { g with rise := some 100, fall := some 2000 }).modCmp 31 fun c => { c with out := true, outAt := at' } with now := 1 }
    (((s 740).levelTrip 47).phase 47).gen.fall = some 740 ∧ (((s 741).levelTrip 47).phase 47).gen.fall = some 2000 := by
  decide +kernel

/-- Example 13.1: 400 W through a 1 mΩ shunt and a 37.5 : 1 divider at 40 V. -/
theorem test_power_example_13_1 :
    (meterCalc { shunt := 1000, div := 629145600, creep := 0 } 10000000 1066666).p = 400 - 1 / 4000 ∧
    (400 : Rat) * 420 / 3600 * 1000000 < 46666667 := by decide +kernel

/-- Example 15.1: the payload of SET_GROUP as the host writes it, and the codes of its response. -/
theorem test_group_example_15_1 :
    parseReq 6 [3, 0x20, 0x02, 0x14, 0, 0xDC, 0x05, 0, 0, 0x10, 0x0A, 0x02, 0, 0, 0x40, 0, 0, 0x20, 0x02, 0x1A, 0, 0x90, 0x01, 0, 0]
      = some (.setGroup [⟨⟨0x20, 2, Ob.Rail.rateMax⟩, 1500⟩, ⟨⟨0x10, 10, Ob.Phase.offset⟩, 0x4000⟩, ⟨⟨0x20, 2, Ob.Rail.settle⟩, 400⟩]) ∧
    State.codesPayload [St.ok, St.state, St.ok] = [3, 0x00, 0x14, 0x00] := ⟨rfl, rfl⟩

/-- Example 1.1: eleven phases, a pattern, live tuning, injection and skimming cost 81 cycles, 86 with spread spectrum. -/
theorem test_cost_example_1_1 :
    let st := ((List.finRange 11).foldl (fun (st : Store) n => st.setVal Ob.clsPhase n.val Ob.Phase.rail 2) [])
    let st := (((st.setVal Ob.clsRail 2 Ob.Rail.ffCtrl 2).setVal Ob.clsRail 2 Ob.Rail.tuneCtrl 3).setVal Ob.clsRail 2
      Ob.Rail.plcCtrl 4).setVal Ob.clsRail 2 Ob.Rail.cfg 1
    st.railCost 2 = 81 ∧ st.budget 0 = 101 ∧
      ((st.setVal Ob.clsClk 0 Ob.Clk.sscRails 4).setVal Ob.clsClk 0 Ob.Clk.sscCtrl 1).railCost 2 = 86 := by decide +kernel

end Sys2Proof.Tests
end

section
/-! The object store (00_scope R8, R10): what a write of one object leaves of the others. -/

namespace Sys2Proof.Machine

/-- The frame of a write to the object store, which must be canonical for the search of a key to reach its entry. -/
theorem State.objsBut_setObj {s : State} (h : StoreOk s.objs) (cls inst item : Nat) (v : Word) :
    ObjsBut [(cls, inst, item)] s (s.setObj cls inst item v) := by
  intro c i k hkey
  have hne : objKey c i k ≠ objKey cls inst item := hkey (cls, inst, item) (List.mem_singleton_self _)
  exact State.obj_setObj_ne h cls inst item c i k v hne

/-- Settles O6: reading the key just written gives the value (`State.obj_setObj_self`), and every object with another key
stands (`State.objsBut_setObj`); both need only that the store of an orderly state is canonical. -/
theorem objectsReadBack : Obligations.ObjectsReadBack := by
  intro s cls inst item v hs
  exact ⟨State.obj_setObj_self hs.store cls inst item v, State.objsBut_setObj hs.store cls inst item v⟩

end Sys2Proof.Machine
end

section
/-! Mailbox commands that answer at once, and the GETs among them (00_scope R9, R10; R308): what the state after such a
command is. -/

namespace Sys2Proof.Machine

/-- A slot asks for a request where it holds that request under some key. -/
theorem asks_iff {s : State} {k : SlotIx} {r : Req} : Asks s k r ↔ ∃ key, s.request k = some (r, key) := by
  simp [Asks]

theorem State.onRequest_of_request {s : State} {k : SlotIx} {r : Req} {key : Option Nat}
    (h : s.request k = some (r, key)) (f : Option Nat → State) : s.onRequest k r f = f key := by
  simp [State.onRequest, h]

/-- The place of a vector just written. -/
theorem vset_get_self {α : Type} {n : Nat} (v : Vector α n) (i : Fin n) (x : α) : (vset v i x).get i = x :=
  (vset_get v i i x).trans (if_pos rfl)

/-- The objects that a state holds are those of its store. -/
theorem State.obj_of_objs {s t : State} (h : t.objs = s.objs) (c i k : Nat) : t.obj c i k = s.obj c i k :=
  congrArg (fun st : Store => st.val c i k) h

/-- An effect that a command has may be weakened. -/
theorem completes_mono {c : Instr} {s : State} {p q : State → Prop} (h : Completes c s p) (hpq : ∀ t, p t → q t) :
    Completes c s q := by
  obtain ⟨t, hexec, hp⟩ := h
  exact ⟨t, hexec, hpq t hp⟩

theorem answers_finish (s : State) (k : SlotIx) (status : Nat) (payload : List Byte) :
    Answers (s.finish k status payload) k status payload := by
  simp [Answers]

/-- A command that ends after an update outside the mailbox changes one slot of the mailbox. -/
theorem mbButSlot_finish {s u : State} (hmb : u.mb = s.mb) (k : SlotIx) (status : Nat) (payload : List Byte) :
    MbButSlot k s (u.finish k status payload) := by
  refine ⟨?_, fun j hj => ?_⟩
  · rw [← hmb]
    rfl
  · simp only [State.finish_eq, State.slot_modSlot, if_neg hj]
    exact congrArg (fun m : MbState => m.slots.get j) hmb

/-- A GET of an object that exists, by a row of the table whose command is that GET: the slot is answered with the value,
and nothing else changes but what the read itself does. -/
theorem completes_get {c : Instr} {s u : State} {k : SlotIx} {o : Obj} {v : Word} {ps : List Area}
    (hexec : exec c s = .next (s.onGet k o)) (hasks : Asks s k (.get o)) (hval : s.getValue o = some v)
    (hread : s.readEffect o = u) (hsame : SameBut ps s u) (hmb : Area.mb ∉ ps) :
    Completes c s fun t => Answers t k St.ok (wordBytes v) ∧ SameBut [.mb] u t ∧ MbButSlot k s t ∧
      SameBut (ps ++ [.mb]) s t := by
  obtain ⟨key, hreq⟩ := asks_iff.mp hasks
  have hget : s.onGet k o = u.finish k St.ok (wordBytes v) := by
    rw [State.onGet, State.onRequest_of_request hreq, State.doGet, State.readObj, hval, ← hread]
    rfl
  have hfin : SameBut [.mb] u (u.finish k St.ok (wordBytes v)) := State.finish_same ..
  have hps : SameBut (ps ++ [.mb]) s u := same_mono hsame fun _ => List.mem_append_left _
  exact ⟨_, hget ▸ hexec, answers_finish .., hfin, mbButSlot_finish (hsame.same .mb hmb) ..,
    same_step hps hfin fun _ => List.mem_append_right _⟩

/-- A read-only object that exists reads as its chapter computes it. -/
theorem State.getValue_of_view {s : State} {o : Obj} {row : Row} {n : Nat} (hrow : s.rowFor o = some row)
    (hacc : row.acc ≠ .wo) (hcls : o.cls ≠ Ob.clsRail) (hview : s.viewObj o = some n) :
    s.getValue o = some (BitVec.ofNat 32 n) := by
  simp [State.getValue, hrow, hacc, hcls, hview]

/-- n bytes spell a number modulo 256^n. -/
theorem leBytes_mod (n v : Nat) : leBytes n (v % 256 ^ n) = leBytes n v := by
  induction n generalizing v with
  | zero => rfl
  | succ n ih =>
    have hlow : BitVec.ofNat 8 (v % 256 ^ (n + 1)) = BitVec.ofNat 8 v := by
      apply BitVec.eq_of_toNat_eq
      simp only [BitVec.toNat_ofNat]
      exact Nat.mod_mod_of_dvd v (Dvd.intro_left (256 ^ n) rfl)
    have hhigh : v % 256 ^ (n + 1) / 256 = v / 256 % 256 ^ n := by
      rw [Nat.pow_succ', Nat.mod_mul_right_div_self]
    rw [leBytes, hlow, hhigh, ih, leBytes]

/-- The word of a low half answers with the number's own low bytes (R8). -/
theorem wordBytes_low (n : Nat) : wordBytes (BitVec.ofNat 32 (n % 4294967296)) = leBytes 4 n := by
  rw [wordBytes, BitVec.toNat_ofNat, Nat.mod_mod]
  exact leBytes_mod 4 n

/-- A GET of the low half of a number (R8): the answer is the number's own low bytes. -/
theorem completes_getLow {c : Instr} {s u : State} {k : SlotIx} {o : Obj} {n : Nat} {ps : List Area}
    (hexec : exec c s = .next (s.onGet k o)) (hasks : Asks s k (.get o))
    (hval : s.getValue o = some (BitVec.ofNat 32 (n % 4294967296)))
    (hread : s.readEffect o = u) (hsame : SameBut ps s u) (hmb : Area.mb ∉ ps) :
    Completes c s fun t => Answers t k St.ok (leBytes 4 n) ∧ SameBut [.mb] u t ∧ MbButSlot k s t ∧
      SameBut (ps ++ [.mb]) s t :=
  wordBytes_low n ▸ completes_get hexec hasks hval hread hsame hmb

end Sys2Proof.Machine
end

section
/-! Reads that latch (02 R52, 13 R266 and R279, 14 R299), reset a peak (01 R24) or advance an index (06 R143). -/

namespace Sys2Proof.Machine

/-! The rows of the objects that are read -/

/-- The points of a part with the meter have the rows of METER's points. -/
theorem State.rowFor_meter {s : State} (hpart : s.dev.part = .m) (i : PointIx) (item : Nat) :
    s.rowFor ⟨Ob.clsMeter, i.val, item⟩ = rowsMeter.find? fun row => row.item == item := by
  have hcount : i.val < instCount Ob.clsMeter := Nat.lt_succ_of_lt i.isLt
  have hpoint : rowsOf Ob.clsMeter i.val = rowsMeter := if_neg (Nat.ne_of_lt i.isLt)
  simp [State.rowFor, rowAt, hpart, hcount, hpoint]

theorem State.rowFor_rail (s : State) (r : RailIx) (item : Nat) :
    s.rowFor ⟨Ob.clsRail, r.val, item⟩ = rowsRail.find? fun row => row.item == item := by
  have hcount : r.val < instCount Ob.clsRail := r.isLt
  have hrows : rowsOf Ob.clsRail r.val = rowsRail := rfl
  simp [State.rowFor, rowAt, hcount, hrows]

/-! The values that the reads return -/

theorem State.getValue_meter {s : State} (hpart : s.dev.part = .m) (i : PointIx) {item n : Nat} {row : Row}
    (hrow : (rowsMeter.find? fun row => row.item == item) = some row) (hacc : row.acc ≠ .wo)
    (hview : s.viewMeter i.val item = some n) :
    s.getValue ⟨Ob.clsMeter, i.val, item⟩ = some (BitVec.ofNat 32 n) := by
  have hcls : Ob.clsMeter ≠ Ob.clsRail := by decide
  exact State.getValue_of_view ((State.rowFor_meter hpart i item).trans hrow) hacc hcls hview

theorem State.getValue_impLo {s : State} (hpart : s.dev.part = .m) (i : PointIx) :
    s.getValue ⟨Ob.clsMeter, i.val, Ob.Meter.impLo⟩ =
      some (BitVec.ofNat 32 ((s.meter.mirror.get i).imp % 4294967296)) :=
  State.getValue_meter hpart i rfl (by decide) (dif_pos i.isLt)

theorem State.getValue_expLo {s : State} (hpart : s.dev.part = .m) (i : PointIx) :
    s.getValue ⟨Ob.clsMeter, i.val, Ob.Meter.expLo⟩ =
      some (BitVec.ofNat 32 ((s.meter.mirror.get i).exp % 4294967296)) :=
  State.getValue_meter hpart i rfl (by decide) (dif_pos i.isLt)

theorem State.exists_getValue_meterStat {s : State} (hpart : s.dev.part = .m) (i : PointIx) :
    ∃ v, s.getValue ⟨Ob.clsMeter, i.val, Ob.Meter.stat⟩ = some v :=
  ⟨_, State.getValue_meter hpart i rfl (by decide) (dif_pos i.isLt)⟩

theorem State.exists_getValue_cebud (s : State) (e : EngineIx) :
    ∃ v, s.getValue ⟨Ob.clsDev, 0, Ob.Dev.cebud0 + e.val⟩ = some v := by
  fin_cases e <;> exact ⟨_, rfl⟩

theorem State.getValue_tblData (s : State) (r : RailIx) :
    s.getValue ⟨Ob.clsRail, r.val, Ob.Rail.tblData⟩ = some (s.tblRead r) := by
  obtain ⟨row, hfind, hacc⟩ : ∃ row, (rowsRail.find? fun row => row.item == Ob.Rail.tblData) = some row ∧ row.acc ≠ .wo :=
    ⟨_, rfl, by decide⟩
  have hrow := (State.rowFor_rail s r Ob.Rail.tblData).trans hfind
  simp [State.getValue, hrow, hacc]

/-! What the reads do -/

theorem State.readEffect_impLo (s : State) (i : PointIx) :
    s.readEffect ⟨Ob.clsMeter, i.val, Ob.Meter.impLo⟩ = s.latchEnergy i .imp := dif_pos i.isLt

theorem State.readEffect_expLo (s : State) (i : PointIx) :
    s.readEffect ⟨Ob.clsMeter, i.val, Ob.Meter.expLo⟩ = s.latchEnergy i .exp := dif_pos i.isLt

theorem State.readEffect_meterStat (s : State) (i : PointIx) :
    s.readEffect ⟨Ob.clsMeter, i.val, Ob.Meter.stat⟩ = s.clearOver i := dif_pos i.isLt

theorem State.readEffect_cebud (s : State) (e : EngineIx) :
    s.readEffect ⟨Ob.clsDev, 0, Ob.Dev.cebud0 + e.val⟩ = s.clearPeak e := by
  fin_cases e <;> rfl

theorem State.readEffect_tblData (s : State) (r : RailIx) :
    s.readEffect ⟨Ob.clsRail, r.val, Ob.Rail.tblData⟩ = s.tblAdvance r := dif_pos r.isLt

/-! The table's index (06 R143) -/

/-- TABLE and INDEX of a TBL_SEL that is put together from them. -/
theorem bits_tblSel {t j : Nat} (ht : t < 4) (hj : j < 256) :
    bits (BitVec.ofNat 32 (256 * t + j)) 9 8 = t ∧ bits (BitVec.ofNat 32 (256 * t + j)) 7 0 = j := by
  simp only [bits, BitVec.toNat_ofNat, Nat.shiftRight_eq_div_pow]
  omega

theorem State.tblLen_bounds (t : Nat) : 0 < State.tblLen t ∧ State.tblLen t ≤ 256 := by
  unfold State.tblLen
  split <;> decide

theorem State.tblAdvance_sel {s : State} (h : StoreOk s.objs) (r : RailIx) :
    (s.tblAdvance r).tblTable r = s.tblTable r ∧
      (s.tblAdvance r).tblIndex r = (s.tblIndex r + 1) % State.tblLen (s.tblTable r) := by
  have ht : s.tblTable r < 4 := Nat.mod_lt _ (by decide)
  obtain ⟨hpos, hle⟩ := State.tblLen_bounds (s.tblTable r)
  have hj : (s.tblIndex r + 1) % State.tblLen (s.tblTable r) < 256 := Nat.lt_of_lt_of_le (Nat.mod_lt _ hpos) hle
  have hsel : (s.tblAdvance r).obj Ob.clsRail r.val Ob.Rail.tblSel = _ := State.obj_setObj_self h ..
  rw [State.tblTable, State.tblIndex, hsel]
  exact bits_tblSel ht hj

/-! The reads -/

theorem frameLoRead_latches {s : State} {k : SlotIx} (h : Asks s k (.get ⟨Ob.clsClk, 0, Ob.Clk.frameLo⟩)) :
    Completes (.frameLoRead k) s fun t =>
      Answers t k St.ok (leBytes 4 s.clk.frame) ∧ t.clk = { s.clk with frameHi := s.clk.frame / 4294967296 } ∧
        MbButSlot k s t ∧ SameBut [.clk, .mb] s t := by
  refine completes_mono (completes_getLow rfl h rfl rfl (State.latchFrame_same s) (by decide)) ?_
  rintro t ⟨hans, heff, hmb, hsame⟩
  exact ⟨hans, heff.same .clk (by decide), hmb, hsame⟩

theorem secLoRead_latches {s : State} {k : SlotIx} (h : Asks s k (.get ⟨Ob.clsTime, 0, Ob.Time.secLo⟩)) :
    Completes (.secLoRead k) s fun t =>
      Answers t k St.ok (leBytes 4 s.time.sec) ∧
        t.time = { s.time with secHi := s.time.sec / 4294967296, nsLatch := s.time.ns.floor.toNat } ∧
        MbButSlot k s t ∧ SameBut [.time, .mb] s t := by
  refine completes_mono (completes_getLow rfl h rfl rfl (State.latchSec_same s) (by decide)) ?_
  rintro t ⟨hans, heff, hmb, hsame⟩
  exact ⟨hans, heff.same .time (by decide), hmb, hsame⟩

theorem recFirstLoRead_latches {s : State} {k : SlotIx} (h : Asks s k (.get ⟨Ob.clsRec, 0, Ob.Rec.firstLo⟩)) :
    Completes (.recFirstLastLoRead k .first) s fun t =>
      Answers t k St.ok (leBytes 4 s.recFirst) ∧ t.recd = { s.recd with firstHi := s.recFirst / 4294967296 } ∧
        MbButSlot k s t ∧ SameBut [.recd, .mb] s t := by
  refine completes_mono (completes_getLow rfl h rfl rfl (State.latchRec_same s .first) (by decide)) ?_
  rintro t ⟨hans, heff, hmb, hsame⟩
  exact ⟨hans, heff.same .recd (by decide), hmb, hsame⟩

theorem recLastLoRead_latches {s : State} {k : SlotIx} (h : Asks s k (.get ⟨Ob.clsRec, 0, Ob.Rec.lastLo⟩)) :
    Completes (.recFirstLastLoRead k .last) s fun t =>
      Answers t k St.ok (leBytes 4 s.recLast) ∧ t.recd = { s.recd with lastHi := s.recLast / 4294967296 } ∧
        MbButSlot k s t ∧ SameBut [.recd, .mb] s t := by
  refine completes_mono (completes_getLow rfl h rfl rfl (State.latchRec_same s .last) (by decide)) ?_
  rintro t ⟨hans, heff, hmb, hsame⟩
  exact ⟨hans, heff.same .recd (by decide), hmb, hsame⟩

theorem meterImpLoRead_latches {s : State} {k : SlotIx} {i : PointIx} (hpart : s.dev.part = .m)
    (h : Asks s k (.get ⟨Ob.clsMeter, i.val, Ob.Meter.impLo⟩)) :
    Completes (.meterLoRead k i .imp) s fun t =>
      Answers t k St.ok (leBytes 4 (s.meter.mirror.get i).imp) ∧
        t.meter.impHi.get i = (s.meter.mirror.get i).imp / 4294967296 ∧ t.meter = { s.meter with impHi := t.meter.impHi } ∧
        MbButSlot k s t ∧ SameBut [.meter, .mb] s t := by
  refine completes_mono (completes_getLow rfl h (State.getValue_impLo hpart i) (State.readEffect_impLo s i)
    (State.latchEnergy_same s i .imp) (by decide)) ?_
  rintro t ⟨hans, heff, hmb, hsame⟩
  have hmeter : t.meter = (s.latchEnergy i .imp).meter := heff.same .meter (by decide)
  rw [hmeter]
  exact ⟨hans, vset_get_self .., rfl, hmb, hsame⟩

theorem meterExpLoRead_latches {s : State} {k : SlotIx} {i : PointIx} (hpart : s.dev.part = .m)
    (h : Asks s k (.get ⟨Ob.clsMeter, i.val, Ob.Meter.expLo⟩)) :
    Completes (.meterLoRead k i .exp) s fun t =>
      Answers t k St.ok (leBytes 4 (s.meter.mirror.get i).exp) ∧
        t.meter.expHi.get i = (s.meter.mirror.get i).exp / 4294967296 ∧ t.meter = { s.meter with expHi := t.meter.expHi } ∧
        MbButSlot k s t ∧ SameBut [.meter, .mb] s t := by
  refine completes_mono (completes_getLow rfl h (State.getValue_expLo hpart i) (State.readEffect_expLo s i)
    (State.latchEnergy_same s i .exp) (by decide)) ?_
  rintro t ⟨hans, heff, hmb, hsame⟩
  have hmeter : t.meter = (s.latchEnergy i .exp).meter := heff.same .meter (by decide)
  rw [hmeter]
  exact ⟨hans, vset_get_self .., rfl, hmb, hsame⟩

theorem meterStatRead_clears {s : State} {k : SlotIx} {i : PointIx} (hpart : s.dev.part = .m)
    (h : Asks s k (.get ⟨Ob.clsMeter, i.val, Ob.Meter.stat⟩)) :
    Completes (.meterStatRead k i) s fun t => (t.meter.points.get i).clipped = false ∧ i.val ∉ t.meter.overMirror ∧
      (∀ j, j ≠ i → t.meter.points.get j = s.meter.points.get j) ∧ MbButSlot k s t ∧ SameBut [.meter, .mb] s t := by
  obtain ⟨v, hval⟩ := State.exists_getValue_meterStat hpart i
  refine completes_mono (completes_get rfl h hval (State.readEffect_meterStat s i) (State.clearOver_same s i) (by decide)) ?_
  rintro t ⟨-, heff, hmb, hsame⟩
  have hmeter : t.meter = (s.clearOver i).meter := heff.same .meter (by decide)
  rw [hmeter]
  refine ⟨?_, ?_, fun j hj => ?_, hmb, hsame⟩
  · simp [State.clearOver, vmod_get]
  · simp [State.clearOver]
  · simp [State.clearOver, vmod_get, hj]

theorem cebudRead_clears {s : State} {k : SlotIx} {e : EngineIx}
    (h : Asks s k (.get ⟨Ob.clsDev, 0, Ob.Dev.cebud0 + e.val⟩)) :
    Completes (.cebudRead k e) s fun t =>
      t.dev.cePeak.get e = 0 ∧ (∀ g, g ≠ e → t.dev.cePeak.get g = s.dev.cePeak.get g) ∧
        t.dev = { s.dev with cePeak := t.dev.cePeak } ∧ MbButSlot k s t ∧ SameBut [.dev, .mb] s t := by
  obtain ⟨v, hval⟩ := State.exists_getValue_cebud s e
  refine completes_mono (completes_get rfl h hval (State.readEffect_cebud s e) (State.clearPeak_same s e) (by decide)) ?_
  rintro t ⟨-, heff, hmb, hsame⟩
  have hdev : t.dev = (s.clearPeak e).dev := heff.same .dev (by decide)
  rw [hdev]
  exact ⟨vset_get_self .., fun g hg => (vset_get ..).trans (if_neg hg), rfl, hmb, hsame⟩

theorem tblDataRead_advances {s : State} {k : SlotIx} {r : RailIx} (hs : Orderly s)
    (h : Asks s k (.get ⟨Ob.clsRail, r.val, Ob.Rail.tblData⟩)) :
    Completes (.tblDataAccess k r .read) s fun t => Answers t k St.ok (wordBytes (s.tblRead r)) ∧
      t.tblTable r = s.tblTable r ∧ t.tblIndex r = (s.tblIndex r + 1) % State.tblLen (s.tblTable r) ∧
      ObjsBut [(Ob.clsRail, r.val, Ob.Rail.tblSel)] s t ∧ MbButSlot k s t ∧ SameBut [.objs, .mb] s t := by
  refine completes_mono (completes_get rfl h (State.getValue_tblData s r) (State.readEffect_tblData s r)
    (State.tblAdvance_same s r) (by decide)) ?_
  rintro t ⟨hans, heff, hmb, hsame⟩
  have hobj : ∀ c i j, t.obj c i j = (s.tblAdvance r).obj c i j := State.obj_of_objs (heff.same .objs (by decide))
  obtain ⟨htable, hindex⟩ := State.tblAdvance_sel hs.store r
  refine ⟨hans, ?_, ?_, fun c i j hkey => ?_, hmb, hsame⟩
  · rw [State.tblTable, hobj]
    exact htable
  · rw [State.tblIndex, hobj]
    exact hindex
  · exact (hobj c i j).trans (State.objsBut_setObj hs.store _ _ _ _ c i j hkey)

/-- Settles O16: each row of the table is a GET of its object, so `completes_get` gives the answer and the frame, and what
is left is the effect of that one read. -/
theorem readsThatLatch : Obligations.ReadsThatLatch := fun _ _ =>
  ⟨frameLoRead_latches, secLoRead_latches, recFirstLoRead_latches, recLastLoRead_latches,
    fun _ => meterImpLoRead_latches, fun _ => meterExpLoRead_latches, fun _ => meterStatRead_clears,
    fun _ => cebudRead_clears, fun _ => tblDataRead_advances⟩

end Sys2Proof.Machine
end

section
/-! The meter's events (01 R25, 13 R267 and R274 to R276): what an audit record and the end of a session change, and the
commands of a partition that runs. -/

namespace Sys2Proof.Machine

/-! Audit records and the end of a session (13 R276, R278) -/

/-- An audit record changes nothing of the meter but the log. -/
theorem State.meter_auditAdd (s : State) (interval kind point old new : Nat) :
    (s.auditAdd interval kind point old new).meter =
      { s.meter with audit := (s.auditAdd interval kind point old new).meter.audit } := by
  unfold State.auditAdd
  rw [State.meter_modMeter]
  split <;> rfl

/-- While the log has room, an audit record goes to its end. -/
theorem State.audit_auditAdd {s : State} (h : s.meter.audit.length < 2048) (interval kind point old new : Nat) :
    (s.auditAdd interval kind point old new).meter.audit =
      s.meter.audit ++ [⟨s.meter.audit.length, s.meter.sealCount, s.meter.time.sec, interval, kind, point, old, new⟩] := by
  rw [State.auditAdd, State.meter_modMeter, if_neg (Nat.not_le.mpr h)]

/-- The end of a session leaves of the meter all but the session, its staged writes and the log. -/
theorem State.meter_abandonSession (s : State) :
    s.abandonSession.meter = { s.meter with
      session := false
      staged := if s.meter.session then [] else s.meter.staged
      audit := s.abandonSession.meter.audit } := by
  cases hsession : s.meter.session
  case false =>
    have hstands : s.abandonSession = s := if_pos (by simp [hsession])
    rw [hstands, ← hsession, if_neg (by simp [hsession])]
  case true =>
    have hends : s.abandonSession.meter =
        { (s.auditAdd maxWord 0x82 255 0 s.meter.staged.length).meter with session := false, staged := [] } := by
      simp [State.abandonSession, hsession]
    rw [hends, State.meter_auditAdd, if_pos rfl]

/-- A write that failed in the spare region too leaves of the meter all but the media fault and the log. -/
theorem State.meter_meterMedia (s : State) :
    s.meterMedia.meter = { s.meter with media := true, audit := s.meterMedia.meter.audit } := by
  cases hmedia : s.meter.media
  case true =>
    have hstands : s.meterMedia = s := if_pos hmedia
    rw [hstands, ← hmedia]
  case false =>
    have hraised : s.meterMedia = (s.modMeter fun m => { m with media := true }).auditAdd maxWord 0x81 255 0 0 :=
      if_neg (by simp [hmedia])
    rw [hraised, State.meter_auditAdd, State.meter_modMeter]

/-! The mirror (13 R275) -/

/-- An enabled point shows its counters, a disabled one 0 (13 R266). -/
theorem State.mirrorOf_en {x : PointState} (h : x.par.en = true) :
    (State.mirrorOf x).imp = energyWord x.imp ∧ (State.mirrorOf x).exp = energyWord x.exp := by
  simp [State.mirrorOf, h]

theorem State.mirrorOf_off {x : PointState} (h : x.par.en = false) :
    (State.mirrorOf x).imp = 0 ∧ (State.mirrorOf x).pMw = 0 := by
  simp [State.mirrorOf, h]

theorem State.mirror_publish (s : State) (i : PointIx) :
    s.publish.meter.mirror.get i = State.mirrorOf (s.meter.points.get i) := by
  simp [State.publish, Vector.get_eq_getElem]

theorem State.imp_publish (s : State) (i : PointIx) :
    (s.publish.meter.points.get i).imp = (s.meter.points.get i).imp := by
  simp [State.publish, Vector.get_eq_getElem]

/-! The commands of a partition that runs -/

section
variable {s : State} (hrun : s.meterRuns = true)
include hrun

theorem meterSave_saves : Completes (.meterSave true) s fun t =>
    t.meter = { s.meter with saved := ⟨s.meter.points, s.meter.ivStart, s.meter.ivFlags, s.meter.ivUnsure,
      s.meter.time.seconds, false⟩ } ∧ SameBut [.meter] s t := by
  have hexec : exec (.meterSave true) s = .next (s.meterSaved false) := by
    show execMeterSave true s = _
    simp [execMeterSave, hrun]
  exact ⟨_, hexec, rfl, State.meterSaved_same ..⟩

theorem meterSave_failed : Completes (.meterSave false) s fun t => t.meter.media = true ∧
    t.meter.points = s.meter.points ∧ t.meter.saved = s.meter.saved ∧ SameBut [.meter] s t := by
  have hexec : exec (.meterSave false) s = .next s.meterMedia := by
    show execMeterSave false s = _
    simp [execMeterSave, hrun]
  have hmeter := State.meter_meterMedia s
  exact ⟨_, hexec, by rw [hmeter], by rw [hmeter], by rw [hmeter], State.meterMedia_same s⟩

theorem meterFwCheck_mismatch {crc : Word} (hfault : s.meter.fwFault = false) (hcrc : crc ≠ s.meter.fwCrc)
    (hroom : s.meter.audit.length < 2048) :
    Completes (.meterFwCheck crc) s fun t => t.meter.fwFault = true ∧ SameBut [.meter] s t ∧
      t.meter.audit = s.meter.audit ++ [⟨s.meter.audit.length, s.meter.sealCount, s.meter.time.sec, maxWord, 0x80, 255,
        s.meter.fwCrc.toNat, crc.toNat⟩] := by
  let u : State := s.modMeter fun m => { m with fwFault := true }
  have hexec : exec (.meterFwCheck crc) s =
      .next (u.auditAdd maxWord 0x80 255 s.meter.fwCrc.toNat crc.toNat) := by
    show execMeterFwCheck crc s = _
    simp [execMeterFwCheck, hrun, hfault, hcrc, u]
  exact ⟨_, hexec, congrArg MeterState.fwFault (State.meter_auditAdd u ..),
    same_step (State.modMeter_same ..) (State.auditAdd_same ..) fun _ h => h, State.audit_auditAdd (s := u) hroom ..⟩

theorem mirrorPublish_publishes : Completes .mirrorPublish s fun t =>
    t.meter.stale = false ∧ t.meter.mirrorAt = s.now ∧ SameBut [.meter] s t ∧
      ∀ i : PointIx, (t.meter.points.get i).imp = (s.meter.points.get i).imp ∧
        ((s.meter.points.get i).par.en = true → (t.meter.mirror.get i).imp = energyWord (s.meter.points.get i).imp ∧
          (t.meter.mirror.get i).exp = energyWord (s.meter.points.get i).exp) ∧
        ((s.meter.points.get i).par.en = false → (t.meter.mirror.get i).imp = 0 ∧ (t.meter.mirror.get i).pMw = 0) := by
  have hexec : exec .mirrorPublish s = .next s.publish := by
    show execMirrorPublish s = _
    simp [execMirrorPublish, hrun]
  refine ⟨_, hexec, rfl, rfl, State.publish_same s, fun i => ⟨State.imp_publish s i, fun hen => ?_, fun hoff => ?_⟩⟩
  · rw [State.mirror_publish]
    exact State.mirrorOf_en hen
  · rw [State.mirror_publish]
    exact State.mirrorOf_off hoff

theorem sealRelease_abandons : Completes .sealRelease s fun t =>
    t.dev = { s.dev with sealN := true } ∧ t.meter.sealLowSince = none ∧ t.meter.session = false ∧
      (s.meter.session = true → t.meter.staged = []) ∧ t.meter.points = s.meter.points ∧ SameBut [.meter, .dev] s t := by
  let u : State := { s with dev := { s.dev with sealN := true }, meter := { s.meter with sealLowSince := none } }
  have hexec : exec .sealRelease s = .next u.abandonSession := by
    show execSealRelease s = _
    simp [execSealRelease, hrun, State.modMeter, u]
  have hu : SameBut [.meter, .dev] s u := ⟨fun p hp => by cases p <;> simp [Area.Same, u] at hp ⊢⟩
  have hend : SameBut [.meter] u u.abandonSession := State.abandonSession_same u
  have hmeter := State.meter_abandonSession u
  have hstaged (hsession : s.meter.session = true) : u.abandonSession.meter.staged = [] :=
    (congrArg MeterState.staged hmeter).trans (if_pos hsession)
  exact ⟨_, hexec, hend.same .dev (by decide), by rw [hmeter], by rw [hmeter], hstaged, by rw [hmeter],
    same_step hu hend (by decide)⟩

theorem meterCoreWatchdog_stale : Completes .meterCoreWatchdog s fun t =>
    t.meter = { s.meter with stale := true } ∧ SameBut [.meter] s t := by
  have hexec : exec .meterCoreWatchdog s = .next (s.modMeter fun m => { m with stale := true }) := by
    show execMeterCoreWatchdog s = _
    simp [execMeterCoreWatchdog, hrun]
  exact ⟨_, hexec, rfl, State.modMeter_same ..⟩

end

theorem sessionTimeout_abandons {s : State} (hsession : s.meter.session = true) :
    Completes .sessionTimeout s fun t => SameBut [.meter] s t ∧
      if s.meter.sessionAt + 1200000000 ≤ s.now then t.meter.session = false ∧ t.meter.staged = [] else t = s := by
  by_cases hlate : s.meter.sessionAt + 1200000000 ≤ s.now
  · have hexec : exec .sessionTimeout s = .next s.abandonSession := by
      show execSessionTimeout s = _
      simp [execSessionTimeout, hsession, elapsed, sFrames, hlate]
    have hmeter := State.meter_abandonSession s
    have hstaged : s.abandonSession.meter.staged = [] := (congrArg MeterState.staged hmeter).trans (if_pos hsession)
    exact ⟨_, hexec, State.abandonSession_same s, (if_pos hlate).mpr ⟨by rw [hmeter], hstaged⟩⟩
  · have hexec : exec .sessionTimeout s = .next s := by
      show execSessionTimeout s = _
      simp [execSessionTimeout, elapsed, sFrames, hlate]
    exact ⟨s, hexec, same_refl .., (if_neg hlate).mpr rfl⟩

/-- Settles O29: one lemma per event; the frames are those of `State.meter_auditAdd` and `State.meter_abandonSession`. -/
theorem meterEvents : Obligations.MeterEvents := fun _ hrun =>
  ⟨meterSave_saves hrun, meterSave_failed hrun, fun _ => meterFwCheck_mismatch hrun, mirrorPublish_publishes hrun,
    sessionTimeout_abandons, sealRelease_abandons hrun, meterCoreWatchdog_stale hrun⟩

end Sys2Proof.Machine
end

section
/-! What a record leaves alone (14 R282 to R293): a relation that the parts of an event keep, the event keeps. -/

namespace Sys2Proof.Machine

/-- A relation that the parts of an event keep, its snapshots aside: changes of the recorder, of what waits for the partner
and of the saved state, and the recorder's two counters. -/
structure EventRel (R : State → State → Prop) : Prop where
  trans : ∀ {a b c}, R a b → R b c → R a c
  recorder : ∀ {s t}, SameBut [.twin, .recd, .nvm] s t → R s t
  lost : ∀ s n, R s (s.countLost n)
  fault : ∀ s : State, R s (s.count Ob.clsRec 0 Ob.Rec.writeFaults)

theorem rel_ite {R : State → State → Prop} {c : Prop} [Decidable c] {s a b : State} (ha : R s a) (hb : R s b) :
    R s (if c then a else b) := by
  split
  · exact ha
  · exact hb

theorem rel_forEach {R : State → State → Prop} (hrefl : ∀ s, R s s) (htrans : ∀ {a b c}, R a b → R b c → R a c)
    {α : Type} {l : List α} {f : State → α → State} (hf : ∀ a ∈ l, ∀ s, R s (f s a)) (s : State) :
    R s (forEach l f s) := by
  induction l generalizing s with
  | nil => exact hrefl s
  | cons a l ih =>
    exact htrans (hf a List.mem_cons_self s) (ih (fun b hb => hf b (List.mem_cons_of_mem _ hb)) _)

namespace EventRel

variable {R : State → State → Prop} (h : EventRel R)
include h

theorem refl (s : State) : R s s := h.recorder (same_refl ..)

theorem modRec (s : State) (f : RecState → RecState) : R s (s.modRec f) :=
  h.recorder (same_mono (State.modRec_same ..) (by decide))

theorem toTwin (s : State) (m : TwinMsg) : R s (s.toTwin m) := h.recorder (same_mono (State.toTwin_same ..) (by decide))

theorem pushRam (s : State) (r : Rec) : R s (s.pushRam r) := by
  unfold State.pushRam
  extract_lets armed
  have harmed : R s armed := h.recorder (same_mono (State.armRec_same s) (by decide))
  exact h.trans harmed (rel_ite (h.modRec ..) (h.trans (h.lost ..) (h.modRec ..)))

theorem loseReserve (s : State) : R s s.loseReserve := h.trans (h.lost ..) (h.modRec ..)

theorem mediaFault (s : State) (r : Rec) (n : Nat) : R s (s.mediaFault r n) := by
  unfold State.mediaFault
  extract_lets failed
  have hfailed : R s failed := h.modRec ..
  refine h.trans hfailed (rel_ite ?_ ?_)
  · exact h.trans (h.pushRam ..) (h.trans (h.modRec ..) (h.toTwin ..))
  · exact h.trans (h.modRec ..) (h.loseReserve ..)

theorem commitRec (s : State) (r : Rec) (n : Nat) : R s (s.commitRec r n) := by
  unfold State.commitRec
  extract_lets counted spared
  have hcounted : R s counted := h.fault s
  have hspared : R counted spared := rel_ite (h.modRec ..) (h.trans (h.fault ..) (h.pushRam ..))
  refine rel_ite (h.pushRam ..) (rel_ite ?_ ?_)
  · exact h.recorder (same_mono (State.pushRing_same ..) (by decide))
  · exact h.trans hcounted (h.trans hspared (h.mediaFault ..))

theorem place (s : State) (r : Rec) : R s (s.place r) := rel_ite (h.modRec ..) (h.commitRec ..)

theorem writeKeptReserve (s : State) : R s s.writeKeptReserve := by
  unfold State.writeKeptReserve
  split
  · exact h.refl s
  · extract_lets _ numbered
    have hnumbered : R s numbered := h.modRec ..
    exact rel_ite hnumbered (h.trans hnumbered (h.trans (h.modRec ..) (h.place ..)))

theorem emit {e : Ev} (hsnap : ∀ q ∈ e.snaps, ∀ s n, R s (s.takeSnap n e.code q.1 q.2)) (s : State) : R s (s.emit e) := by
  unfold State.emit
  extract_lets raised kept n flags _ snapped _ sent
  have hraised : R s raised := h.recorder (same_mono (State.raiseReserve_same s) (by decide))
  have hkept : R raised kept := h.writeKeptReserve ..
  have hsnapped : R kept snapped := rel_forEach h.refl h.trans (fun q hq s => hsnap q hq s n) kept
  have hsent : R snapped sent := rel_ite (h.toTwin ..) (h.refl _)
  refine h.trans hraised (rel_ite (h.loseReserve ..) (h.trans hkept (h.trans hsnapped (h.trans hsent (rel_ite ?_ ?_)))))
  · exact h.trans (h.lost ..) (h.modRec ..)
  · exact h.trans (h.modRec ..) (h.place ..)

theorem event {e : Ev} (hsnap : ∀ q ∈ e.snaps, ∀ s n, R s (s.takeSnap n e.code q.1 q.2)) (s : State) : R s (s.event e) := by
  unfold State.event
  split
  · exact h.modRec ..
  · exact h.emit hsnap s

theorem record (s : State) (code cls inst sub : Nat) (data : List Byte) : R s (s.record code cls inst sub data) :=
  h.event (by simp) s

end EventRel

/-- A record takes no snapshot, so it leaves every rail as it is. -/
theorem State.record_frame (s : State) (code cls inst sub : Nat) (data : List Byte) :
    SameBut [.objs, .twin, .recd, .nvm] s (s.record code cls inst sub data) := by
  have hrel : EventRel (SameBut [.objs, .twin, .recd, .nvm]) :=
    ⟨fun h h' => same_step h h' fun _ hp => hp, fun h => same_mono h (by decide),
      fun s n => same_mono (State.countLost_same s n) (by decide), fun s => same_mono (State.count_same s ..) (by decide)⟩
  exact hrel.record ..

@[simp] theorem State.rails_record (s : State) (code cls inst sub : Nat) (data : List Byte) :
    (s.record code cls inst sub data).rails = s.rails := (State.record_frame s ..).same .rails (by decide)

@[simp] theorem State.rail_record (s : State) (code cls inst sub : Nat) (data : List Byte) (r : RailIx) :
    (s.record code cls inst sub data).rail r = s.rail r := congrArg (Vector.get · r) (State.rails_record s ..)

@[simp] theorem State.phases_record (s : State) (code cls inst sub : Nat) (data : List Byte) :
    (s.record code cls inst sub data).phases = s.phases := (State.record_frame s ..).same .phases (by decide)

@[simp] theorem State.phase_record (s : State) (code cls inst sub : Nat) (data : List Byte) (n : PhaseIx) :
    (s.record code cls inst sub data).phase n = s.phase n := congrArg (Vector.get · n) (State.phases_record s ..)

@[simp] theorem State.clk_record (s : State) (code cls inst sub : Nat) (data : List Byte) :
    (s.record code cls inst sub data).clk = s.clk := (State.record_frame s ..).same .clk (by decide)

@[simp] theorem State.time_record (s : State) (code cls inst sub : Nat) (data : List Byte) :
    (s.record code cls inst sub data).time = s.time := (State.record_frame s ..).same .time (by decide)

@[simp] theorem State.now_record (s : State) (code cls inst sub : Nat) (data : List Byte) :
    (s.record code cls inst sub data).now = s.now := (State.record_frame s ..).same .now (by decide)

theorem logs_record {s : State} (u : State) (hrecd : u.recd = s.recd) (hnvm : u.nvm = s.nvm) (code cls inst sub : Nat)
    (data : List Byte) : Logs s (u.record code cls inst sub data) code cls inst sub data :=
  ⟨u, hrecd, hnvm, rfl⟩

/-! Objects that a run of counts leaves (14 R296) -/

/-- From s to t nothing is written to the object store but the named objects, and its canonical form stands. -/
structure WritesOnly (os : List (Nat × Nat × Nat)) (s t : State) : Prop where
  ok : StoreOk s.objs → StoreOk t.objs
  but : StoreOk s.objs → ObjsBut os s t

namespace WritesOnly

variable {os : List (Nat × Nat × Nat)} {a b c : State}

theorem of_objs (h : b.objs = a.objs) : WritesOnly os a b :=
  ⟨fun hok => h ▸ hok, fun _ _ _ _ _ => State.obj_of_objs h ..⟩

theorem trans (h : WritesOnly os a b) (h' : WritesOnly os b c) : WritesOnly os a c :=
  ⟨h'.ok ∘ h.ok, fun hok x i k hkey => (h'.but (h.ok hok) x i k hkey).trans (h.but hok x i k hkey)⟩

theorem mono {ps : List (Nat × Nat × Nat)} (h : WritesOnly ps a b) (hsub : ∀ o ∈ ps, o ∈ os) : WritesOnly os a b :=
  ⟨h.ok, fun hok x i k hkey => h.but hok x i k fun o ho => hkey o (hsub o ho)⟩

theorem setObj {cls inst item : Nat} (hmem : (cls, inst, item) ∈ os) (s : State) (v : Word) :
    WritesOnly os s (s.setObj cls inst item v) :=
  ⟨fun hok => Store.setVal_ok hok .., fun hok x i k hkey => State.objsBut_setObj hok _ _ _ v x i k fun o ho =>
    hkey o (List.mem_singleton.mp ho ▸ hmem)⟩

theorem obj_eq (h : WritesOnly os a b) (hok : StoreOk a.objs) {cls inst item : Nat}
    (hkey : ∀ o ∈ os, objKey cls inst item ≠ objKey o.1 o.2.1 o.2.2) : b.obj cls inst item = a.obj cls inst item :=
  h.but hok cls inst item hkey

end WritesOnly

/-- The two counters of the recorder (14 R283, R292), all that an event writes to the object store. -/
abbrev recKeys : List (Nat × Nat × Nat) := [(Ob.clsRec, 0, Ob.Rec.lost), (Ob.clsRec, 0, Ob.Rec.writeFaults)]

/-- A key names its object, where the second and the third part are bytes. -/
theorem objKey_inj {c i k c' i' k' : Nat} (hi : i < 256) (hk : k < 256) (hi' : i' < 256) (hk' : k' < 256)
    (h : objKey c i k = objKey c' i' k') : c = c' ∧ i = i' ∧ k = k' := by
  unfold objKey at h
  omega

theorem objKey_ne {c i k c' i' k' : Nat} (hi : i < 256) (hk : k < 256) (hi' : i' < 256) (hk' : k' < 256)
    (h : c ≠ c' ∨ k ≠ k') : objKey c i k ≠ objKey c' i' k' := fun heq =>
  h.elim (fun hc => hc (objKey_inj hi hk hi' hk' heq).1) fun hne => hne (objKey_inj hi hk hi' hk' heq).2.2

theorem recKeys_ne {c i k : Nat} (hc : c ≠ Ob.clsRec) (hi : i < 256) (hk : k < 256) :
    ∀ o ∈ recKeys, objKey c i k ≠ objKey o.1 o.2.1 o.2.2 := by
  have hbytes : ∀ o ∈ recKeys, o.1 = Ob.clsRec ∧ o.2.1 < 256 ∧ o.2.2 < 256 := by decide
  intro o ho heq
  obtain ⟨hcls, hinst, hitem⟩ := hbytes o ho
  exact objKey_ne hi hk hinst hitem (.inl (hcls ▸ hc)) heq

theorem eventRel_writesOnly : EventRel (WritesOnly recKeys) where
  trans := WritesOnly.trans
  recorder h := .of_objs (h.same .objs (by decide))
  lost s _ := .setObj (by decide) s _
  fault s := .setObj (by decide) s _

theorem State.record_writes (s : State) (code cls inst sub : Nat) (data : List Byte) :
    WritesOnly recKeys s (s.record code cls inst sub data) := eventRel_writesOnly.record ..

/-- An object's count stands through what writes other objects only. -/
theorem counts_of_writesOnly {s u t : State} {os : List (Nat × Nat × Nat)} {cls inst item : Nat} (hok : StoreOk u.objs)
    (hobj : u.obj cls inst item = s.obj cls inst item) (h : WritesOnly os (u.count cls inst item) t)
    (hkey : ∀ o ∈ os, objKey cls inst item ≠ objKey o.1 o.2.1 o.2.2) : Counts s t cls inst item := by
  have hcount : (u.count cls inst item).obj cls inst item = satWord ((u.obj cls inst item).toNat + 1) :=
    State.obj_setObj_self hok ..
  have hok' : StoreOk (u.count cls inst item).objs := Store.setVal_ok hok ..
  rw [Counts, h.obj_eq hok' hkey, hcount, hobj]

/-- An object's count and a record after it. -/
theorem counts_record {s u : State} {cls inst item : Nat} (hok : StoreOk u.objs)
    (hobj : u.obj cls inst item = s.obj cls inst item)
    (hkey : ∀ o ∈ recKeys, objKey cls inst item ≠ objKey o.1 o.2.1 o.2.2) (code c i sub : Nat) (data : List Byte) :
    Counts s ((u.count cls inst item).record code c i sub data) cls inst item :=
  counts_of_writesOnly hok hobj (State.record_writes ..) hkey

end Sys2Proof.Machine
end

section
/-! The synchronisation states (02 R41 to R45): one lemma per row of R42's table and per edge. -/

namespace Sys2Proof.Machine

section
variable {s : State}

theorem syncInEdge_missing (hrun : s.framesRun = true) : Completes (.syncInEdge none) s fun t =>
    t.clk.validRun = 0 ∧ t.clk.missRun = s.clk.missRun + 1 ∧ t.clk.sync = s.clk.sync ∧ SameBut [.clk] s t := by
  have hexec : exec (.syncInEdge none) s = .next (s.modClk fun c =>
      { c with validRun := 0, missRun := c.missRun + 1, present8 := pushHist 8 false c.present8 }) := by
    show execSyncInEdge none s = _
    simp [execSyncInEdge, hrun]
  exact ⟨_, hexec, rfl, rfl, rfl, State.modClk_same ..⟩

theorem syncInEdge_near {p : SyncPulse} (hrun : s.framesRun = true) (hlo : 475000 ≤ p.sincePs) (hhi : p.sincePs ≤ 525000) :
    Completes (.syncInEdge (some p)) s fun t => t.clk.validRun = s.clk.validRun + 1 ∧ t.clk.missRun = 0 ∧
      t.clk.markerNow = (s.clk.markerNow || decide (100 < p.widthNs)) ∧ t.clk.frame = s.clk.frame ∧ SameBut [.clk] s t := by
  have hexec : exec (.syncInEdge (some p)) s = .next (s.modClk fun c => { c with
      validRun := c.validRun + 1, missRun := 0, present8 := pushHist 8 true c.present8
      syncFreq := 500000 / (p.sincePs : Rat) - 1
      markerNow := c.markerNow || decide (100 < p.widthNs) }) := by
    show execSyncInEdge (some p) s = _
    simp [execSyncInEdge, hrun, hlo, hhi]
  exact ⟨_, hexec, rfl, rfl, rfl, rfl, State.modClk_same ..⟩

theorem syncAcquire_acquires (hrun : s.framesRun = true) (hen : s.syncEn = true) (hvalid : 8 ≤ s.clk.validRun)
    (hfrom : s.clk.sync = .own ∨ s.clk.sync = .holdover ∨ s.clk.sync = .returning) : Completes .syncAcquire s fun t =>
      t.clk = { s.clk with sync := .acquiring, lockFrames := 0, holdoverEnd := none, missRun := 0 } ∧
        SameBut [.clk] s t := by
  have hexec : exec .syncAcquire s = .next (s.modClk fun c =>
      { c with sync := .acquiring, lockFrames := 0, holdoverEnd := none, missRun := 0 }) := by
    show execSyncAcquire s = _
    simp [execSyncAcquire, hrun, hen, hvalid, or_assoc, hfrom]
  exact ⟨_, hexec, rfl, State.modClk_same ..⟩

theorem syncLock_locks (hfrom : s.clk.sync = .acquiring) (hframes : 64 ≤ s.clk.lockFrames) :
    Completes .syncLock s fun t => t.clk = { s.clk with sync := .locked } ∧ SameBut [.clk] s t := by
  have hexec : exec .syncLock s = .next (s.modClk fun c => { c with sync := .locked }) := by
    show execSyncLock s = _
    simp [execSyncLock, hfrom, hframes]
  exact ⟨_, hexec, rfl, State.modClk_same ..⟩

theorem syncLoss_holds (hfrom : s.clk.sync = .acquiring ∨ s.clk.sync = .locked) (hmiss : 3 ≤ s.clk.missRun) :
    Completes .syncLoss s fun t =>
      t.clk = { s.clk with
        sync := .holdover, validRun := 0, holdoverEnd := some (s.now + 2000 * s.clkN Ob.Clk.holdoverMs) } ∧
      Logs s t Code.syncLoss Ob.clsClk 0 0 [] ∧ SameBut [.objs, .clk, .rails, .twin, .recd, .nvm] s t ∧
      (Orderly s → Counts s t Ob.clsClk 0 Ob.Clk.syncLosses) := by
  let held : State := s.modClk fun c => { c with
    sync := .holdover, validRun := 0, holdoverEnd := some (s.now + msFrames (s.clkN Ob.Clk.holdoverMs)) }
  have hexec : exec .syncLoss s =
      .next ((held.count Ob.clsClk 0 Ob.Clk.syncLosses).record Code.syncLoss Ob.clsClk 0 0 []) := by
    show execSyncLoss s = _
    simp [execSyncLoss, hfrom, hmiss, held]
  have hcounted : SameBut [.objs, .clk, .rails, .twin, .recd, .nvm] s (held.count Ob.clsClk 0 Ob.Clk.syncLosses) :=
    same_step (same_mono (State.modClk_same ..) (by decide)) (State.count_same held ..) (by decide)
  refine ⟨_, hexec, State.clk_record .., logs_record (held.count ..) rfl rfl .., ?_, fun hs => ?_⟩
  · exact same_step hcounted (State.record_same ..) (by decide)
  · exact counts_record (u := held) hs.store rfl (by decide) ..

theorem holdoverExpiry_returns {e : Nat} (hfrom : s.clk.sync = .holdover) (hend : s.clk.holdoverEnd = some e)
    (hover : e ≤ s.now) : Completes .holdoverExpiry s fun t =>
      t.clk = { s.clk with sync := .returning, holdoverEnd := none } ∧ SameBut [.clk] s t := by
  have hexec : exec .holdoverExpiry s = .next (s.modClk fun c => { c with sync := .returning, holdoverEnd := none }) := by
    show execHoldoverExpiry s = _
    simp [execHoldoverExpiry, hfrom, hend, hover]
  exact ⟨_, hexec, rfl, State.modClk_same ..⟩

theorem returnComplete_owns (hfrom : s.clk.sync = .returning) (hfreq : s.clk.freqOfs = 0) :
    Completes .returnComplete s fun t => t.clk = { s.clk with sync := .own } ∧ SameBut [.clk] s t := by
  have hexec : exec .returnComplete s = .next (s.modClk fun c => { c with sync := .own }) := by
    show execReturnComplete s = _
    simp [execReturnComplete, hfrom, hfreq]
  exact ⟨_, hexec, rfl, State.modClk_same ..⟩

theorem alignComplete_ends (hbusy : s.clk.alignBusy = true) (hreq : s.clk.alignReq = false)
    (haligned : s.carriersAligned = true) :
    Completes .alignComplete s fun t => t.clk = { s.clk with alignBusy := false } ∧ SameBut [.clk] s t := by
  have hexec : exec .alignComplete s = .next (s.modClk fun c => { c with alignBusy := false }) := by
    show execAlignComplete s = _
    simp [execAlignComplete, hbusy, hreq, haligned]
  exact ⟨_, hexec, rfl, State.modClk_same ..⟩

end

/-- Settles O31: each command's condition picks its one branch, an update of the clocks; the loss alone counts and records
(`counts_record`, `State.record_same`). -/
theorem synchronisationStates : Obligations.SynchronisationStates := fun _ =>
  ⟨syncInEdge_missing, fun _ => syncInEdge_near, syncAcquire_acquires, syncLock_locks, syncLoss_holds,
    fun _ => holdoverExpiry_returns, returnComplete_owns, alignComplete_ends⟩

end Sys2Proof.Machine
end

section
/-! The time counter (02 R48 to R51, 14 R286): TIME_SET, the PPS edge, its loss, and the anchors. -/

namespace Sys2Proof.Machine

/-! Requests that only answer -/

/-- A command that ends its slot's request at once changes nothing but that slot. -/
theorem justAnswers_of_exec {c : Instr} {s : State} {k : SlotIx} {status : Nat} {payload : List Byte}
    (hexec : exec c s = .next (s.finish k status payload)) : JustAnswers c s k status payload := by
  obtain ⟨hmb, hslots⟩ := mbButSlot_finish (s := s) (u := s) rfl k status payload
  exact ⟨_, hexec, answers_finish .., hmb, hslots, State.finish_same ..⟩

theorem State.slot_eq_of_mb {s t : State} (h : t.mb = s.mb) (k : SlotIx) : t.slot k = s.slot k :=
  congrArg (fun m : MbState => m.slots.get k) h

/-! The parts of the commands -/

@[simp] theorem State.finishOpt_some (s : State) (k : SlotIx) (status : Nat) (payload : List Byte) :
    s.finishOpt (some k) status payload = s.finish k status payload := rfl

/-- A counter that takes a value keeps all but the value and the time of its last anchor. -/
theorem State.time_timeTo (s : State) (sec : Nat) (ns : Rat) (sub : Nat) : (s.timeTo sec ns sub).time =
    { s.time with sec := sec, ns := ns, lastAnchor := (s.timeTo sec ns sub).time.lastAnchor } := by
  by_cases hsame : s.time.sec = sec ∧ s.time.ns = ns
  · have hstands : s.timeTo sec ns sub = s := if_pos hsame
    rw [hstands, ← hsame.1, ← hsame.2]
  · have hset : ∀ u : State, (if u.meterRuns then u.meterTimeSet sec ns else u).time = u.time := fun u =>
      (rel_ite (R := SameBut [.meter]) (State.meterTimeSet_same ..) (same_refl ..)).same .time (by decide)
    simp [State.timeTo, hsame, hset, State.anchor]

theorem State.time_supersedeSet (s : State) : s.supersedeSet.time = { s.time with setPending := none } := by
  unfold State.supersedeSet
  split
  · exact (State.finishOpt_same ..).same .time (by decide)
  next hnone => rw [← hnone]

/-- A pending TIME_SET of another slot is answered SUPERSEDED, and no request of a slot changes (R48). -/
theorem State.slot_supersedeSet (s : State) :
    (∀ j, (s.supersedeSet.slot j).taken = (s.slot j).taken) ∧
      ∀ j p, s.time.setPending = some (some j, p) → Answers s.supersedeSet j St.superseded [] := by
  refine ⟨fun j => ?_, fun j p hp => ?_⟩
  · unfold State.supersedeSet
    split
    · rename_i p _
      rcases p with ⟨_ | i, _⟩
      · rfl
      · by_cases hj : j = i <;> simp [hj]
    · rfl
  · simp [State.supersedeSet, hp, Answers]

theorem State.time_timeIrq (s : State) (old : TimeSt) : (s.timeIrq old).time = s.time :=
  (State.timeIrq_same ..).same .time (by decide)

theorem State.slot_timeIrq (s : State) (old : TimeSt) (k : SlotIx) : (s.timeIrq old).slot k = s.slot k := by
  unfold State.timeIrq State.irqIf
  split <;> rfl

theorem State.time_timeNow (s : State) (sec ns : Nat) :
    (s.timeNow sec ns).time = setNow (s.supersedeSet.timeTo sec (ns : Rat) 3).time := by
  unfold State.timeNow
  rw [State.time_timeIrq]
  split <;> rfl

/-! TIME_SET (R48) -/

section
variable {s : State} {k : SlotIx} {sec ns : Nat}

theorem timeSetNow_outOfRange (hasks : Asks s k (.timeSet 1 sec ns)) (hns : 999999999 < ns) :
    JustAnswers (.timeSetNow k sec ns) s k St.range [] := by
  obtain ⟨key, hreq⟩ := asks_iff.mp hasks
  refine justAnswers_of_exec ?_
  show execTimeSetNow k sec ns s = _
  rw [execTimeSetNow, State.onRequest_of_request hreq, if_pos hns]

theorem timeSetNow_sets (hasks : Asks s k (.timeSet 1 sec ns)) (hns : ¬999999999 < ns) :
    Completes (.timeSetNow k sec ns) s fun t => Answers t k St.ok [] ∧ t.time.sec = sec ∧ t.time.ns = ns ∧
      t.time.wasSet = true ∧ t.time.setPending = none ∧
      (t.time.tstate = if s.time.tstate = .acquiring ∨ s.time.tstate = .locked then s.time.tstate else .free) ∧
      SameBut [.objs, .time, .rails, .twin, .meter, .recd, .mb, .nvm] s t := by
  obtain ⟨key, hreq⟩ := asks_iff.mp hasks
  let u : State := s.replicate (.timeSet 1 sec ns)
  have hexec : exec (.timeSetNow k sec ns) s = .next ((u.timeNow sec ns).finish k St.ok []) := by
    show execTimeSetNow k sec ns s = _
    rw [execTimeSetNow, State.onRequest_of_request hreq, if_neg hns]
  have hu : SameBut [.twin] s u := State.replicate_same ..
  have hutime : u.time = s.time := hu.same .time (by decide)
  have htime : ((u.timeNow sec ns).finish k St.ok []).time =
      State.setNow { s.time with
        setPending := none, sec := sec, ns := ns, lastAnchor := (u.supersedeSet.timeTo sec (ns : Rat) 3).time.lastAnchor } := by
    have hfinish : ((u.timeNow sec ns).finish k St.ok []).time = (u.timeNow sec ns).time :=
      (State.finish_same ..).same .time (by decide)
    rw [hfinish, State.time_timeNow, State.time_timeTo, State.time_supersedeSet, hutime]
  refine ⟨_, hexec, answers_finish .., congrArg TimeState.sec htime, congrArg TimeState.ns htime,
    congrArg TimeState.wasSet htime, congrArg TimeState.setPending htime, ?_, ?_⟩
  · rw [htime]
    simp [State.setNow]
  · exact same_step (same_step (same_mono hu (by decide)) (State.timeNow_same ..) (by decide)) (State.finish_same ..)
      (by decide)

theorem timeSetAtPps_refused (hasks : Asks s k (.timeSet 0 sec 0)) (hen : s.ppsEn = false) :
    JustAnswers (.timeSetAtPps k sec) s k St.state [] := by
  obtain ⟨key, hreq⟩ := asks_iff.mp hasks
  refine justAnswers_of_exec ?_
  show execTimeSetAtPps k sec s = _
  rw [execTimeSetAtPps, State.onRequest_of_request hreq, if_pos (by simp [hen])]

theorem timeSetAtPps_waits (hasks : Asks s k (.timeSet 0 sec 0)) (hen : ¬s.ppsEn = false) :
    Completes (.timeSetAtPps k sec) s fun t => t.time = { s.time with setPending := some (some k, sec, s.time.mono) } ∧
      (t.slot k).taken.map (·.started) = some true ∧
      (∀ j p, s.time.setPending = some (some j, p) → j ≠ k → Answers t j St.superseded []) ∧
      SameBut [.time, .twin, .mb] s t := by
  obtain ⟨key, hreq⟩ := asks_iff.mp hasks
  let u : State := s.replicate (.timeSet 0 sec 0)
  let waits : State := u.supersedeSet.modTime fun t => { t with setPending := some (some k, sec, u.supersedeSet.time.mono) }
  have hexec : exec (.timeSetAtPps k sec) s = .next (waits.startSlot k) := by
    show execTimeSetAtPps k sec s = _
    rw [execTimeSetAtPps, State.onRequest_of_request hreq, if_neg (by simpa using hen)]
  have hu : SameBut [.twin] s u := State.replicate_same ..
  have hutime : u.time = s.time := hu.same .time (by decide)
  have hslot : ∀ j, u.slot j = s.slot j := State.slot_eq_of_mb (hu.same .mb (by decide))
  obtain ⟨htaken, hsuper⟩ := State.slot_supersedeSet u
  have hwaits : ∀ j, waits.slot j = u.supersedeSet.slot j := fun _ => rfl
  have hstarted : ∀ j, (waits.startSlot k).slot j = if j = k then
      { waits.slot k with taken := (waits.slot k).taken.map fun t => { t with started := true } } else waits.slot j :=
    fun _ => State.slot_modSlot ..
  refine ⟨_, hexec, ?_, ?_, fun j p hp hj => ?_, ?_⟩
  · show { u.supersedeSet.time with setPending := some (some k, sec, u.supersedeSet.time.mono) } = _
    rw [State.time_supersedeSet, hutime]
  · obtain ⟨x, hx⟩ : ∃ x, (s.slot k).taken = some x := by
      cases hx : (s.slot k).taken with
      | some x => exact ⟨x, rfl⟩
      | none => simp [State.request, hx] at hreq
    rw [hstarted, if_pos rfl, hwaits, htaken, hslot, hx]
    rfl
  · rw [Answers, hstarted, if_neg hj]
    exact hsuper j p (hutime ▸ hp)
  · have hsuperseded := same_step (ps := [.time, .twin, .mb]) (same_mono hu (by decide)) (State.supersedeSet_same u) (by decide)
    have hset : SameBut [.time] u.supersedeSet waits := State.modTime_same ..
    exact same_step (same_step hsuperseded hset (by decide)) (State.startSlot_same waits k) (by decide)

theorem timeSetTimeout_aborts {since : Rat} (hset : s.time.setPending = some (some k, sec, since)) :
    Completes .timeSetTimeout s fun t => if since + 1500000000 ≤ s.time.mono then
        t.time = { s.time with setPending := none } ∧ Answers t k St.aborted [] ∧ OnlySlotBut [.time] k s t
      else t = s := by
  by_cases hlate : since + 1500000000 ≤ s.time.mono
  · let u : State := s.modTime fun t => { t with setPending := none }
    have hexec : exec .timeSetTimeout s = .next (u.finish k St.aborted []) := by
      show execTimeSetTimeout s = _
      simp only [execTimeSetTimeout, hset, if_pos hlate]
      rfl
    obtain ⟨hmb, hslots⟩ := mbButSlot_finish (s := s) (u := u) rfl k St.aborted []
    refine ⟨_, hexec, (if_pos hlate).mpr ⟨rfl, answers_finish .., hmb, hslots, ?_⟩⟩
    exact same_step (same_mono (State.modTime_same ..) (by decide)) (State.finish_same ..) (by decide)
  · have hexec : exec .timeSetTimeout s = .next s := by
      show execTimeSetTimeout s = _
      simp only [execTimeSetTimeout, hset, if_neg hlate]
    exact ⟨s, hexec, (if_neg hlate).mpr rfl⟩

end

/-! PPS (R49) and anchors (R286) -/

section
variable {s : State}

theorem ppsEdge_ignored {f : Bool} (hno : s.ppsEn = false ∨ f ≠ s.ppsFalling) :
    Completes (.ppsEdge f) s fun t => t = s := by
  have hexec : exec (.ppsEdge f) s = .next s := by
    show execPpsEdge f s = _
    rcases hno with hno | hno <;> simp [execPpsEdge, hno]
  exact ⟨s, hexec, rfl⟩

/-- A valid edge on the main counter with a TIME_SET pending: the value, the state and the answer (R48, R49). -/
theorem State.mainPps_of_pending {k : SlotIx} {sec : Nat} {since : Rat} (hset : s.time.setPending = some (some k, sec, since)) :
    s.mainPps.time.sec = sec ∧ s.mainPps.time.ns = 0 ∧ s.mainPps.time.setPending = none ∧ s.mainPps.time.wasSet = true ∧
      s.mainPps.time.tstate = .acquiring ∧ Answers s.mainPps k St.ok [] := by
  obtain ⟨u, hmain, hpend, hwas, hst⟩ : ∃ u : State, s.mainPps = (u.timeTo sec 0 3).finish k St.ok [] ∧
      u.time.setPending = none ∧ u.time.wasSet = true ∧ u.time.tstate = .acquiring := by
    simp only [State.mainPps, hset, State.finishOpt_some]
    exact ⟨_, rfl, rfl, rfl, rfl⟩
  have htime : s.mainPps.time =
      { u.time with sec := sec, ns := 0, lastAnchor := (u.timeTo sec 0 3).time.lastAnchor } := by
    rw [hmain]
    exact State.time_timeTo ..
  exact ⟨by rw [htime], by rw [htime], by rw [htime, hpend], by rw [htime, hwas], by rw [htime, hst], hmain ▸ answers_finish ..⟩

theorem ppsEdge_endsTimeSet {k : SlotIx} {sec : Nat} {since : Rat} (hrun : s.dev.dstate = .run) (hen : s.ppsEn = true)
    (hvalid : s.time.edgeValid = true) (hset : s.time.setPending = some (some k, sec, since)) :
    Completes (.ppsEdge s.ppsFalling) s fun t => t.time.sec = sec ∧ t.time.ns = 0 ∧ t.time.setPending = none ∧
      t.time.wasSet = true ∧ t.time.tstate = .acquiring ∧ Answers t k St.ok [] ∧
      SameBut [.objs, .time, .rails, .twin, .meter, .recd, .mb, .nvm] s t := by
  let u : State := s.mainPps.timeIrq s.time.tstate
  obtain ⟨t, hexec, hmeter⟩ : ∃ t, exec (.ppsEdge s.ppsFalling) s = .next t ∧ SameBut [.meter] u t := by
    refine ⟨_, show execPpsEdge s.ppsFalling s = .next (if u.meter.time.edgeValid then
      u.meterPps (s.mainPps.time.sec != s.time.sec || s.mainPps.time.ns != s.time.ns) else u) from ?_, ?_⟩
    · simp [execPpsEdge, hrun, hen, hvalid, u]
    · exact rel_ite (State.meterPps_same ..) (same_refl ..)
  have htime : t.time = s.mainPps.time := (hmeter.same .time (by decide)).trans (State.time_timeIrq ..)
  have hslot : t.slot k = s.mainPps.slot k :=
    (State.slot_eq_of_mb (hmeter.same .mb (by decide)) k).trans (State.slot_timeIrq ..)
  obtain ⟨hsec, hns, hpend, hwas, hst, hans⟩ := State.mainPps_of_pending hset
  refine ⟨t, hexec, by rw [htime, hsec], by rw [htime, hns], by rw [htime, hpend], by rw [htime, hwas],
    by rw [htime, hst], by rw [Answers, hslot, hans], ?_⟩
  exact same_step (same_step (State.mainPps_same s) (State.timeIrq_same ..) (by decide)) hmeter (by decide)

theorem ppsLoss_holds (hlost : s.time.edgesLost = true) : Completes .ppsLoss s fun t =>
    t.time = { s.time with tstate := .holdover, ppsRun := 0 } ∧ Logs s t Code.ppsLoss Ob.clsTime 0 0 [] ∧
      SameBut [.objs, .time, .rails, .twin, .meter, .recd, .mb, .nvm] s t ∧
      (Orderly s → Counts s t Ob.clsTime 0 Ob.Time.ppsLosses) := by
  let held : State := (s.modTime TimeState.hold).timeIrq s.time.tstate
  let u : State := held.count Ob.clsTime 0 Ob.Time.ppsLosses
  let lost : State := u.record Code.ppsLoss Ob.clsTime 0 0 []
  obtain ⟨t, hexec, hmeter⟩ : ∃ t, exec .ppsLoss s = .next t ∧ SameBut [.meter] lost t := by
    refine ⟨_, show execPpsLoss s = .next (if lost.meterRuns && lost.meter.time.edgesLost then
      lost.modMeter fun m => { m with time := m.time.hold } else lost) from ?_, ?_⟩
    · simp only [execPpsLoss, if_pos hlost, lost, u, held]
    · exact rel_ite (State.modMeter_same ..) (same_refl ..)
  have hheld : SameBut [.time, .mb] s held :=
    same_step (same_mono (State.modTime_same ..) (by decide)) (State.timeIrq_same ..) (by decide)
  have hu : SameBut [.objs, .time, .mb] s u := same_step (same_mono hheld (by decide)) (State.count_same held ..) (by decide)
  have hrecd : t.recd = lost.recd := hmeter.same .recd (by decide)
  have hobj : ∀ c i j, t.obj c i j = lost.obj c i j := State.obj_of_objs (hmeter.same .objs (by decide))
  refine ⟨t, hexec, ?_, ?_, ?_, fun hs => ?_⟩
  · rw [hmeter.same .time (by decide)]
    exact (State.time_record ..).trans (State.time_timeIrq ..)
  · exact ⟨u, hu.same .recd (by decide), hu.same .nvm (by decide), hrecd⟩
  · exact same_step (same_step (same_mono hu (by decide)) (State.record_same u ..) (by decide)) hmeter (by decide)
  · have hobjs : held.objs = s.objs := hheld.same .objs (by decide)
    have hcounts : Counts s lost Ob.clsTime 0 Ob.Time.ppsLosses :=
      counts_record (hobjs ▸ hs.store) (State.obj_of_objs hobjs ..) (by decide) ..
    exact (hobj ..).trans hcounts

theorem periodicTimeAnchor_writes (hrun : s.framesRun = true) (hdue : s.time.lastAnchor + 120000000 ≤ s.now) :
    Completes .periodicTimeAnchor s fun t => t.time = { s.time with lastAnchor := s.now } ∧
      Logs s t Code.timeAnchor Ob.clsTime 0 0
        (leBytes 6 s.time.sec ++ leBytes 4 s.time.ns.floor.toNat ++ leBytes 6 s.clk.frame) ∧
      SameBut [.objs, .time, .rails, .twin, .recd, .nvm] s t := by
  have hexec : exec .periodicTimeAnchor s = .next (s.anchor 0) := by
    show execPeriodicTimeAnchor s = _
    simp [execPeriodicTimeAnchor, hrun, elapsed, sFrames, hdue]
  refine ⟨_, hexec, ?_, ⟨s, rfl, rfl, rfl⟩, State.anchor_same ..⟩
  simp [State.anchor]

end

/-- Settles O25: `State.time_timeTo` and `State.mainPps_of_pending` say what the counter takes; the meter's own part of an
edge or of a loss changes the meter alone. -/
theorem theTimeCounter : Obligations.TheTimeCounter := by
  refine ⟨⟨fun s k sec ns hasks => ?_, fun s k sec hasks => ?_, fun s k sec since => timeSetTimeout_aborts⟩, fun s =>
    ⟨fun _ => ppsEdge_ignored, fun _ _ _ => ppsEdge_endsTimeSet, ppsLoss_holds, periodicTimeAnchor_writes⟩⟩
  · split
    · exact timeSetNow_outOfRange hasks ‹_›
    · exact timeSetNow_sets hasks ‹_›
  · split
    · exact timeSetAtPps_refused hasks ‹_›
    · exact timeSetAtPps_waits hasks ‹_›

end Sys2Proof.Machine
end

section
/-! Latching a rail off (03 R74, R78, 11 R238, R245): the latch that is set stands through everything that follows from it, and
the rail is OFF. -/

namespace Sys2Proof.Machine

/-- From s to t no rail's latch ends and no rail's sequencing state changes. -/
structure LatchesStand (s t : State) : Prop where
  latch : ∀ q, s.latchedOff q = true → t.latchedOff q = true
  rseq : ∀ q, (t.rail q).seq.rseq = (s.rail q).seq.rseq

theorem State.latchedOff_iff {s : State} {r : RailIx} : s.latchedOff r = true ↔ (s.rail r).prot.latch ≠ .none := by
  simp [State.latchedOff]

theorem State.regulating_iff {s : State} {r : RailIx} : s.regulating r = true ↔ (s.rail r).seq.rseq ≠ .off := by
  simp [State.regulating]

namespace LatchesStand

theorem trans {a b c : State} (h : LatchesStand a b) (h' : LatchesStand b c) : LatchesStand a c :=
  ⟨fun q hq => h'.latch q (h.latch q hq), fun q => (h'.rseq q).trans (h.rseq q)⟩

theorem of_rails {s t : State} (h : t.rails = s.rails) : LatchesStand s t := by
  have hrail : ∀ q, t.rail q = s.rail q := fun q => congrArg (Vector.get · q) h
  exact ⟨fun q hq => by rwa [State.latchedOff, hrail], fun q => by rw [hrail]⟩

theorem of_same {ps : List Area} {s t : State} (h : SameBut ps s t) (hps : Area.rails ∉ ps) : LatchesStand s t :=
  of_rails (h.same .rails hps)

theorem refl (s : State) : LatchesStand s s := of_rails rfl

theorem modRail (s : State) (r : RailIx) {f : RailState → RailState}
    (hlatch : ∀ x, x.prot.latch ≠ .none → (f x).prot.latch ≠ .none) (hrseq : ∀ x, (f x).seq.rseq = x.seq.rseq) :
    LatchesStand s (s.modRail r f) := by
  refine ⟨fun q hq => ?_, fun q => ?_⟩
  · rw [State.latchedOff_iff] at hq ⊢
    rw [State.rail_modRail]
    split
    next heq => exact hlatch _ (heq ▸ hq)
    · exact hq
  · rw [State.rail_modRail]
    split
    next heq => rw [hrseq, heq]
    · rfl

/-! Events -/

theorem eventRel : EventRel LatchesStand where
  trans := trans
  recorder h := of_same h (by decide)
  lost _ _ := of_rails rfl
  fault _ := of_rails rfl

theorem takeSnap (s : State) (seq code : Nat) (r : RailIx) (cause : Nat) : LatchesStand s (s.takeSnap seq code r cause) := by
  have hfrozen : LatchesStand s (s.modRail r fun x => { x with histFrozen := true }) :=
    modRail s r (fun _ h => h) fun _ => rfl
  exact hfrozen.trans (of_rails rfl)

theorem recordSnap (s : State) (code cls inst sub : Nat) (data : List Byte) (r : RailIx) (cause : Nat) :
    LatchesStand s (s.recordSnap code cls inst sub data r cause) :=
  eventRel.event (fun _ _ s n => takeSnap s n ..) s

theorem record (s : State) (code cls inst sub : Nat) (data : List Byte) : LatchesStand s (s.record code cls inst sub data) :=
  of_rails (State.rails_record ..)

/-! Parts of a rail that end with its motion or its regulation -/

theorem endWait (s : State) (r : RailIx) (code : Nat) : LatchesStand s (s.endWait r code) := by
  unfold State.endWait
  split
  · exact refl s
  · extract_lets ended
    have hended : LatchesStand s ended := modRail s r (fun _ h => h) fun _ => rfl
    exact hended.trans (of_same (State.gatherSet_same ended ..) (by decide))

theorem strokeMismatch (s : State) (r : RailIx) : LatchesStand s (s.strokeMismatch r) :=
  rel_ite (refl s) (modRail s r (fun _ h => h) fun _ => rfl)

theorem abortSkim (s : State) (r : RailIx) : LatchesStand s (s.abortSkim r) := by
  unfold State.abortSkim
  split
  · exact refl s
  · exact (of_rails rfl : LatchesStand s (s.count ..)).trans (modRail _ r (fun _ h => h) fun _ => rfl)

theorem abortPassive (s : State) (r : RailIx) : LatchesStand s (s.abortPassive r) := by
  unfold State.abortPassive
  split
  · exact refl s
  · exact (of_rails rfl : LatchesStand s (s.count ..)).trans (modRail _ r (fun _ h => h) fun _ => rfl)

theorem abortTuneOn (s : State) (r : RailIx) (reason : Nat) : LatchesStand s (s.abortTuneOn r reason) :=
  of_same (State.abortTuneOn_same ..) (by decide)

theorem fuseOff (s : State) (r : RailIx) : LatchesStand s (s.fuseOff r) :=
  rel_ite (modRail s r (fun _ h => h) fun _ => rfl) (refl s)

theorem uvFaultReport (s : State) (r : RailIx) : LatchesStand s (s.uvFaultReport r) := by
  unfold State.uvFaultReport
  extract_lets reported
  have hreported : LatchesStand s reported := (abortTuneOn s r 4).trans (modRail _ r (fun _ h => h) fun _ => rfl)
  exact hreported.trans ((of_rails rfl : LatchesStand reported (reported.count ..)).trans (record ..))

theorem recordLower (s : State) (r : RailIx) : LatchesStand s (s.recordLower r) := by
  unfold State.recordLower
  extract_lets causes reported
  have hreported : LatchesStand s reported := rel_ite (uvFaultReport s r) (refl s)
  have hclear : ∀ u : State, LatchesStand u (u.clearHic r) := fun u => modRail u r (fun _ h => h) fun _ => rfl
  refine rel_ite (refl s) (hreported.trans (LatchesStand.trans ?_ (hclear _)))
  exact rel_ite (refl _) (record ..)

/-! The sequencer of the rail's domain -/

theorem setDom (s : State) (d : DomainIx) (st : DomSt) : LatchesStand s (s.setDom d st) :=
  of_same (State.setDom_same ..) (by decide)

theorem settleDev (s : State) : LatchesStand s s.settleDev := of_same (State.settleDev_same s) (by decide)

theorem refreshFlt (s : State) : LatchesStand s s.refreshFlt := of_same (State.refreshFlt_same s) (by decide)

theorem modDomain (s : State) (d : DomainIx) (f : DomainState → DomainState) : LatchesStand s (s.modDomain d f) := of_rails rfl

theorem schedUp (s : State) (d : DomainIx) (r : RailIx) : LatchesStand s (s.schedUp d r) := by
  unfold State.schedUp
  extract_lets due
  have hdue : LatchesStand s due := modRail s r (fun _ h => h) fun _ => rfl
  exact hdue.trans (modDomain due ..)

theorem enterUp (s : State) (d : DomainIx) (fresh : Bool) : LatchesStand s (s.enterUp d fresh) := by
  unfold State.enterUp
  extract_lets counted up sched
  have hup : LatchesStand s up :=
    (of_rails rfl : LatchesStand s counted).trans ((setDom counted d .up).trans (modDomain ..))
  have hsched : LatchesStand up sched := by
    unfold sched
    split
    · exact schedUp ..
    · exact refl up
  exact hup.trans (hsched.trans (settleDev sched))

theorem downEnd (s : State) (d : DomainIx) : LatchesStand s (s.downEnd d) := by
  unfold State.downEnd
  extract_lets x stepped failed failCounted latched retryCounted waiting ended
  have hstepped : LatchesStand s stepped := modDomain ..
  have hfailed : LatchesStand stepped failed := by
    unfold failed
    split
    · exact rel_ite (modRail _ _ (fun _ _ => by simp) fun _ => rfl) (refl _)
    · exact refl _
  have hfailCounted : LatchesStand failed failCounted := of_rails rfl
  have hlatched : LatchesStand failCounted latched := (setDom failCounted d .latched).trans (modDomain ..)
  have hretryCounted : LatchesStand stepped retryCounted := of_rails rfl
  have hwaiting : LatchesStand retryCounted waiting := (setDom retryCounted d .retryWait).trans (modDomain ..)
  have hended : LatchesStand stepped ended := by
    unfold ended
    refine rel_ite ?_ (rel_ite ?_ (rel_ite (enterUp stepped d true) ?_))
    · exact hfailed.trans (hfailCounted.trans (hlatched.trans (record ..)))
    · exact hretryCounted.trans (hwaiting.trans (record ..))
    · exact (setDom stepped d .off).trans (record ..)
  exact hstepped.trans (hended.trans ((settleDev ended).trans (refreshFlt _)))

theorem nextDown (s : State) (d : DomainIx) : LatchesStand s (s.nextDown d) := by
  unfold State.nextDown
  split
  · exact downEnd s d
  next r _ =>
    extract_lets due
    have hdue : LatchesStand s due := modRail s r (fun _ h => h) fun _ => rfl
    exact hdue.trans (modDomain due ..)

theorem enterDown (s : State) (d : DomainIx) : LatchesStand s (s.enterDown d) := by
  unfold State.enterDown
  extract_lets cancelled
  have hcancelled : LatchesStand s cancelled := by
    refine rel_forEach refl trans (fun r _ s => ?_) s
    exact modRail s r (fun _ h => h) fun _ => rfl
  exact hcancelled.trans ((setDom cancelled d .down).trans (nextDown ..))

theorem railWentOff (s : State) (r : RailIx) : LatchesStand s (s.railWentOff r) := by
  unfold State.railWentOff
  split
  · exact refl s
  · exact rel_ite (rel_ite (refl s) (nextDown ..)) (refl s)

theorem reportLatch (s : State) (r : RailIx) (cause : Latch) (was : Bool) : LatchesStand s (s.reportLatch r cause was) := by
  unfold State.reportLatch
  split
  · exact refl s
  · extract_lets x iso setLatch
    have hset : LatchesStand s (setLatch s) := modDomain ..
    split
    · exact hset.trans (enterDown ..)
    · exact rel_ite (refl s) (hset.trans (enterDown ..))
    · exact rel_ite (refl s) (rel_ite (railWentOff s r) (hset.trans (railWentOff ..)))
    · exact refl s

end LatchesStand

/-- A rail that leaves regulation is OFF, and no rail's latch ends. -/
theorem State.leaveRegulation_off (s : State) (r : RailIx) (byCrowbar : Bool) :
    (∀ q, s.latchedOff q = true → (s.leaveRegulation r byCrowbar).latchedOff q = true) ∧
      (s.leaveRegulation r byCrowbar).regulating r = false := by
  unfold State.leaveRegulation
  extract_lets waited faded skimmed tuned shed off
  have hfaded : LatchesStand s faded := (LatchesStand.endWait s r _).trans
    ((LatchesStand.strokeMismatch waited r).trans (LatchesStand.modRail _ r (fun _ h => h) fun _ => rfl))
  have hskimmed : LatchesStand faded skimmed := (LatchesStand.abortSkim faded r).trans (LatchesStand.abortPassive ..)
  have htuned : LatchesStand skimmed tuned := LatchesStand.abortTuneOn ..
  have hshed : LatchesStand tuned shed := by
    refine rel_forEach .refl .trans (fun n _ s => ?_) tuned
    exact (LatchesStand.of_same (State.dropCarry_same s n) (by decide)).trans (.of_rails rfl)
  have hbefore : LatchesStand s shed := hfaded.trans (hskimmed.trans (htuned.trans hshed))
  have hafter : LatchesStand off (if byCrowbar then off else off.fuseOff r) :=
    rel_ite (.refl off) (LatchesStand.fuseOff off r)
  have hoff : (off.rail r).seq.rseq = .off := by simp [off]
  have hlatch : ∀ q, (off.rail q).prot.latch = (shed.rail q).prot.latch := fun q => by
    by_cases hq : q = r <;> simp [off, hq]
  refine ⟨fun q hq => hafter.latch q ?_, ?_⟩
  · rw [State.latchedOff, hlatch]
    exact hbefore.latch q hq
  · rw [State.regulating, hafter.rseq, hoff]
    rfl

/-- What follows the record of a latch leaves the latch and turns the rail OFF. -/
theorem State.afterLatch_off {s : State} {r : RailIx} (cause : Latch) (hlatch : s.latchedOff r = true) :
    (s.afterLatch r cause).latchedOff r = true ∧ (s.afterLatch r cause).regulating r = false := by
  unfold State.afterLatch
  extract_lets lower was left
  have hlower : lower.latchedOff r = true := (LatchesStand.recordLower s r).latch r hlatch
  have hleft : left.latchedOff r = true ∧ left.regulating r = false := by
    cases hwas : was
    · rw [show left = lower from if_neg (by simp [hwas])]
      exact ⟨hlower, hwas⟩
    · rw [show left = lower.leaveRegulation r false from if_pos hwas]
      obtain ⟨hstands, hoff⟩ := State.leaveRegulation_off lower r false
      exact ⟨hstands r hlower, hoff⟩
  have hend : LatchesStand left (left.reportLatch r cause was).refreshFlt :=
    (LatchesStand.reportLatch left r cause was).trans (.refreshFlt _)
  refine ⟨hend.latch r hleft.1, ?_⟩
  rw [State.regulating, hend.rseq]
  exact hleft.2

/-- A rail that latches off is latched and OFF (R74, R238). -/
theorem State.latchRail_off {s : State} {r : RailIx} {cause : Latch} (hcause : cause ≠ .none) (hfree : s.latchedOff r = false)
    (code cls inst sub : Nat) (data : List Byte) : (s.latchRail r cause code cls inst sub data).latchedOff r = true ∧
      (s.latchRail r cause code cls inst sub data).regulating r = false := by
  let latched : State := s.modProt r fun p => { p with latch := cause }
  have hlatched : latched.latchedOff r = true := State.latchedOff_iff.mpr (by simpa [latched] using hcause)
  have hrecord : (latched.recordSnap code cls inst sub data r cause.code).latchedOff r = true :=
    (LatchesStand.recordSnap latched ..).latch r hlatched
  rw [State.latchRail, if_neg (by simp [hfree])]
  exact State.afterLatch_off cause hrecord

end Sys2Proof.Machine
end

section
/-! A rail's own events (02 R36, 05 R108, 06 R130 to R142): a latch by overruns, the end of a slam, of a command, of a soft
start and of a fade, and what comes too late. -/

namespace Sys2Proof.Machine

/-! Updates of one rail -/

theorem State.railsBut_modRail (s : State) (r : RailIx) (f : RailState → RailState) : RailsBut r s (s.modRail r f) :=
  fun _ hq => (State.rail_modRail ..).trans (if_neg hq)

theorem State.rail_modRail_self (s : State) (r : RailIx) (f : RailState → RailState) :
    (s.modRail r f).rail r = f (s.rail r) := (State.rail_modRail ..).trans (if_pos rfl)

/-- A command that updates one rail and nothing else. -/
theorem completes_modRail {c : Instr} {s : State} {r : RailIx} {f : RailState → RailState}
    (hexec : exec c s = .next (s.modRail r f)) :
    Completes c s fun t => t.rail r = f (s.rail r) ∧ RailsBut r s t ∧ SameBut [.rails] s t :=
  ⟨_, hexec, State.rail_modRail_self .., State.railsBut_modRail s r f, State.modRail_same ..⟩

/-! The outcome of a WAIT request (R130) -/

/-- A request with one member ends with that member's outcome. -/
theorem State.answers_gatherSet {s : State} {k : SlotIx} {b : Bool} {c : Option Nat × Bool}
    (hgather : s.mb.gathers.find? (fun g => g.slot == k) = some { slot := k, codes := [c], pairs := b }) (code : Nat)
    (clamped : Bool) :
    Answers (s.gatherSet k 0 code clamped) k code (State.memberPayload b [(code, clamped)]) := by
  unfold State.gatherSet
  extract_lets step gs held
  have hslot : (fun g : Gather => g.slot == k) ∘ step = fun g => g.slot == k := by
    funext g
    simp only [Function.comp, step]
    split <;> rfl
  have hfind : gs.find? (fun g => g.slot == k) = some { slot := k, codes := [(some code, clamped)], pairs := b } := by
    rw [List.find?_map, hslot, hgather]
    simp [step]
  rw [hfind]
  exact answers_finish ..

theorem State.rail_endWait (s : State) (r : RailIx) (code : Nat) (q : RailIx) : (s.endWait r code).rail q =
    if q = r then { s.rail r with prof := { (s.rail r).prof with waiter := none } } else s.rail q := by
  unfold State.endWait
  split
  next hnone =>
    split
    next heq => rw [heq, ← hnone]
    · rfl
  · extract_lets ended
    have hrails : ∀ k i code clamped, (ended.gatherSet k i code clamped).rails = ended.rails := fun _ _ _ _ =>
      (State.gatherSet_same ..).same .rails (by decide)
    rw [State.rail, hrails]
    exact State.rail_modRail ..

theorem State.mb_endWait_none {s : State} {r : RailIx} (hnone : (s.rail r).prof.waiter = none) (code : Nat) :
    (s.endWait r code).mb = s.mb := by
  simp [State.endWait, hnone]

theorem State.answers_endWait {s : State} {r : RailIx} {k : SlotIx} {b : Bool} {c : Option Nat × Bool}
    (hwaits : (s.rail r).prof.waiter = some (k, 0))
    (hgather : s.mb.gathers.find? (fun g => g.slot == k) = some { slot := k, codes := [c], pairs := b }) (code : Nat) :
    Answers (s.endWait r code) k code
      (State.memberPayload b [(code, (s.rail r).prof.reqMv != (s.rail r).prof.tgtMv)]) := by
  have hclamped : (((s.modProf r fun x => { x with waiter := none }).rail r).prof.reqMv !=
      ((s.modProf r fun x => { x with waiter := none }).rail r).prof.tgtMv) =
      ((s.rail r).prof.reqMv != (s.rail r).prof.tgtMv) := by simp
  have hends : s.endWait r code = (s.modProf r fun x => { x with waiter := none }).gatherSet k 0 code
      ((s.rail r).prof.reqMv != (s.rail r).prof.tgtMv) := by
    rw [State.endWait, hwaits, ← hclamped]
  rw [hends]
  exact State.answers_gatherSet (s := s.modProf r _) hgather ..

/-! The end of a slam (R108) -/

theorem State.rails_endPark (s : State) (r : RailIx) : (s.endPark r).rails = s.rails :=
  (State.endPark_same ..).same .rails (by decide)

/-- A slam that is disabled leaves its rail in LINEAR, disarmed, and every other rail as it is. -/
theorem State.rail_slamDisable {s : State} {r : RailIx} (hslam : (s.rail r).law.regime ≠ .linear) :
    ((s.slamDisable r).rail r).law.regime = .linear ∧ ((s.slamDisable r).rail r).law.armed = false ∧
      RailsBut r s (s.slamDisable r) := by
  let returned : State := (s.preloadNow r).slamReturn r
  have hend : s.slamDisable r =
      (returned.endPark r).modLaw r fun x => { x with regime := .linear, armed := false, slamFrames := 0 } := by
    rw [State.slamDisable, if_neg (by simpa using hslam)]
  have hreturned : RailsBut r s returned := fun q hq => by
    simp [returned, State.slamReturn, State.preloadNow, State.preload, hq]
  have hparked : ∀ q, (returned.endPark r).rail q = returned.rail q := fun q =>
    congrArg (Vector.get · q) (State.rails_endPark ..)
  rw [hend]
  exact ⟨by simp, by simp, fun q hq => by rw [State.modLaw_eq, State.railsBut_modRail _ _ _ q hq, hparked, hreturned q hq]⟩

/-! The events -/

section
variable {s : State} {r : RailIx}

theorem overrun_latches (hrun : s.framesRun = true) (hreg : s.regulating r = true) (hfree : s.latchedOff r = false)
    (hsome : 0 < (s.rail r).meas.ovrCount) (hlimit : s.clkN Ob.Clk.ovrLimit ≤ (s.rail r).meas.ovrCount) :
    Completes (.overrun r) s fun t => t.latchedOff r = true ∧ t.regulating r = false ∧
      SameBut [.objs, .phases, .rails, .domains, .tune, .twin, .recd, .mb, .nvm, .dev] s t := by
  have hexec : exec (.overrun r) s = .next (s.latchRail r .overrun Code.overrun Ob.clsRail r.val 0
      (leBytes 1 (s.railN r.val Ob.Rail.engine) ++ leBytes 1 (s.clkN Ob.Clk.ovrLimit))) := by
    show execOverrun r s = _
    simp [execOverrun, hrun, hreg, hfree, hsome, hlimit]
  obtain ⟨hlatched, hoff⟩ := State.latchRail_off (r := r) (cause := .overrun) (by decide) hfree ..
  exact ⟨_, hexec, hlatched, hoff, State.latchRail_same ..⟩

theorem slamTimeout_ends (hs : Orderly s) (hslam : (s.rail r).law.regime ≠ .linear)
    (hlong : s.railN r.val Ob.Rail.slamMax ≤ (s.rail r).law.slamFrames) (hlaw : s.lawRuns r = true) :
    Completes (.slamTimeout r) s fun t => (t.rail r).law.regime = .linear ∧ (t.rail r).law.armed = false ∧
      Counts s t Ob.clsRail r.val Ob.Rail.slamTimeouts ∧
      Logs s t Code.slamTimeout Ob.clsRail r.val (s.rail r).law.regime.code [] ∧ RailsBut r s t ∧
      SameBut [.objs, .phases, .rails, .twin, .recd, .nvm] s t := by
  let u : State := (s.slamDisable r).count Ob.clsRail r.val Ob.Rail.slamTimeouts
  have hexec : exec (.slamTimeout r) s =
      .next (u.record Code.slamTimeout Ob.clsRail r.val (s.rail r).law.regime.code []) := by
    show execSlamTimeout r s = _
    simp [execSlamTimeout, hslam, hlong, hlaw, u]
  have hends : SameBut [.phases, .rails] s (s.slamDisable r) := State.slamDisable_same ..
  have hu : SameBut [.objs, .phases, .rails] s u := same_step (same_mono hends (by decide)) (State.count_same ..) (by decide)
  have hobjs : (s.slamDisable r).objs = s.objs := hends.same .objs (by decide)
  obtain ⟨hlinear, hdisarmed, hbut⟩ := State.rail_slamDisable hslam
  have hrail : ∀ q, (u.record Code.slamTimeout Ob.clsRail r.val (s.rail r).law.regime.code []).rail q =
      (s.slamDisable r).rail q := fun q => State.rail_record ..
  refine ⟨_, hexec, by rw [hrail, hlinear], by rw [hrail, hdisarmed], ?_, ?_, fun q hq => by rw [hrail, hbut q hq], ?_⟩
  · exact counts_record (hobjs ▸ hs.store) (State.obj_of_objs hobjs ..) (recKeys_ne (by decide) (by omega) (by decide)) ..
  · exact logs_record u (hu.same .recd (by decide)) (hu.same .nvm (by decide)) ..
  · exact same_step (same_mono hu (by decide)) (State.record_same u ..) (by decide)

theorem commandDone_ends (hlaw : s.lawRuns r = true) (hopen : (s.rail r).prof.done = false) (hrest : s.atTarget r = true)
    (hsettled : s.railN r.val Ob.Rail.settle ≤ (s.rail r).prof.inBand) :
    Completes (.commandDone r) s fun t =>
      (t.rail r).prof = { (s.rail r).prof with done := true, waiter := none } ∧ RailsBut r s t ∧ SameBut [.rails, .mb] s t ∧
        ((s.rail r).prof.waiter = none → t.mb = s.mb) ∧
        ∀ k b c, (s.rail r).prof.waiter = some (k, 0) →
          s.mb.gathers.find? (fun g => g.slot == k) = some { slot := k, codes := [c], pairs := b } →
          Answers t k St.ok (State.memberPayload b [(St.ok, (s.rail r).prof.reqMv != (s.rail r).prof.tgtMv)]) := by
  let u : State := s.modProf r fun y => { y with done := true }
  have hexec : exec (.commandDone r) s = .next (u.endWait r St.ok) := by
    show execCommandDone r s = _
    simp only [execCommandDone]
    rw [if_pos (by simp [hlaw, hopen, hrest, hsettled])]
  have hprof : (u.rail r).prof = { (s.rail r).prof with done := true } := by simp [u]
  have hwaiter : (u.rail r).prof.waiter = (s.rail r).prof.waiter := by rw [hprof]
  have hclamped : ((u.rail r).prof.reqMv != (u.rail r).prof.tgtMv) = ((s.rail r).prof.reqMv != (s.rail r).prof.tgtMv) := by
    rw [hprof]
  refine ⟨_, hexec, ?_, fun q hq => ?_, ?_, fun hnone => ?_, fun k b c hwaits hgather => ?_⟩
  · rw [State.rail_endWait, if_pos rfl, hprof]
  · rw [State.rail_endWait, if_neg hq]
    exact State.railsBut_modRail s r _ q hq
  · exact same_step (same_mono (State.modProf_same ..) (by decide)) (State.endWait_same u ..) (by decide)
  · exact State.mb_endWait_none (hwaiter.trans hnone) ..
  · rw [← hclamped]
    exact State.answers_endWait (hwaiter.trans hwaits) hgather ..

theorem softstartEnd_ends (hsoft : (s.rail r).prof.softStart = true) (hrest : s.atTarget r = true)
    (hlaw : s.lawRuns r = true) : Completes (.softstartEnd r) s fun t =>
      t.rail r = { s.rail r with prof := { (s.rail r).prof with softStart := false } } ∧ RailsBut r s t ∧
        SameBut [.rails] s t := by
  refine completes_modRail (f := fun x => { x with prof := { x.prof with softStart := false } }) ?_
  show execSoftstartEnd r s = _
  simp [execSoftstartEnd, hsoft, hrest, hlaw]

theorem ffFadeEnd_ends {d : Rat} (hover : (s.rail r).ff.fade = some (d, 0)) : Completes (.ffFadeEnd r) s fun t =>
    t.rail r = { s.rail r with ff := { (s.rail r).ff with fade := none } } ∧ RailsBut r s t ∧ SameBut [.rails] s t := by
  refine completes_modRail (f := fun x => { x with ff := { x.ff with fade := none } }) ?_
  show execFfFadeEnd r s = _
  simp [execFfFadeEnd, hover]

theorem strokeTimeout_mismatches {k : StrokeState} (hopen : (s.rail r).ff.stroke = some k)
    (hlate : 5 * msFrames k.expected ≤ 4 * (s.now - k.startAt)) : Completes (.strokeTimeout r) s fun t =>
      (t.rail r).ff.stroke = none ∧ (t.rail r).ff.mismatch = true ∧ (t.rail r).ff.applied = false ∧
        ((s.rail r).ff.applied = true → (t.rail r).ff.fade = some ((s.rail r).ff.dFF, 64)) ∧
        (t.rail r).ff.t0 = (s.rail r).ff.t0 ∧ (t.rail r).ff.t1 = (s.rail r).ff.t1 ∧ RailsBut r s t ∧ SameBut [.rails] s t := by
  have hexec : exec (.strokeTimeout r) s = .next (s.strokeMismatch r) := by
    show execStrokeTimeout r s = _
    simp [execStrokeTimeout, State.strokeLate, hopen, hlate]
  have hmismatch : s.strokeMismatch r = s.modFf r fun x => { x with
      stroke := none, mismatch := true, sums := [], counts := [], spoiled := []
      fade := if x.applied then some (x.dFF, 64) else x.fade, applied := false } := by
    simp [State.strokeMismatch, hopen]
  rw [hmismatch] at hexec
  refine completes_mono (completes_modRail hexec) ?_
  rintro t ⟨hrail, hbut, hsame⟩
  rw [hrail]
  exact ⟨rfl, rfl, rfl, fun happlied => if_pos happlied, rfl, rfl, hbut, hsame⟩

theorem posStale_marks (hmode : (s.rail r).ff.mode = 3) (hpos : (s.rail r).ff.pos ≠ none)
    (hfresh : (s.rail r).ff.stale = false) (hold : elapsed s.now (s.rail r).ff.posAt (msFrames 10) = true) :
    Completes (.posStale r) s fun t =>
      t.rail r = { s.rail r with ff := { (s.rail r).ff with stale := true } } ∧ RailsBut r s t ∧ SameBut [.rails] s t := by
  refine completes_modRail (f := fun x => { x with ff := { x.ff with stale := true } }) ?_
  show execPosStale r s = _
  simp [execPosStale, hmode, Option.isSome_iff_ne_none.mpr hpos, hfresh, hold]

end

/-- Settles O42: the latch is `State.latchRail_off`, the answer of a WAIT `State.answers_endWait`; the other events update one
part of their rail. -/
theorem railEvents : Obligations.RailEvents := fun _ _ hs =>
  ⟨overrun_latches, slamTimeout_ends hs, commandDone_ends, softstartEnd_ends, fun _ => ffFadeEnd_ends,
    fun _ => strokeTimeout_mismatches, posStale_marks⟩

end Sys2Proof.Machine
end

section
/-! The trip count's leak and latch (03 R77, R78), the unlock's end (R72) and the delay-line calibration (02 R40). -/

namespace Sys2Proof.Machine

/-! Updates of one phase -/

theorem State.phasesBut_modPhase (s : State) (n : PhaseIx) (f : PhaseState → PhaseState) : PhasesBut n s (s.modPhase n f) :=
  fun _ hm => (State.phase_modPhase ..).trans (if_neg hm)

theorem State.phase_modPhase_self (s : State) (n : PhaseIx) (f : PhaseState → PhaseState) :
    (s.modPhase n f).phase n = f (s.phase n) := (State.phase_modPhase ..).trans (if_pos rfl)

theorem State.phase_modGen_self (s : State) (n : PhaseIx) (f : GenState → GenState) :
    (s.modGen n f).phase n = ⟨f (s.phase n).gen, (s.phase n).sense⟩ := State.phase_modPhase_self ..

/-- A command that updates one generator and nothing else. -/
theorem completes_modGen {c : Instr} {s : State} {n : PhaseIx} {f : GenState → GenState}
    (hexec : exec c s = .next (s.modGen n f)) : Completes c s fun t =>
      (t.phase n).gen = f (s.phase n).gen ∧ (t.phase n).sense = (s.phase n).sense ∧ PhasesBut n s t ∧
        SameBut [.phases] s t := by
  exact ⟨_, hexec, by rw [State.phase_modGen_self], by rw [State.phase_modGen_self],
    State.phasesBut_modPhase s n _,
    State.modGen_same ..⟩

/-! What latching a rail off leaves of the generators -/

/-- From s to t no generator's latch, switching or on-time changes. -/
structure GensStand (s t : State) : Prop where
  tripped : ∀ m, (t.phase m).gen.tripped = (s.phase m).gen.tripped
  switching : ∀ m, (t.phase m).gen.switching = (s.phase m).gen.switching
  te : ∀ m, (t.phase m).gen.te = (s.phase m).gen.te

theorem GensStand.trans {a b c : State} (h : GensStand a b) (h' : GensStand b c) : GensStand a c :=
  ⟨fun m => (h'.tripped m).trans (h.tripped m), fun m => (h'.switching m).trans (h.switching m),
    fun m => (h'.te m).trans (h.te m)⟩

theorem GensStand.refl (s : State) : GensStand s s := ⟨fun _ => rfl, fun _ => rfl, fun _ => rfl⟩

theorem GensStand.of_same {ps : List Area} {s t : State} (h : SameBut ps s t) (hps : Area.phases ∉ ps) : GensStand s t := by
  have hphase : ∀ m, t.phase m = s.phase m := fun m => congrArg (Vector.get · m) (h.same .phases hps)
  exact ⟨fun m => by rw [hphase], fun m => by rw [hphase], fun m => by rw [hphase]⟩

theorem State.phase_dropCarry (s : State) (n m : PhaseIx) : (s.dropCarry n).phase m =
    if m = n then { s.phase n with gen := { (s.phase n).gen with carry := 0 } } else s.phase m := by
  by_cases hcarry : (s.phase n).gen.carry = 0
  · rw [State.dropCarry, if_pos hcarry]
    split
    next heq => rw [heq, ← hcarry]
    · rfl
  · rw [State.dropCarry, if_neg hcarry]
    exact State.phase_modPhase ..

/-- The part of a rail's phase that ends with its regulation (R133). -/
theorem GensStand.dropCarry_modPhase (s : State) (n : PhaseIx) {f : PhaseState → PhaseState}
    (htripped : ∀ p, (f p).gen.tripped = p.gen.tripped) (hswitching : ∀ p, (f p).gen.switching = p.gen.switching)
    (hte : ∀ p, (f p).gen.te = p.gen.te) : GensStand s ((s.dropCarry n).modPhase n f) := by
  have hphase : ∀ m, ((s.dropCarry n).modPhase n f).phase m = if m = n then
      f { s.phase n with gen := { (s.phase n).gen with carry := 0 } } else s.phase m := fun m => by
    rw [State.phase_modPhase, State.phase_dropCarry, State.phase_dropCarry, if_pos rfl]
    split <;> rfl
  refine ⟨fun m => ?_, fun m => ?_, fun m => ?_⟩
  all_goals
    rw [hphase]
    split
    next heq => simp only [htripped, hswitching, hte, heq]
    · rfl

theorem GensStand.leaveRegulation (s : State) (r : RailIx) (byCrowbar : Bool) : GensStand s (s.leaveRegulation r byCrowbar) := by
  unfold State.leaveRegulation
  extract_lets waited faded skimmed tuned shed off
  have hfaded : GensStand s faded := (GensStand.of_same (State.endWait_same s r _) (by decide)).trans
    ((GensStand.of_same (State.strokeMismatch_same waited r) (by decide)).trans
      (.of_same (State.modFf_same ..) (by decide)))
  have hskimmed : GensStand faded skimmed := (GensStand.of_same (State.abortSkim_same faded r) (by decide)).trans
    (.of_same (State.abortPassive_same ..) (by decide))
  have htuned : GensStand skimmed tuned := .of_same (State.abortTuneOn_same ..) (by decide)
  have hshed : GensStand tuned shed := by
    refine rel_forEach .refl .trans (fun n _ s => ?_) tuned
    exact .dropCarry_modPhase s n (fun _ => rfl) (fun _ => rfl) fun _ => rfl
  have hoff : GensStand shed off := .of_same (State.modRail_same ..) (by decide)
  have hend : GensStand off (if byCrowbar then off else off.fuseOff r) :=
    rel_ite (.refl off) (.of_same (State.fuseOff_same ..) (by decide))
  exact hfaded.trans (hskimmed.trans (htuned.trans (hshed.trans (hoff.trans hend))))

theorem GensStand.latchRail (s : State) (r : RailIx) (cause : Latch) (code cls inst sub : Nat) (data : List Byte) :
    GensStand s (s.latchRail r cause code cls inst sub data) := by
  unfold State.latchRail State.afterLatch
  extract_lets latched lower was left
  have hlatched : GensStand s latched := .of_same (State.modProt_same ..) (by decide)
  have hlower : GensStand latched lower := (GensStand.of_same (State.recordSnap_same latched ..) (by decide)).trans
    (.of_same (State.recordLower_same ..) (by decide))
  have hleft : GensStand lower left := rel_ite (.leaveRegulation ..) (.refl lower)
  have hend : GensStand left (left.reportLatch r cause was).refreshFlt :=
    (GensStand.of_same (State.reportLatch_same left r cause was) (by decide)).trans
      (.of_same (State.refreshFlt_same _) (by decide))
  exact rel_ite (.of_same (State.record_same ..) (by decide)) (hlatched.trans (hlower.trans (hleft.trans hend)))

/-! The latch of a phase (R78) -/

/-- The counters of PHASE that pulses and skims count (R67, R68, R92). -/
abbrev pulseItems : List Nat := [Ob.Phase.hems, Ob.Phase.drops, Ob.Phase.carryDiscards, Ob.Phase.skimAborts]

/-- These counters of every phase. -/
def pulseCounters : List (Nat × Nat × Nat) :=
  allPhases.flatMap fun k => pulseItems.map fun item => (Ob.clsPhase, k.val, item)

theorem mem_pulseCounters {o : Nat × Nat × Nat} :
    o ∈ pulseCounters ↔ ∃ k : PhaseIx, ∃ item, item ∈ pulseItems ∧ o = (Ob.clsPhase, k.val, item) := by
  simp [pulseCounters, allPhases]

/-- Two objects of PHASE with different items have different keys. -/
theorem phaseKey_ne (m n : PhaseIx) {k k' : Nat} (hk : k < 256) (hk' : k' < 256) (h : k ≠ k') :
    objKey Ob.clsPhase m.val k ≠ objKey Ob.clsPhase n.val k' := objKey_ne (by omega) hk (by omega) hk' (.inr h)

theorem pulseCounters_ne {cls inst item : Nat} (hinst : inst < 256) (hitem : item < 256)
    (h : cls ≠ Ob.clsPhase ∨ item ∉ pulseItems) : ∀ o ∈ pulseCounters, objKey cls inst item ≠ objKey o.1 o.2.1 o.2.2 := by
  intro o ho
  obtain ⟨k, x, hx, rfl⟩ := mem_pulseCounters.mp ho
  have hbyte : ∀ x ∈ pulseItems, x < 256 := by decide
  exact objKey_ne hinst hitem (show k.val < 256 by omega) (hbyte x hx) (h.imp id fun hni heq => hni (heq ▸ hx))

theorem State.dropCarry_writes (s : State) (n : PhaseIx) : WritesOnly pulseCounters s (s.dropCarry n) :=
  rel_ite (.of_objs rfl)
    ((WritesOnly.setObj (mem_pulseCounters.mpr ⟨n, Ob.Phase.carryDiscards, by decide, rfl⟩) s _).trans (.of_objs rfl))

/-- A phase that latches keeps all but its pulse and its carry; the other phases stand. -/
theorem State.phase_latchPhase (s : State) (n : PhaseIx) (r : RailIx) (m : PhaseIx) : (s.latchPhase n r).phase m =
    if m = n then { s.phase n with gen := { (s.phase n).gen with
      carry := 0, tripped := true, switching := false, rise := none, fall := none, te := 0 } } else s.phase m := by
  rw [State.latchPhase, State.phase_record, State.modGen_eq, State.phase_modPhase]
  simp only [State.count_eq, State.phase_setObj, State.phase_dropCarry]
  split <;> rfl

theorem State.rails_latchPhase (s : State) (n : PhaseIx) (r : RailIx) : (s.latchPhase n r).rails = s.rails :=
  (State.rails_record ..).trans ((State.dropCarry_same s n).same .rails (by decide))

/-- What the latch of a phase counts and records, before its rail's part. -/
theorem State.latchPhase_counts {s : State} (hok : StoreOk s.objs) (n : PhaseIx) (r : RailIx) :
    Counts s (s.latchPhase n r) Ob.clsPhase n.val Ob.Phase.tripLatches := by
  have hdrop := State.dropCarry_writes s n
  have hobj : (s.dropCarry n).obj Ob.clsPhase n.val Ob.Phase.tripLatches = s.obj Ob.clsPhase n.val Ob.Phase.tripLatches :=
    hdrop.obj_eq hok (pulseCounters_ne (by omega) (by decide) (.inr (by decide)))
  refine counts_of_writesOnly (u := s.dropCarry n) (hdrop.ok hok) hobj ?_ (recKeys_ne (by decide) (by omega) (by decide))
  let latched : State := ((s.dropCarry n).count Ob.clsPhase n.val Ob.Phase.tripLatches).modGen n fun g =>
    { g with tripped := true, switching := false, rise := none, fall := none, te := 0 }
  have hlatched : WritesOnly recKeys ((s.dropCarry n).count Ob.clsPhase n.val Ob.Phase.tripLatches) latched := .of_objs rfl
  exact hlatched.trans (State.record_writes latched ..)

theorem State.latchPhase_logs (s : State) (n : PhaseIx) (r : RailIx) :
    Logs s (s.latchPhase n r) Code.tripLatch Ob.clsPhase n.val 0 [BitVec.ofNat 8 r.val] := by
  have hdrop := State.dropCarry_same s n
  exact ⟨((s.dropCarry n).count Ob.clsPhase n.val Ob.Phase.tripLatches).modGen n _, hdrop.same .recd (by decide),
    hdrop.same .nvm (by decide), rfl⟩


/-- All that the latch of a phase writes to the object store. -/
abbrev latchKeys (n : PhaseIx) : List (Nat × Nat × Nat) :=
  (Ob.clsPhase, n.val, Ob.Phase.tripLatches) :: (pulseCounters ++ recKeys)

theorem State.latchPhase_writes (s : State) (n : PhaseIx) (r : RailIx) : WritesOnly (latchKeys n) s (s.latchPhase n r) := by
  let counted : State := (s.dropCarry n).count Ob.clsPhase n.val Ob.Phase.tripLatches
  let latched : State := counted.modGen n fun g =>
    { g with tripped := true, switching := false, rise := none, fall := none, te := 0 }
  have hdropped : WritesOnly (latchKeys n) s (s.dropCarry n) := (State.dropCarry_writes s n).mono fun o ho =>
    List.mem_cons_of_mem _ (List.mem_append_left _ ho)
  have hcounted : WritesOnly (latchKeys n) (s.dropCarry n) counted := .setObj List.mem_cons_self _ _
  have hlatched : WritesOnly (latchKeys n) counted latched := .of_objs rfl
  have hrecorded : WritesOnly (latchKeys n) latched (s.latchPhase n r) := (State.record_writes latched ..).mono fun o ho =>
    List.mem_cons_of_mem _ (List.mem_append_right _ ho)
  exact hdropped.trans (hcounted.trans (hlatched.trans hrecorded))

/-! Active phases (R89) -/

theorem State.phaseRail_congr {s t : State} {m : PhaseIx}
    (h : t.obj Ob.clsPhase m.val Ob.Phase.rail = s.obj Ob.clsPhase m.val Ob.Phase.rail) : t.phaseRail m = s.phaseRail m := by
  unfold State.phaseRail State.phaseN
  rw [h]

theorem State.phasesOf_congr {s t : State}
    (h : ∀ m : PhaseIx, t.obj Ob.clsPhase m.val Ob.Phase.rail = s.obj Ob.clsPhase m.val Ob.Phase.rail) (r : Nat) :
    t.phasesOf r = s.phasesOf r :=
  List.filter_congr fun m _ => congrArg (fun w : Word => w.toNat == r) (h m)

theorem State.active_congr {s t : State} {m : PhaseIx} (hrail : t.phaseRail m = s.phaseRail m) (hrails : t.rails = s.rails)
    (hphase : t.phase m = s.phase m) : t.active m = s.active m := by
  simp only [State.active, State.available, State.forced, State.lawRuns, State.inHiccup, State.heldOff, State.skimming,
    State.rail, hrail, hrails, hphase]

theorem State.active_of_tripped {s : State} {n : PhaseIx} (h : (s.phase n).gen.tripped = true) : s.active n = false := by
  unfold State.active
  split
  · rfl
  · simp [State.available, h]

theorem State.regulating_of_active {s : State} {n : PhaseIx} {r : RailIx} (hrail : s.phaseRail n = some r)
    (h : s.active n = true) : s.regulating r = true := by
  have hlaw : s.lawRuns r = true := by
    simp only [State.active, hrail, Bool.and_eq_true] at h
    exact h.1.1.1
  rw [State.regulating_iff]
  intro hoff
  simp [State.lawRuns, hoff] at hlaw

theorem State.rail_latchPhase_obj {s : State} (hok : StoreOk s.objs) (n : PhaseIx) (r : RailIx) (m : PhaseIx) :
    (s.latchPhase n r).obj Ob.clsPhase m.val Ob.Phase.rail = s.obj Ob.clsPhase m.val Ob.Phase.rail := by
  refine (State.latchPhase_writes s n r).obj_eq hok fun o ho => ?_
  rcases List.mem_cons.mp ho with rfl | ho
  · exact phaseKey_ne m n (k' := Ob.Phase.tripLatches) (by decide) (by decide) (by decide)
  rcases List.mem_append.mp ho with ho | ho
  · exact pulseCounters_ne (by omega) (by decide) (.inr (by decide)) o ho
  · exact recKeys_ne (by decide) (by omega) (by decide) o ho

/-- Once a rail's only active phase has latched, none is left. -/
theorem State.activeOf_latchPhase {s : State} (hok : StoreOk s.objs) {n : PhaseIx} {r : RailIx} (honly : s.activeOf r = [n]) :
    (s.latchPhase n r).activeOf r = [] := by
  have hobj := State.rail_latchPhase_obj hok n r
  have hphases : (s.latchPhase n r).phasesOf r.val = s.phasesOf r.val := State.phasesOf_congr hobj r.val
  rw [State.activeOf, hphases, List.filter_eq_nil_iff]
  intro m hm hactive
  by_cases hmn : m = n
  · have htripped : ((s.latchPhase n r).phase m).gen.tripped = true := by rw [State.phase_latchPhase, if_pos hmn]
    exact absurd hactive (by simp [State.active_of_tripped htripped])
  · have hphase : (s.latchPhase n r).phase m = s.phase m := (State.phase_latchPhase ..).trans (if_neg hmn)
    rw [State.active_congr (State.phaseRail_congr (hobj m)) (State.rails_latchPhase ..) hphase] at hactive
    have hmem : m ∈ s.activeOf r := List.mem_filter.mpr ⟨hm, hactive⟩
    exact hmn (by simpa [honly] using hmem)

/-! The commands -/

section
variable {s : State} {n : PhaseIx}

theorem cleanRunLeak_leaks (hclean : s.phaseN n.val Ob.Phase.tripLeak ≤ (s.phase n).gen.cleanRun) :
    Completes (.cleanRunLeak n) s fun t =>
      (t.phase n).gen = { (s.phase n).gen with tripCount := (s.phase n).gen.tripCount - 1, cleanRun := 0 } ∧
        (t.phase n).sense = (s.phase n).sense ∧ PhasesBut n s t ∧ SameBut [.phases] s t := by
  refine completes_modGen (f := fun g => { g with tripCount := g.tripCount - 1, cleanRun := 0 }) ?_
  show execCleanRunLeak n s = _
  rw [execCleanRunLeak, if_pos hclean]

theorem hsunlockExpiry_disarms {u : Nat} (harmed : (s.phase n).gen.hsUnlock = some u) :
    Completes (.hsunlockExpiry n) s fun t =>
      (t.phase n).gen = { (s.phase n).gen with hsUnlock := if u + 2000000 ≤ s.now then none else some u } ∧
        (t.phase n).sense = (s.phase n).sense ∧ PhasesBut n s t ∧ SameBut [.phases] s t := by
  by_cases hover : u + 2000000 ≤ s.now
  · rw [if_pos hover]
    refine completes_modGen (f := fun g => { g with hsUnlock := none }) ?_
    show execHsunlockExpiry n s = _
    simp only [execHsunlockExpiry, harmed]
    rw [if_pos (by simpa [elapsed, sFrames] using hover)]
  · have hexec : exec (.hsunlockExpiry n) s = .next s := by
      show execHsunlockExpiry n s = _
      simp only [execHsunlockExpiry, harmed]
      rw [if_neg (by simpa [elapsed, sFrames] using hover)]
    refine ⟨s, hexec, ?_, rfl, fun _ _ => rfl, same_refl ..⟩
    rw [if_neg hover, ← harmed]

/-- A failing DLCAL records and marks the phase (R40). -/
theorem dlcal_fails {tap : Nat} (hrun : s.framesRun = true) (hlive : s.teleStale = false)
    (hrail : (s.phaseRail n).isSome = true) :
    Completes (.dlcal n false tap) s fun t => t.clk = { s.clk with dlLast := n.val } ∧
      (t.phase n).gen = { (s.phase n).gen with dlFail := true } ∧ PhasesBut n s t ∧
      Logs s t Code.dlcalFail Ob.clsPhase n.val 0 [] ∧ SameBut [.objs, .clk, .phases, .rails, .twin, .recd, .nvm] s t := by
  let clocked : State := s.modClk fun c => { c with dlLast := n.val }
  let failed : State := clocked.modGen n fun g => { g with dlFail := true }
  have hexec : exec (.dlcal n false tap) s = .next (failed.record Code.dlcalFail Ob.clsPhase n.val 0 []) := by
    show execDlcal n false tap s = _
    rw [execDlcal, if_neg (by simp [hrun, hlive, Option.isSome_iff_ne_none.mp hrail])]
    rfl
  have hclocked : SameBut [.clk] s clocked := State.modClk_same ..
  have hfailed : SameBut [.clk, .phases] s failed :=
    same_step (same_mono hclocked (by decide)) (State.modGen_same clocked ..) (by decide)
  refine ⟨_, hexec, State.clk_record .., ?_, fun m hm => ?_, logs_record failed rfl rfl .., ?_⟩
  · rw [State.phase_record]
    exact congrArg PhaseState.gen (State.phase_modGen_self clocked ..)
  · rw [State.phase_record]
    exact State.phasesBut_modPhase clocked n _ m hm
  · exact same_step (same_mono hfailed (by decide)) (State.record_same failed ..) (by decide)

theorem dlcal_spans {tap : Nat} (hrun : s.framesRun = true) (hlive : s.teleStale = false)
    (hrail : (s.phaseRail n).isSome = true) :
    Completes (.dlcal n true tap) s fun t => t.clk = { s.clk with dlLast := n.val, dlTap := tap } ∧
      (t.phase n).gen = { (s.phase n).gen with dlNew := some true, dlFail := false } ∧ PhasesBut n s t ∧
      SameBut [.clk, .phases] s t := by
  let clocked : State := s.modClk fun c => { c with dlLast := n.val, dlTap := tap }
  have hexec : exec (.dlcal n true tap) s =
      .next (clocked.modGen n fun g => { g with dlNew := some true, dlFail := false }) := by
    show execDlcal n true tap s = _
    rw [execDlcal, if_neg (by simp [hrun, hlive, Option.isSome_iff_ne_none.mp hrail])]
    rfl
  have hclocked : SameBut [.clk] s clocked := State.modClk_same ..
  refine ⟨_, hexec, rfl, congrArg PhaseState.gen (State.phase_modGen_self clocked ..),
    State.phasesBut_modPhase clocked n _, ?_⟩
  exact same_step (same_mono hclocked (by decide)) (State.modGen_same clocked ..) (by decide)

end

/-! TRIP_LATCH (R78) -/

/-- A skim that ends counts for the phase that it parked, and nothing else is written (R92). -/
theorem State.abortSkim_writes (s : State) (r : RailIx) : WritesOnly pulseCounters s (s.abortSkim r) := by
  unfold State.abortSkim
  split
  · exact .of_objs rfl
  next k _ =>
    have hmem := mem_pulseCounters.mpr ⟨k.phase, Ob.Phase.skimAborts, by decide, rfl⟩
    exact (WritesOnly.setObj hmem s _).trans (.of_objs rfl)

/-- The state once a phase has latched, before what that means for its rail. -/
def State.phaseLatched (s : State) (n : PhaseIx) (r : RailIx) : State := (s.abortSkim r).latchPhase n r

section
variable {s : State} {n : PhaseIx} {r : RailIx}

theorem State.phase_phaseLatched (m : PhaseIx) : (s.phaseLatched n r).phase m =
    if m = n then { s.phase n with gen := { (s.phase n).gen with
      carry := 0, tripped := true, switching := false, rise := none, fall := none, te := 0 } } else s.phase m := by
  have hphase : ∀ m, (s.abortSkim r).phase m = s.phase m := fun m =>
    congrArg (Vector.get · m) ((State.abortSkim_same s r).same .phases (by decide))
  rw [State.phaseLatched, State.phase_latchPhase, hphase, hphase]

theorem State.regulating_phaseLatched : (s.phaseLatched n r).regulating r = s.regulating r := by
  have hstand : LatchesStand s (s.phaseLatched n r) :=
    (LatchesStand.abortSkim s r).trans (.of_rails (State.rails_latchPhase ..))
  rw [State.regulating, hstand.rseq]
  rfl

theorem State.phaseLatched_logs : Logs s (s.phaseLatched n r) Code.tripLatch Ob.clsPhase n.val 0 [BitVec.ofNat 8 r.val] := by
  have hskim := State.abortSkim_same s r
  obtain ⟨v, hrecd, hnvm, hlogs⟩ := State.latchPhase_logs (s.abortSkim r) n r
  exact ⟨v, hrecd.trans (hskim.same .recd (by decide)), hnvm.trans (hskim.same .nvm (by decide)), hlogs⟩

theorem State.phaseLatched_counts (hok : StoreOk s.objs) :
    Counts s (s.phaseLatched n r) Ob.clsPhase n.val Ob.Phase.tripLatches := by
  have hwrites := State.abortSkim_writes s r
  have hobj := hwrites.obj_eq hok (cls := Ob.clsPhase) (inst := n.val) (item := Ob.Phase.tripLatches)
    (pulseCounters_ne (by omega) (by decide) (.inr (by decide)))
  have hcounts := State.latchPhase_counts (hwrites.ok hok) n r
  rwa [Counts, hobj] at hcounts

/-- TRIP_LATCH of a phase at its limit: the phase latches, and then perhaps its rail. -/
theorem tripLatch_exec (hrail : s.phaseRail n = some r) (hfree : (s.phase n).gen.tripped = false)
    (hsome : 0 < (s.phase n).gen.tripCount) (hlimit : s.phaseN n.val Ob.Phase.tripN ≤ (s.phase n).gen.tripCount) :
    exec (.tripLatch n) s = .next (if s.active n && (s.phaseLatched n r).regulating r &&
        ((s.phaseLatched n r).activeOf r).isEmpty
      then (s.phaseLatched n r).latchRail r .tripLatch Code.tripLatch Ob.clsRail r.val 0 (leBytes 1 n.val)
      else s.phaseLatched n r) := by
  show execTripLatch n s = _
  simp only [execTripLatch, hrail]
  rw [if_neg (by simp [hfree]; omega)]
  rfl

/-- The last active phase of a rail takes the rail along (R78). -/
theorem State.latchRail_of_lastActive (hok : StoreOk s.objs) (hrail : s.phaseRail n = some r) (honly : s.activeOf r = [n])
    (hskim : (s.rail r).plc.skim = none) (hfree : s.latchedOff r = false) :
    (s.active n && (s.phaseLatched n r).regulating r && ((s.phaseLatched n r).activeOf r).isEmpty) = true ∧
      (s.phaseLatched n r).latchedOff r = false := by
  have hstands : s.phaseLatched n r = s.latchPhase n r := by simp [State.phaseLatched, State.abortSkim, hskim]
  have hactive : s.active n = true := (List.mem_filter.mp (honly ▸ List.mem_singleton_self n : n ∈ s.activeOf r)).2
  have hempty : (s.phaseLatched n r).activeOf r = [] := hstands ▸ State.activeOf_latchPhase hok honly
  refine ⟨?_, ?_⟩
  · rw [State.regulating_phaseLatched, hempty, hactive, State.regulating_of_active hrail hactive]
    rfl
  · rw [hstands, State.latchedOff, State.rail, State.rails_latchPhase]
    exact hfree

theorem tripLatch_latches (hrail : s.phaseRail n = some r) (hfree : (s.phase n).gen.tripped = false)
    (hsome : 0 < (s.phase n).gen.tripCount) (hlimit : s.phaseN n.val Ob.Phase.tripN ≤ (s.phase n).gen.tripCount) :
    Completes (.tripLatch n) s fun t =>
      (t.phase n).gen.tripped = true ∧ (t.phase n).gen.switching = false ∧ (t.phase n).gen.te = 0 ∧
        (s.regulating r = false → Logs s t Code.tripLatch Ob.clsPhase n.val 0 [BitVec.ofNat 8 r.val] ∧ PhasesBut n s t ∧
          (Orderly s → Counts s t Ob.clsPhase n.val Ob.Phase.tripLatches)) ∧
        (Orderly s → s.activeOf r = [n] → (s.rail r).plc.skim = none → s.latchedOff r = false →
          t.latchedOff r = true ∧ t.regulating r = false) := by
  have hphase := (State.phase_phaseLatched (s := s) (r := r) n).trans (if_pos rfl)
  have hgens : GensStand (s.phaseLatched n r) (if s.active n && (s.phaseLatched n r).regulating r &&
      ((s.phaseLatched n r).activeOf r).isEmpty
      then (s.phaseLatched n r).latchRail r .tripLatch Code.tripLatch Ob.clsRail r.val 0 (leBytes 1 n.val)
      else s.phaseLatched n r) := rel_ite (.latchRail ..) (.refl _)
  refine ⟨_, tripLatch_exec hrail hfree hsome hlimit, ?_, ?_, ?_, fun hoff => ?_, fun hs honly hskim hlatch => ?_⟩
  · rw [hgens.tripped, hphase]
  · rw [hgens.switching, hphase]
  · rw [hgens.te, hphase]
  · rw [if_neg (by simp [State.regulating_phaseLatched, hoff])]
    exact ⟨State.phaseLatched_logs, fun m hm => (State.phase_phaseLatched m).trans (if_neg hm),
      fun hs => State.phaseLatched_counts hs.store⟩
  · obtain ⟨hlast, hfreeRail⟩ := State.latchRail_of_lastActive hs.store hrail honly hskim hlatch
    rw [if_pos hlast]
    exact State.latchRail_off (by decide) hfreeRail ..

end

/-- Settles O39: `State.phase_phaseLatched` says what the latch makes of the phase, `GensStand.latchRail` that the rail's part
leaves it, and `State.latchRail_of_lastActive` when the rail follows. -/
theorem tripsUnlockAndCalibration : Obligations.TripsUnlockAndCalibration :=
  ⟨fun _ _ => ⟨cleanRunLeak_leaks, fun _ => tripLatch_latches⟩, fun _ _ => ⟨fun _ => hsunlockExpiry_disarms,
    fun _ hrun hlive hrail => ⟨dlcal_spans hrun hlive hrail, dlcal_fails hrun hlive hrail⟩⟩⟩

end Sys2Proof.Machine
end

section
/-! PERIOD_START (02 R33, 03 R59 to R71, R123): what a period start makes of a generator, and what it leaves alone. -/

namespace Sys2Proof.Machine

/-! What belongs to a period of a phase -/

/-- From s to t no other phase and no other rail changes, and the object store takes only counts of pulses and skims. -/
structure PeriodFrame (n : PhaseIx) (r : RailIx) (s t : State) : Prop where
  phases : PhasesBut n s t
  rails : RailsBut r s t
  writes : WritesOnly pulseCounters s t

namespace PeriodFrame

variable {n : PhaseIx} {r : RailIx} {s a b : State}

theorem refl (s : State) : PeriodFrame n r s s := ⟨fun _ _ => rfl, fun _ _ => rfl, .of_objs rfl⟩

theorem trans (h : PeriodFrame n r s a) (h' : PeriodFrame n r a b) : PeriodFrame n r s b :=
  ⟨fun m hm => (h'.phases m hm).trans (h.phases m hm), fun q hq => (h'.rails q hq).trans (h.rails q hq),
    h.writes.trans h'.writes⟩

theorem modPhase (s : State) (f : PhaseState → PhaseState) : PeriodFrame n r s (s.modPhase n f) :=
  ⟨State.phasesBut_modPhase s n f, fun _ _ => rfl, .of_objs rfl⟩

theorem modRail (s : State) (f : RailState → RailState) : PeriodFrame n r s (s.modRail r f) :=
  ⟨fun _ _ => rfl, State.railsBut_modRail s r f, .of_objs rfl⟩

theorem countN {k : PhaseIx} {item : Nat} (hitem : item ∈ pulseItems) (s : State) (i : Nat) :
    PeriodFrame n r s (s.countN Ob.clsPhase k.val item i) :=
  ⟨fun _ _ => rfl, fun _ _ => rfl, .setObj (mem_pulseCounters.mpr ⟨k, item, hitem, rfl⟩) s _⟩

theorem dropCarry (s : State) : PeriodFrame n r s (s.dropCarry n) :=
  rel_ite (refl s) ((countN (by decide) s 1).trans (modPhase _ _))

theorem abortSkim (s : State) : PeriodFrame n r s (s.abortSkim r) := by
  unfold State.abortSkim
  split
  · exact refl s
  next k _ => exact (countN (k := k.phase) (by decide) s 1).trans (modRail _ _)

theorem abortPassive (s : State) : PeriodFrame n r s (s.abortPassive r) := by
  unfold State.abortPassive
  split
  · exact refl s
  next k _ => exact (countN (k := k.phase) (by decide) s 1).trans (modRail _ _)

theorem idlePeriod (s : State) : PeriodFrame n r s (s.idlePeriod n) := (dropCarry s).trans (modPhase _ _)

theorem pulsePeriod (s : State) (set : PhaseSet) (d p : Nat) : PeriodFrame n r s (s.pulsePeriod n set d p) := by
  unfold State.pulsePeriod
  extract_lets duty q hemmed dropped discarded
  have hhemmed : PeriodFrame n r s hemmed := countN (by decide) s _
  have hdropped : PeriodFrame n r hemmed dropped := countN (by decide) hemmed _
  have hdiscarded : PeriodFrame n r dropped discarded := countN (by decide) dropped _
  exact hhemmed.trans (hdropped.trans (hdiscarded.trans (modPhase _ _)))

theorem startCarrier (s : State) : PeriodFrame n r s (s.startCarrier n r) := by
  unfold State.startCarrier
  extract_lets set p ofs start target err len act carried
  have hcarried : PeriodFrame n r s carried := modPhase s _
  exact rel_ite (hcarried.trans (modRail carried _)) hcarried

theorem beginSkim (s : State) : PeriodFrame n r s (s.beginSkim n r) := rel_ite (modRail s _) (refl s)

theorem startPeriod (s : State) : PeriodFrame n r s (s.startPeriod n r) := by
  unfold State.startPeriod
  extract_lets ended start d begun want forced g
  have hended : PeriodFrame n r s ended := modPhase s _
  have hbegun : PeriodFrame n r ended begun := (startCarrier ended).trans (beginSkim _)
  have hforced : PeriodFrame n r begun forced := modPhase begun _
  exact hended.trans (hbegun.trans (hforced.trans (rel_ite (pulsePeriod forced ..) (idlePeriod forced))))

theorem forceChange (s : State) (was : Bool) : PeriodFrame n r s (s.forceChange n r was) := by
  unfold State.forceChange
  extract_lets now aborted
  have haborted : PeriodFrame n r s aborted := abortSkim s
  refine rel_ite ?_ (rel_ite (modPhase s _) (refl s))
  split
  · exact haborted.trans (rel_ite (abortPassive aborted) (refl aborted))
  · exact haborted

end PeriodFrame

/-! The generator of the phase -/

/-- What a period start makes of a generator that was `g`: the settings and the force act from here, the schedule moves on by
the period's length (R33, R59, R71, R77). -/
structure PeriodStarted (set : PhaseSet) (g h : GenState) : Prop where
  settings : h.set = set
  forceOn : h.forceOn = g.force
  forceOnDuty : h.forceOnDuty = g.forceDuty
  startTick : h.startTick = g.nextStart
  nextStart : h.nextStart = h.startTick + h.thisPeriod
  trLatched : h.trLatched = false
  cleanRun : g.issued = true ∧ g.trLatched = false → h.cleanRun = g.cleanRun + 1

/-- The carrier's part of a start takes the settings and moves the schedule on; the force, the trip and the clean run stand. -/
structure CarrierStarted (set : PhaseSet) (g h : GenState) : Prop where
  settings : h.set = set
  startTick : h.startTick = g.nextStart
  nextStart : h.nextStart = h.startTick + h.thisPeriod
  force : h.force = g.force
  forceDuty : h.forceDuty = g.forceDuty
  trLatched : h.trLatched = g.trLatched
  cleanRun : h.cleanRun = g.cleanRun

theorem State.gen_startCarrier (s : State) (n : PhaseIx) (r : RailIx) :
    CarrierStarted (s.genSettings n r) (s.phase n).gen ((s.startCarrier n r).phase n).gen := by
  unfold State.startCarrier
  extract_lets set p ofs start target err len act carried
  have hrail (c : Prop) [Decidable c] (f : RailState → RailState) :
      (if c then carried.modRail r f else carried).phase n = carried.phase n := by
    split <;> rfl
  have hcarried : carried.phase n = _ := State.phase_modGen_self s n _
  rw [hrail, hcarried]
  exact ⟨rfl, rfl, rfl, rfl, rfl, rfl, rfl⟩

theorem State.phase_beginSkim (s : State) (n : PhaseIx) (r : RailIx) (m : PhaseIx) : (s.beginSkim n r).phase m = s.phase m :=
  congrArg (Vector.get · m) ((State.beginSkim_same ..).same .phases (by decide))

/-- A period that does not switch has no pulse and no carry; the settings, the force, the schedule and the clean run stand. -/
theorem State.gen_idlePeriod (s : State) (n : PhaseIx) : ((s.idlePeriod n).phase n).gen = { (s.phase n).gen with
    carry := 0, switching := false, rise := none, fall := none, te := 0, midDue := false } := by
  rw [State.idlePeriod, State.phase_modGen_self, State.phase_dropCarry, if_pos rfl]

theorem State.started_pulsePeriod {s : State} {n : PhaseIx} {set' : PhaseSet} {g : GenState}
    (h : PeriodStarted set' g (s.phase n).gen) (set : PhaseSet) (d p : Nat) :
    PeriodStarted set' g ((s.pulsePeriod n set d p).phase n).gen ∧
      ((s.pulsePeriod n set d p).phase n).gen.switching = true := by
  unfold State.pulsePeriod
  extract_lets duty q hemmed dropped discarded
  have hphase : discarded.phase n = s.phase n := rfl
  rw [State.phase_modGen_self, hphase]
  exact ⟨⟨h.settings, h.forceOn, h.forceOnDuty, h.startTick, h.nextStart, h.trLatched, h.cleanRun⟩, rfl⟩

/-- What a period start makes of its generator, and that a period without switching has neither a pulse nor a carry (R68). -/
theorem State.gen_startPeriod (s : State) (n : PhaseIx) (r : RailIx) :
    PeriodStarted (s.genSettings n r) (s.phase n).gen ((s.startPeriod n r).phase n).gen ∧
      (((s.startPeriod n r).phase n).gen.switching = false →
        ((s.startPeriod n r).phase n).gen.te = 0 ∧ ((s.startPeriod n r).phase n).gen.carry = 0) := by
  unfold State.startPeriod
  extract_lets ended start d begun want forced g
  have hended : ended.phase n = _ := State.phase_modGen_self s n _
  have hcarrier : CarrierStarted (s.genSettings n r) (ended.phase n).gen (begun.phase n).gen := by
    rw [State.phase_beginSkim]
    exact State.gen_startCarrier ended n r
  have hforced : forced.phase n = _ := State.phase_modGen_self begun n _
  have hstarted : PeriodStarted (s.genSettings n r) (s.phase n).gen (forced.phase n).gen := by
    rw [hended] at hcarrier
    rw [hforced]
    refine ⟨hcarrier.settings, hcarrier.force, hcarrier.forceDuty, hcarrier.startTick, hcarrier.nextStart, hcarrier.trLatched,
      fun hclean => hcarrier.cleanRun.trans ?_⟩
    simp [hclean]
  split
  · obtain ⟨hpulse, hswitching⟩ :=
      State.started_pulsePeriod hstarted g.set (if g.forceOn == .duty then g.forceOnDuty else d) g.thisPeriod
    exact ⟨hpulse, fun hoff => absurd (hswitching.symm.trans hoff) (by decide)⟩
  · rw [State.gen_idlePeriod]
    exact ⟨⟨hstarted.settings, hstarted.forceOn, hstarted.forceOnDuty, hstarted.startTick, hstarted.nextStart,
      hstarted.trLatched, hstarted.cleanRun⟩, fun _ => ⟨rfl, rfl⟩⟩

/-- What a change of the force means for a rail is not in the generator (R73). -/
theorem State.gen_forceChange (s : State) (n : PhaseIx) (r : RailIx) (was : Bool) :
    ((s.forceChange n r was).phase n).gen = (s.phase n).gen := by
  have hrails : ∀ {a b : State}, SameBut [.objs, .rails] a b → b.phase n = a.phase n := fun h =>
    congrArg (Vector.get · n) (h.same .phases (by decide))
  unfold State.forceChange
  extract_lets now aborted
  have haborted : aborted.phase n = s.phase n := hrails (State.abortSkim_same s r)
  split
  · split
    · split
      · rw [hrails (State.abortPassive_same aborted r), haborted]
      · rw [haborted]
    · rw [haborted]
  split
  · rw [State.modSense_eq, State.phase_modPhase_self]
  · rfl

/-! What the start of a period leaves to comparators and trips (R75, R213) -/

/-- A phase that no comparator refers to clears none. -/
theorem State.cmpPeriod_of_noRef {s : State} {n : PhaseIx} (h : ∀ c, s.refPhase c ≠ some n) : s.cmpPeriod n = s := by
  unfold State.cmpPeriod
  extract_lets tick
  refine rel_forEach (R := fun a b : State => (∀ c, a.refPhase c ≠ some n) → b = a) (fun _ _ => rfl)
    (fun hab hbc ha => (hbc (hab ha ▸ ha)).trans (hab ha)) (fun c _ a ha => ?_) s h
  rw [if_neg (by simp [ha c])]

theorem State.startTrip_of_noTrip {s : State} {n : PhaseIx} (h : s.tripAsserted n = false) : s.startTrip n = s := by
  simp [State.startTrip, h]

section
variable {s t : State} (hok : StoreOk s.objs) (h : WritesOnly pulseCounters s t)
include hok h

theorem WritesOnly.refPhase_eq (c : CmpIx) : t.refPhase c = s.refPhase c := by
  have hobj := h.obj_eq hok (cls := Ob.clsCmp) (inst := c.val) (item := Ob.Cmp.refph)
    (pulseCounters_ne (by omega) (by decide) (.inl (by decide)))
  unfold State.refPhase State.cmpN
  rw [hobj]

theorem WritesOnly.tripAsserted_eq (hcmps : t.cmps = s.cmps) (n : PhaseIx) : t.tripAsserted n = s.tripAsserted n := by
  have hobj := h.obj_eq hok (cls := Ob.clsPhase) (inst := n.val) (item := Ob.Phase.tripsel)
    (pulseCounters_ne (by omega) (by decide) (.inr (by decide)))
  simp only [State.tripAsserted, State.cmp, hobj, hcmps]

end

/-! The command -/

section
variable {s : State} {n : PhaseIx} {r : RailIx}

theorem State.placeCarrier_of_placed (hplaced : (s.phase n).gen.placed = true) : s.placeCarrier n r = s := if_pos hplaced

theorem periodStart_starts (hok : StoreOk s.objs) (hrail : s.phaseRail n = some r) (hrun : s.framesRun = true)
    (hplaced : (s.phase n).gen.placed = true) (hfree : (s.phase n).gen.frozen = none) (hdue : s.startDue n = true)
    (hnoRef : ∀ c, s.refPhase c ≠ some n) (hnoTrip : s.tripAsserted n = false) :
    Completes (.periodStart n false) s fun t =>
      let g := (s.phase n).gen
      let h := (t.phase n).gen;
      h.set = s.genSettings n r ∧ h.forceOn = g.force ∧ h.forceOnDuty = g.forceDuty ∧ h.startTick = g.nextStart ∧
        h.nextStart = h.startTick + h.thisPeriod ∧ h.trLatched = false ∧ (h.switching = false → h.te = 0 ∧ h.carry = 0) ∧
        (g.issued = true ∧ g.trLatched = false → h.cleanRun = g.cleanRun + 1) ∧ PhasesBut n s t ∧ RailsBut r s t ∧
        SameBut [.objs, .phases, .rails] s t := by
  let u : State := (s.startPeriod n r).forceChange n r (s.forced n)
  have hframe : PeriodFrame n r s u := (PeriodFrame.startPeriod s).trans (.forceChange _ _)
  have hsame : SameBut [.objs, .phases, .rails] s u :=
    same_step (State.startPeriod_same s n r) (State.forceChange_same _ n r _) (by decide)
  have hcmp : u.cmpPeriod n = u := State.cmpPeriod_of_noRef fun c => by
    rw [hframe.writes.refPhase_eq hok]
    exact hnoRef c
  have htrip : u.startTrip n = u := State.startTrip_of_noTrip <| by
    rw [hframe.writes.tripAsserted_eq hok (hsame.same .cmps (by decide)), hnoTrip]
  have hexec : exec (.periodStart n false) s = .next u := by
    show execPeriodStart n false s = _
    simp only [execPeriodStart, hrail]
    rw [if_neg (by simp [hrun, hfree]), State.placeCarrier_of_placed hplaced, if_neg (by decide), if_pos hdue, hcmp, ite_self,
      htrip]
  have hgen : (u.phase n).gen = ((s.startPeriod n r).phase n).gen := State.gen_forceChange ..
  obtain ⟨hstarted, hidle⟩ := State.gen_startPeriod s n r
  rw [← hgen] at hstarted hidle
  exact ⟨u, hexec, hstarted.settings, hstarted.forceOn, hstarted.forceOnDuty, hstarted.startTick, hstarted.nextStart,
    hstarted.trLatched, hidle, hstarted.cleanRun, hframe.phases, hframe.rails, hsame⟩

/-- A mid reload places the falling edge and takes the duty; the rising edge, the force and the schedule stand (R63, R71). -/
theorem State.gen_midReload (s : State) (n : PhaseIx) : PhasesBut n s (s.midReload n) ∧
    ((s.midReload n).phase n).gen.midDue = false ∧ ((s.midReload n).phase n).gen.forceOn = (s.phase n).gen.forceOn ∧
    ((s.midReload n).phase n).gen.rise = (s.phase n).gen.rise ∧
    ((s.midReload n).phase n).gen.startTick = (s.phase n).gen.startTick := by
  unfold State.midReload
  extract_lets g p d comp dtHl dtLh loaded
  have hbut : PhasesBut n s loaded := State.phasesBut_modPhase s n _
  have hloaded : loaded.phase n = _ := State.phase_modGen_self s n _
  split
  · rw [hloaded]
    exact ⟨hbut, rfl, rfl, rfl, rfl⟩
  split
  · rw [hloaded]
    exact ⟨hbut, rfl, rfl, rfl, rfl⟩
  · extract_lets q
    let counted : State := loaded.countN Ob.clsPhase n.val Ob.Phase.hems q.2
    have hcounted : counted.phase n = loaded.phase n := rfl
    rw [State.phase_modGen_self, hcounted, hloaded]
    exact ⟨fun m hm => (State.phasesBut_modPhase counted n _ m hm).trans (hbut m hm), rfl, rfl, rfl, rfl⟩

theorem periodStart_mid (hrail : s.phaseRail n = some r) (hrun : s.framesRun = true) (hplaced : (s.phase n).gen.placed = true)
    (hfree : (s.phase n).gen.frozen = none) (hdue : (s.phase n).gen.midDue = true)
    (hframe : (s.phase n).gen.startTick + (s.phase n).gen.thisPeriod / 2 < s.frameTick + 6400) :
    Completes (.periodStart n true) s fun t => (t.phase n).gen.midDue = false ∧
      (t.phase n).gen.forceOn = (s.phase n).gen.forceOn ∧ (t.phase n).gen.rise = (s.phase n).gen.rise ∧
      (t.phase n).gen.startTick = (s.phase n).gen.startTick ∧ PhasesBut n s t ∧ SameBut [.objs, .phases] s t := by
  have hexec : exec (.periodStart n true) s = .next (s.midReload n) := by
    show execPeriodStart n true s = _
    simp only [execPeriodStart, hrail]
    rw [if_neg (by simp [hrun, hfree]), State.placeCarrier_of_placed hplaced, if_pos trivial, if_pos (by simp [hdue, hframe])]
  obtain ⟨hbut, hmid, hforce, hrise, hstart⟩ := State.gen_midReload s n
  exact ⟨_, hexec, hmid, hforce, hrise, hstart, hbut, State.midReload_same s n⟩

theorem periodStart_frozen (hrail : s.phaseRail n = some r) (hfrozen : (s.phase n).gen.frozen ≠ none) (mid : Bool) :
    Completes (.periodStart n mid) s fun t => t = s := by
  have hexec : exec (.periodStart n mid) s = .next s := by
    show execPeriodStart n mid s = _
    simp only [execPeriodStart, hrail]
    rw [if_pos (by simp [Option.isSome_iff_ne_none.mpr hfrozen])]
  exact ⟨s, hexec, rfl⟩

end

/-- Settles O37: `State.gen_startPeriod` and `State.gen_midReload` say what becomes of the generator; the comparators and the
trip inputs have no part, since the start of a period writes only counters (`PeriodFrame`). -/
theorem periodStarts : Obligations.PeriodStarts := fun _ _ _ hs hrail hrun hplaced =>
  ⟨periodStart_starts hs.store hrail hrun hplaced, periodStart_mid hrail hrun hplaced, periodStart_frozen hrail⟩

end Sys2Proof.Machine
end

section
/-! The pulse of a period (03 R61, R67): what the minimum-pulse rule keeps of the limits and what it carries. -/

namespace Sys2Proof.Machine

section
variable {hem : Bool} {d t p c tMin lMin tMax : Nat}

/-! Drop, hem or issue -/

/-- Without a duty there is neither a pulse nor a carry. -/
theorem pulseShort_of_noDuty : (pulseShort hem 0 t c tMin tMax).te = 0 ∧ (pulseShort hem 0 t c tMin tMax).carry = 0 := ⟨rfl, rfl⟩

/-- Without HEM a pulse that is too short is dropped, and the carry takes all of it. -/
theorem pulseShort_of_drop (hd : d ≠ 0) (hshort : t + c < tMin) :
    pulseShort false d t c tMin tMax = ⟨0, t + c, 0, 1, 0⟩ := by
  simp [pulseShort, hd, hshort, Nat.min_eq_left hshort.le]

/-- With HEM it is widened to the minimum, and the carry stands. -/
theorem pulseShort_of_hem (hd : d ≠ 0) (hshort : t + c < tMin) :
    pulseShort true d t c tMin tMax = ⟨tMin, c, 1, 0, 0⟩ := by
  simp [pulseShort, hd, hshort]

/-- A pulse that is wide enough is issued up to its limit, with the carry in it. -/
theorem pulseShort_of_wide (hd : d ≠ 0) (hwide : tMin ≤ t + c) :
    (pulseShort hem d t c tMin tMax).te = min (t + c) tMax ∧ (pulseShort hem d t c tMin tMax).carry = 0 := by
  simp [pulseShort, hd, Nat.not_lt.mpr hwide]

theorem pulseShort_te (hmax : tMin ≤ tMax) : (pulseShort hem d t c tMin tMax).te = 0 ∨
    tMin ≤ (pulseShort hem d t c tMin tMax).te ∧ (pulseShort hem d t c tMin tMax).te ≤ tMax := by
  by_cases hd : d = 0
  · rw [hd]
    exact .inl pulseShort_of_noDuty.1
  rcases Nat.lt_or_ge (t + c) tMin with hshort | hwide
  · cases hem with
    | false =>
      rw [pulseShort_of_drop hd hshort]
      exact .inl rfl
    | true =>
      rw [pulseShort_of_hem hd hshort]
      exact .inr ⟨le_rfl, hmax⟩
  · rw [(pulseShort_of_wide hd hwide).1]
    exact .inr ⟨Nat.le_min.mpr ⟨hwide, hmax⟩, Nat.min_le_right _ _⟩

/-! The off-time -/

/-- The off-time cuts the pulse of any duty but 0xFFFF. -/
theorem pulseOf_te (hp : lMin ≤ p) : (pulseOf hem d p c tMin lMin tMax).te =
    if d = 65535 then (pulseShort hem d (onTime d p) c tMin tMax).te
    else min (pulseShort hem d (onTime d p) c tMin tMax).te (p - lMin) := by
  let q := pulseShort hem d (onTime d p) c tMin tMax
  show (if d ≠ 65535 ∧ p < q.te + lMin then { q with te := p - lMin, hems := q.hems + 1 } else q).te =
    if d = 65535 then q.te else min q.te (p - lMin)
  by_cases hd : d = 65535
  · rw [if_pos hd, if_neg fun h => h.1 hd]
  rw [if_neg hd]
  by_cases htight : p < q.te + lMin
  · rw [if_pos ⟨hd, htight⟩, Nat.min_eq_right (by omega)]
  · rw [if_neg fun h => htight h.2, Nat.min_eq_left (by omega)]

/-- It moves no carry and drops nothing. -/
theorem pulseOf_carry : (pulseOf hem d p c tMin lMin tMax).carry = (pulseShort hem d (onTime d p) c tMin tMax).carry ∧
    (pulseOf hem d p c tMin lMin tMax).drops = (pulseShort hem d (onTime d p) c tMin tMax).drops := by
  unfold pulseOf
  extract_lets q
  split <;> exact ⟨rfl, rfl⟩

/-- A pulse that the rule does not issue stays away. -/
theorem pulseOf_te_of_none (hp : lMin ≤ p) (hnone : (pulseShort hem d (onTime d p) c tMin tMax).te = 0) :
    (pulseOf hem d p c tMin lMin tMax).te = 0 := by
  simp [pulseOf_te hp, hnone]

end

/-- Settles O36: R67's first part (`pulseShort_te`, `pulseShort_of_drop`) gives a pulse of 0 or at least T_min, and the cut to
the off-time (`pulseOf_te`) leaves T_min of it, since T_min and L_min fit into a period. -/
theorem pulsesKeepTheirLimits : Obligations.PulsesKeepTheirLimits := by
  intro hem d p c tMin lMin tMax hpos hmax hfit q
  have hp : lMin ≤ p := by omega
  have hte : q.te = _ := pulseOf_te hp
  have hissued := pulseShort_te (hem := hem) (d := d) (t := onTime d p) (c := c) hmax
  obtain ⟨hcarry, hdrops⟩ := pulseOf_carry (hem := hem) (d := d) (p := p) (c := c) (tMin := tMin) (lMin := lMin) (tMax := tMax)
  refine ⟨?_, fun hd => ?_, ?_, fun hd => ?_, fun hhem hd hshort => ?_, fun hwide => ?_⟩
  · split at hte <;> omega
  · rw [if_neg hd] at hte
    omega
  · split at hte <;> omega
  · subst hd
    exact ⟨pulseOf_te_of_none hp pulseShort_of_noDuty.1, hcarry.trans pulseShort_of_noDuty.2⟩
  · subst hhem
    have hdrop := pulseShort_of_drop (tMax := tMax) hd hshort
    exact ⟨pulseOf_te_of_none hp (congrArg Pulse.te hdrop), hcarry.trans (congrArg Pulse.carry hdrop),
      hdrops.trans (congrArg Pulse.drops hdrop)⟩
  · refine hcarry.trans ?_
    by_cases hd : d = 0
    · rw [hd]
      exact pulseShort_of_noDuty.2
    · exact (pulseShort_of_wide hd hwide).2

end Sys2Proof.Machine
end

section
/-! The debug port (03 R79 to R81): what a halt holds of the outputs, and what a resume leaves of the generators. -/

namespace Sys2Proof.Machine

/-! Loops over the parts -/

/-- A loop comes to each of its elements: there is a state before it, and the loop goes on after it. -/
theorem forEach_reaches {R : State → State → Prop} (hrefl : ∀ s, R s s) (htrans : ∀ {a b c}, R a b → R b c → R a c)
    {α : Type} {l : List α} {f : State → α → State} (hf : ∀ a ∈ l, ∀ s, R s (f s a)) {x : α} (hx : x ∈ l) (s : State) :
    ∃ a, R s a ∧ R (f a x) (forEach l f s) := by
  obtain ⟨before, after, rfl⟩ := List.append_of_mem hx
  refine ⟨forEach before f s, rel_forEach hrefl htrans (fun b hb => hf b (List.mem_append_left _ hb)) s, ?_⟩
  have hsplit : forEach (before ++ x :: after) f s = forEach after f (f (forEach before f s) x) := by
    simp [forEach]
  rw [hsplit]
  exact rel_forEach hrefl htrans (fun b hb => hf b (List.mem_append_right _ (List.mem_cons_of_mem _ hb))) _

theorem State.mem_engineRails {s : State} {e : Nat} {r : RailIx} :
    r ∈ s.engineRails e ↔ s.railEn r.val = true ∧ s.railN r.val Ob.Rail.engine = e := by
  simp [State.engineRails, allRails]

theorem State.mem_phasesOf {s : State} {n : PhaseIx} {r : RailIx} : n ∈ s.phasesOf r.val ↔ s.phaseRail n = some r := by
  have hmem : n ∈ s.phasesOf r.val ↔ s.phaseN n.val Ob.Phase.rail = r.val := by
    simp [State.phasesOf, Store.phasesOf, allPhases, State.phaseN, State.obj]
  rw [hmem]
  by_cases hlt : s.phaseN n.val Ob.Phase.rail < 16
  · simp [State.phaseRail, hlt, Fin.ext_iff]
  · simp [State.phaseRail, hlt]
    omega

/-! Outputs that counts of pulses leave alone (03 R57) -/

/-- What an output depends on, but for the phase itself: from s to t only phases change, and the object store takes only
counts of pulses. -/
structure OutputFrame (s t : State) : Prop where
  same : SameBut [.objs, .phases] s t
  writes : WritesOnly pulseCounters s t

namespace OutputFrame

variable {s t : State} {n : PhaseIx}

theorem refl (s : State) : OutputFrame s s := ⟨same_refl .., .of_objs rfl⟩

theorem trans {a b c : State} (h : OutputFrame a b) (h' : OutputFrame b c) : OutputFrame a c :=
  ⟨same_step h.same h'.same fun _ hp => hp, h.writes.trans h'.writes⟩

variable (h : OutputFrame s t) (hok : StoreOk s.objs)
include h

theorem rail_eq (r : RailIx) : t.rail r = s.rail r := congrArg (Vector.get · r) (h.same.same .rails (by decide))

theorem deviceOff_eq : t.deviceOff = s.deviceOff := by
  rw [State.deviceOff, State.framesRun, h.same.same .dev (by decide)]
  rfl

include hok

theorem phaseObj_eq {item : Nat} (hbyte : item < 256) (hitem : item ∉ pulseItems) (m : PhaseIx) :
    t.obj Ob.clsPhase m.val item = s.obj Ob.clsPhase m.val item :=
  h.writes.obj_eq hok (pulseCounters_ne (by omega) hbyte (.inr hitem))

theorem railObj_eq {item : Nat} (hbyte : item < 256) (r : RailIx) :
    t.obj Ob.clsRail r.val item = s.obj Ob.clsRail r.val item :=
  h.writes.obj_eq hok (pulseCounters_ne (by omega) hbyte (.inl (by decide)))

theorem phaseRail_eq (m : PhaseIx) : t.phaseRail m = s.phaseRail m :=
  State.phaseRail_congr (h.phaseObj_eq hok (by decide) (by decide) m)

/-- A phase that did not change shows what it showed. -/
theorem outState_eq (hphase : t.phase n = s.phase n) : t.outState n = s.outState n := by
  have hrails : t.rails = s.rails := h.same.same .rails (by decide)
  have hactive : t.active n = s.active n := State.active_congr (h.phaseRail_eq hok n) hrails hphase
  have hnow : t.now = s.now := h.same.same .now (by decide)
  have hseq (r : RailIx) := h.railObj_eq hok (item := Ob.Rail.seqCtrl) (by decide) r
  have hcode : t.outCode n = s.outCode n := by
    unfold State.outCode
    rw [h.phaseRail_eq hok, hphase, hactive, h.deviceOff_eq]
    cases s.phaseRail n with
    | none => rfl
    | some r =>
      have hhiccup : t.inHiccup r = s.inHiccup r := by rw [State.inHiccup, h.rail_eq, State.inHiccup]
      have hheld : t.heldOff r = s.heldOff r := by rw [State.heldOff, h.rail_eq, State.heldOff]
      have hlatched : t.latchedOff r = s.latchedOff r := by rw [State.latchedOff, h.rail_eq, State.latchedOff]
      have hregulating : t.regulating r = s.regulating r := by rw [State.regulating, h.rail_eq, State.regulating]
      simp only [h.rail_eq, hhiccup, hheld, hlatched, hregulating, hseq]
  have hpulse (pos : Nat) : t.pulseState n pos = s.pulseState n pos := by
    have hlh := h.phaseObj_eq hok (item := Ob.Phase.dtLh) (by decide) (by decide) n
    have hhl := h.phaseObj_eq hok (item := Ob.Phase.dtHl) (by decide) (by decide) n
    unfold State.pulseState State.phaseN
    rw [hphase, hlh, hhl]
  unfold State.outState
  rw [h.phaseRail_eq hok, hcode, hphase, hnow]
  simp only [State.frameTick, hnow, hpulse, h.rail_eq]

end OutputFrame

/-- The ranks that decide an output before its force and its switching (R74). -/
theorem State.outCode_ranks {s : State} {n : PhaseIx} {r : RailIx} (hrail : s.phaseRail n = some r) :
    ∃ rest, s.outCode n =
      if s.deviceOff then 0
      else if (s.phase n).gen.tripped then 5
      else if (s.rail r).prot.crowbar && (s.phase n).gen.crowbarAt.isSome then 4
      else if (s.phase n).gen.frozen.isSome then 6
      else rest := by
  unfold State.outCode
  rw [hrail]
  exact ⟨_, rfl⟩

/-- An output shows what its generator holds, unless a higher rank decides it (R74). -/
theorem State.outState_ranks {s : State} {n : PhaseIx} {r : RailIx} (hrail : s.phaseRail n = some r) :
    s.outState n =
      if s.deviceOff then .disabled
      else if (s.phase n).gen.tripped then .disabled
      else if (s.rail r).prot.crowbar && (s.phase n).gen.crowbarAt.isSome then
        if (s.phase n).gen.crowbarAt.getD s.now ≤ s.now then .lsOn else .parked
      else (s.phase n).gen.frozen.getD (s.outState n) := by
  obtain ⟨rest, hranks⟩ := State.outCode_ranks hrail
  by_cases hoff : s.deviceOff
  · rw [if_pos hoff] at hranks ⊢
    simp only [State.outState, hrail, hranks]
  rw [if_neg hoff] at hranks ⊢
  by_cases htripped : (s.phase n).gen.tripped
  · rw [if_pos htripped] at hranks ⊢
    simp only [State.outState, hrail, hranks]
  rw [if_neg htripped] at hranks ⊢
  by_cases hcrowbar : (s.rail r).prot.crowbar && (s.phase n).gen.crowbarAt.isSome
  · rw [if_pos hcrowbar] at hranks ⊢
    simp only [State.outState, hrail, hranks]
  rw [if_neg hcrowbar] at hranks ⊢
  cases hfrozen : (s.phase n).gen.frozen with
  | none => rfl
  | some o =>
    rw [if_pos (by simp [hfrozen])] at hranks
    simp only [State.outState, hrail, hranks, hfrozen, Option.getD_some]

/-! The halt (R79, R80) -/

/-- A halt of one phase: its carry goes, and its output holds the level that it shows. -/
def State.holdOutput (s : State) (n : PhaseIx) : State :=
  (s.dropCarry n).modGen n fun g => { g with frozen := some (s.outState n) }

/-- A halt of a rail's phases. -/
def State.holdRail (s : State) (r : RailIx) : State := forEach (s.phasesOf r.val) State.holdOutput s

/-- The generator of a phase is stopped without a carry, and what it holds is what its output shows. -/
structure State.Held (s : State) (n : PhaseIx) : Prop where
  frozen : (s.phase n).gen.frozen = some (s.outState n)
  carry : (s.phase n).gen.carry = 0

theorem State.phase_holdOutput (s : State) (n m : PhaseIx) : (s.holdOutput n).phase m = if m = n then
    { s.phase n with gen := { (s.phase n).gen with carry := 0, frozen := some (s.outState n) } } else s.phase m := by
  rw [State.holdOutput, State.modGen_eq, State.phase_modPhase, State.phase_dropCarry, State.phase_dropCarry, if_pos rfl]
  split <;> rfl

theorem OutputFrame.holdOutput (s : State) (n : PhaseIx) : OutputFrame s (s.holdOutput n) :=
  ⟨same_step (State.dropCarry_same s n) (State.modGen_same ..) (by decide), (State.dropCarry_writes s n).trans (.of_objs rfl)⟩

/-- A held output shows what it showed: what outranks it (R74) does not look at what is held. -/
theorem State.outState_holdOutput {s : State} (hok : StoreOk s.objs) (n : PhaseIx) :
    (s.holdOutput n).outState n = s.outState n := by
  have hframe := OutputFrame.holdOutput s n
  have hphase : (s.holdOutput n).phase n = _ := (State.phase_holdOutput s n n).trans (if_pos rfl)
  have hnow : (s.holdOutput n).now = s.now := hframe.same.same .now (by decide)
  have hrail' := hframe.phaseRail_eq hok n
  cases hrail : s.phaseRail n with
  | none => simp only [State.outState, hrail', hrail]
  | some r =>
    have hranks := State.outState_ranks hrail
    rw [State.outState_ranks (hrail'.trans hrail), hframe.deviceOff_eq, hframe.rail_eq, hnow, hphase]
    split_ifs at hranks ⊢
    · exact hranks.symm
    · exact hranks.symm
    · exact hranks.symm
    · exact hranks.symm
    · rfl

/-- From s to t outputs that were held stay held, and every output shows what it showed. -/
structure OutputsStand (s t : State) : Prop where
  frame : OutputFrame s t
  shows : StoreOk s.objs → ∀ n, t.outState n = s.outState n
  held : StoreOk s.objs → ∀ n, s.Held n → t.Held n

namespace OutputsStand

theorem refl (s : State) : OutputsStand s s := ⟨.refl s, fun _ _ => rfl, fun _ _ h => h⟩

theorem trans {a b c : State} (h : OutputsStand a b) (h' : OutputsStand b c) : OutputsStand a c :=
  ⟨h.frame.trans h'.frame, fun hok n => (h'.shows (h.frame.writes.ok hok) n).trans (h.shows hok n),
    fun hok n hn => h'.held (h.frame.writes.ok hok) n (h.held hok n hn)⟩

end OutputsStand

theorem State.held_holdOutput {s : State} (hok : StoreOk s.objs) (n : PhaseIx) : (s.holdOutput n).Held n := by
  have hphase : (s.holdOutput n).phase n = _ := (State.phase_holdOutput s n n).trans (if_pos rfl)
  constructor
  · rw [State.outState_holdOutput hok, hphase]
  · rw [hphase]

theorem OutputsStand.holdOutput (s : State) (n : PhaseIx) : OutputsStand s (s.holdOutput n) := by
  have hframe := OutputFrame.holdOutput s n
  have hother {m : PhaseIx} (hm : m ≠ n) : (s.holdOutput n).phase m = s.phase m :=
    (State.phase_holdOutput s n m).trans (if_neg hm)
  refine ⟨hframe, fun hok m => ?_, fun hok m hheld => ?_⟩
  · by_cases hm : m = n
    · rw [hm, State.outState_holdOutput hok]
    · exact hframe.outState_eq hok (hother hm)
  · by_cases hm : m = n
    · exact hm ▸ State.held_holdOutput hok n
    · exact ⟨by rw [hother hm, hframe.outState_eq hok (hother hm), hheld.frozen], by rw [hother hm, hheld.carry]⟩

theorem OutputsStand.holdRail (s : State) (r : RailIx) : OutputsStand s (s.holdRail r) :=
  rel_forEach .refl .trans (fun n _ s => .holdOutput s n) s

/-- A halt of rails holds the output of each of their phases. -/
theorem held_forEach_holdRail {s : State} (hok : StoreOk s.objs) {l : List RailIx} {r : RailIx} (hr : r ∈ l) {n : PhaseIx}
    (hrail : s.phaseRail n = some r) : (forEach l State.holdRail s).Held n := by
  obtain ⟨a, hbefore, hafter⟩ := forEach_reaches .refl .trans (fun r _ s => OutputsStand.holdRail s r) hr s
  have haok := hbefore.frame.writes.ok hok
  have hn : n ∈ a.phasesOf r.val := State.mem_phasesOf.mpr ((hbefore.frame.phaseRail_eq hok n).trans hrail)
  obtain ⟨b, hbefore', hafter'⟩ := forEach_reaches .refl .trans (fun n _ s => OutputsStand.holdOutput s n) hn a
  have hbok := hbefore'.frame.writes.ok haok
  have hheld := hafter'.held ((OutputFrame.holdOutput b n).writes.ok hbok) n (State.held_holdOutput hbok n)
  exact hafter.held ((OutputsStand.holdRail a r).frame.writes.ok haok) n hheld

/-- The state with an engine halted or running. -/
def State.setHalted (s : State) (e : EngineIx) (b : Bool) : State :=
  { s with dev := { s.dev with halted := vset s.dev.halted e b } }

theorem State.setHalted_halted (s : State) (e : EngineIx) (b : Bool) : (s.setHalted e b).dev.halted.get e = b ∧
    ∀ f, f ≠ e → (s.setHalted e b).dev.halted.get f = s.dev.halted.get f :=
  ⟨vset_get_self .., fun _ hf => (vset_get ..).trans (if_neg hf)⟩

theorem State.setHalted_same (s : State) (e : EngineIx) (b : Bool) : SameBut [.dev] s (s.setHalted e b) :=
  ⟨fun p hp => by cases p <;> simp [Area.Same, State.setHalted] at hp ⊢⟩

theorem debugHalt_forbidden {s : State} {e : EngineIx} (h : s.dev.dbgen = false ∨ s.obj Ob.clsDev 0 Ob.Dev.dbgPermit = 0) :
    Completes (.debugHalt e) s fun t => t = s := by
  have hexec : exec (.debugHalt e) s = .next s := by
    show execDebugHalt e s = _
    rw [execDebugHalt, if_pos]
    rcases h with h | h <;> simp [h]
  exact ⟨s, hexec, rfl⟩

theorem debugHalt_halts {s : State} {e : EngineIx} (hs : Orderly s) (hgen : s.dev.dbgen = true)
    (hpermit : s.obj Ob.clsDev 0 Ob.Dev.dbgPermit ≠ 0) (hruns : s.dev.halted.get e = false) (hframes : s.framesRun = true) :
    Completes (.debugHalt e) s fun t => t.dev.halted.get e = true ∧
      (∀ f, f ≠ e → t.dev.halted.get f = s.dev.halted.get f) ∧ SameBut [.objs, .phases, .dev] s t ∧
      ∀ r n, s.railEn r.val = true → s.railN r.val Ob.Rail.engine = e.val → s.phaseRail n = some r →
        (t.phase n).gen.frozen = some (s.outState n) ∧ t.outState n = s.outState n ∧ (t.phase n).gen.carry = 0 ∧
          ∀ mid, Completes (.periodStart n mid) t fun u => u = t := by
  let u : State := s.setHalted e true
  let t : State := forEach (u.engineRails e.val) State.holdRail u
  have hexec : exec (.debugHalt e) s = .next t := by
    show execDebugHalt e s = _
    rw [execDebugHalt, if_neg (by simpa [hgen, hruns, hframes] using hpermit)]
    rfl
  have hstand : OutputsStand u t := rel_forEach .refl .trans (fun r _ s => .holdRail s r) u
  have hdev := hstand.frame.same.same .dev (by decide)
  obtain ⟨hhalted, hothers⟩ := State.setHalted_halted s e true
  refine ⟨_, hexec, hdev ▸ hhalted, hdev ▸ hothers, ?_, fun r n hen hengine hrail => ?_⟩
  · exact same_step (same_mono (State.setHalted_same s e true) (by decide)) hstand.frame.same (by decide)
  · have hheld : t.Held n := held_forEach_holdRail (s := u) hs.store (State.mem_engineRails.mpr ⟨hen, hengine⟩) hrail
    have hshows := hstand.shows hs.store n
    have hrail' := (hstand.frame.phaseRail_eq hs.store n).trans hrail
    refine ⟨hheld.frozen.trans (congrArg some hshows), hshows, hheld.carry, fun mid => ?_⟩
    exact periodStart_frozen hrail' (by simp [hheld.frozen]) mid

/-! The resume (R81, R37) -/

/-- A phase takes up its schedule without a pulse. -/
def State.freePhase (s : State) (n : PhaseIx) : State :=
  (s.modGen n fun g => { g with
    frozen := none, switching := false, rise := none, fall := none, te := 0, midDue := false
    trLatched := false, issued := false }).nextOnSchedule n

/-- A rail counts no overrun in a row (R37). -/
def State.clearOverruns (s : State) (r : RailIx) : State := s.modMeas r fun m => { m with ovrCount := 0 }

/-- A resume of a rail: its overrun count, and its phases. -/
def State.freeRail (s : State) (r : RailIx) : State :=
  forEach (s.phasesOf r.val) State.freePhase (s.clearOverruns r)

/-- A phase runs on without a pulse. -/
structure State.Freed (s : State) (n : PhaseIx) : Prop where
  frozen : (s.phase n).gen.frozen = none
  switching : (s.phase n).gen.switching = false
  te : (s.phase n).gen.te = 0

/-- From s to t only phases and rails change, and what is freed stays freed. -/
structure FreedStand (s t : State) : Prop where
  same : SameBut [.phases, .rails] s t
  freed : ∀ n, s.Freed n → t.Freed n
  counts : ∀ r, (s.rail r).meas.ovrCount = 0 → (t.rail r).meas.ovrCount = 0

namespace FreedStand

theorem refl (s : State) : FreedStand s s := ⟨same_refl .., fun _ h => h, fun _ h => h⟩

theorem trans {a b c : State} (h : FreedStand a b) (h' : FreedStand b c) : FreedStand a c :=
  ⟨same_step h.same h'.same fun _ hp => hp, fun n hn => h'.freed n (h.freed n hn), fun r hr => h'.counts r (h.counts r hr)⟩

end FreedStand

theorem State.phase_freePhase_ne (s : State) {n m : PhaseIx} (hm : m ≠ n) : (s.freePhase n).phase m = s.phase m := by
  simp [State.freePhase, State.nextOnSchedule, hm]

theorem State.freed_freePhase (s : State) (n : PhaseIx) : (s.freePhase n).Freed n := by
  constructor <;> simp [State.freePhase, State.nextOnSchedule]

theorem FreedStand.freePhase (s : State) (n : PhaseIx) : FreedStand s (s.freePhase n) := by
  refine ⟨?_, fun m hfreed => ?_, fun _ h => h⟩
  · exact same_mono (same_step (State.modGen_same s ..) (State.nextOnSchedule_same ..) (fun _ h => h)) (by decide)
  · by_cases hm : m = n
    · exact hm ▸ State.freed_freePhase s n
    · have hphase := State.phase_freePhase_ne s hm
      exact ⟨hphase ▸ hfreed.frozen, hphase ▸ hfreed.switching, hphase ▸ hfreed.te⟩

theorem State.ovrCount_clearOverruns (s : State) (r : RailIx) : ((s.clearOverruns r).rail r).meas.ovrCount = 0 := by
  simp [State.clearOverruns]

theorem FreedStand.clearOverruns (s : State) (r : RailIx) : FreedStand s (s.clearOverruns r) := by
  refine ⟨same_mono (State.modMeas_same ..) (by decide), fun _ h => ⟨h.frozen, h.switching, h.te⟩, fun q hq => ?_⟩
  by_cases hqr : q = r <;> simp [State.clearOverruns, hqr, hq]

theorem FreedStand.freePhases (s : State) (r : RailIx) : FreedStand (s.clearOverruns r) (s.freeRail r) :=
  rel_forEach refl trans (fun n _ s => freePhase s n) _

theorem FreedStand.freeRail (s : State) (r : RailIx) : FreedStand s (s.freeRail r) :=
  (clearOverruns s r).trans (freePhases s r)

/-- A resume of rails clears the count of each and frees each of their phases. -/
theorem freed_forEach_freeRail (s : State) {l : List RailIx} {r : RailIx} (hr : r ∈ l) :
    ((forEach l State.freeRail s).rail r).meas.ovrCount = 0 ∧
      ∀ n, s.phaseRail n = some r → (forEach l State.freeRail s).Freed n := by
  obtain ⟨a, hbefore, hafter⟩ := forEach_reaches .refl .trans (fun r _ s => FreedStand.freeRail s r) hr s
  have hcount := (FreedStand.freePhases a r).counts r (State.ovrCount_clearOverruns a r)
  refine ⟨hafter.counts r hcount, fun n hrail => hafter.freed n ?_⟩
  have hobjs : a.objs = s.objs := hbefore.same.same .objs (by decide)
  have hn : n ∈ a.phasesOf r.val :=
    State.mem_phasesOf.mpr ((State.phaseRail_congr (State.obj_of_objs hobjs ..)).trans hrail)
  obtain ⟨b, -, hafter'⟩ :=
    forEach_reaches .refl .trans (fun n _ s => FreedStand.freePhase s n) hn (a.clearOverruns r)
  exact hafter'.freed n (State.freed_freePhase b n)

theorem debugResume_resumes {s : State} {e : EngineIx} (hhalted : s.dev.halted.get e = true) :
    Completes (.debugResume e) s fun t => t.dev.halted.get e = false ∧ SameBut [.phases, .rails, .dev] s t ∧
      ∀ r, s.railEn r.val = true → s.railN r.val Ob.Rail.engine = e.val → (t.rail r).meas.ovrCount = 0 ∧
        ∀ n, s.phaseRail n = some r → (t.phase n).gen.frozen = none ∧ (t.phase n).gen.switching = false ∧
          (t.phase n).gen.te = 0 := by
  let u : State := s.setHalted e false
  let t : State := forEach (u.engineRails e.val) State.freeRail u
  have hexec : exec (.debugResume e) s = .next t := by
    show execDebugResume e s = _
    rw [execDebugResume, if_neg (by simp [hhalted])]
    rfl
  have hstand : FreedStand u t := rel_forEach .refl .trans (fun r _ s => .freeRail s r) u
  have hdev := hstand.same.same .dev (by decide)
  refine ⟨_, hexec, hdev ▸ (State.setHalted_halted s e false).1, ?_, fun r hen hengine => ?_⟩
  · exact same_step (same_mono (State.setHalted_same s e false) (by decide)) hstand.same (by decide)
  · obtain ⟨hcount, hfreed⟩ := freed_forEach_freeRail u (State.mem_engineRails.mpr ⟨hen, hengine⟩)
    exact ⟨hcount, fun n hrail => ⟨(hfreed n hrail).frozen, (hfreed n hrail).switching, (hfreed n hrail).te⟩⟩

/-- Settles O58: both commands are loops over the rails of the engine and their phases, and come to each of them
(`forEach_reaches`); what is done to a phase there stands through the rest (`OutputsStand`, `FreedStand`). -/
theorem debugPortHaltsEngines : Obligations.DebugPortHaltsEngines := fun _ _ hs =>
  ⟨debugHalt_forbidden, debugHalt_halts hs, debugResume_resumes⟩

end Sys2Proof.Machine
end

section
/-! Effects that wait for the next frame edge (15 R310): what an accepted request leaves in the queue of effects, and the SETs
and requests that are accepted for an edge. -/

namespace Sys2Proof.Machine

/-! The parts of an acceptance -/

theorem State.exists_taken_of_request {s : State} {k : SlotIx} {q : Req × Option Nat} (h : s.request k = some q) :
    ∃ x, (s.slot k).taken = some x := by
  cases hx : (s.slot k).taken with
  | some x => exact ⟨x, rfl⟩
  | none => simp [State.request, hx] at h

/-- An active twin sends its partner one message; any other device sends nothing (R258). -/
theorem State.twin_replicate (s : State) (r : Req) :
    (s.replicate r).twin = s.twin ∨ ∃ m, (s.replicate r).twin = { s.twin with outbox := s.twin.outbox ++ [m] } := by
  unfold State.replicate State.toTwin
  split
  · split
    · exact .inl rfl
    · exact .inr ⟨_, rfl⟩
  · exact .inl rfl

theorem State.slot_startSlot (s : State) (k j : SlotIx) : (s.startSlot k).slot j = if j = k then
    { s.slot k with taken := (s.slot k).taken.map fun t => { t with started := true } } else s.slot j :=
  State.slot_modSlot ..

/-- Several effects behind those taken before (R310). -/
def State.atEdges (s : State) (as : List EdgeAction) : State := { s with edgeQueue := s.edgeQueue ++ as }

theorem State.atEdge_atEdge (s : State) (a b : EdgeAction) : (s.atEdge a).atEdge b = s.atEdges [a, b] := by
  simp [State.atEdge, State.atEdges]

theorem State.atEdges_same (s : State) (as : List EdgeAction) : SameBut [.edgeQueue] s (s.atEdges as) :=
  ⟨fun p hp => by cases p <;> simp [Area.Same, State.atEdges] at hp ⊢⟩

/-- A request that leaves its effects in the queue and starts its slot, after it was replicated or without that. -/
theorem queuesAtEdge_of_exec {c : Instr} {s u : State} {k : SlotIx} {q : Req × Option Nat} {as : List EdgeAction}
    (hreq : s.request k = some q) (hu : u = s ∨ ∃ r, u = s.replicate r)
    (hexec : exec c s = .next ((u.atEdges as).startSlot k)) : QueuesAtEdge c s k as := by
  obtain ⟨hsame, htwin⟩ : SameBut [.twin] s u ∧
      (u.twin = s.twin ∨ ∃ m, u.twin = { s.twin with outbox := s.twin.outbox ++ [m] }) := by
    rcases hu with rfl | ⟨r, rfl⟩
    · exact ⟨same_refl .., .inl rfl⟩
    · exact ⟨State.replicate_same .., State.twin_replicate s r⟩
  have hqueue : u.edgeQueue = s.edgeQueue := hsame.same .edgeQueue (by decide)
  have hmb : u.mb = s.mb := hsame.same .mb (by decide)
  have hslot (j : SlotIx) : (u.atEdges as).slot j = s.slot j := State.slot_eq_of_mb hmb j
  have hstarted (j : SlotIx) : ((u.atEdges as).startSlot k).slot j = if j = k then
      { s.slot k with taken := (s.slot k).taken.map fun t => { t with started := true } } else s.slot j := by
    rw [State.slot_startSlot, hslot, hslot]
  obtain ⟨x, hx⟩ := State.exists_taken_of_request hreq
  refine ⟨_, hexec, congrArg (· ++ as) hqueue, ?_, ?_, ⟨?_, fun j hj => ?_⟩, htwin, ?_⟩
  · rw [hstarted, if_pos rfl, hx]
    rfl
  · rw [hstarted, if_pos rfl]
  · rw [← hmb]
    rfl
  · rw [hstarted, if_neg hj]
  · exact same_step (same_step (same_mono hsame (by decide)) (State.atEdges_same u as) (by decide))
      (State.startSlot_same ..) (by decide)

/-! A SET whose effect waits -/

/-- A write that is not COEF_APPLY queues no coefficients (R114). -/
theorem State.queueCoefs_of_other {s : State} {w : ObjWrite} (h : w.obj.cls ≠ Ob.clsRail ∨ w.obj.item ≠ Ob.Rail.coefApply) :
    s.queueCoefs [w] = s := by
  rcases h with h | h <;> simp [State.queueCoefs, forEach, h]

/-- The five shadow coefficients of a rail, as an effect for the edge (R114). -/
def State.shadowCoefs (s : State) (r : RailIx) : EdgeAction :=
  .coefs r (s.obj Ob.clsRail r.val Ob.Rail.b0) (s.obj Ob.clsRail r.val Ob.Rail.b1) (s.obj Ob.clsRail r.val Ob.Rail.b2)
    (s.obj Ob.clsRail r.val Ob.Rail.a1) (s.obj Ob.clsRail r.val Ob.Rail.a2)

theorem State.shadowCoefs_of_objs {s t : State} (h : t.objs = s.objs) (r : RailIx) : t.shadowCoefs r = s.shadowCoefs r := by
  simp only [State.shadowCoefs, State.obj_of_objs h]

/-- COEF_APPLY queues the shadow coefficients as they stand (R114). -/
theorem State.queueCoefs_of_coefApply (s : State) (r : RailIx) (v : Word) :
    s.queueCoefs [⟨⟨Ob.clsRail, r.val, Ob.Rail.coefApply⟩, v⟩] = s.atEdge (s.shadowCoefs r) := by
  simp [State.queueCoefs, forEach, State.shadowCoefs]

section
variable {c : Instr} {s : State} {k : SlotIx} {cls inst item : Nat} {v : Word}

theorem State.onSet_accepted (hedge : State.edgeObj ⟨cls, inst, item⟩ v = true) (hmay : MaySet s k ⟨cls, inst, item⟩ v) :
    s.onSet k ⟨cls, inst, item⟩ v = (((s.replicate (.set ⟨⟨cls, inst, item⟩, v⟩)).atEdge
      (.write (some k) ⟨⟨cls, inst, item⟩, v⟩)).queueCoefs [⟨⟨cls, inst, item⟩, v⟩]).startSlot k := by
  obtain ⟨key, hreq, hok⟩ := hmay
  rw [State.onSet, State.onRequest_of_request hreq, State.doSet]
  simp only [hok, if_true, State.acceptSet, hedge]

/-- A row of the table that is a SET of one object with its effect at the edge. -/
theorem queuesAtEdge_set (hexec : exec c s = .next (s.onSet k ⟨cls, inst, item⟩ v))
    (hedge : State.edgeObj ⟨cls, inst, item⟩ v = true) (hother : cls ≠ Ob.clsRail ∨ item ≠ Ob.Rail.coefApply)
    (hmay : MaySet s k ⟨cls, inst, item⟩ v) : QueuesAtEdge c s k [.write (some k) ⟨⟨cls, inst, item⟩, v⟩] := by
  have hset := State.onSet_accepted hedge hmay
  rw [State.queueCoefs_of_other hother] at hset
  obtain ⟨key, hreq, -⟩ := hmay
  exact queuesAtEdge_of_exec hreq (.inr ⟨_, rfl⟩) (hset ▸ hexec)

end

theorem coefApply_queues {s : State} {k : SlotIx} {r : RailIx} {v : Word}
    (hmay : MaySet s k ⟨Ob.clsRail, r.val, Ob.Rail.coefApply⟩ v) : QueuesAtEdge (.coefApply k r v) s k
      [.write (some k) ⟨⟨Ob.clsRail, r.val, Ob.Rail.coefApply⟩, v⟩, s.shadowCoefs r] := by
  have hset := State.onSet_accepted rfl hmay
  have hobjs {a : EdgeAction} : ((s.replicate (.set ⟨⟨Ob.clsRail, r.val, Ob.Rail.coefApply⟩, v⟩)).atEdge a).objs = s.objs :=
    (State.replicate_same ..).same .objs (by decide)
  rw [State.queueCoefs_of_coefApply, State.atEdge_atEdge, State.shadowCoefs_of_objs hobjs] at hset
  obtain ⟨key, hreq, -⟩ := hmay
  exact queuesAtEdge_of_exec hreq (.inr ⟨_, rfl⟩) (congrArg Host.Outcome.next hset)

section
variable {s : State} {k : SlotIx} {r : RailIx} {v : Word}

/-- A write of TUNE_CTRL waits where it has LT_RESET (R157). -/
theorem ltReset_queues (hreset : bit v 2 = true) (hmay : MaySet s k ⟨Ob.clsRail, r.val, Ob.Rail.tuneCtrl⟩ v) :
    QueuesAtEdge (.ltReset k r v) s k [.write (some k) ⟨⟨Ob.clsRail, r.val, Ob.Rail.tuneCtrl⟩, v⟩] := by
  have hexec : exec (.ltReset k r v) s = .next (s.onSet k ⟨Ob.clsRail, r.val, Ob.Rail.tuneCtrl⟩ v) :=
    congrArg Host.Outcome.next (if_pos hreset)
  exact queuesAtEdge_set hexec (by simp [State.edgeObj, hreset]) (.inr (by decide)) hmay

/-- SLAM_DISABLE is a write of CTRL without SLAM_EN (R108). -/
theorem slamDisable_queues (hoff : bit v 0 = false) (hmay : MaySet s k ⟨Ob.clsRail, r.val, Ob.Rail.ctrl⟩ v) :
    QueuesAtEdge (.slamDisable k r v) s k [.write (some k) ⟨⟨Ob.clsRail, r.val, Ob.Rail.ctrl⟩, v⟩] := by
  have hexec : exec (.slamDisable k r v) s = .next (s.onSet k ⟨Ob.clsRail, r.val, Ob.Rail.ctrl⟩ v) :=
    congrArg Host.Outcome.next (if_neg (by simp [hoff]))
  exact queuesAtEdge_set hexec rfl (.inr (by decide)) hmay

end

/-! A request that is accepted for an edge -/

theorem queuesAtEdge_accept {c : Instr} {s : State} {k : SlotIx} {q : Req × Option Nat} {r : Req} {a : EdgeAction}
    (hreq : s.request k = some q) (hexec : exec c s = .next (s.acceptEdge k r a)) : QueuesAtEdge c s k [a] :=
  queuesAtEdge_of_exec hreq (.inr ⟨r, rfl⟩) hexec

section
variable {s : State} {k : SlotIx}

/-- DOMAIN_ON and DOMAIN_OFF: where every named domain passes R237's check. -/
theorem domainReq_queues {c : Instr} {r : Req} {mask : BitVec 8} {on : Bool} {p : Prop} [Decidable p]
    (hcheck : (State.domainsIn mask).all (s.domainReqOk on) = true ↔ p) (hasks : Asks s k r)
    (hexec : exec c s = .next (s.onRequest k r fun _ => s.domainReq k r mask on)) :
    if p then QueuesAtEdge c s k [.domainReq (some k) mask on] else JustAnswers c s k St.state [] := by
  obtain ⟨key, hreq⟩ := asks_iff.mp hasks
  rw [State.onRequest_of_request hreq, State.domainReq] at hexec
  split
  next hok =>
    rw [if_pos (hcheck.mpr hok)] at hexec
    exact queuesAtEdge_accept hreq hexec
  next hbad =>
    rw [if_neg (mt hcheck.mp hbad)] at hexec
    exact justAnswers_of_exec hexec

theorem State.domainsOn_iff {mask : BitVec 8} : (State.domainsIn mask).all (s.domainReqOk true) = true ↔
    ∀ d : DomainIx, mask.getLsbD d.val = true → s.srcPin d = false ∧ s.railsOf d.val ≠ [] ∧ s.domBlocks d = false := by
  simp only [List.all_eq_true, State.domainsIn, List.mem_filter, allDomains, List.mem_finRange, true_and]
  simp [State.domainReqOk, and_assoc]

theorem State.domainsOff_iff {mask : BitVec 8} : (State.domainsIn mask).all (s.domainReqOk false) = true ↔
    ∀ d : DomainIx, mask.getLsbD d.val = true → s.srcPin d = false ∧ s.railsOf d.val ≠ [] := by
  simp only [List.all_eq_true, State.domainsIn, List.mem_filter, allDomains, List.mem_finRange, true_and]
  simp [State.domainReqOk]

theorem railClearLatch_queues {r : RailIx} {override : Bool} {key : Option Nat}
    (hreq : s.request k = some (.railClearLatch r.val override, key)) :
    if s.clearable r = true ∧ ((s.rail r).fuse.fstate = .passShort → override = true) then
      QueuesAtEdge (.railClearLatch k r.val override) s k [.clearLatch (some k) r override (key.getD 0)]
    else JustAnswers (.railClearLatch k r.val override) s k St.state [] := by
  have hexec : exec (.railClearLatch k r.val override) s = .next
      (if !s.clearable r || ((s.rail r).fuse.fstate == .passShort && !override) then s.finish k St.state []
       else s.acceptEdge k (.railClearLatch r.val override) (.clearLatch (some k) r override (key.getD 0))) := by
    show execRailClearLatch k r.val override s = _
    rw [execRailClearLatch, State.onRequest_of_request hreq, dif_pos r.isLt]
  have hrefused : (!s.clearable r || ((s.rail r).fuse.fstate == .passShort && !override)) = true ↔
      ¬(s.clearable r = true ∧ ((s.rail r).fuse.fstate = .passShort → override = true)) := by
    cases override <;> simp [imp_iff_not_or]
  split
  next hclear =>
    rw [if_neg fun h => hrefused.mp h hclear] at hexec
    exact queuesAtEdge_accept hreq hexec
  next hbad =>
    rw [if_pos (hrefused.mpr hbad)] at hexec
    exact justAnswers_of_exec hexec

/-- Codes that are all OK have no first bad one. -/
theorem State.firstBad_of_ok {codes : List Nat} (h : ∀ c ∈ codes, c = St.ok) : State.firstBad codes = St.ok := by
  have hnone : codes.find? (fun c => c != St.ok) = none := by simpa using h
  rw [State.firstBad, hnone, Option.getD_none]

theorem phaseForce_queues {ms : List ForceMember} {key : Option Nat} (hreq : s.request k = some (.phaseForce ms, key))
    (hsome : ms ≠ []) (hlen : ms.length ≤ 48)
    (hpass : ∀ m ∈ ms, ∀ w ∈ State.forceWrites m, s.writeStatus key.isSome [] w = St.ok) :
    QueuesAtEdge (.phaseForce k ms) s k [.force (some k) ms] := by
  have hcodes : ((ms.map fun m => State.firstBad ((State.forceWrites m).map (s.writeStatus key.isSome []))).all
      (· == St.ok)) = true := by
    rw [List.all_map, List.all_eq_true]
    intro m hm
    exact beq_iff_eq.mpr (State.firstBad_of_ok (List.forall_mem_map.mpr (hpass m hm)))
  have hexec : exec (.phaseForce k ms) s = .next (s.acceptEdge k (.phaseForce ms) (.force (some k) ms)) := by
    show execPhaseForce k ms s = _
    rw [execPhaseForce, State.onRequest_of_request hreq, if_neg (by simp [hsome, hlen]), if_pos hcodes]
  exact queuesAtEdge_accept hreq hexec

/-- TUNE_START and AUTOTUNE where the session may begin (R146, R152). -/
theorem startTune_queues {c : Instr} {req : Req} {r : RailIx} {auto : Bool} (hfree : s.tuneHeld = false)
    (hmay : s.tuneRefusal r auto = none) (hasks : Asks s k req)
    (hexec : exec c s = .next (s.onRequest k req fun _ => s.startTune k req r.val auto)) :
    QueuesAtEdge c s k [.tuneStart (some k) r auto] := by
  obtain ⟨key, hreq⟩ := asks_iff.mp hasks
  have haccepted : s.startTune k req r.val auto = s.acceptEdge k req (.tuneStart (some k) r auto) := by
    rw [State.startTune, dif_pos r.isLt, if_neg (by simp [hfree])]
    simp only [hmay]
  rw [State.onRequest_of_request hreq, haccepted] at hexec
  exact queuesAtEdge_accept hreq hexec

theorem recFreeze_queues (hasks : Asks s k .recFreeze) : QueuesAtEdge (.recFreeze k) s k [.freeze (some k)] := by
  obtain ⟨key, hreq⟩ := asks_iff.mp hasks
  refine queuesAtEdge_of_exec hreq (.inl rfl) ?_
  show execRecFreeze k s = _
  rw [execRecFreeze, State.onRequest_of_request hreq]
  rfl

/-- CNT_CLEAR of everything names known objects (R297). -/
theorem cntClear_queues {key : Option Nat} (hreq : s.request k = some (.cntClear 255 255, key)) :
    QueuesAtEdge (.cntClear k 255 255) s k [.cntClear (some k) 255 255 (key.getD 0)] := by
  refine queuesAtEdge_of_exec hreq (.inl rfl) ?_
  show execCntClear k 255 255 s = _
  rw [execCntClear, State.onRequest_of_request hreq]
  exact congrArg Host.Outcome.next (if_pos (by decide))

end

/-- Settles O19: an accepted request puts its effects behind the others and starts its slot (`queuesAtEdge_of_exec`), as a SET
of an object whose effect waits (`queuesAtEdge_set`) or as a request whose check passes. -/
theorem edgeEffectsWait : Obligations.EdgeEffectsWait :=
  ⟨fun _ _ => ⟨fun _ _ => queuesAtEdge_set rfl rfl (.inr (by decide)), fun _ _ => coefApply_queues,
      fun _ => queuesAtEdge_set rfl rfl (.inr (by decide)), fun _ => queuesAtEdge_set rfl rfl (.inr (by decide)),
      fun _ => queuesAtEdge_set rfl rfl (.inr (by decide)), fun _ _ => ltReset_queues, fun _ _ => slamDisable_queues,
      fun _ _ => queuesAtEdge_set rfl rfl (.inr (by decide)), fun _ _ => queuesAtEdge_set rfl rfl (.inr (by decide)),
      fun _ _ => queuesAtEdge_set rfl rfl (.inl (by decide)), fun _ _ => queuesAtEdge_set rfl rfl (.inl (by decide)),
      fun _ => queuesAtEdge_set rfl rfl (.inl (by decide))⟩,
    fun _ _ => ⟨fun _ hasks => domainReq_queues State.domainsOn_iff hasks rfl,
      fun _ hasks => domainReq_queues State.domainsOff_iff hasks rfl, fun _ _ _ => railClearLatch_queues,
      fun _ _ => phaseForce_queues, fun _ hfree hmay hasks => startTune_queues hfree hmay hasks rfl,
      fun _ hfree hmay hasks => startTune_queues hfree hmay hasks rfl, recFreeze_queues, fun _ => cntClear_queues⟩⟩

end Sys2Proof.Machine
end

section
/-! Skims (04 R90, R91, R93): which phase a skim takes, and what the end of a skim makes of its phase and its rail. -/

namespace Sys2Proof.Machine

/-! The phase that a skim takes -/

/-- A choice that keeps what it holds or takes the next element ends with an element of the list. -/
theorem exists_mem_foldl_choice {α : Type} {f : Option α → α → Option α}
    (hf : ∀ a b, f (some a) b = some a ∨ f (some a) b = some b) (a : α) (l : List α) :
    ∃ c ∈ a :: l, l.foldl f (some a) = some c := by
  induction l generalizing a with
  | nil => exact ⟨a, List.mem_cons_self, rfl⟩
  | cons b l ih =>
    rw [List.foldl_cons]
    rcases hf a b with hkeeps | htakes
    · obtain ⟨c, hc, hfold⟩ := ih a
      rw [hkeeps]
      exact ⟨c, List.cons_subset_cons a (List.subset_cons_self b l) hc, hfold⟩
    · obtain ⟨c, hc, hfold⟩ := ih b
      rw [htakes]
      exact ⟨c, List.mem_cons_of_mem _ hc, hfold⟩

theorem State.exists_oldestSkim (s : State) {l : List PhaseIx} (hl : l ≠ []) : ∃ n ∈ l, s.oldestSkim l = some n := by
  obtain ⟨a, l, rfl⟩ := List.exists_cons_of_ne_nil hl
  refine exists_mem_foldl_choice (fun m n => ?_) a l
  dsimp only
  split
  · exact .inr rfl
  · exact .inl rfl

theorem State.activeOf_ne_nil_of_skimReady {s : State} {r : RailIx} (h : s.skimReady r = true) : s.activeOf r ≠ [] := by
  have hthree : 3 ≤ (s.activeOf r).length := by
    simp only [State.skimReady, Bool.and_eq_true, decide_eq_true_eq] at h
    tauto
  exact List.ne_nil_of_length_pos (by omega)

/-! The start of a skim and of its measurement -/

/-- A skim of phase n measures from here on, once its sense has decayed (R91). -/
def Skim.measureFrom (n : PhaseIx) (k : Skim) : Skim :=
  if k.phase == n && decide (4 ≤ k.decayRun) then { k with measuring := true } else k

section
variable {s : State} {r : RailIx}

theorem skimStart_starts (hready : s.skimReady r = true) (hidle : (s.rail r).lt.running = false)
    (hlive : s.teleStale = false) : Completes (.skimStart r) s fun t =>
      ∃ n ∈ s.activeOf r, t.rail r = { s.rail r with plc := { (s.rail r).plc with skim := some ⟨n, none, 0, false, 0, 0⟩ } } ∧
        RailsBut r s t ∧ SameBut [.rails] s t := by
  obtain ⟨n, hn, holdest⟩ := s.exists_oldestSkim (State.activeOf_ne_nil_of_skimReady hready)
  have hexec : exec (.skimStart r) s =
      .next (s.modPlc r fun x => { x with skim := some ⟨n, none, 0, false, 0, 0⟩ }) := by
    show execSkimStart r s = _
    rw [execSkimStart, if_pos (by simp [hready, hidle, hlive]), holdest]
  exact completes_mono (completes_modRail hexec) fun t ht => ⟨n, hn, ht⟩

theorem passiveSkimStart_starts (hpassive : bit (s.obj Ob.clsRail r.val Ob.Rail.plcCtrl) 5 = true)
    (hskim : bit (s.obj Ob.clsRail r.val Ob.Rail.plcCtrl) 2 = true) (hnone : (s.rail r).plc.passive = none)
    (hlaw : s.lawRuns r = true) (hlive : s.teleStale = false) (hready : s.passiveReady r ≠ []) :
    Completes (.passiveSkimStart r) s fun t =>
      ∃ n ∈ s.passiveReady r, t.rail r = { s.rail r with plc := { (s.rail r).plc with
          passive := some ⟨n, some s.now, 0, false, 0, 0⟩ } } ∧ (s.phase n).sense.shed = true ∧
        RailsBut r s t ∧ SameBut [.rails] s t := by
  obtain ⟨n, hn, holdest⟩ := s.exists_oldestSkim hready
  have hexec : exec (.passiveSkimStart r) s =
      .next (s.modPlc r fun x => { x with passive := some ⟨n, some s.now, 0, false, 0, 0⟩ }) := by
    show execPassiveSkimStart r s = _
    simp only [execPassiveSkimStart]
    rw [if_pos (by simp [hpassive, hskim, hnone, hlaw, hlive]), holdest]
  have hshed : (s.phase n).sense.shed = true := by
    simp only [State.passiveReady, List.mem_filter, Bool.and_eq_true] at hn
    exact hn.2.1.2
  refine completes_mono (completes_modRail hexec) ?_
  rintro t ⟨hrail, hbut, hsame⟩
  exact ⟨n, hn, hrail, hshed, hbut, hsame⟩

theorem skimMeasureStart_measures {n : PhaseIx} {k : Skim} (hrail : s.phaseRail n = some r)
    (hskim : (s.rail r).plc.skim = some k) (hnone : (s.rail r).plc.passive = none) (hphase : k.phase = n)
    (hdecayed : 4 ≤ k.decayRun) : Completes (.skimMeasureStart n) s fun t =>
      t.rail r = { s.rail r with plc := { (s.rail r).plc with skim := some { k with measuring := true } } } ∧
        RailsBut r s t ∧ SameBut [.rails] s t := by
  have hmeasures : k.measureFrom n = { k with measuring := true } := if_pos (by simp [hphase, hdecayed])
  have hexec : exec (.skimMeasureStart n) s =
      .next (s.modPlc r fun x => { x with
        skim := x.skim.map (Skim.measureFrom n), passive := x.passive.map (Skim.measureFrom n) }) := by
    show execSkimMeasureStart n s = _
    rw [execSkimMeasureStart, hrail]
    rfl
  refine completes_mono (completes_modRail hexec) ?_
  rintro t ⟨hplc, hbut, hsame⟩
  refine ⟨?_, hbut, hsame⟩
  simp only [hplc, hskim, hnone, Option.map_some, Option.map_none, hmeasures]

end

theorem State.plc_modPlc_self (s : State) (r : RailIx) (f : PlcState → PlcState) :
    ((s.modPlc r f).rail r).plc = f (s.rail r).plc := congrArg RailState.plc (State.rail_modRail_self ..)

/-! The save of the zeros (R84) -/

/-- A save that the queue has no room for is recorded, so it may count in the recorder's counters and nowhere else. -/
theorem State.saveZeros_writes (s : State) : WritesOnly recKeys s s.saveZeros :=
  rel_ite (.of_objs rfl) (rel_ite (.of_objs rfl) (State.record_writes ..))

theorem State.saveZeros_frame (s : State) : SameBut [.objs, .twin, .recd, .nvm] s s.saveZeros := by
  have hsaved : ∀ f, SameBut [.objs, .twin, .recd, .nvm] s (s.modNvm f) := fun f =>
    same_mono (State.modNvm_same s f) (by decide)
  exact same_ite (b := ite ..) (hsaved fun x => { x with zeros := _ }) (same_ite (hsaved _) (State.record_frame ..))

@[simp] theorem State.rail_saveZeros (s : State) (r : RailIx) : s.saveZeros.rail r = s.rail r :=
  congrArg (Vector.get · r) (s.saveZeros_frame.same .rails (by decide))

@[simp] theorem State.phase_saveZeros (s : State) (n : PhaseIx) : s.saveZeros.phase n = s.phase n :=
  congrArg (Vector.get · n) (s.saveZeros_frame.same .phases (by decide))

@[simp] theorem State.now_saveZeros (s : State) : s.saveZeros.now = s.now := s.saveZeros_frame.same .now (by decide)

/-! The result of a skim (R91, step 3) -/

section
variable {s : State} {k : Skim}

theorem State.skimResult_tooShort (hfew : k.count < 16) : s.skimResult k = (s, .tooShort) := if_pos hfew

theorem State.skimResult_rejected (henough : 16 ≤ k.count)
    (hfar : s.senseFull k.phase * 3 / 100 < absQ (k.sum / k.count - (s.phase k.phase).sense.zero)) :
    s.skimResult k = ((s.count Ob.clsPhase k.phase.val Ob.Phase.skimRejects).record Code.skimReject Ob.clsPhase k.phase.val 0
      (leBytes 4 (qWord (k.sum / k.count)) ++ leBytes 4 (qWord (s.phase k.phase).sense.zero)), .rejected) := by
  have hmax : max k.count 1 = k.count := by omega
  simp only [State.skimResult, hmax]
  rw [if_neg (by omega), if_pos hfar]

theorem State.skimResult_done (henough : 16 ≤ k.count)
    (hnear : ¬s.senseFull k.phase * 3 / 100 < absQ (k.sum / k.count - (s.phase k.phase).sense.zero)) :
    s.skimResult k = ((s.count Ob.clsPhase k.phase.val Ob.Phase.skims).modSense k.phase fun x =>
      { x with zero := k.sum / k.count }, .done) := by
  have hmax : max k.count 1 = k.count := by omega
  simp only [State.skimResult, hmax]
  rw [if_neg (by omega), if_neg hnear]

variable (s k)

/-- No result of a skim changes a rail or another phase. -/
theorem State.skimResult_frame : PhasesBut k.phase s (s.skimResult k).1 ∧ (s.skimResult k).1.rails = s.rails := by
  by_cases hfew : k.count < 16
  · rw [State.skimResult_tooShort hfew]
    exact ⟨fun _ _ => rfl, rfl⟩
  by_cases hfar : s.senseFull k.phase * 3 / 100 < absQ (k.sum / k.count - (s.phase k.phase).sense.zero)
  · rw [State.skimResult_rejected (by omega) hfar]
    exact ⟨fun m _ => State.phase_record .., State.rails_record ..⟩
  · rw [State.skimResult_done (by omega) hfar]
    exact ⟨State.phasesBut_modPhase _ _ _, rfl⟩

theorem State.now_skimResult : (s.skimResult k).1.now = s.now := (State.skimResult_same s k).same .now (by decide)

/-! The end of a skim that ran its length (R91) -/

variable (r : RailIx)

theorem State.plc_endSkim : ((s.endSkim r k false).rail r).plc = { (s.rail r).plc with
    skim := none, lastPhase := k.phase.val, lastOut := (s.skimResult k).2, lastActiveEnd := s.now } := by
  have hrail : (s.skimResult k).1.rail r = s.rail r := congrArg (Vector.get · r) (State.skimResult_frame s k).2
  have hnow := State.now_skimResult s k
  unfold State.endSkim
  extract_lets q stamped saved
  have hsaved : saved.rail r = s.rail r ∧ saved.now = s.now := by
    unfold saved
    split
    · exact ⟨(State.rail_saveZeros ..).trans hrail, (State.now_saveZeros _).trans hnow⟩
    · exact ⟨hrail, hnow⟩
  rw [State.plc_modPlc_self, hsaved.1, hsaved.2]
  rfl

theorem State.phase_endSkim (passive : Bool) (m : PhaseIx) : (s.endSkim r k passive).phase m = if m = k.phase then
    ⟨((s.skimResult k).1.phase k.phase).gen, { ((s.skimResult k).1.phase k.phase).sense with lastSkim := some s.now }⟩
    else (s.skimResult k).1.phase m := by
  rw [← State.now_skimResult s k]
  unfold State.endSkim
  extract_lets q stamped saved
  have hsaved : saved.phase m = stamped.phase m := by
    unfold saved
    split
    · exact State.phase_saveZeros ..
    · rfl
  rw [State.modPlc_eq, State.phase_modRail, hsaved]
  exact State.phase_modPhase ..

/-- Only the zeros' save can write an object after the result of the skim. -/
theorem State.endSkim_writes (passive : Bool) : WritesOnly recKeys (s.skimResult k).1 (s.endSkim r k passive) := by
  unfold State.endSkim
  extract_lets q stamped saved
  have hstamped : WritesOnly recKeys q.1 stamped := .of_objs rfl
  have hsaved : WritesOnly recKeys stamped saved := rel_ite (State.saveZeros_writes _) (.of_objs rfl)
  exact hstamped.trans (hsaved.trans (.of_objs rfl))

variable {s k} in
theorem State.objs_endSkim {out : SkimOut} (hres : s.skimResult k = (s, out)) (hout : out ≠ .done) (passive : Bool) :
    (s.endSkim r k passive).objs = s.objs := by
  simp [State.endSkim, hres, hout]

end

/-! SKIM_END -/

section
variable {s : State} {r : RailIx} {n : PhaseIx} {k : Skim}

theorem skimEnd_exec (hrail : s.phaseRail n = some r) (hskim : (s.rail r).plc.skim = some k)
    (hnone : (s.rail r).plc.passive = none) (hphase : k.phase = n) (hover : s.skimOver r k = true) :
    exec (.skimEnd n) s = .next (s.endSkim r k false) := by
  have hpassive : ((s.endSkim r k false).rail r).plc.passive = none := by rw [State.plc_endSkim, hnone]
  show execSkimEnd n s = _
  simp only [execSkimEnd, hrail, hskim, hphase, hover, beq_self_eq_true, Bool.and_true, if_true, hpassive]

theorem skimEnd_ends (hs : Orderly s) (hrail : s.phaseRail n = some r) (hskim : (s.rail r).plc.skim = some k)
    (hnone : (s.rail r).plc.passive = none) (hphase : k.phase = n) (hover : s.skimOver r k = true) :
    Completes (.skimEnd n) s fun t =>
      let mean := k.sum / (k.count : Rat)
      let zero := (s.phase n).sense.zero;
      (t.rail r).plc.skim = none ∧ (t.rail r).plc.lastPhase = n.val ∧ (t.phase n).sense.lastSkim = some s.now ∧
        PhasesBut n s t ∧ SameBut [.objs, .phases, .rails, .twin, .recd, .nvm] s t ∧
        if k.count < 16 then (t.phase n).sense.zero = zero ∧ (t.rail r).plc.lastOut = .tooShort ∧ t.objs = s.objs
        else if s.senseFull n * 3 / 100 < absQ (mean - zero) then (t.phase n).sense.zero = zero ∧
          (t.rail r).plc.lastOut = .rejected ∧ Counts s t Ob.clsPhase n.val Ob.Phase.skimRejects
        else (t.phase n).sense.zero = mean ∧ (t.rail r).plc.lastOut = .done ∧ Counts s t Ob.clsPhase n.val Ob.Phase.skims := by
  subst hphase
  have hplc := State.plc_endSkim s k r
  have hsense : ((s.endSkim r k false).phase k.phase).sense =
      { ((s.skimResult k).1.phase k.phase).sense with lastSkim := some s.now } := by
    rw [State.phase_endSkim, if_pos rfl]
  refine ⟨_, skimEnd_exec hrail hskim hnone rfl hover, by rw [hplc], by rw [hplc], by rw [hsense], fun m hm => ?_,
    State.endSkim_same .., ?_⟩
  · rw [State.phase_endSkim, if_neg hm]
    exact (State.skimResult_frame s k).1 m hm
  rw [hplc, hsense]
  have hwrites := State.endSkim_writes s k r false
  split
  next hfew =>
    have hres := State.skimResult_tooShort (s := s) hfew
    rw [hres]
    exact ⟨rfl, rfl, State.objs_endSkim r hres (by decide) false⟩
  next hmany =>
    split
    next hfar =>
      rw [State.skimResult_rejected (by omega) hfar] at hwrites ⊢
      refine ⟨by rw [State.phase_record]; rfl, rfl, ?_⟩
      exact counts_of_writesOnly hs.store rfl ((State.record_writes ..).trans hwrites)
        (recKeys_ne (by decide) (by omega) (by decide))
    next hnear =>
      rw [State.skimResult_done (by omega) hnear] at hwrites ⊢
      refine ⟨by simp, rfl, ?_⟩
      refine counts_of_writesOnly hs.store rfl (WritesOnly.trans ?_ hwrites)
        (recKeys_ne (by decide) (by omega) (by decide))
      exact .of_objs rfl

end

/-- Settles O40: the oldest of a non-empty list is one of it (`State.exists_oldestSkim`); the three results of a skim
(`State.skimResult_tooShort`, `_rejected`, `_done`) decide ZERO and the counts, and the rest of its end is the same for all. -/
theorem skimsLearnZero : Obligations.SkimsLearnZero :=
  ⟨fun _ _ => ⟨skimStart_starts, passiveSkimStart_starts, fun _ _ => skimMeasureStart_measures⟩,
    fun _ _ _ _ => skimEnd_ends⟩

end Sys2Proof.Machine
end

section
/-! Gain calibration (04 R95) and lagging phases (R98): how far a window moves a correction, and what a phase at the trim
limit reports. -/

namespace Sys2Proof.Machine

/-! Clamps -/

theorem clampQ_eq_max_min {q lo hi : Rat} (h : lo ≤ hi) : clampQ q lo hi = max lo (min q hi) := by
  unfold clampQ
  split
  next hlow => rw [min_eq_left (hlow.le.trans h), max_eq_left hlow.le]
  next hlow =>
    split
    next hhigh => rw [min_eq_right hhigh.le, max_eq_right h]
    next hhigh => rw [min_eq_left (not_lt.mp hhigh), max_eq_right (not_lt.mp hlow)]

theorem clampQ_mem (q : Rat) {lo hi : Rat} (h : lo ≤ hi) : lo ≤ clampQ q lo hi ∧ clampQ q lo hi ≤ hi := by
  rw [clampQ_eq_max_min h]
  exact ⟨le_max_left .., max_le h (min_le_right ..)⟩

/-- GAIN_CORR x after a counting window whose fit is at goal (R95). -/
def gainMoved (x goal : Rat) : Rat := clampQ (x + clampQ (goal - x) (-1 / 1000) (1 / 1000)) (-1 / 20) (1 / 20)

/-- A window's new correction stays within ±5 % and within 0.1 % of an old one within ±5 %. -/
theorem gainMoved_bounds {x : Rat} (goal : Rat) (hlo : -1 / 20 ≤ x) (hhi : x ≤ 1 / 20) :
    -1 / 20 ≤ gainMoved x goal ∧ gainMoved x goal ≤ 1 / 20 ∧ x - 1 / 1000 ≤ gainMoved x goal ∧
      gainMoved x goal ≤ x + 1 / 1000 := by
  obtain ⟨hmin, hmax⟩ := clampQ_mem (goal - x) (show (-1 / 1000 : Rat) ≤ 1 / 1000 by norm_num)
  have hlimits : (-1 / 20 : Rat) ≤ 1 / 20 := by norm_num
  obtain ⟨hlow, hhigh⟩ := clampQ_mem (x + clampQ (goal - x) (-1 / 1000) (1 / 1000)) hlimits
  refine ⟨hlow, hhigh, ?_, ?_⟩
  · rw [gainMoved, clampQ_eq_max_min hlimits]
    exact le_max_of_le_right (le_min (by linarith) (by linarith))
  · rw [gainMoved, clampQ_eq_max_min hlimits]
    exact max_le (by linarith) (min_le_of_left_le (by linarith))

/-! A loop over different phases -/

/-- A loop that updates each of its phases once leaves every other phase. -/
theorem State.phase_forEach_modSense {f : PhaseIx → SenseState → SenseState} {l : List PhaseIx} (hl : l.Nodup) (s : State)
    (m : PhaseIx) : (forEach l (fun s n => s.modSense n (f n)) s).phase m =
      if m ∈ l then ⟨(s.phase m).gen, f m (s.phase m).sense⟩ else s.phase m := by
  induction l generalizing s with
  | nil => rfl
  | cons n l ih =>
    obtain ⟨hn, hl⟩ := List.nodup_cons.mp hl
    have hstep : forEach (n :: l) (fun s n => s.modSense n (f n)) s =
        forEach l (fun s n => s.modSense n (f n)) (s.modSense n (f n)) := rfl
    rw [hstep, ih hl, State.modSense_eq, State.phase_modPhase]
    by_cases hm : m = n
    · subst hm
      simp [hn]
    · simp [hm]

theorem State.nodup_phasesOf (s : State) (r : Nat) : (s.phasesOf r).Nodup :=
  List.Nodup.filter _ (List.nodup_finRange 48)

/-! The end of a window (R95) -/

/-- Does the window of a rail count? -/
def State.windowCounts (s : State) (r : RailIx) : Bool :=
  let x := (s.rail r).plc
  x.gcalOk && decide (0 < x.gcalCount) &&
    decide (s.irateSum r / 10 ≤ x.gcalSum / ((max x.gcalCount 1 : Nat) : Rat) * 1000)

/-- The state with the corrections of a rail moved, if its window counts. -/
def State.moveGains (s : State) (r : RailIx) : State :=
  if s.windowCounts r then
    (forEach (s.phasesOf r.val) (fun u n => u.modSense n fun y =>
      { y with gainCorr := gainMoved y.gainCorr ((Config.gainFit n.val (s.rail r).plc.gcalWindows : Rat) / 100000) })
      s).saveZeros
  else s

theorem State.gainCorr_moveGains (s : State) (r : RailIx) (n : PhaseIx) :
    ((s.moveGains r).phase n).sense.gainCorr = (s.phase n).sense.gainCorr ∨
      ∃ goal, ((s.moveGains r).phase n).sense.gainCorr = gainMoved (s.phase n).sense.gainCorr goal := by
  unfold State.moveGains
  split
  · rw [State.phase_saveZeros,
      State.phase_forEach_modSense (f := fun n y => { y with gainCorr := gainMoved y.gainCorr _ }) (s.nodup_phasesOf r.val)]
    split
    · exact .inr ⟨_, rfl⟩
    · exact .inl rfl
  · exact .inl rfl

theorem State.moveGains_same (s : State) (r : RailIx) : SameBut [.objs, .phases, .twin, .recd, .nvm] s (s.moveGains r) := by
  refine same_ite (same_step ?_ (State.saveZeros_frame _) (by decide)) (same_refl ..)
  exact same_forEach (same_refl ..) fun u n => same_mono (State.modSense_same u n _) (by decide)

section
variable {s : State} {r : RailIx}

theorem gcalWindowEnd_idle (hoff : bit (s.obj Ob.clsRail r.val Ob.Rail.plcCtrl) 3 = false ∨ s.dev.part = .s) :
    Completes (.gcalWindowEnd r) s fun t => t = s := by
  refine ⟨s, ?_, rfl⟩
  show execGcalWindowEnd r s = _
  simp only [execGcalWindowEnd]
  refine if_pos ?_
  rcases hoff with hen | hpart
  · simp [hen]
  · simp [hpart]

/-- The end of a window moves the corrections if the window counts, and begins the next one. -/
theorem gcalWindowEnd_exec (hen : bit (s.obj Ob.clsRail r.val Ob.Rail.plcCtrl) 3 = true) (hpart : s.dev.part = .m)
    (hover : (s.rail r).plc.gcalStart + 2000 * s.railN r.val Ob.Rail.skimPeriodMs ≤ s.now) :
    exec (.gcalWindowEnd r) s = .next ((s.moveGains r).modPlc r fun y => { y with
      gcalWindows := if s.windowCounts r then y.gcalWindows + 1 else y.gcalWindows
      gcalStart := (s.moveGains r).now, gcalOk := true, gcalSum := 0, gcalCount := 0, metSum := 0, gcalSet := [] }) := by
  show execGcalWindowEnd r s = _
  simp only [execGcalWindowEnd]
  exact if_neg (by simp [hen, hpart, elapsed, msFrames, hover])

theorem gcalWindowEnd_moves (hen : bit (s.obj Ob.clsRail r.val Ob.Rail.plcCtrl) 3 = true) (hpart : s.dev.part = .m)
    (hover : (s.rail r).plc.gcalStart + 2000 * s.railN r.val Ob.Rail.skimPeriodMs ≤ s.now) :
    Completes (.gcalWindowEnd r) s fun t =>
      (t.rail r).plc.gcalStart = s.now ∧ (t.rail r).plc.gcalCount = 0 ∧ (t.rail r).plc.gcalSum = 0 ∧
        ∀ n, let x := (s.phase n).sense.gainCorr
          let y := (t.phase n).sense.gainCorr;
          -1 / 20 ≤ x → x ≤ 1 / 20 → -1 / 20 ≤ y ∧ y ≤ 1 / 20 ∧ x - 1 / 1000 ≤ y ∧ y ≤ x + 1 / 1000 := by
  have hnow : (s.moveGains r).now = s.now := (s.moveGains_same r).same .now (by decide)
  refine ⟨_, gcalWindowEnd_exec hen hpart hover, by rw [State.plc_modPlc_self, hnow], by rw [State.plc_modPlc_self],
    by rw [State.plc_modPlc_self], fun n => ?_⟩
  intro x y hlo hhi
  rcases s.gainCorr_moveGains r n with hstands | ⟨goal, hmoved⟩
  · rw [show y = x from hstands]
    exact ⟨hlo, hhi, by linarith, by linarith⟩
  · rw [show y = gainMoved x goal from hmoved]
    exact gainMoved_bounds goal hlo hhi

end

/-! Lagging phases (R98) -/

theorem State.phase_modSense_self (s : State) (n : PhaseIx) (f : SenseState → SenseState) :
    (s.modSense n f).phase n = ⟨(s.phase n).gen, f (s.phase n).sense⟩ := State.phase_modPhase_self ..

section
variable {s : State} {n : PhaseIx}

theorem phaseLagging_reports (hfree : (s.phase n).sense.lagging = false) (hlong : 2000 ≤ (s.phase n).sense.limitRun) :
    Completes (.phaseLagging n) s fun t =>
      (t.phase n).sense = { (s.phase n).sense with lagging := true, lagNeg := decide ((s.phase n).sense.trim < 0) } ∧
        (t.phase n).gen = (s.phase n).gen ∧ PhasesBut n s t ∧ (Orderly s → Counts s t Ob.clsPhase n.val Ob.Phase.lagging) ∧
        Logs s t Code.phaseLagging Ob.clsPhase n.val (flag (decide ((s.phase n).sense.trim < 0)) 0) [] ∧
        SameBut [.objs, .phases, .rails, .twin, .recd, .nvm] s t := by
  let marked : State := s.modSense n fun y => { y with lagging := true, lagNeg := decide ((s.phase n).sense.trim < 0) }
  let counted : State := marked.count Ob.clsPhase n.val Ob.Phase.lagging
  have hexec : exec (.phaseLagging n) s = .next (counted.record Code.phaseLagging Ob.clsPhase n.val
      (flag (decide ((s.phase n).sense.trim < 0)) 0) []) := by
    show execPhaseLagging n s = _
    simp only [execPhaseLagging]
    exact if_neg (by simp [hfree, hlong])
  have hcounted : SameBut [.objs, .phases] s counted :=
    same_step (same_mono (State.modSense_same s n _) (by decide)) (State.count_same marked ..) (by decide)
  have hmarked : marked.phase n = _ := State.phase_modSense_self s n _
  refine ⟨_, hexec, ?_, ?_, fun m hm => ?_, fun hs => ?_, logs_record counted rfl rfl ..,
    same_step (same_mono hcounted (by decide)) (State.record_same counted ..) (by decide)⟩
  · rw [State.phase_record]
    exact congrArg PhaseState.sense hmarked
  · rw [State.phase_record]
    exact (congrArg PhaseState.gen hmarked :)
  · rw [State.phase_record]
    exact State.phasesBut_modPhase s n _ m hm
  · exact counts_record (u := marked) hs.store rfl (recKeys_ne (by decide) (by omega) (by decide)) ..

theorem laggingClear_clears (hlagging : (s.phase n).sense.lagging = true) (hlong : 2000 ≤ (s.phase n).sense.offRun) :
    Completes (.laggingClear n) s fun t =>
      (t.phase n).sense = { (s.phase n).sense with lagging := false } ∧ (t.phase n).gen = (s.phase n).gen ∧
        PhasesBut n s t ∧ SameBut [.phases] s t := by
  have hexec : exec (.laggingClear n) s = .next (s.modSense n fun y => { y with lagging := false }) := by
    show execLaggingClear n s = _
    rw [execLaggingClear, if_pos (by simp [hlagging, hlong])]
  exact ⟨_, hexec, by rw [State.phase_modSense_self], by rw [State.phase_modSense_self], State.phasesBut_modPhase s n _,
    State.modSense_same ..⟩

end

/-- Settles O41: a window moves each correction at most once, as different phases stand in the loop
(`State.phase_forEach_modSense`), and `gainMoved_bounds` says how far; a phase at the limit is marked, counted and recorded. -/
theorem gainsAndLagging : Obligations.GainsAndLagging :=
  ⟨fun _ _ => ⟨gcalWindowEnd_idle, gcalWindowEnd_moves⟩, fun _ _ => ⟨phaseLagging_reports, laggingClear_clears⟩⟩

end Sys2Proof.Machine
end

section
/-! The request of a domain (11 R236): what the sequencer sets off when a request changes leaves the request as it was set. -/

namespace Sys2Proof.Machine

/-- From s to t the request of a domain stands. -/
def ReqStands (d : DomainIx) (s t : State) : Prop := (t.domain d).req = (s.domain d).req

theorem State.domain_modDomain_self (s : State) (d : DomainIx) (f : DomainState → DomainState) :
    (s.modDomain d f).domain d = f (s.domain d) := (State.domain_modDomain ..).trans (if_pos rfl)

namespace ReqStands

variable {d : DomainIx}

theorem trans {a b c : State} (h : ReqStands d a b) (h' : ReqStands d b c) : ReqStands d a c := Eq.trans h' h

theorem refl (s : State) : ReqStands d s s := rfl

theorem of_same {ps : List Area} {s t : State} (h : SameBut ps s t) (hps : Area.domains ∉ ps) : ReqStands d s t :=
  congrArg (fun v : Vector DomainState 8 => (v.get d).req) (h.same .domains hps)

theorem modDomain (s : State) {f : DomainState → DomainState} (hreq : (f (s.domain d)).req = (s.domain d).req) :
    ReqStands d s (s.modDomain d f) := (congrArg DomainState.req (State.domain_modDomain_self ..)).trans hreq

theorem modRail (s : State) (r : RailIx) (f : RailState → RailState) : ReqStands d s (s.modRail r f) := rfl

theorem count (s : State) (cls inst item : Nat) : ReqStands d s (s.count cls inst item) := rfl

theorem record (s : State) (code cls inst sub : Nat) (data : List Byte) : ReqStands d s (s.record code cls inst sub data) :=
  of_same (State.record_frame ..) (by decide)

theorem setDom (s : State) (st : DomSt) : ReqStands d s (s.setDom d st) :=
  rel_ite (refl s) (modDomain s rfl)

theorem settleDev (s : State) : ReqStands d s s.settleDev := of_same (State.settleDev_same s) (by decide)

theorem refreshFlt (s : State) : ReqStands d s s.refreshFlt := of_same (State.refreshFlt_same s) (by decide)

theorem schedUp (s : State) (r : RailIx) : ReqStands d s (s.schedUp d r) := by
  unfold State.schedUp
  extract_lets due
  have hdue : ReqStands d s due := modRail ..
  exact hdue.trans (modDomain due rfl)

theorem enterUp (s : State) (fresh : Bool) : ReqStands d s (s.enterUp d fresh) := by
  unfold State.enterUp
  extract_lets counted up sched
  have hup : ReqStands d s up := (count s ..).trans ((setDom counted .up).trans (modDomain _ rfl))
  have hsched : ReqStands d up sched := by
    unfold sched
    split
    · exact schedUp ..
    · exact refl up
  exact hup.trans (hsched.trans (settleDev sched))

theorem tryStart (s : State) : ReqStands d s (s.tryStart d) := rel_ite (enterUp s true) (refl s)

/-- The end of a down-sequence can only take a request back (R245, R246): one that is OFF stays OFF. -/
theorem downEnd {s : State} (hoff : (s.domain d).req = false) : ReqStands d s (s.downEnd d) := by
  unfold State.downEnd
  extract_lets x stepped failed failCounted latched retryCounted waiting ended
  have hstepped : ReqStands d s stepped := modDomain s rfl
  have hlatched : ReqStands d s latched :=
    (congrArg DomainState.req (State.domain_modDomain_self ..)).trans hoff.symm
  have hwaiting : ReqStands d stepped waiting :=
    (count stepped ..).trans ((setDom retryCounted .retryWait).trans (modDomain _ rfl))
  have hended : ReqStands d s ended := by
    refine rel_ite ?_ (rel_ite ?_ (rel_ite ?_ ?_))
    · exact hlatched.trans (record ..)
    · exact hstepped.trans (hwaiting.trans (record ..))
    · exact hstepped.trans (enterUp stepped true)
    · exact hstepped.trans ((setDom stepped .off).trans (record ..))
  exact hended.trans ((settleDev ended).trans (refreshFlt _))

theorem nextDown {s : State} (hoff : (s.domain d).req = false) : ReqStands d s (s.nextDown d) := by
  unfold State.nextDown
  split
  · exact downEnd hoff
  next r _ =>
    extract_lets due
    have hdue : ReqStands d s due := modRail ..
    exact hdue.trans (modDomain due rfl)

theorem enterDown {s : State} (hoff : (s.domain d).req = false) : ReqStands d s (s.enterDown d) := by
  unfold State.enterDown
  extract_lets cancelled
  have hcancelled : ReqStands d s cancelled := rel_forEach refl trans (fun r _ s => modRail s r _) s
  have hdown : ReqStands d s (cancelled.setDom d .down) := hcancelled.trans (setDom ..)
  exact hdown.trans (nextDown (Eq.trans hdown hoff))

end ReqStands

/-- The request of a domain becomes that of the command, whatever the sequencer makes of it (R236, R245). -/
theorem State.req_setReq (s : State) (d : DomainIx) (on : Bool) : ((s.setReq d on).domain d).req = on := by
  unfold State.setReq
  extract_lets x set
  have hset : (set.domain d).req = on := congrArg DomainState.req (State.domain_modDomain_self ..)
  split
  next hsame => exact beq_iff_eq.mp hsame
  next =>
    refine Eq.trans (?_ : ReqStands d set _) hset
    split
    next => exact .tryStart set
    next hoff =>
      have hreq : (set.domain d).req = false := by simpa [hset] using hoff
      split
      · exact .enterDown hreq
      · exact .enterDown hreq
      · exact .modDomain set rfl
      · exact (ReqStands.setDom set .off).trans (.settleDev _)
      · exact .refl set

end Sys2Proof.Machine
end

section
/-! What the queued effects do at the frame edge (05 R114, 06 R130 and R141, 07 R157, 14 R289, 15 R310): one lemma per
effect. -/

namespace Sys2Proof.Machine

/-! Coefficients and patterns -/

section
variable (s : State) (r : RailIx)

theorem State.rail_useCoefs (b0 b1 b2 a1 a2 : Word) (q : RailIx) : (s.useCoefs r b0 b1 b2 a1 a2).rail q =
    if q = r then { s.rail r with
      law := { (s.rail r).law with b0 := b0, b1 := b1, b2 := b2, a1 := a1, a2 := a2 }
      lt := { (s.rail r).lt with kLt := 1 } }
    else s.rail q := by
  by_cases hq : q = r <;> simp [State.useCoefs, State.ltReset, hq]

theorem useCoefs_loads (b0 b1 b2 a1 a2 : Word) : let t := s.useCoefs r b0 b1 b2 a1 a2;
    (t.rail r).law = { (s.rail r).law with b0 := b0, b1 := b1, b2 := b2, a1 := a1, a2 := a2 } ∧
      (t.rail r).lt = { (s.rail r).lt with kLt := 1 } ∧ RailsBut r s t ∧ SameBut [.rails] s t := by
  refine ⟨?_, ?_, fun q hq => ?_, State.useCoefs_same ..⟩
  · rw [State.rail_useCoefs, if_pos rfl]
  · rw [State.rail_useCoefs, if_pos rfl]
  · rw [State.rail_useCoefs, if_neg hq]

theorem State.ff_modFf_self (f : FfState → FfState) : ((s.modFf r f).rail r).ff = f (s.rail r).ff :=
  congrArg RailState.ff (State.rail_modRail_self ..)

/-- CLEAR empties the pattern (R141). -/
theorem ffClear_empties : let t := s.ffCommand r 1;
    (t.rail r).ff.t0 = [] ∧ (t.rail r).ff.t1 = [] ∧ RailsBut r s t ∧ SameBut [.rails] s t := by
  have hff : ((s.ffClear r).rail r).ff = _ := State.ff_modFf_self ..
  exact ⟨congrArg FfState.t0 hff, congrArg FfState.t1 hff, State.railsBut_modRail s r _, State.ffClear_same ..⟩

end

section
variable {s : State} {r : RailIx}

/-- RESTORE loads the saved pattern (R141). -/
theorem ffRestore_loads {p : PatSave} (hsaved : s.savedPattern r = some p) : let t := s.ffCommand r 3;
    (t.rail r).ff = { (s.rail r).ff with t0 := p.t0, t1 := p.t1 } ∧ RailsBut r s t ∧ SameBut [.rails] s t := by
  have hrestore : s.ffCommand r 3 = s.modFf r fun x => { x with t0 := p.t0, t1 := p.t1 } := by
    show s.ffRestore r = _
    rw [State.ffRestore, hsaved]
  rw [hrestore]
  exact ⟨State.ff_modFf_self .., State.railsBut_modRail s r _, State.modFf_same ..⟩

theorem State.storePattern_eq (s : State) (r : RailIx) (k : PatSave) : s.storePattern r.val k =
    (s.modNvm fun x => { x with patterns := x.patterns.filter (fun q => q.1 != r.val) ++ [(r.val, k)] }).modFf r
      fun x => { x with savedFlag := true } := dif_pos r.isLt

/-- A stored pattern takes the place of the rail's earlier save. -/
theorem State.savedPattern_storePattern (s : State) (r : RailIx) (k : PatSave) :
    (s.storePattern r.val k).savedPattern r = some k := by
  have hpatterns : (s.storePattern r.val k).nvm.patterns =
      s.nvm.patterns.filter (fun q => q.1 != r.val) ++ [(r.val, k)] := by
    rw [State.storePattern_eq]
    rfl
  have hnone : (s.nvm.patterns.filter fun q => q.1 != r.val).find? (fun q => q.1 == r.val) = none := by
    simp [List.find?_eq_none]
  rw [State.savedPattern, hpatterns, List.find?_append, hnone]
  simp

/-- SAVE stores the pattern at once while the window is open (R141, R337). -/
theorem ffSave_stores (hwindow : s.canWrite = true) : let t := s.ffCommand r 2;
    t.savedPattern r = some (s.patSave r) ∧ RailsBut r s t ∧ SameBut [.rails, .nvm] s t := by
  have hstore : s.ffCommand r 2 = s.storePattern r.val (s.patSave r) := if_pos hwindow
  rw [hstore]
  refine ⟨State.savedPattern_storePattern .., ?_, State.storePattern_same ..⟩
  rw [State.storePattern_eq]
  exact State.railsBut_modRail (s.modNvm _) r _

end

/-! The recorder -/

/-- A freeze runs for 10 s from its edge and answers the highest SEQ (R289). -/
theorem freeze_freezes (s : State) (k : SlotIx) : let t := s.applyEdge (.freeze (some k));
    t.recd = { s.recd with frozen := true, freezeEnd := s.now + 20000000 } ∧ t.nvm.recArmed = true ∧
      Answers t k St.ok (leBytes 6 s.recLast) ∧ SameBut [.recd, .nvm, .mb] s t :=
  ⟨rfl, rfl, answers_finish s.freeze ..,
    same_step (same_mono (State.freeze_same s) (by decide)) (State.finish_same s.freeze ..) (by decide)⟩

/-! Phases and targets -/

/-- A write of FORCE acts and disarms HSUNLOCK (R71, R72). -/
theorem writeForce_forces {s : State} (hs : Orderly s) (n : PhaseIx) (v : Word) : let t := s.writeForce n v;
    (t.phase n).gen.force = Force.ofCode v.toNat ∧ (t.phase n).gen.hsUnlock = none ∧
      t.obj Ob.clsPhase n.val Ob.Phase.force = v ∧ PhasesBut n s t ∧ SameBut [.objs, .phases] s t := by
  let stored : State := s.setObj Ob.clsPhase n.val Ob.Phase.force v
  have hgen : ((s.writeForce n v).phase n).gen = { (s.phase n).gen with force := Force.ofCode v.toNat, hsUnlock := none } :=
    congrArg PhaseState.gen (State.phase_modGen_self stored n _)
  refine ⟨by rw [hgen], by rw [hgen], ?_, ?_, State.writeForce_same ..⟩
  · exact State.obj_setObj_self hs.store ..
  · exact State.phasesBut_modPhase stored n _

/-- The effective target reads VMIN and VMAX, so a write of another object leaves it (R127). -/
theorem State.clampTarget_setTarget {s : State} (hs : Orderly s) (r : RailIx) (v : Word) (mv : Nat) :
    (s.setObj Ob.clsRail r.val Ob.Rail.target v).clampTarget r mv = s.clampTarget r mv := by
  have hobj {item : Nat} (hitem : item < 256) (hne : item ≠ Ob.Rail.target) :
      (s.setObj Ob.clsRail r.val Ob.Rail.target v).obj Ob.clsRail r.val item = s.obj Ob.clsRail r.val item :=
    State.obj_setObj_ne hs.store _ _ _ _ _ _ _ (objKey_ne (by omega) hitem (by omega) (by decide) (.inr hne))
  rw [State.clampTarget, State.railN, State.railN, hobj (by decide) (by decide), hobj (by decide) (by decide)]
  rfl

section
variable {s : State} {r : RailIx} (v : Word) (hreg : s.regulating r = true)
  (hhost : bit (s.obj Ob.clsRail r.val Ob.Rail.profCtrl) 0 = false) (hs : Orderly s)
  (hnone : (s.rail r).prof.waiter = none)
include hreg hhost hs hnone

/-- A write of TARGET under HOST is a command with tag 0 and HSLEW (R130). -/
theorem State.writeTarget_of_host : s.writeTarget r v =
    (s.setObj Ob.clsRail r.val Ob.Rail.target v).modProf r fun x => { x with
      reqMv := v.toNat, tgtMv := s.clampTarget r v.toNat, slew := bits (s.obj Ob.clsRail r.val Ob.Rail.profCtrl) 2 1
      tag := 0, port := 255, done := false, inBand := 0 } := by
  let stored : State := s.setObj Ob.clsRail r.val Ob.Rail.target v
  have hstored : stored.regulating r = true := hreg
  have hctrl : stored.obj Ob.clsRail r.val Ob.Rail.profCtrl = s.obj Ob.clsRail r.val Ob.Rail.profCtrl :=
    State.obj_setObj_ne hs.store _ _ _ _ _ _ _
      (objKey_ne (by omega) (by decide) (by omega) (by decide) (.inr (by decide)))
  have hwait : stored.endWait r St.superseded = stored := by
    rw [State.endWait, show (stored.rail r).prof.waiter = none from hnone]
  rw [State.writeTarget, if_neg (by simp [stored, hstored]), hctrl, if_pos (by simp [hhost]), State.takeTarget, hwait,
    State.clampTarget_setTarget hs]

theorem writeTarget_commands : let t := s.writeTarget r v;
    t.obj Ob.clsRail r.val Ob.Rail.target = v ∧ (t.rail r).prof.reqMv = v.toNat ∧ (t.rail r).prof.tag = 0 ∧
      (t.rail r).prof.tgtMv = s.clampTarget r v.toNat ∧
      (t.rail r).prof.slew = bits (s.obj Ob.clsRail r.val Ob.Rail.profCtrl) 2 1 ∧ RailsBut r s t ∧
      SameBut [.objs, .rails] s t := by
  rw [State.writeTarget_of_host v hreg hhost hs hnone, State.modProf_eq]
  refine ⟨State.obj_setObj_self hs.store .., ?_, ?_, ?_, ?_, State.railsBut_modRail (s.setObj ..) r _,
    same_step (same_mono (State.setObj_same ..) (by decide)) (State.modRail_same (s.setObj ..) ..) (by decide)⟩
  all_goals rw [State.rail_modRail_self]

end

/-! The queue -/

/-- No effect queues another. -/
theorem State.edgeQueue_applyEdges (l : List EdgeAction) (s : State) :
    (forEach l State.applyEdge s).edgeQueue = s.edgeQueue :=
  (same_forEach (same_refl ..) State.applyEdge_same).same .edgeQueue (by decide)

theorem State.edgeQueue_applyQueue (s : State) : s.applyQueue.edgeQueue = [] := by
  rw [State.applyQueue, State.edgeQueue_applyEdges, State.edgeQueue_applyEdges]

/-- Settles O22: one lemma per effect; a request stands through all that its change sets off (`ReqStands`), and no effect
queues another (`State.edgeQueue_applyEdges`). -/
theorem edgeEffects : Obligations.EdgeEffects := fun s k r =>
  ⟨useCoefs_loads s r, ffClear_empties s r, fun _ => ffRestore_loads, ffSave_stores, freeze_freezes s k,
    fun n v hs => writeForce_forces hs n v, writeTarget_commands, s.req_setReq, s.edgeQueue_applyQueue⟩

end Sys2Proof.Machine
end

section
/-! A valid frame of a load (08 R167, R169): what its count, its stamp and its SEQ make of the port, and what everything that
goes along with a frame leaves of them. -/

namespace Sys2Proof.Machine

/-! What goes along with a frame -/

/-- The counters that a frame may move beside those of received frames: dropped frames of its port, withdrawn requests
(R169) and the recorder's two. -/
def frameKeys (p : PortIx) : List (Nat × Nat × Nat) :=
  (Ob.clsPort, p.val, Ob.Port.drops) :: (allRails.map fun r => (Ob.clsRail, r.val, Ob.Rail.withdrawals)) ++ recKeys

theorem mem_frameKeys {p : PortIx} {o : Nat × Nat × Nat} : o ∈ frameKeys p ↔ o = (Ob.clsPort, p.val, Ob.Port.drops) ∨
    (∃ r : RailIx, o = (Ob.clsRail, r.val, Ob.Rail.withdrawals)) ∨ o ∈ recKeys := by
  simp [frameKeys, allRails, eq_comm]

theorem frameKeys_ne (p : PortIx) {c i k : Nat} (hi : i < 256) (hk : k < 256)
    (h : c = Ob.clsPort ∧ k ≠ Ob.Port.drops ∨ c = Ob.clsRail ∧ k ≠ Ob.Rail.withdrawals) :
    ∀ o ∈ frameKeys p, objKey c i k ≠ objKey o.1 o.2.1 o.2.2 := by
  intro o ho
  rcases mem_frameKeys.mp ho with rfl | ⟨r, rfl⟩ | hrec
  · exact objKey_ne hi hk (show p.val < 256 by omega) (show Ob.Port.drops < 256 by decide)
      (h.elim (fun hport => .inr hport.2) fun hrail => .inl (by simp [hrail.1]))
  · exact objKey_ne hi hk (show r.val < 256 by omega) (show Ob.Rail.withdrawals < 256 by decide)
      (h.elim (fun hport => .inl (by simp [hport.1])) fun hrail => .inr hrail.2)
  · have hc : c ≠ Ob.clsRec := by
      rcases h with ⟨rfl, _⟩ | ⟨rfl, _⟩ <;> decide
    exact recKeys_ne hc hi hk o hrec

/-- Two objects of PORT with different items have different keys. -/
theorem portKey_ne (p q : PortIx) {k k' : Nat} (hk : k < 256) (hk' : k' < 256) (h : k ≠ k') :
    objKey Ob.clsPort p.val k ≠ objKey Ob.clsPort q.val k' := objKey_ne (by omega) hk (by omega) hk' (.inr h)

/-- From s to t no other port changes, the port's stamp of a valid frame of this moment stands, and of the object store only
the counters of `frameKeys` move. -/
structure PortFrame (p : PortIx) (s t : State) : Prop where
  other : PortsBut p s t
  valid : (s.port p).lastValid = s.now → (t.port p).lastValid = s.now
  now : t.now = s.now
  writes : WritesOnly (frameKeys p) s t

theorem State.port_modPort_self (s : State) (p : PortIx) (f : PortState → PortState) :
    (s.modPort p f).port p = f (s.port p) := (State.port_modPort ..).trans (if_pos rfl)

theorem State.portsBut_modPort (s : State) (p : PortIx) (f : PortState → PortState) : PortsBut p s (s.modPort p f) :=
  fun _ hq => (State.port_modPort ..).trans (if_neg hq)

@[simp] theorem State.port_record (s : State) (code cls inst sub : Nat) (data : List Byte) (p : PortIx) :
    (s.record code cls inst sub data).port p = s.port p :=
  congrArg (Vector.get · p) ((State.record_frame s ..).same .ports (by decide))

theorem State.port_enqueue (s : State) (p : PortIx) (m : TxMsg) :
    (s.enqueue p m).port p = { s.port p with queue := (enqueueIn (s.port p).queue m).1 } := State.port_modPort_self ..

/-- A withdrawal leaves of the port all but its request (R169, R171). -/
theorem State.port_withdraw (s : State) (p q : PortIx) : (s.withdraw p).port q =
    if q = p then { s.port p with standing := none, arb := none, takeAt := none } else s.port q := by
  unfold State.withdraw
  split
  next hnone =>
    rw [State.port_modPort]
    split
    · rw [← Option.isNone_iff_eq_none.mp hnone]
    · rfl
  · extract_lets gone
    have hgone : gone.port q = _ := State.port_modPort ..
    rw [← hgone]
    split <;> rfl

theorem State.port_emptyPort (s : State) (p : PortIx) : (s.emptyPort p).port p = { s.port p with
    standing := none, arb := none, takeAt := none, pending := none, queue := [], lastAck := none } := by
  rw [State.emptyPort, State.port_modPort_self, State.port_withdraw, if_pos rfl]

namespace PortFrame

variable {p : PortIx} {a b c : State}

theorem refl (s : State) : PortFrame p s s := ⟨fun _ _ => rfl, id, rfl, .of_objs rfl⟩

theorem trans (h : PortFrame p a b) (h' : PortFrame p b c) : PortFrame p a c :=
  ⟨fun q hq => (h'.other q hq).trans (h.other q hq),
    fun hnow => (h'.valid ((h.valid hnow).trans h.now.symm)).trans h.now, h'.now.trans h.now, h.writes.trans h'.writes⟩

theorem modPort (s : State) {f : PortState → PortState}
    (hvalid : (s.port p).lastValid = s.now → (f (s.port p)).lastValid = s.now) : PortFrame p s (s.modPort p f) :=
  ⟨State.portsBut_modPort s p f, fun hnow => by rw [State.port_modPort_self, hvalid hnow], rfl, .of_objs rfl⟩

theorem of_rails (h : SameBut [.rails] a b) : PortFrame p a b := by
  have hport : ∀ q, b.port q = a.port q := fun q => congrArg (Vector.get · q) (h.same .ports (by decide))
  exact ⟨fun q _ => hport q, fun hnow => by rw [hport, hnow], h.same .now (by decide), .of_objs (h.same .objs (by decide))⟩

theorem count {cls inst item : Nat} (s : State) (n : Nat) (hmem : (cls, inst, item) ∈ frameKeys p) :
    PortFrame p s (s.countN cls inst item n) := ⟨fun _ _ => rfl, id, rfl, .setObj hmem s _⟩

theorem record (s : State) (code cls inst sub : Nat) (data : List Byte) :
    PortFrame p s (s.record code cls inst sub data) :=
  ⟨fun _ _ => State.port_record .., fun hnow => by rw [State.port_record, hnow], State.now_record ..,
    (State.record_writes s ..).mono fun _ ho => mem_frameKeys.mpr (.inr (.inr ho))⟩

theorem enqueue (s : State) (m : TxMsg) : PortFrame p s (s.enqueue p m) :=
  (modPort s id).trans (count _ _ (mem_frameKeys.mpr (.inl rfl)))

theorem withdraw (s : State) : PortFrame p s (s.withdraw p) := by
  unfold State.withdraw
  refine rel_ite (modPort s id) ?_
  extract_lets gone
  have hgone : PortFrame p s gone := modPort s id
  split
  next r _ => exact hgone.trans (count gone 1 (mem_frameKeys.mpr (.inr (.inl ⟨r, rfl⟩))))
  · exact hgone

theorem emptyPort (s : State) : PortFrame p s (s.emptyPort p) := (withdraw s).trans (modPort _ id)

theorem enterVersion (s : State) (st : PortSt) : PortFrame p s (s.enterVersion p st) := modPort s fun _ => rfl

theorem impliedWl1 (s : State) : PortFrame p s (s.impliedWl1 p) :=
  rel_ite (refl s) ((enterVersion s .wl1).trans (record ..))

end PortFrame

/-! The frame itself (R167) -/

/-- The SEQ of a frame is not the one that the port expects. -/
def State.seqJumps (s : State) (p : PortIx) (seq : Nat) : Bool :=
  match (s.port p).rxSeq with
  | some q => s.portUp p && (q + 1) % 16 != seq % 16
  | none => false

theorem State.rxValid_eq (s : State) (p : PortIx) (seq : Nat) : s.rxValid p seq =
    ((s.count Ob.clsPort p.val Ob.Port.rxFrames).countIf (s.seqJumps p seq) Ob.clsPort p.val Ob.Port.seqGaps).modPort p
      fun x => { x with lastValid := s.now, rxSeq := if s.portUp p then some (seq % 16) else none } := by
  show (let u := (s.count Ob.clsPort p.val Ob.Port.rxFrames).countIf (s.seqJumps p seq) Ob.clsPort p.val Ob.Port.seqGaps
    u.modPort p fun x => { x with lastValid := u.now, rxSeq := if u.portUp p then some (seq % 16) else none }) = _
  cases s.seqJumps p seq <;> rfl

theorem State.port_rxValid (s : State) (p : PortIx) (seq : Nat) (q : PortIx) : (s.rxValid p seq).port q =
    if q = p then { s.port p with lastValid := s.now, rxSeq := if s.portUp p then some (seq % 16) else none }
    else s.port q := by
  rw [State.rxValid_eq, State.port_modPort]
  cases s.seqJumps p seq <;> rfl

theorem State.port_rxValid_self (s : State) (p : PortIx) (seq : Nat) : (s.rxValid p seq).port p =
    { s.port p with lastValid := s.now, rxSeq := if s.portUp p then some (seq % 16) else none } :=
  (State.port_rxValid ..).trans (if_pos rfl)

theorem State.portUp_congr {s t : State} {p : PortIx} (h : (t.port p).pstate = (s.port p).pstate) :
    t.portUp p = s.portUp p := by
  rw [State.portUp, State.portUp, h]

theorem State.rails_rxValid (s : State) (p : PortIx) (seq : Nat) : (s.rxValid p seq).rails = s.rails :=
  (State.rxValid_same s p seq).same .rails (by decide)

theorem State.now_rxValid (s : State) (p : PortIx) (seq : Nat) : (s.rxValid p seq).now = s.now :=
  (State.rxValid_same s p seq).same .now (by decide)

/-- The counters of received frames. -/
abbrev rxKeys (p : PortIx) : List (Nat × Nat × Nat) :=
  [(Ob.clsPort, p.val, Ob.Port.rxFrames), (Ob.clsPort, p.val, Ob.Port.seqGaps)]

theorem rxKeys_ne (p : PortIx) {c i k : Nat} (hi : i < 256) (hk : k < 256)
    (h : c ≠ Ob.clsPort ∨ k ≠ Ob.Port.rxFrames ∧ k ≠ Ob.Port.seqGaps) :
    ∀ o ∈ rxKeys p, objKey c i k ≠ objKey o.1 o.2.1 o.2.2 := by
  have hp : p.val < 256 := by omega
  intro o ho
  rcases List.mem_pair.mp ho with rfl | rfl
  · exact objKey_ne hi hk hp (show Ob.Port.rxFrames < 256 by decide) (h.imp id And.left)
  · exact objKey_ne hi hk hp (show Ob.Port.seqGaps < 256 by decide) (h.imp id And.right)

theorem State.countIf_writes {os : List (Nat × Nat × Nat)} {cls inst item : Nat} (hmem : (cls, inst, item) ∈ os) (s : State)
    (b : Bool) : WritesOnly os s (s.countIf b cls inst item) := rel_ite (.setObj hmem s _) (.of_objs rfl)

theorem State.rxValid_writes (s : State) (p : PortIx) (seq : Nat) : WritesOnly (rxKeys p) s (s.rxValid p seq) := by
  rw [State.rxValid_eq]
  have hcounted : WritesOnly (rxKeys p) s (s.count Ob.clsPort p.val Ob.Port.rxFrames) := .setObj (by simp) s _
  exact (hcounted.trans (State.countIf_writes (by simp) _ _)).trans (.of_objs rfl)

/-- A valid frame is counted, ends the silence, and a jump of its SEQ on a port that is up is a gap (R163, R167). -/
def FrameTaken (s : State) (p : PortIx) (seq : Nat) (t : State) : Prop :=
  Counts s t Ob.clsPort p.val Ob.Port.rxFrames ∧ (t.port p).lastValid = s.now ∧ PortsBut p s t ∧
    (s.portUp p = true → ∀ q, (s.port p).rxSeq = some q →
      if (q + 1) % 16 = seq % 16 then
        t.obj Ob.clsPort p.val Ob.Port.seqGaps = s.obj Ob.clsPort p.val Ob.Port.seqGaps
      else Counts s t Ob.clsPort p.val Ob.Port.seqGaps)

section
variable {s t : State} {p : PortIx} {seq : Nat} (hok : StoreOk s.objs)
include hok

theorem State.rxFrames_rxValid : Counts s (s.rxValid p seq) Ob.clsPort p.val Ob.Port.rxFrames := by
  have hgaps : WritesOnly [(Ob.clsPort, p.val, Ob.Port.seqGaps)] (s.count Ob.clsPort p.val Ob.Port.rxFrames)
      (s.rxValid p seq) := by
    rw [State.rxValid_eq]
    exact (State.countIf_writes List.mem_cons_self _ _).trans (.of_objs rfl)
  refine counts_of_writesOnly hok rfl hgaps fun o ho => ?_
  rw [List.mem_singleton.mp ho]
  exact portKey_ne (k' := Ob.Port.seqGaps) p p (by decide) (by decide) (by decide)

theorem State.seqGaps_rxValid : if s.seqJumps p seq then Counts s (s.rxValid p seq) Ob.clsPort p.val Ob.Port.seqGaps
    else (s.rxValid p seq).obj Ob.clsPort p.val Ob.Port.seqGaps = s.obj Ob.clsPort p.val Ob.Port.seqGaps := by
  let counted : State := s.count Ob.clsPort p.val Ob.Port.rxFrames
  have hstands : counted.obj Ob.clsPort p.val Ob.Port.seqGaps = s.obj Ob.clsPort p.val Ob.Port.seqGaps :=
    State.obj_setObj_ne hok _ _ _ _ _ _ _ (portKey_ne p p (by decide) (by decide) (by decide))
  have hok' : StoreOk counted.objs := Store.setVal_ok hok ..
  rw [State.rxValid_eq]
  cases s.seqJumps p seq with
  | true => exact counts_of_writesOnly (os := []) hok' hstands (.of_objs rfl) (by simp)
  | false => exact hstands

theorem frameTaken_of_portFrame (h : PortFrame p (s.rxValid p seq) t) : FrameTaken s p seq t := by
  have hok' : StoreOk (s.rxValid p seq).objs := (s.rxValid_writes p seq).ok hok
  have hrx : t.obj Ob.clsPort p.val Ob.Port.rxFrames = (s.rxValid p seq).obj Ob.clsPort p.val Ob.Port.rxFrames :=
    h.writes.obj_eq hok' (frameKeys_ne p (by omega) (by decide) (.inl (by decide)))
  have hgaps : t.obj Ob.clsPort p.val Ob.Port.seqGaps = (s.rxValid p seq).obj Ob.clsPort p.val Ob.Port.seqGaps :=
    h.writes.obj_eq hok' (frameKeys_ne p (by omega) (by decide) (.inl (by decide)))
  refine ⟨hrx.trans (State.rxFrames_rxValid hok), ?_, fun q hq => ?_, fun hup q hseq => ?_⟩
  · rw [h.valid (by rw [State.port_rxValid_self, State.now_rxValid]), State.now_rxValid]
  · rw [h.other q hq, State.port_rxValid, if_neg hq]
  · have hjumps : s.seqJumps p seq = ((q + 1) % 16 != seq % 16) := by simp [State.seqJumps, hseq, hup]
    have hjudged := State.seqGaps_rxValid (p := p) (seq := seq) hok
    unfold Counts at hjudged ⊢
    rw [hgaps]
    split
    next heq => simpa [hjumps, heq] using hjudged
    next hne => simpa [hjumps, hne] using hjudged

/-- The objects of PORT and RAIL that the host writes stand through a frame. -/
theorem PortFrame.obj_eq (h : PortFrame p (s.rxValid p seq) t) {c i k : Nat} (hi : i < 256) (hk : k < 256)
    (hset : c = Ob.clsPort ∧ k < Ob.Port.crcErrors ∨ c = Ob.clsRail ∧ k ≠ Ob.Rail.withdrawals) :
    t.obj c i k = s.obj c i k := by
  have hrx : c ≠ Ob.clsPort ∨ k ≠ Ob.Port.rxFrames ∧ k ≠ Ob.Port.seqGaps := by
    rcases hset with ⟨_, hlt⟩ | ⟨rfl, _⟩
    · exact .inr ⟨(hlt.trans (by decide)).ne, (hlt.trans (by decide)).ne⟩
    · exact .inl (by decide)
  have hbeside : c = Ob.clsPort ∧ k ≠ Ob.Port.drops ∨ c = Ob.clsRail ∧ k ≠ Ob.Rail.withdrawals :=
    hset.imp_left fun hport => ⟨hport.1, (hport.2.trans (by decide)).ne⟩
  have hwrites := s.rxValid_writes p seq
  exact (h.writes.obj_eq (hwrites.ok hok) (frameKeys_ne p hi hk hbeside)).trans (hwrites.obj_eq hok (rxKeys_ne p hi hk hrx))

theorem PortFrame.portCtrl_eq (h : PortFrame p (s.rxValid p seq) t) : t.portCtrl p = s.portCtrl p :=
  h.obj_eq hok (by omega) (by decide) (.inl (by decide))

theorem PortFrame.ffRails_eq (h : PortFrame p (s.rxValid p seq) t) : t.ffRails p = s.ffRails p := by
  refine List.filter_congr fun r _ => ?_
  have hcfg : t.obj Ob.clsRail r.val Ob.Rail.cfg = s.obj Ob.clsRail r.val Ob.Rail.cfg :=
    h.obj_eq hok (by omega) (by decide) (.inr (by decide))
  have hport : t.obj Ob.clsRail r.val Ob.Rail.ffPort = s.obj Ob.clsRail r.val Ob.Rail.ffPort :=
    h.obj_eq hok (by omega) (by decide) (.inr (by decide))
  have hen : t.railEn r.val = s.railEn r.val := congrArg (bit · 0) hcfg
  rw [hen, State.railN, State.railN, hport]

end

/-! The rails that take their strokes and positions from a port (R138, R142) -/

theorem State.nodup_ffRails (s : State) (p : PortIx) : (s.ffRails p).Nodup :=
  List.Nodup.filter _ (List.nodup_finRange 16)

/-- A loop that changes each of its rails once comes to a rail that is as it was, and leaves what it makes of it. -/
theorem State.forEach_rails {f : State → RailIx → State} {l : List RailIx} (hl : l.Nodup)
    (hbut : ∀ s r, RailsBut r s (f s r)) (hsame : ∀ s r, SameBut [.rails] s (f s r)) {r : RailIx} (hr : r ∈ l) (s : State) :
    ∃ a, a.rail r = s.rail r ∧ SameBut [.rails] s a ∧ (forEach l f s).rail r = (f a r).rail r := by
  obtain ⟨before, after, rfl⟩ := List.append_of_mem hr
  obtain ⟨hbefore, hafter⟩ : r ∉ before ∧ r ∉ after := by
    have hnotin := (List.nodup_cons.mp (List.nodup_middle.mp hl)).1
    simpa using hnotin
  have hstands {m : List RailIx} (hm : r ∉ m) (x : State) : (forEach m f x).rail r = x.rail r :=
    rel_forEach (R := fun a b => b.rail r = a.rail r) (fun _ => rfl) (fun h h' => h'.trans h)
      (fun q hq y => hbut y q r fun heq => hm (heq ▸ hq)) x
  refine ⟨forEach before f s, hstands hbefore s, same_forEach (same_refl ..) hsame, ?_⟩
  have hsplit : forEach (before ++ r :: after) f s = forEach after f (f (forEach before f s) r) := by
    simp [forEach]
  rw [hsplit, hstands hafter]

end Sys2Proof.Machine
end

section
/-! The frames of a load (06 R138, R142, 08 R166 to R169, R179, R184): one lemma per kind of frame, and the receiver over
characters that make none. -/

namespace Sys2Proof.Machine

/-- A command that counts one event and does nothing else. -/
theorem completes_count {c : Instr} {s : State} {cls inst item : Nat} (hs : Orderly s)
    (hexec : exec c s = .next (s.count cls inst item)) :
    Completes c s fun t => Counts s t cls inst item ∧ ObjsBut [(cls, inst, item)] s t ∧ SameBut [.objs] s t :=
  ⟨_, hexec, State.obj_setObj_self hs.store .., State.objsBut_setObj hs.store cls inst item _, State.count_same ..⟩

/-! A HELLO (R169) -/

/-- A HELLO up to its version: it is taken, its sender is kept, and a port that was up is emptied and negotiates again. -/
def State.meetPeer (s : State) (p : PortIx) (m : HelloMsg) : State :=
  let met := (s.rxValid p m.seq).modPort p fun x =>
    { x with peerId := m.senderId, peerCaps := m.caps, peerMaj := m.major, peerMin := m.minor }
  if met.portUp p then (met.emptyPort p).modPort p fun x => { x with pstate := .negotiating, rxSeq := none } else met

/-- The answer to a HELLO, unless it is one itself. -/
def State.answerHello (s : State) (p : PortIx) (m : HelloMsg) : State :=
  if m.reply then s else s.enqueue p (.hello (s.port p).wlmax 0 true)

/-- The record of the version, and the WARN of a standing warning for a port that enters WL2. -/
def State.reportVersion (s : State) (p : PortIx) (ver senderId : Nat) : State :=
  let s := s.record Code.portVersion Ob.clsPort p.val (min ver 2) (leBytes 1 0 ++ leBytes 2 senderId)
  if 2 ≤ ver && s.feeds.ewarn then s.enqueue p s.warnMsg else s

/-- The version that a HELLO agrees on. -/
def State.agreed (s : State) (p : PortIx) (m : HelloMsg) : Nat := min m.major (bits (s.portCtrl p) 2 1)

/-- A HELLO with a version, from where the peer is met: the version is entered, answered and recorded (R169). -/
def State.takeVersion (s : State) (p : PortIx) (m : HelloMsg) : State :=
  ((s.enterVersion p (if 2 ≤ s.agreed p m then .wl2 else .wl1)).answerHello p m).reportVersion p (s.agreed p m) m.senderId

theorem State.rxHello_eq {s : State} {p : PortIx} (hon : s.portOn p = true) (m : HelloMsg) :
    s.rxHello p m = if m.major = 0 then s.meetPeer p m else (s.meetPeer p m).takeVersion p m := by
  rw [State.rxHello, if_neg (by simp [hon])]
  rfl

/-- From s to t the port itself changes in nothing but its queue. -/
def QueueOnly (p : PortIx) (s t : State) : Prop := ∃ q, t.port p = { s.port p with queue := q }

section
variable {p : PortIx} (s : State) (m : HelloMsg)

theorem QueueOnly.refl : QueueOnly p s s := ⟨_, rfl⟩

theorem QueueOnly.trans {a b c : State} (h : QueueOnly p a b) (h' : QueueOnly p b c) : QueueOnly p a c := by
  obtain ⟨q, hq⟩ := h
  obtain ⟨q', hq'⟩ := h'
  exact ⟨q', by rw [hq', hq]⟩

theorem QueueOnly.enqueue (x : TxMsg) : QueueOnly p s (s.enqueue p x) := ⟨_, State.port_enqueue ..⟩

theorem QueueOnly.answerHello : QueueOnly p s (s.answerHello p m) := rel_ite (.refl s) (.enqueue s _)

theorem QueueOnly.reportVersion (ver senderId : Nat) : QueueOnly p s (s.reportVersion p ver senderId) := by
  unfold State.reportVersion
  extract_lets logged
  have hlogged : QueueOnly p s logged := ⟨_, State.port_record ..⟩
  exact rel_ite (hlogged.trans (.enqueue logged _)) hlogged

theorem PortFrame.answerHello : PortFrame p s (s.answerHello p m) := rel_ite (.refl s) (.enqueue s _)

theorem PortFrame.reportVersion (ver senderId : Nat) : PortFrame p s (s.reportVersion p ver senderId) := by
  unfold State.reportVersion
  extract_lets logged
  have hlogged : PortFrame p s logged := .record ..
  exact rel_ite (hlogged.trans (.enqueue logged _)) hlogged

theorem PortFrame.takeVersion : PortFrame p s (s.takeVersion p m) :=
  (enterVersion s _).trans ((answerHello _ m).trans (reportVersion ..))

theorem PortFrame.meetPeer : PortFrame p (s.rxValid p m.seq) (s.meetPeer p m) := by
  unfold State.meetPeer
  extract_lets met
  have hmet : PortFrame p (s.rxValid p m.seq) met := .modPort _ id
  exact rel_ite (hmet.trans ((PortFrame.emptyPort met).trans (.modPort _ id))) hmet

theorem PortFrame.rxHello (hon : s.portOn p = true) : PortFrame p (s.rxValid p m.seq) (s.rxHello p m) := by
  rw [State.rxHello_eq hon]
  exact rel_ite (meetPeer s m) ((meetPeer s m).trans (takeVersion _ m))

theorem State.recd_reportVersion (ver senderId : Nat) : (s.reportVersion p ver senderId).recd =
    (s.record Code.portVersion Ob.clsPort p.val (min ver 2) (leBytes 1 0 ++ leBytes 2 senderId)).recd := by
  unfold State.reportVersion
  extract_lets logged
  split <;> rfl

theorem State.meetPeer_same : SameBut [.objs, .ports] s (s.meetPeer p m) := by
  unfold State.meetPeer
  extract_lets met
  have hmet : SameBut [.objs, .ports] s met := same_step (State.rxValid_same ..) (State.modPort_same ..) (by decide)
  exact same_ite (same_step (same_step hmet (State.emptyPort_same ..) (by decide)) (State.modPort_same ..) (by decide)) hmet

theorem State.answerHello_same : SameBut [.objs, .ports] s (s.answerHello p m) :=
  same_ite (same_refl ..) (State.enqueue_same ..)

/-- The port of a HELLO with a version enters it and takes WLMAX. -/
theorem State.port_takeVersion : ∃ q, (s.takeVersion p m).port p = { s.port p with
    pstate := if 2 ≤ s.agreed p m then .wl2 else .wl1, rxSeq := none, lastValid := s.now, lastPing := s.now
    lastStatus := s.now, lastWarn := s.now, wlmax := bits (s.portCtrl p) 2 1, queue := q } := by
  obtain ⟨q, hq⟩ : QueueOnly p (s.enterVersion p _) (s.takeVersion p m) :=
    (QueueOnly.answerHello _ m).trans (QueueOnly.reportVersion ..)
  exact ⟨q, by rw [hq, State.enterVersion, State.port_modPort_self]⟩

theorem State.takeVersion_logs : Logs s (s.takeVersion p m) Code.portVersion Ob.clsPort p.val (min (s.agreed p m) 2)
    (leBytes 1 0 ++ leBytes 2 m.senderId) := by
  let entered : State := s.enterVersion p (if 2 ≤ s.agreed p m then .wl2 else .wl1)
  have hsame : SameBut [.objs, .ports] s (entered.answerHello p m) :=
    same_step (same_mono (State.enterVersion_same ..) (by decide)) (State.answerHello_same entered m) fun _ h => h
  exact ⟨_, hsame.same .recd (by decide), hsame.same .nvm (by decide), State.recd_reportVersion ..⟩

theorem logs_of_same {s u t : State} {ps : List Area} {code cls inst sub : Nat} {data : List Byte} (h : SameBut ps s u)
    (hrecd : Area.recd ∉ ps) (hnvm : Area.nvm ∉ ps) (hlogs : Logs u t code cls inst sub data) :
    Logs s t code cls inst sub data := by
  obtain ⟨v, hv, hv', ht⟩ := hlogs
  exact ⟨v, hv.trans (h.same .recd hrecd), hv'.trans (h.same .nvm hnvm), ht⟩

/-- The sender of a HELLO is kept, and a port that was up has neither request nor pending acknowledgement (R169). -/
theorem State.port_meetPeer : ((s.meetPeer p m).port p).peerId = m.senderId ∧
    ((s.meetPeer p m).port p).peerMaj = m.major ∧
      (s.portUp p = true → ((s.meetPeer p m).port p).standing = none ∧ ((s.meetPeer p m).port p).pending = none) := by
  unfold State.meetPeer
  extract_lets met
  have hmet : met.port p = _ := (State.port_modPort_self ..).trans (by rw [State.port_rxValid_self])
  have hup : met.portUp p = s.portUp p := State.portUp_congr (by rw [hmet])
  rw [hup]
  by_cases hwas : s.portUp p = true
  · rw [if_pos hwas, State.port_modPort_self, State.port_emptyPort, hmet]
    exact ⟨rfl, rfl, fun _ => ⟨rfl, rfl⟩⟩
  · rw [if_neg hwas, hmet]
    exact ⟨rfl, rfl, fun h => absurd h hwas⟩

end

section
variable {s : State} {p : PortIx} (hs : Orderly s) (hon : s.portOn p = true)
include hs hon

theorem hello_taken (m : HelloMsg) : Completes (.wairelHello p m) s fun t => FrameTaken s p m.seq t ∧
    (t.port p).peerId = m.senderId ∧ (t.port p).peerMaj = m.major ∧
    SameBut [.objs, .rails, .ports, .twin, .recd, .nvm] s t ∧
    (s.portUp p = true → (t.port p).standing = none ∧ (t.port p).pending = none) ∧
    (m.major ≠ 0 → (t.port p).rxSeq = none ∧ (t.port p).wlmax = bits (s.portCtrl p) 2 1 ∧
      (t.port p).pstate = (if 2 ≤ min m.major (bits (s.portCtrl p) 2 1) then .wl2 else .wl1) ∧
      Logs s t Code.portVersion Ob.clsPort p.val (min (min m.major (bits (s.portCtrl p) 2 1)) 2)
        (leBytes 1 0 ++ leBytes 2 m.senderId)) := by
  have htaken := frameTaken_of_portFrame hs.store (PortFrame.rxHello s m hon)
  obtain ⟨hid, hmaj, hempty⟩ := State.port_meetPeer (p := p) s m
  refine ⟨s.rxHello p m, rfl, htaken, ?_⟩
  have hsame := State.rxHello_same s p m
  rw [State.rxHello_eq hon] at hsame ⊢
  by_cases hmajor : m.major = 0
  · rw [if_pos hmajor] at hsame ⊢
    exact ⟨hid, hmaj, hsame, hempty, fun h => absurd hmajor h⟩
  · rw [if_neg hmajor] at hsame ⊢
    have hctrl : (s.meetPeer p m).portCtrl p = s.portCtrl p := (PortFrame.meetPeer s m).portCtrl_eq hs.store
    have hlogs := logs_of_same (State.meetPeer_same (p := p) s m) (by decide) (by decide) (State.takeVersion_logs (p := p) _ m)
    obtain ⟨q, hport⟩ := State.port_takeVersion (p := p) (s.meetPeer p m) m
    rw [State.agreed, hctrl] at hlogs hport
    rw [hport]
    exact ⟨hid, hmaj, hsame, hempty, fun _ => ⟨rfl, hctrl ▸ rfl, rfl, hlogs⟩⟩

end

/-! A position (R142, R179) -/

theorem State.pstate_impliedWl1 (s : State) (p : PortIx) :
    ((s.impliedWl1 p).port p).pstate = if s.portUp p then (s.port p).pstate else .wl1 := by
  unfold State.impliedWl1
  split
  · rfl
  · rw [State.port_record, State.enterVersion, State.port_modPort_self]

/-- A position as a rail keeps it. -/
theorem State.ff_ffPos (s : State) (r : RailIx) (x : Nat) : ((s.ffPos r x).rail r).ff.pos = some x ∧
    ((s.ffPos r x).rail r).ff.posAt = s.now ∧ ((s.ffPos r x).rail r).ff.stale = false := by
  have hff : ((s.ffPos r x).rail r).ff = _ := State.ff_modFf_self ..
  rw [hff]
  exact ⟨rfl, rfl, rfl⟩

/-- A position reaches every rail of its port. -/
theorem State.ff_forEach_ffPos (s : State) (p : PortIx) (x : Nat) {r : RailIx} (hr : r ∈ s.ffRails p) :
    let t := forEach (s.ffRails p) (fun s r => s.ffPos r x) s;
    (t.rail r).ff.pos = some x ∧ (t.rail r).ff.posAt = s.now ∧ (t.rail r).ff.stale = false := by
  have hbut (a : State) (q : RailIx) : RailsBut q a (a.ffPos q x) := State.railsBut_modRail a q _
  obtain ⟨a, _, hsame, hrail⟩ := State.forEach_rails (State.nodup_ffRails s p) hbut (fun a q => State.ffPos_same a q x) hr s
  have hnow : a.now = s.now := hsame.same .now (by decide)
  extract_lets t
  rw [hrail, ← hnow]
  exact State.ff_ffPos a r x

/-- The port's part of a position: the frame is taken, a port that was down enters WL1, and the position is kept. -/
def State.keepPos (s : State) (p : PortIx) (seq x : Nat) : State :=
  let s := (s.rxValid p seq).impliedWl1 p
  s.modPort p fun y => { y with pos := x, posAt := some s.now }

theorem PortFrame.keepPos (s : State) (p : PortIx) (seq x : Nat) : PortFrame p (s.rxValid p seq) (s.keepPos p seq x) :=
  (impliedWl1 _).trans (modPort _ id)

theorem State.port_keepPos (s : State) (p : PortIx) (seq x : Nat) : ((s.keepPos p seq x).port p).pos = x ∧
    ((s.keepPos p seq x).port p).posAt = some s.now ∧
    ((s.keepPos p seq x).port p).pstate = if s.portUp p then (s.port p).pstate else .wl1 := by
  have hnow : ((s.rxValid p seq).impliedWl1 p).now = s.now :=
    (PortFrame.impliedWl1 (p := p) _).now.trans (State.now_rxValid ..)
  have hup : (s.rxValid p seq).portUp p = s.portUp p := State.portUp_congr (by rw [State.port_rxValid_self])
  have hstate : (((s.rxValid p seq).impliedWl1 p).port p).pstate = if s.portUp p then (s.port p).pstate else .wl1 := by
    rw [State.pstate_impliedWl1, hup, State.port_rxValid_self]
  rw [State.keepPos, State.port_modPort_self]
  exact ⟨rfl, congrArg some hnow, hstate⟩

/-! A stroke (R138, R179) -/

theorem State.strokeMismatch_railsBut (s : State) (r : RailIx) : RailsBut r s (s.strokeMismatch r) :=
  rel_ite (fun _ _ => rfl) (State.railsBut_modRail s r _)

theorem State.strokeStart_railsBut (s : State) (r : RailIx) (id expected : Nat) :
    RailsBut r s (s.strokeStart r id expected) := by
  unfold State.strokeStart
  refine rel_ite (fun _ _ => rfl) ?_
  extract_lets ended ids table
  have hended : RailsBut r s ended := State.strokeMismatch_railsBut s r
  clear_value table
  cases table with
  | none => exact hended
  | some t => exact fun q hq => (State.railsBut_modRail ended r _ q hq).trans (hended q hq)

/-- A start whose identity is ID0 opens a stroke on table 0. -/
theorem State.strokeStart_opens {s : State} {r : RailIx} {id expected : Nat} (hmode : (s.rail r).ff.mode = 2)
    (hreg : s.regulating r = true) (hid : id ≠ 255) (htable : id = bits (s.obj Ob.clsRail r.val Ob.Rail.patId) 7 0) :
    ((s.strokeStart r id expected).rail r).ff.stroke = some ⟨id, 0, s.now, expected⟩ := by
  have hnow : (s.strokeMismatch r).now = s.now := (State.strokeMismatch_same s r).same .now (by decide)
  have hobj : (s.strokeMismatch r).obj Ob.clsRail r.val Ob.Rail.patId = s.obj Ob.clsRail r.val Ob.Rail.patId :=
    State.obj_of_objs ((State.strokeMismatch_same s r).same .objs (by decide)) ..
  have hopens : s.strokeStart r id expected = (s.strokeMismatch r).modFf r fun x =>
      { x with stroke := some ⟨id, 0, s.now, expected⟩, sums := [], counts := [], spoiled := [] } := by
    rw [State.strokeStart, if_neg (by simp [hmode, hreg])]
    simp only [hobj, hnow, if_neg hid, if_pos htable]
  rw [hopens, State.ff_modFf_self]

theorem State.strokeBad_iff {m : StrokeMsg} : State.strokeBad m = true ↔ 1 < m.kind ∨ (m.kind = 0 ∧ m.expectedMs = 0) := by
  simp [State.strokeBad]

theorem State.strokeBad_eq_false {m : StrokeMsg} (hkind : m.kind ≤ 1) (hexpected : m.kind = 0 → m.expectedMs ≠ 0) :
    State.strokeBad m = false := by
  rw [← Bool.not_eq_true, State.strokeBad_iff]
  rintro (hbad | ⟨hstart, hzero⟩)
  · exact absurd hbad (by omega)
  · exact hexpected hstart hzero

/-- A start reaches every rail of its port. -/
theorem State.stroke_forEach_strokeStart {s : State} {p : PortIx} {r : RailIx} {id expected : Nat} (hr : r ∈ s.ffRails p)
    (hmode : (s.rail r).ff.mode = 2) (hreg : s.regulating r = true) (hid : id ≠ 255)
    (htable : id = bits (s.obj Ob.clsRail r.val Ob.Rail.patId) 7 0) :
    ((forEach (s.ffRails p) (fun s r => s.strokeStart r id expected) s).rail r).ff.stroke =
      some ⟨id, 0, s.now, expected⟩ := by
  obtain ⟨a, hrail, hsame, hend⟩ := State.forEach_rails (State.nodup_ffRails s p)
    (fun a q => State.strokeStart_railsBut a q id expected) (fun a q => State.strokeStart_same a q id expected) hr s
  have hnow : a.now = s.now := hsame.same .now (by decide)
  have hids : a.obj Ob.clsRail r.val Ob.Rail.patId = s.obj Ob.clsRail r.val Ob.Rail.patId :=
    State.obj_of_objs (hsame.same .objs (by decide)) ..
  rw [hend, ← hnow]
  rw [← hrail] at hmode
  rw [State.regulating, ← hrail] at hreg
  rw [← hids] at htable
  exact State.strokeStart_opens hmode hreg hid htable

/-- What a good STROKE does on a rail. -/
def State.strokeOn (m : StrokeMsg) (s : State) (r : RailIx) : State :=
  if m.kind = 0 then s.strokeStart r m.id m.expectedMs else s.strokeEnd r m.id

theorem State.strokeOn_same (m : StrokeMsg) (s : State) (r : RailIx) : SameBut [.rails] s (s.strokeOn m r) :=
  same_ite (State.strokeStart_same ..) (State.strokeEnd_same ..)

theorem State.rxStroke_eq {s : State} {p : PortIx} {m : StrokeMsg} (hon : s.portOn p = true) (hgood : State.strokeBad m = false) :
    s.rxStroke p m = if (s.port p).pstate = .wl2 then
      forEach ((s.rxValid p m.seq).ffRails p) (State.strokeOn m) (s.rxValid p m.seq) else s.rxValid p m.seq := by
  have hstate : ((s.rxValid p m.seq).port p).pstate = (s.port p).pstate := by rw [State.port_rxValid_self]
  rw [State.rxStroke, if_neg (by simp [hon]), if_neg (by simp [hgood])]
  simp only [hstate, bne_iff_ne, ite_not]
  rfl

section
variable {s : State} {p : PortIx} (hs : Orderly s) (hon : s.portOn p = true)
include hs hon

theorem pos_taken (seq x : Nat) : Completes (.pos p seq x) s fun t => FrameTaken s p seq t ∧ (t.port p).pos = x % 65536 ∧
    (t.port p).posAt = some s.now ∧ (t.port p).pstate = (if s.portUp p then (s.port p).pstate else .wl1) ∧
    SameBut [.objs, .rails, .ports, .twin, .recd, .nvm] s t ∧
    ∀ r ∈ s.ffRails p, (t.rail r).ff.pos = some (x % 65536) ∧ (t.rail r).ff.posAt = s.now ∧ (t.rail r).ff.stale = false := by
  let u : State := s.keepPos p seq (x % 65536)
  let t : State := forEach (u.ffRails p) (fun s r => s.ffPos r (x % 65536)) u
  have hrx : s.rxPos p seq x = t := if_neg (by simp [hon])
  have hu : PortFrame p (s.rxValid p seq) u := .keepPos ..
  have hloop : SameBut [.rails] u t := same_forEach (same_refl ..) fun a r => State.ffPos_same a r _
  have hport : t.port p = u.port p := congrArg (Vector.get · p) (hloop.same .ports (by decide))
  have hnow : u.now = s.now := hu.now.trans (State.now_rxValid ..)
  obtain ⟨hpos, hat, hstate⟩ := State.port_keepPos s p seq (x % 65536)
  have hsame := State.rxPos_same s p seq x
  refine ⟨s.rxPos p seq x, rfl, ?_⟩
  rw [hrx] at hsame ⊢
  refine ⟨frameTaken_of_portFrame hs.store (hu.trans (.of_rails hloop)), by rwa [hport], by rwa [hport], by rwa [hport], hsame,
    fun r hr => ?_⟩
  rw [← hu.ffRails_eq hs.store] at hr
  rw [← hnow]
  exact State.ff_forEach_ffPos u p _ hr

theorem stroke_discarded {m : StrokeMsg} (hbad : 1 < m.kind ∨ (m.kind = 0 ∧ m.expectedMs = 0)) :
    Completes (.stroke p m) s fun t => Counts s t Ob.clsPort p.val Ob.Port.formatErrors ∧
      ObjsBut [(Ob.clsPort, p.val, Ob.Port.formatErrors)] s t ∧ SameBut [.objs] s t := by
  refine completes_count hs ?_
  show execStroke p m s = _
  rw [execStroke, State.rxStroke, if_neg (by simp [hon]), if_pos (State.strokeBad_iff.mpr hbad)]

theorem stroke_taken {m : StrokeMsg} (hkind : m.kind ≤ 1) (hexpected : m.kind = 0 → m.expectedMs ≠ 0) :
    Completes (.stroke p m) s fun t =>
      FrameTaken s p m.seq t ∧ SameBut [.objs, .rails, .ports] s t ∧ ((s.port p).pstate ≠ .wl2 → t.rails = s.rails) ∧
      ((s.port p).pstate = .wl2 → m.kind = 0 → m.expectedMs ≠ 0 → m.id ≠ 255 → ∀ r ∈ s.ffRails p, (s.rail r).ff.mode = 2 →
        s.regulating r = true → m.id = bits (s.obj Ob.clsRail r.val Ob.Rail.patId) 7 0 →
          (t.rail r).ff.stroke = some ⟨m.id, 0, s.now, m.expectedMs⟩) := by
  let u : State := s.rxValid p m.seq
  have hrails : u.rails = s.rails := State.rails_rxValid ..
  have hloop : SameBut [.rails] u (forEach (u.ffRails p) (State.strokeOn m) u) :=
    same_forEach (same_refl ..) fun a r => State.strokeOn_same m a r
  have hsame := State.rxStroke_same s p m
  refine ⟨s.rxStroke p m, rfl, ?_⟩
  rw [State.rxStroke_eq hon (State.strokeBad_eq_false hkind hexpected)] at hsame ⊢
  by_cases hwl2 : (s.port p).pstate = .wl2
  · rw [if_pos hwl2] at hsame ⊢
    refine ⟨frameTaken_of_portFrame hs.store (.of_rails hloop), hsame, fun h => absurd hwl2 h,
      fun _ hstart _ hid r hr hmode hreg htable => ?_⟩
    have hstarts : State.strokeOn m = fun a q => a.strokeStart q m.id m.expectedMs := by
      funext a q
      exact if_pos hstart
    have hu : PortFrame p u u := .refl u
    have hrail : u.rail r = s.rail r := congrArg (Vector.get · r) hrails
    rw [← hu.ffRails_eq hs.store] at hr
    rw [← hrail] at hmode
    rw [State.regulating, ← hrail] at hreg
    rw [← hu.obj_eq hs.store (by omega) (by decide) (.inr (by decide))] at htable
    rw [hstarts, ← State.now_rxValid s p m.seq]
    exact State.stroke_forEach_strokeStart hr hmode hreg hid htable
  · rw [if_neg hwl2] at hsame ⊢
    exact ⟨frameTaken_of_portFrame hs.store (.refl _), hsame, fun _ => hrails, fun h => absurd h hwl2⟩

/-! A STATUS and a PING (R168, R184) -/

theorem status_taken (m : StatusMsg) : Completes (.loadStatus p m) s fun t => FrameTaken s p m.seq t ∧
    SameBut [.objs, .ports] s t ∧
    (t.port p).loadStat = if (s.port p).pstate = .wl2 then m.data.take 8 else (s.port p).loadStat := by
  have hport := State.port_rxValid_self s p m.seq
  have hrx : s.rxStatus p m = if (s.port p).pstate = .wl2 then
      (s.rxValid p m.seq).modPort p fun x => { x with loadStat := m.data.take 8 } else s.rxValid p m.seq := by
    rw [State.rxStatus, if_neg (by simp [hon])]
    simp only [hport, bne_iff_ne, ite_not]
  have hsame := State.rxStatus_same s p m
  refine ⟨s.rxStatus p m, rfl, ?_⟩
  rw [hrx] at hsame ⊢
  refine ⟨frameTaken_of_portFrame hs.store (rel_ite (.modPort _ id) (.refl _)), hsame, ?_⟩
  split
  · rw [State.port_modPort_self]
  · rw [hport]

theorem ping_taken (seq : Nat) (reply : Bool) (cookie : Nat) : Completes (.ping p seq reply cookie) s fun t =>
    FrameTaken s p seq t ∧ SameBut [.objs, .ports] s t ∧ (t.port p).pstate = (s.port p).pstate ∧
    (t.port p).queue = (if (s.port p).pstate = .wl2 ∧ reply = false
      then (enqueueIn (s.port p).queue (.ping true (cookie % 256))).1 else (s.port p).queue) := by
  have hport := State.port_rxValid_self s p seq
  have hrx : s.rxPing p seq reply cookie = if (s.port p).pstate = .wl2 ∧ reply = false then
      (s.rxValid p seq).enqueue p (.ping true (cookie % 256)) else s.rxValid p seq := by
    rw [State.rxPing, if_neg (by simp [hon])]
    simp only [hport, Bool.and_eq_true, beq_iff_eq, Bool.not_eq_true']
  have hsame := State.rxPing_same s p seq reply cookie
  refine ⟨s.rxPing p seq reply cookie, rfl, ?_⟩
  rw [hrx] at hsame ⊢
  refine ⟨frameTaken_of_portFrame hs.store (rel_ite (.enqueue _ _) (.refl _)), hsame, ?_⟩
  split
  · rw [State.port_enqueue, hport]
    exact ⟨rfl, rfl⟩
  · rw [hport]
    exact ⟨rfl, rfl⟩

end

/-! Characters that make no frame (R163, R166) -/

/-- The receiver hunts: characters without a SYNC change nothing. -/
theorem State.rxChars_hunting {cs : List RxChar} (hcs : ∀ c ∈ cs, c.framing = true ∨ c.byte ≠ 0xA5) (s : State) (p : PortIx)
    (gapEnd : Bool) (n : Nat) : s.rxChars p gapEnd n cs = s := by
  induction cs generalizing n with
  | nil => cases n <;> rfl
  | cons c cs ih =>
    cases n with
    | zero => rfl
    | succ n =>
      have hhunt : (c.framing || c.byte != 0xA5) = true := by simpa using hcs c List.mem_cons_self
      rw [State.rxChars, if_pos hhunt]
      exact ih (fun d hd => hcs d (List.mem_cons_of_mem _ hd)) n

section
variable {s : State} {p : PortIx} {c : RxChar} (hgood : c.framing = false) (hsync : c.byte = 0xA5)
include hgood hsync

/-- After a SYNC, a frame whose CRC fails is discarded and counted, and the receiver hunts on behind the SYNC. -/
theorem State.rxChars_crc {cs : List RxChar} (hcrc : State.rxAfterSync cs = .crc) (gapEnd : Bool) (n : Nat) :
    s.rxChars p gapEnd (n + 1) (c :: cs) = (s.count Ob.clsPort p.val Ob.Port.crcErrors).rxChars p gapEnd n cs := by
  rw [State.rxChars, if_neg (by simp [hgood, hsync]), hcrc]

/-- After a SYNC, a frame that a gap leaves incomplete is abandoned and counted. -/
theorem State.rxChars_incomplete {cs : List RxChar} (hshort : State.rxAfterSync cs = .incomplete) (n : Nat) :
    s.rxChars p true (n + 1) (c :: cs) = s.count Ob.clsPort p.val Ob.Port.formatErrors := by
  rw [State.rxChars, if_neg (by simp [hgood, hsync]), hshort]
  rfl

end

section
variable {s : State} {p : PortIx} {cs : List RxChar} (hcs : ∀ c ∈ cs, c.framing = true ∨ c.byte ≠ 0xA5)
include hcs

theorem linkFrameDiscarded_hunting : Completes (.linkFrameDiscarded p cs) s fun t => t = s :=
  ⟨_, rfl, rel_ite (R := fun a b => b = a) (State.rxChars_hunting hcs s p false _) rfl⟩

theorem frameGapTimeout_hunting : Completes (.frameGapTimeout p cs) s fun t => t = s :=
  ⟨_, rfl, rel_ite (R := fun a b => b = a) (State.rxChars_hunting hcs s p true _) rfl⟩

end

section
variable {s : State} {p : PortIx} {cs : List RxChar} {c : RxChar} (hs : Orderly s) (hon : s.portOn p = true)
  (hgood : c.framing = false) (hsync : c.byte = 0xA5)
include hs hon hgood hsync

theorem linkFrameDiscarded_crc (hcs : ∀ c ∈ cs, c.framing = true ∨ c.byte ≠ 0xA5) (hcrc : State.rxAfterSync cs = .crc) :
    Completes (.linkFrameDiscarded p (c :: cs)) s fun t =>
      Counts s t Ob.clsPort p.val Ob.Port.crcErrors ∧ ObjsBut [(Ob.clsPort, p.val, Ob.Port.crcErrors)] s t ∧
        SameBut [.objs] s t := by
  refine completes_count hs ?_
  show execLinkFrameDiscarded p (c :: cs) s = _
  rw [execLinkFrameDiscarded, if_pos hon, List.length_cons, State.rxChars_crc hgood hsync hcrc, State.rxChars_hunting hcs]

theorem frameGapTimeout_incomplete (hshort : State.rxAfterSync cs = .incomplete) :
    Completes (.frameGapTimeout p (c :: cs)) s fun t =>
      Counts s t Ob.clsPort p.val Ob.Port.formatErrors ∧ ObjsBut [(Ob.clsPort, p.val, Ob.Port.formatErrors)] s t ∧
        SameBut [.objs] s t := by
  refine completes_count hs ?_
  show execFrameGapTimeout p (c :: cs) s = _
  rw [execFrameGapTimeout, if_pos hon, List.length_cons, State.rxChars_incomplete hgood hsync hshort]

end

/-! A port that is DISABLED (R169) -/

theorem load_ignored {s : State} {p : PortIx} (hoff : s.portOn p = false) (h : HelloMsg) (v : VreqMsg) (q x : Nat)
    (a : StrokeMsg) (b : StatusMsg) (c : Nat) (d : Bool) (l : List RxChar) (n : Nat) : let same := fun t => t = s;
    Completes (.wairelHello p h) s same ∧ Completes (.vreq p v) s same ∧ Completes (.pos p q x) s same ∧
      Completes (.stroke p a) s same ∧ Completes (.loadStatus p b) s same ∧ Completes (.ping p c d n) s same ∧
      Completes (.linkFrameDiscarded p l) s same ∧ Completes (.frameGapTimeout p l) s same := by
  have hshut : (!s.portOn p) = true := by rw [hoff]; rfl
  have hnot : ¬s.portOn p = true := by simp [hoff]
  exact ⟨⟨_, rfl, if_pos hshut⟩, ⟨_, rfl, if_pos hshut⟩, ⟨_, rfl, if_pos hshut⟩, ⟨_, rfl, if_pos hshut⟩,
    ⟨_, rfl, if_pos hshut⟩, ⟨_, rfl, if_pos hshut⟩, ⟨_, rfl, if_neg hnot⟩, ⟨_, rfl, if_neg hnot⟩⟩

/-- Settles O44: every frame goes through `State.rxValid`, and what goes along with it moves none of the counters, the stamp
and the ports that tell of it (`frameTaken_of_portFrame`); `State.forEach_rails` takes strokes and positions to their rails.
That a STROKE with bad fields counts as a format error only rests on log entry 29. -/
theorem loadFramesAreTaken : Obligations.LoadFramesAreTaken := fun _ _ hs =>
  ⟨load_ignored, fun hon => ⟨hello_taken hs hon, ping_taken hs hon, status_taken hs hon, pos_taken hs hon,
    fun _ => stroke_discarded hs hon, fun _ => stroke_taken hs hon, fun _ hcs =>
      ⟨linkFrameDiscarded_hunting hcs, frameGapTimeout_hunting hcs, fun _ hgood hsync =>
        ⟨linkFrameDiscarded_crc hs hon hgood hsync hcs, frameGapTimeout_incomplete hs hon hgood hsync⟩⟩⟩⟩

end Sys2Proof.Machine
end

section
/-! Tuning sessions and live tuning (07 R147 to R157): the events of a session step by step, AUTOTUNE's design, and the
windows of live tuning. -/

namespace Sys2Proof.Machine

/-! The steps of a session (R147, R149 to R151) -/

theorem State.setTune_same (s : State) (x : TuneState) : SameBut [.tune] s { s with tune := x } := by
  refine ⟨fun p hp => ?_⟩
  cases p <;> simp [Area.Same] at hp ⊢

/-- A command that changes the session and nothing else. -/
theorem completes_tune {c : Instr} {s : State} {x : TuneState} (hexec : exec c s = .next { s with tune := x }) :
    Completes c s fun t => t.tune = x ∧ SameBut [.tune] s t :=
  ⟨_, hexec, rfl, State.setTune_same ..⟩

section
variable {s : State} (hrun : s.tune.tstate = .running)
include hrun

theorem tuneSettleEnd_records (hwait : s.tune.recording = false)
    (hsettled : elapsed s.now s.tune.stepAt (s.tuneN Ob.Tune.settleFr) = true) :
    Completes .tuneSettleEnd s fun t => t.tune.recording = true ∧ t.tune.recA = [] ∧ t.tune.recB = [] ∧
      t.tune.results = s.tune.results ∧ t.tune.step = s.tune.step ∧ SameBut [.tune] s t := by
  have hexec : exec .tuneSettleEnd s = .next { s with
      tune := { s.tune with recording := true, recA := [], recB := [], accA := 0, accB := 0, accN := 0 } } := by
    show execTuneSettleEnd s = _
    simp [execTuneSettleEnd, hrun, hwait, hsettled]
  refine completes_mono (completes_tune hexec) ?_
  rintro t ⟨htune, hsame⟩
  rw [htune]
  exact ⟨rfl, rfl, rfl, rfl, rfl, hsame⟩

variable (hrec : s.tune.recording = true) (hfull : 4096 ≤ s.tune.recA.length)
include hrec hfull

theorem sweepStepEnd_steps (hmore : s.lastStep = false) :
    Completes .sweepStepEnd s fun t => t.tune.tstate = .running ∧ t.tune.step = s.tune.step + 1 ∧
      t.tune.recording = false ∧ t.tune.stepAt = s.now ∧
      t.tune.results = s.tune.results ++ [s.resultAt (s.tuneFreq s.tune.step)] ∧ SameBut [.tune] s t := by
  have hexec : exec .sweepStepEnd s = .next { s with tune := { s.tune with
      results := s.tune.results ++ [s.resultAt (s.tuneFreq s.tune.step)], step := s.tune.step + 1, stepAt := s.now
      recording := false, sineAt := 0 } } := by
    show execSweepStepEnd s = _
    simp [execSweepStepEnd, State.tuneFull, hrun, hrec, hfull, hmore]
  refine completes_mono (completes_tune hexec) ?_
  rintro t ⟨htune, hsame⟩
  rw [htune]
  exact ⟨hrun, rfl, rfl, rfl, rfl, hsame⟩

theorem tuneDone_ends (hlast : s.lastStep = true) :
    Completes .tuneDone s fun t => t.tune.tstate = .done ∧ t.tune.recording = false ∧ t.tune.results = s.finalResults ∧
      (s.tuneSignal < 2 → t.tune.endSine = true ∧ t.tune.inject = s.tune.inject) ∧
      (2 ≤ s.tuneSignal → t.tune.endSine = false ∧ t.tune.inject = 0) ∧ SameBut [.tune] s t := by
  have hexec : exec .tuneDone s = .next { s with tune := { s.tune with
      tstate := .done, results := s.finalResults, recording := false, endSine := decide (s.tuneSignal < 2)
      inject := if s.tuneSignal < 2 then s.tune.inject else 0 } } := by
    show execTuneDone s = _
    simp [execTuneDone, State.tuneFull, hrun, hrec, hfull, hlast]
  refine completes_mono (completes_tune hexec) ?_
  rintro t ⟨htune, hsame⟩
  rw [htune]
  exact ⟨rfl, rfl, rfl, fun hsine => ⟨decide_eq_true hsine, if_pos hsine⟩,
    fun hno => ⟨decide_eq_false (Nat.not_lt.mpr hno), if_neg (Nat.not_lt.mpr hno)⟩, hsame⟩

end

/-! AUTOTUNE's design (R152, R153) -/

/-- Several items of one unit are written in their order. -/
def State.setItems (s : State) (cls inst : Nat) (l : List (Nat × Word)) : State :=
  forEach l (fun s p => s.setObj cls inst p.1 p.2) s

theorem State.setItems_same (s : State) (cls inst : Nat) (l : List (Nat × Word)) : SameBut [.objs] s (s.setItems cls inst l) :=
  same_forEach (same_refl ..) fun s p => State.setObj_same s cls inst p.1 p.2

theorem State.setItems_writes (s : State) (cls inst : Nat) (l : List (Nat × Word)) :
    WritesOnly (l.map fun p => (cls, inst, p.1)) s (s.setItems cls inst l) :=
  rel_forEach (fun _ => .of_objs rfl) .trans (fun p hp s => .setObj (List.mem_map.mpr ⟨p, hp, rfl⟩) s p.2) s

/-- Different items read back what was written to each of them. -/
theorem State.obj_setItems {cls inst : Nat} (hinst : inst < 256) {l : List (Nat × Word)} (hdiff : (l.map Prod.fst).Nodup)
    (hbyte : ∀ p ∈ l, p.1 < 256) {s : State} (hok : StoreOk s.objs) {p : Nat × Word} (hp : p ∈ l) :
    (s.setItems cls inst l).obj cls inst p.1 = p.2 := by
  induction l generalizing s with
  | nil => nomatch hp
  | cons a l ih =>
    obtain ⟨hfresh, hrest⟩ := List.nodup_cons.mp hdiff
    have hbytes : ∀ q ∈ l, q.1 < 256 := fun q hq => hbyte q (List.mem_cons_of_mem _ hq)
    have hset : StoreOk (s.setObj cls inst a.1 a.2).objs := Store.setVal_ok hok ..
    obtain rfl | hl := List.mem_cons.mp hp
    · refine (((s.setObj cls inst p.1 p.2).setItems_writes cls inst l).obj_eq hset fun o ho => ?_).trans
        (State.obj_setObj_self hok ..)
      obtain ⟨q, hq, rfl⟩ := List.mem_map.mp ho
      exact objKey_ne hinst (hbyte p hp) hinst (hbytes q hq) (.inr fun heq => hfresh (heq ▸ List.mem_map_of_mem hq))
    · exact ih hrest hbytes hset hl

/-- The coefficients that a design puts into the shadow (R153). -/
def designItems (c : Word × Word × Word × Word × Word) : List (Nat × Word) :=
  [(Ob.Rail.b0, c.1), (Ob.Rail.b1, c.2.1), (Ob.Rail.b2, c.2.2.1), (Ob.Rail.a1, c.2.2.2.1), (Ob.Rail.a2, c.2.2.2.2)]

theorem State.obj_designItems {s : State} (hok : StoreOk s.objs) {rail : Nat} (hrail : rail < 16)
    (c : Word × Word × Word × Word × Word) :
    ∀ p ∈ designItems c, (s.setItems Ob.clsRail rail (designItems c)).obj Ob.clsRail rail p.1 = p.2 := by
  have hitems : (designItems c).map Prod.fst = [Ob.Rail.b0, Ob.Rail.b1, Ob.Rail.b2, Ob.Rail.a1, Ob.Rail.a2] := rfl
  have hbyte : ∀ i ∈ (designItems c).map Prod.fst, i < 256 := by rw [hitems]; decide
  exact fun _ hp =>
    State.obj_setItems (by omega) (by rw [hitems]; decide) (fun q hq => hbyte q.1 (List.mem_map_of_mem hq)) hok hp

/-- The session no longer holds the slot of its AUTOTUNE. -/
def State.tuneReleased (s : State) : State := { s with tune := { s.tune with slot := none } }

/-- The design from the results of the session. -/
abbrev State.design (s : State) : Int × Nat × (Word × Word × Word × Word × Word) × (Nat × Nat × Int) :=
  Config.autotuneDesign (s.tune.results.map (·.mag)) (s.tune.results.map (·.arg)) (s.tuneN Ob.Tune.atFcHz)
    (s.tuneN Ob.Tune.atPm)

/-- The bounds of R153: the boost in 0.01 ° and the poles in Hz. -/
abbrev State.designFits (s : State) : Prop := 0 ≤ s.design.1 ∧ s.design.1 ≤ 14000 ∧ s.design.2.1 ≤ 400000

/-- The design stands in the shadow of the session's rail. -/
def State.designStaged (s : State) : State := s.tuneReleased.setItems Ob.clsRail s.tune.rail (designItems s.design.2.2.1)

/-- The predicted crossover and margins of a response (R153). -/
def State.designPayload (s : State) : List Byte :=
  leBytes 4 s.design.2.2.2.1 ++ leBytes 2 s.design.2.2.2.2.1 ++ leBytes 2 (intWord s.design.2.2.2.2.2).toNat

section
variable {s : State} {k : SlotIx}

/-- What every end of a design has in common: the slot is answered and let go, and no more than objects are written. -/
theorem designEnd_frame {u : State} (hu : SameBut [.objs] s.tuneReleased u) (status : Nat) (payload : List Byte) :
    let t := u.finish k status payload
    t.tune = { s.tune with slot := none } ∧ MbButSlot k s t ∧ SameBut [.objs, .tune, .mb] s t := by
  have hsame : SameBut [.objs, .tune] s u := same_step (same_mono (State.setTune_same ..) (by decide)) hu (by decide)
  exact ⟨hu.same .tune (by decide), mbButSlot_finish (hsame.same .mb (by decide)) ..,
    same_step (same_mono hsame (by decide)) (State.finish_same ..) (by decide)⟩

variable (hdone : s.tune.tstate = .done) (hauto : s.tune.auto = true) (hslot : s.tune.slot = some k)
include hdone hauto hslot

theorem autotuneDesignEnd_exec : exec .autotuneDesignEnd s = .next (
    if s.designFits then s.designStaged.finish k St.ok s.designPayload else s.tuneReleased.finish k St.range []) := by
  have hwaits : (s.tune.tstate == .done && s.tune.auto && s.tune.slot.isSome) = true := by simp [hdone, hauto, hslot]
  show execAutotuneDesignEnd s = _
  simp only [execAutotuneDesignEnd, hwaits, if_true]
  rw [hslot]
  rfl

theorem autotuneDesignEnd_answers (hs : Orderly s) (hrail : s.tune.rail < 16) :
    Completes .autotuneDesignEnd s fun t => t.tune = { s.tune with slot := none } ∧ MbButSlot k s t ∧
      SameBut [.objs, .tune, .mb] s t ∧
      (s.designFits →
        t.obj Ob.clsRail s.tune.rail Ob.Rail.b0 = s.design.2.2.1.1 ∧
        t.obj Ob.clsRail s.tune.rail Ob.Rail.b1 = s.design.2.2.1.2.1 ∧
        t.obj Ob.clsRail s.tune.rail Ob.Rail.b2 = s.design.2.2.1.2.2.1 ∧
        t.obj Ob.clsRail s.tune.rail Ob.Rail.a1 = s.design.2.2.1.2.2.2.1 ∧
        t.obj Ob.clsRail s.tune.rail Ob.Rail.a2 = s.design.2.2.1.2.2.2.2 ∧ (t.slot k).reply.map (·.status) = some St.ok) ∧
      (¬s.designFits → t.objs = s.objs ∧ Answers t k St.range []) := by
  refine ⟨_, autotuneDesignEnd_exec hdone hauto hslot, ?_⟩
  by_cases hfits : s.designFits
  · rw [if_pos hfits]
    obtain ⟨htune, hmb, hsame⟩ := designEnd_frame (k := k) (State.setItems_same ..) St.ok s.designPayload
    have hread : ∀ p ∈ designItems s.design.2.2.1, s.designStaged.obj Ob.clsRail s.tune.rail p.1 = p.2 :=
      State.obj_designItems (s := s.tuneReleased) hs.store hrail _
    simp only [designItems, List.forall_mem_cons] at hread
    obtain ⟨hb0, hb1, hb2, ha1, ha2, -⟩ := hread
    have hanswer := answers_finish s.designStaged k St.ok s.designPayload
    exact ⟨htune, hmb, hsame, fun _ => ⟨hb0, hb1, hb2, ha1, ha2, congrArg (Option.map (·.status)) hanswer⟩,
      fun hno => absurd hfits hno⟩
  · rw [if_neg hfits]
    obtain ⟨htune, hmb, hsame⟩ := designEnd_frame (s := s) (k := k) (same_refl ..) St.range []
    exact ⟨htune, hmb, hsame, fun hyes => absurd hyes hfits, fun _ => ⟨rfl, answers_finish ..⟩⟩

end

/-! The end of a window (R155) -/

section
variable (s : State) (r : RailIx)

/-- What a window gives: |L|, its phase and its quality. -/
abbrev State.ltResult : Rat × Int × Nat :=
  Config.liveTransform ((s.rail r).lt.window.map (·.1)) ((s.rail r).lt.window.map (·.2)) (s.railN r.val Ob.Rail.ltFreqHz)

abbrev State.ltRejected : Prop :=
  (s.ltResult r).2.2 < s.railN r.val Ob.Rail.ltQmin ∨ (s.ltResult r).1 < 1 / 4 ∨ 4 < (s.ltResult r).1

abbrev State.ltInDeadBand : Prop := absQ (1 / (s.ltResult r).1 - 1) < 1 / 100

/-- Where a result moves k_lt to. -/
abbrev State.ltMoved (k : Rat) : Rat :=
  clampQ (k * clampQ (1 / (s.ltResult r).1) (9 / 10) (11 / 10)) (s.railQ r.val Ob.Rail.ltKmin / 16384)
    (s.railQ r.val Ob.Rail.ltKmax / 16384)

/-- The result of the window is kept, and a new window begins. -/
def State.ltMeasured : State := s.modLt r fun x => { x with
  mag := (s.ltResult r).1, phase := (s.ltResult r).2.1, qual := (s.ltResult r).2.2, window := [], windowFrames := 0 }

theorem State.ltWindow_eq : s.ltWindow r =
    if s.ltRejected r then (s.ltMeasured r).count Ob.clsRail r.val Ob.Rail.ltRejects
    else if s.ltInDeadBand r then s.ltMeasured r
    else ((s.ltMeasured r).modLt r fun x => { x with kLt := s.ltMoved r x.kLt }).count Ob.clsRail r.val Ob.Rail.ltUpdates := rfl

theorem State.rail_ltWindow (q : RailIx) : (s.ltWindow r).rail q = if q = r then { s.rail r with
    lt := { (s.rail r).lt with
      mag := (s.ltResult r).1, phase := (s.ltResult r).2.1, qual := (s.ltResult r).2.2, window := [], windowFrames := 0
      kLt := if s.ltRejected r ∨ s.ltInDeadBand r then (s.rail r).lt.kLt else s.ltMoved r (s.rail r).lt.kLt } }
    else s.rail q := by
  rw [State.ltWindow_eq]
  by_cases hrej : s.ltRejected r
  · rw [if_pos hrej, if_pos (Or.inl hrej)]
    exact State.rail_modRail ..
  rw [if_neg hrej]
  by_cases hdead : s.ltInDeadBand r
  · rw [if_pos hdead, if_pos (Or.inr hdead)]
    exact State.rail_modRail ..
  · rw [if_neg hdead, if_neg (not_or.mpr ⟨hrej, hdead⟩)]
    by_cases hq : q = r <;> simp [State.ltMeasured, hq]

theorem State.objs_ltWindow : (s.ltWindow r).objs =
    if s.ltRejected r then (s.count Ob.clsRail r.val Ob.Rail.ltRejects).objs
    else if s.ltInDeadBand r then s.objs else (s.count Ob.clsRail r.val Ob.Rail.ltUpdates).objs := by
  rw [State.ltWindow_eq, apply_ite State.objs, apply_ite State.objs]
  rfl

end

theorem ltWindowEnd_judges {s : State} {r : RailIx} (hs : Orderly s) (hrun : (s.rail r).lt.running = true)
    (hon : (s.rail r).lt.ending = false) (hfull : 20000 ≤ (s.rail r).lt.windowFrames) :
    Completes (.ltWindowEnd r) s fun t => (t.rail r).lt.window = [] ∧ (t.rail r).lt.windowFrames = 0 ∧
      (t.rail r).lt.running = true ∧ RailsBut r s t ∧ SameBut [.objs, .rails] s t ∧
      (s.ltRejected r → (t.rail r).lt.kLt = (s.rail r).lt.kLt ∧ Counts s t Ob.clsRail r.val Ob.Rail.ltRejects) ∧
      (¬s.ltRejected r → s.ltInDeadBand r → (t.rail r).lt.kLt = (s.rail r).lt.kLt ∧ t.objs = s.objs) ∧
      (¬s.ltRejected r → ¬s.ltInDeadBand r → (t.rail r).lt.kLt = s.ltMoved r (s.rail r).lt.kLt ∧
        Counts s t Ob.clsRail r.val Ob.Rail.ltUpdates) := by
  have hexec : exec (.ltWindowEnd r) s = .next (s.ltWindow r) := by
    show execLtWindowEnd r s = _
    simp [execLtWindowEnd, hrun, hon, hfull]
  have hrail := (s.rail_ltWindow r r).trans (if_pos rfl)
  have hobjs := s.objs_ltWindow r
  have hcounts {item : Nat} (h : (s.ltWindow r).objs = (s.count Ob.clsRail r.val item).objs) :
      Counts s (s.ltWindow r) Ob.clsRail r.val item :=
    (State.obj_of_objs h ..).trans (State.obj_setObj_self hs.store ..)
  refine ⟨_, hexec, by rw [hrail], by rw [hrail], by rw [hrail]; exact hrun,
    fun q hq => (s.rail_ltWindow r q).trans (if_neg hq), s.ltWindow_same r,
    fun hrej => ⟨?_, hcounts (hobjs.trans (if_pos hrej))⟩, fun hgood hdead => ⟨?_, ?_⟩, fun hgood hfar => ⟨?_, hcounts ?_⟩⟩
  · rw [hrail]
    exact if_pos (.inl hrej)
  · rw [hrail]
    exact if_pos (.inr hdead)
  · rw [hobjs, if_neg hgood, if_pos hdead]
  · rw [hrail]
    exact if_neg (not_or.mpr ⟨hgood, hfar⟩)
  · rw [hobjs, if_neg hgood, if_neg hfar]

/-- A result that is good enough and within the range of R155 is not rejected. -/
theorem State.not_ltRejected {s : State} {r : RailIx} (hqual : s.railN r.val Ob.Rail.ltQmin ≤ (s.ltResult r).2.2)
    (hlo : 1 / 4 ≤ (s.ltResult r).1) (hhi : (s.ltResult r).1 ≤ 4) : ¬s.ltRejected r := by
  rintro (h | h | h)
  · exact Nat.not_lt.mpr hqual h
  · exact not_lt.mpr hlo h
  · exact not_lt.mpr hhi h

/-! Live tuning resumes (R156) -/

/-- Where a skim ran it ends, and the rail's live tuning stands. -/
theorem State.rail_abortSkim (s : State) (r : RailIx) : ((s.abortSkim r).rail r).plc.skim = none ∧
    ((s.abortSkim r).rail r).lt = (s.rail r).lt ∧ RailsBut r s (s.abortSkim r) := by
  unfold State.abortSkim
  split
  next hnone => exact ⟨hnone, rfl, fun _ _ => rfl⟩
  next =>
    refine ⟨?_, ?_, State.railsBut_modRail (s.count ..) r _⟩
    · exact congrArg (·.plc.skim) (State.rail_modRail_self (s.count ..) r _)
    · exact congrArg (·.lt) (State.rail_modRail_self (s.count ..) r _)

theorem ltResume_resumes {s : State} {r : RailIx} (hen : s.ltEn r = true) (hpaused : (s.rail r).lt.paused = true)
    (hidle : (s.rail r).lt.running = false) (hclear : 2000 ≤ (s.rail r).lt.clearRun) :
    Completes (.ltResume r) s fun t => (t.rail r).lt.running = true ∧ (t.rail r).lt.paused = false ∧
      (t.rail r).lt.window = [] ∧ (t.rail r).lt.kLt = (s.rail r).lt.kLt ∧ (t.rail r).plc.skim = none ∧ RailsBut r s t ∧
      SameBut [.objs, .rails] s t := by
  have hexec : exec (.ltResume r) s = .next (s.ltBegin r) := by
    show execLtResume r s = _
    simp [execLtResume, hen, hpaused, hidle, hclear]
  obtain ⟨hskim, hlt, hothers⟩ := s.rail_abortSkim r
  have hrail : (s.ltBegin r).rail r = _ := State.rail_modRail_self (s.abortSkim r) r _
  refine ⟨_, hexec, by rw [hrail], by rw [hrail], by rw [hrail], ?_, ?_, fun q hq => ?_, s.ltBegin_same r⟩
  · rw [hrail, ← hlt]
  · rw [hrail]
    exact hskim
  · exact (State.railsBut_modRail (s.abortSkim r) r _ q hq).trans (hothers q hq)

/-- Settles O43: one lemma per event. A design's five coefficients read back because their items differ
(`State.obj_setItems`), and k_lt and the counts after a window follow R155's cases (`State.rail_ltWindow`,
`State.objs_ltWindow`). What the design and a window give is free (log entry 13). -/
theorem tuningRunsToItsEnd : Obligations.TuningRunsToItsEnd :=
  ⟨fun _ hs => ⟨tuneSettleEnd_records, sweepStepEnd_steps, tuneDone_ends,
      fun _ hdone hauto hslot hrail => autotuneDesignEnd_answers hdone hauto hslot hs hrail⟩,
    fun s r hs => ⟨fun hrun hon hfull => by
      refine completes_mono (ltWindowEnd_judges hs hrun hon hfull) ?_
      rintro t ⟨hwindow, hframes, hruns, hothers, hsame, hrej, hdead, hmoved⟩
      exact ⟨hwindow, hframes, hruns, hothers, hsame, hrej,
        fun hqual hlo hhi => hdead (State.not_ltRejected hqual hlo hhi),
        fun hqual hlo hhi hfar => hmoved (State.not_ltRejected hqual hlo hhi) (not_lt.mpr hfar)⟩,
      ltResume_resumes⟩⟩

end Sys2Proof.Machine
end

section
/-! What a port sends and when it is lost (08 R164, R169, R180 to R184): the frame that goes to the line, the timers that
queue one, and the end of a silent port. -/

namespace Sys2Proof.Machine

/-! The next frame goes to the line (R182) -/

/-- The counts of a frame that goes to the line: TX_FRAMES of its port, and for a VNAK the rail's NAKS. -/
def State.countSent (s : State) (p : PortIx) (m : TxMsg) : State :=
  let s := s.count Ob.clsPort p.val Ob.Port.txFrames
  match m, s.portRail p with
  | .vnak .., some r => s.count Ob.clsRail r.val Ob.Rail.naks
  | _, _ => s

theorem State.countSent_same (s : State) (p : PortIx) (m : TxMsg) : SameBut [.objs] s (s.countSent p m) := by
  unfold State.countSent
  extract_lets sent
  have hsent : SameBut [.objs] s sent := State.count_same ..
  split
  · exact same_step hsent (State.count_same ..) fun _ h => h
  · exact hsent

theorem State.txFrames_countSent {s : State} (hok : StoreOk s.objs) (p : PortIx) (m : TxMsg) :
    Counts s (s.countSent p m) Ob.clsPort p.val Ob.Port.txFrames := by
  unfold State.countSent
  extract_lets sent
  split
  next r _ =>
    have hnaks : WritesOnly [(Ob.clsRail, r.val, Ob.Rail.naks)] sent (sent.count Ob.clsRail r.val Ob.Rail.naks) :=
      .setObj List.mem_cons_self sent _
    refine counts_of_writesOnly hok rfl hnaks fun o ho => ?_
    rw [List.mem_singleton.mp ho]
    exact objKey_ne (by omega) (by decide) (show r.val < 256 by omega) (show Ob.Rail.naks < 256 by decide)
      (.inl (show Ob.clsPort ≠ Ob.clsRail by decide))
  · exact State.obj_setObj_self hok ..

theorem linkFrameTransmit_sends {s : State} {p : PortIx} {m : TxMsg} (hs : Orderly s)
    (hnext : nextTx (s.port p).queue = some m) (hon : s.portOn p = true) (hdrives : s.twin.driving = true)
    (hintime : s.tooLate m = false) :
    Completes (.linkFrameTransmit p) s fun t => (t.port p).queue = (s.port p).queue.erase m ∧
      (t.port p).line = lineFrame m.payload.1 (s.port p).txSeq m.payload.2 ∧
      (t.port p).txSeq = ((s.port p).txSeq + 1) % 16 ∧ Counts s t Ob.clsPort p.val Ob.Port.txFrames ∧
      (t.port p).standing = (s.port p).standing ∧ (t.port p).pending = (s.port p).pending ∧ PortsBut p s t ∧
      SameBut [.objs, .ports] s t := by
  show ∃ t, execLinkFrameTransmit p s = .next t ∧ _
  unfold execLinkFrameTransmit
  extract_lets x sent
  split
  next hnone => exact nomatch hnone.symm.trans hnext
  next m' hm' =>
    obtain rfl : m' = m := Option.some.inj (hm'.symm.trans hnext)
    rw [if_neg (by simp [hon, hdrives, hintime])]
    extract_lets payload counted
    have hcounted : counted = s.countSent p m' := rfl
    have hsame : SameBut [.objs] s counted := hcounted ▸ State.countSent_same ..
    have hcounts := State.txFrames_countSent hs.store p m'
    rw [← hcounted] at hcounts
    clear_value counted
    have hport : ∀ q, counted.port q = s.port q := fun q => congrArg (Vector.get · q) (hsame.same .ports (by decide))
    refine ⟨_, rfl, ?_⟩
    rw [State.port_modPort_self, hport]
    exact ⟨rfl, rfl, rfl, hcounts, rfl, rfl, fun q hq => (State.portsBut_modPort counted p _ q hq).trans (hport q),
      same_step (same_mono hsame (by decide)) (State.modPort_same ..) (by decide)⟩

theorem linkFrameTransmit_waits {s : State} {p : PortIx}
    (h : (s.port p).queue = [] ∨ s.portOn p = false ∨ s.twin.driving = false) :
    Completes (.linkFrameTransmit p) s fun t => t = s := by
  refine ⟨s, ?_, rfl⟩
  show execLinkFrameTransmit p s = _
  unfold execLinkFrameTransmit
  extract_lets x
  split
  · rfl
  next m hnext =>
    refine if_pos ?_
    rcases h with hempty | hoff | hquiet
    · rw [show x.queue = [] from hempty] at hnext
      cases hnext
    · simp [hoff]
    · simp [hquiet]

/-! Timers that queue a frame (R169, R180, R184) -/

/-- A frame is queued on a port and its timer starts anew; the port's state and its request stand. -/
def FrameQueued (s : State) (p : PortIx) (m : TxMsg) (last : PortState → Nat) (t : State) : Prop :=
  (t.port p).queue = (enqueueIn (s.port p).queue m).1 ∧ last (t.port p) = s.now ∧
    (t.port p).standing = (s.port p).standing ∧ (t.port p).pstate = (s.port p).pstate ∧ PortsBut p s t ∧
    SameBut [.objs, .ports] s t

/-- A command that stamps a timer of a port and queues a frame there. -/
theorem completes_stamp_enqueue {c : Instr} {s : State} {p : PortIx} {m : TxMsg} {f : PortState → PortState}
    {last : PortState → Nat} (hexec : exec c s = .next ((s.modPort p f).enqueue p m))
    (hlast : ∀ x q, last { f x with queue := q } = s.now)
    (hrest : ∀ x, (f x).queue = x.queue ∧ (f x).standing = x.standing ∧ (f x).pstate = x.pstate) :
    Completes c s (FrameQueued s p m last) := by
  obtain ⟨hqueue, hstanding, hstate⟩ := hrest (s.port p)
  refine ⟨_, hexec, ?_⟩
  have hport := State.port_enqueue (s.modPort p f) p m
  rw [State.port_modPort_self, hqueue] at hport
  unfold FrameQueued
  rw [hport]
  exact ⟨rfl, hlast .., hstanding, hstate,
    fun q hq => ((PortFrame.enqueue _ m).other q hq).trans (State.portsBut_modPort s p f q hq),
    same_step (same_mono (State.modPort_same ..) (by decide)) (State.enqueue_same ..) fun _ h => h⟩

section
variable {s : State} {p : PortIx} (hlinked : s.linkSilent = false)
include hlinked

theorem helloRetry_queues (hstate : (s.port p).pstate = .negotiating ∨ (s.port p).pstate = .lost)
    (hwl2 : (s.port p).wlmax = 2) (hdue : elapsed s.now (s.port p).lastHello (msFrames 10) = true) :
    Completes (.helloRetry p) s (FrameQueued s p (.hello 2 0 false) (·.lastHello)) := by
  have hexec : exec (.helloRetry p) s =
      .next ((s.modPort p fun x => { x with lastHello := s.now }).enqueue p (.hello 2 0 false)) := by
    show execHelloRetry p s = _
    simp [execHelloRetry, hlinked, hstate, hwl2, hdue]
  exact completes_stamp_enqueue hexec (fun _ _ => rfl) fun _ => ⟨rfl, rfl, rfl⟩

section
variable (hwl2 : (s.port p).pstate = .wl2)
include hwl2

theorem pingTimer_queues (hwatched : 0 < s.portN p.val Ob.Port.timeoutMs)
    (hsilent : elapsed s.now (s.port p).lastValid (500 * s.portN p.val Ob.Port.timeoutMs) = true)
    (hdue : elapsed s.now (s.port p).lastPing (500 * s.portN p.val Ob.Port.timeoutMs) = true) :
    Completes (.pingTimer p) s (FrameQueued s p (.ping false 0) (·.lastPing)) := by
  have hexec : exec (.pingTimer p) s =
      .next ((s.modPort p fun x => { x with lastPing := s.now }).enqueue p (.ping false 0)) := by
    show execPingTimer p s = _
    simp [execPingTimer, hlinked, hwl2, hwatched, hsilent, hdue]
  exact completes_stamp_enqueue hexec (fun _ _ => rfl) fun _ => ⟨rfl, rfl, rfl⟩

theorem statusTimer_queues (hsends : 0 < s.portN p.val Ob.Port.statusMs)
    (hdue : elapsed s.now (s.port p).lastStatus (msFrames (s.portN p.val Ob.Port.statusMs)) = true) :
    Completes (.statusTimer p) s (FrameQueued s p (s.statusMsg p) (·.lastStatus)) := by
  have hexec : exec (.statusTimer p) s =
      .next ((s.modPort p fun x => { x with lastStatus := s.now }).enqueue p (s.statusMsg p)) := by
    show execStatusTimer p s = _
    simp [execStatusTimer, hlinked, hwl2, hsends, hdue]
  exact completes_stamp_enqueue hexec (fun _ _ => rfl) fun _ => ⟨rfl, rfl, rfl⟩

theorem warnRepeat_queues (hwarns : s.feeds.ewarn = true)
    (hdue : elapsed s.now (s.port p).lastWarn (msFrames (s.portN p.val Ob.Port.warnRepeatMs)) = true) :
    Completes (.warnRepeat p) s (FrameQueued s p s.warnMsg (·.lastWarn)) := by
  have hexec : exec (.warnRepeat p) s =
      .next ((s.modPort p fun x => { x with lastWarn := s.now }).enqueue p s.warnMsg) := by
    show execWarnRepeat p s = _
    simp [execWarnRepeat, hlinked, hwl2, hwarns, hdue]
  exact completes_stamp_enqueue hexec (fun _ _ => rfl) fun _ => ⟨rfl, rfl, rfl⟩

end

end

/-! A silent port is lost (R169, R138) -/

/-- An event sets the bit of its source (R306). -/
theorem State.bit_istat_irq (s : State) (k : Fin 16) : bit (s.irq k).mb.istat k.val = true := by
  have hk : k.val < 32 := by omega
  rw [State.istat_irq, bit, BitVec.testBit_toNat, BitVec.getLsbD_or, BitVec.getLsbD_ofNat, Nat.testBit_two_pow_self]
  simp [hk]

/-- The port of a silent load is emptied and stands in LOST. -/
def State.dropPort (s : State) (p : PortIx) : State :=
  (s.emptyPort p).modPort p fun y => { y with pstate := .lost, rxSeq := none }

/-- A lost port ends the open strokes of the rails that it feeds (R138). -/
def State.endStrokes (s : State) (p : PortIx) : State := forEach (s.ffRails p) State.strokeMismatch s

/-- What follows the record of a lost port: the interrupt, the end of open strokes, and a HELLO if WLMAX = 2. -/
def State.afterLoss (s : State) (p : PortIx) (wlmax : Nat) : State :=
  let s := (s.irq Irq.port).endStrokes p
  if wlmax = 2 then (s.modPort p fun y => { y with lastHello := s.now }).enqueue p (.hello 2 0 false) else s

section
variable {p : PortIx} (s : State)

theorem State.port_dropPort : (s.dropPort p).port p = { s.port p with
    standing := none, arb := none, takeAt := none, pending := none, queue := [], lastAck := none, pstate := .lost
    rxSeq := none } := by
  rw [State.dropPort, State.port_modPort_self, State.port_emptyPort]

theorem PortFrame.dropPort : PortFrame p s (s.dropPort p) := (emptyPort s).trans (modPort _ id)

theorem State.dropPort_same : SameBut [.objs, .ports] s (s.dropPort p) :=
  same_step (State.emptyPort_same ..) (State.modPort_same ..) (by decide)

theorem State.endStrokes_same : SameBut [.rails] s (s.endStrokes p) :=
  same_forEach (same_refl ..) State.strokeMismatch_same

theorem PortFrame.irq (k : Fin 16) : PortFrame p s (s.irq k) := ⟨fun _ _ => rfl, id, rfl, .of_objs rfl⟩

theorem PortFrame.afterLoss (wlmax : Nat) : PortFrame p s (s.afterLoss p wlmax) := by
  unfold State.afterLoss
  extract_lets ended
  have hended : PortFrame p s ended := (irq s Irq.port).trans (.of_rails (State.endStrokes_same ..))
  exact rel_ite (hended.trans ((modPort ended id).trans (enqueue _ _))) hended

theorem State.afterLoss_same (wlmax : Nat) : SameBut [.objs, .rails, .ports, .mb] s (s.afterLoss p wlmax) := by
  unfold State.afterLoss
  extract_lets ended
  have hended : SameBut [.objs, .rails, .ports, .mb] s ended :=
    same_step (same_mono (State.irq_same ..) (by decide)) (State.endStrokes_same ..) (by decide)
  refine same_ite ?_ hended
  exact same_step (same_step hended (State.modPort_same ..) (by decide)) (State.enqueue_same ..) (by decide)

/-- What follows the record leaves the port's state and its requests. -/
theorem State.port_afterLoss (wlmax : Nat) : ((s.afterLoss p wlmax).port p).pstate = (s.port p).pstate ∧
    ((s.afterLoss p wlmax).port p).standing = (s.port p).standing ∧
    ((s.afterLoss p wlmax).port p).pending = (s.port p).pending := by
  unfold State.afterLoss
  extract_lets ended
  have hended : ended.port p = s.port p :=
    congrArg (Vector.get · p) ((State.endStrokes_same (s.irq Irq.port)).same .ports (by decide))
  split
  · rw [State.port_enqueue, State.port_modPort_self, hended]
    exact ⟨rfl, rfl, rfl⟩
  · rw [hended]
    exact ⟨rfl, rfl, rfl⟩

theorem State.istat_afterLoss (wlmax : Nat) : bit (s.afterLoss p wlmax).mb.istat Irq.port.val = true := by
  unfold State.afterLoss
  extract_lets ended
  have hended : ended.mb = (s.irq Irq.port).mb := (State.endStrokes_same (s.irq Irq.port)).same .mb (by decide)
  have hset : bit ended.mb.istat Irq.port.val = true := hended ▸ s.bit_istat_irq Irq.port
  split <;> exact hset

end

theorem portLost_ends {s : State} {p : PortIx} (hs : Orderly s) (hlinked : s.linkSilent = false) (hup : s.portUp p = true)
    (hwatched : 0 < s.portN p.val Ob.Port.timeoutMs)
    (hsilent : elapsed s.now (s.port p).lastValid (msFrames (s.portN p.val Ob.Port.timeoutMs)) = true) :
    Completes (.portLost p) s fun t => (t.port p).pstate = .lost ∧ (t.port p).standing = none ∧
      (t.port p).pending = none ∧ Counts s t Ob.clsPort p.val Ob.Port.lost ∧
      Logs s t Code.portLost Ob.clsPort p.val 0 [] ∧ bit t.mb.istat Irq.port.val = true ∧ PortsBut p s t ∧
      SameBut [.objs, .rails, .ports, .twin, .recd, .mb, .nvm] s t := by
  let dropped : State := s.dropPort p
  let counted : State := dropped.count Ob.clsPort p.val Ob.Port.lost
  let logged : State := counted.record Code.portLost Ob.clsPort p.val 0 []
  let t : State := logged.afterLoss p (s.port p).wlmax
  have hexec : exec (.portLost p) s = .next t := if_neg (by simp [hlinked, hup, hwatched.ne', hsilent])
  have hdropped : PortFrame p s dropped := .dropPort s
  have hrest : PortFrame p counted t := (PortFrame.record counted ..).trans (.afterLoss logged _)
  have hsame : SameBut [.objs, .ports] s counted := same_step (State.dropPort_same s) (State.count_same ..) (by decide)
  have hafter : SameBut [.objs, .rails, .ports, .mb] logged t := State.afterLoss_same logged _
  have hport : logged.port p = dropped.port p := State.port_record counted ..
  obtain ⟨hstate, hstanding, hpending⟩ := State.port_afterLoss (p := p) logged (s.port p).wlmax
  rw [hport, State.port_dropPort] at hstate hstanding hpending
  have hkeys := frameKeys_ne p (c := Ob.clsPort) (i := p.val) (k := Ob.Port.lost) (by omega) (by decide) (.inl (by decide))
  refine ⟨t, hexec, hstate, hstanding, hpending, ?_, ?_, State.istat_afterLoss logged _, fun q hq => ?_, ?_⟩
  · exact counts_of_writesOnly (hdropped.writes.ok hs.store) (hdropped.writes.obj_eq hs.store hkeys) hrest.writes hkeys
  · exact ⟨counted, hsame.same .recd (by decide), hsame.same .nvm (by decide), hafter.same .recd (by decide)⟩
  · exact (hrest.other q hq).trans (hdropped.other q hq)
  · exact same_step (same_step (same_mono hsame (by decide)) (State.record_same ..) (by decide)) hafter (by decide)

/-- Settles O46: the counts of a frame that starts leave its port as it is (`State.countSent_same`), each timer is a stamp
and a frame queued (`completes_stamp_enqueue`), and what a lost port sets off leaves its LOST count as it is
(`PortFrame.afterLoss`). -/
theorem portsSendAndTimeOut : Obligations.PortsSendAndTimeOut := fun _ _ hs =>
  ⟨fun _ => linkFrameTransmit_sends hs, linkFrameTransmit_waits, fun hlinked =>
    ⟨helloRetry_queues hlinked, pingTimer_queues hlinked, statusTimer_queues hlinked, warnRepeat_queues hlinked,
      portLost_ends hs hlinked⟩⟩

end Sys2Proof.Machine
end

section
/-! The output fuse (09 R198, R201 to R203): what a trip and a retry do to the rail's fuse, and the commands of its state
table. -/

namespace Sys2Proof.Machine

/-! The fuse of one rail -/

theorem State.fuse_modFuse_self (s : State) (r : RailIx) (f : FuseState → FuseState) :
    ((s.modFuse r f).rail r).fuse = f (s.rail r).fuse := congrArg RailState.fuse (State.rail_modRail_self ..)

theorem State.railsBut_modFuse (s : State) (r : RailIx) (f : FuseState → FuseState) : RailsBut r s (s.modFuse r f) :=
  State.railsBut_modRail s r _

/-- A command that updates one rail's fuse and records the event. -/
theorem completes_modFuse_record {c : Instr} {s : State} {r : RailIx} {f : FuseState → FuseState} {code cls inst sub : Nat}
    {data : List Byte} (hexec : exec c s = .next ((s.modFuse r f).record code cls inst sub data)) :
    Completes c s fun t => (t.rail r).fuse = f (s.rail r).fuse ∧ Logs s t code cls inst sub data ∧ RailsBut r s t ∧
      SameBut [.objs, .rails, .twin, .recd, .nvm] s t := by
  refine ⟨_, hexec, ?_, logs_record (s.modFuse r f) rfl rfl .., fun q hq => ?_, ?_⟩
  · rw [State.rail_record, State.fuse_modFuse_self]
  · rw [State.rail_record, State.railsBut_modFuse s r f q hq]
  · exact same_step (same_mono (State.modFuse_same s r f) (by decide)) (State.record_same ..) (by decide)

/-! A trip (R201) -/

/-- The fuse after a trip. -/
def FuseState.tripNow (f : FuseState) (cause now : Nat) : FuseState := { f with
  fstate := .tripped, cause := cause, trippedAt := now, gateOffAt := now, psArmed := false, aboveRun := 0
  limiting := false, load := true }

theorem State.fuseTrip_eq (s : State) (r : RailIx) (cause : Nat) : s.fuseTrip r cause =
    ((s.modFuse r fun f => f.tripNow cause s.now).count Ob.clsRail r.val Ob.Rail.fuseTrips).record Code.fuseTrip Ob.clsRail
      r.val cause (leBytes 1 (s.rail r).fuse.retry ++ leBytes 2 (State.qWord ((s.rail r).fuse.tj * 100))) := rfl

theorem State.rail_fuseTrip (s : State) (r : RailIx) (cause : Nat) (q : RailIx) : (s.fuseTrip r cause).rail q =
    if q = r then { s.rail r with fuse := (s.rail r).fuse.tripNow cause s.now } else s.rail q := by
  rw [State.fuseTrip_eq, State.rail_record]
  exact State.rail_modRail ..

theorem State.fuseTrip_counts {s : State} (hok : StoreOk s.objs) (r : RailIx) (cause : Nat) :
    Counts s (s.fuseTrip r cause) Ob.clsRail r.val Ob.Rail.fuseTrips := by
  rw [State.fuseTrip_eq]
  exact counts_record (u := s.modFuse r _) hok rfl (recKeys_ne (by decide) (by omega) (by decide)) ..

theorem State.fuseTrip_logs (s : State) (r : RailIx) (cause : Nat) :
    Logs s (s.fuseTrip r cause) Code.fuseTrip Ob.clsRail r.val cause
      (leBytes 1 (s.rail r).fuse.retry ++ leBytes 2 (State.qWord ((s.rail r).fuse.tj * 100))) := by
  rw [State.fuseTrip_eq]
  exact logs_record (State.count (s.modFuse r _) ..) rfl rfl ..

/-! A retry (R198, R202) -/

/-- The fuse after a retry has begun. -/
def FuseState.retryNow (f : FuseState) (now : Nat) : FuseState :=
  { f with fstate := .ramp, retry := f.retry + 1, rampAt := now, psArmed := false, aboveRun := 0 }

theorem State.saveFuses_frame (s : State) : SameBut [.objs, .twin, .recd, .nvm] s s.saveFuses := by
  have hsaved : ∀ f, SameBut [.objs, .twin, .recd, .nvm] s (s.modNvm f) := fun f =>
    same_mono (State.modNvm_same s f) (by decide)
  exact same_ite (b := ite ..) (hsaved fun x => { x with fuseRetry := _ }) (same_ite (hsaved _) (State.record_frame ..))

@[simp] theorem State.rail_saveFuses (s : State) (r : RailIx) : s.saveFuses.rail r = s.rail r :=
  congrArg (Vector.get · r) (s.saveFuses_frame.same .rails (by decide))

theorem State.saveFuses_writes {s : State} (hwindow : s.canWrite = true) :
    s.saveFuses = s.modNvm fun x => { x with fuseRetry := allRails.map fun q => (s.rail q).fuse.retry } := if_pos hwindow

theorem State.rail_fuseAgain (s : State) (r q : RailIx) : (s.fuseAgain r).rail q =
    if q = r then { s.rail r with fuse := (s.rail r).fuse.retryNow s.now } else s.rail q := by
  rw [State.fuseAgain, State.rail_saveFuses]
  by_cases hq : q = r
  · simp [State.fuseRamp, FuseState.retryNow, hq]
  · simp [State.fuseRamp, hq]

/-- While the window is open the retry counts reach MRAM at once (R202). -/
theorem State.fuseAgain_saves {s : State} (r : RailIx) (hwindow : s.canWrite = true) :
    (s.fuseAgain r).nvm.fuseRetry = allRails.map (fun q => ((s.fuseAgain r).rail q).fuse.retry) ∧
      SameBut [.rails, .nvm] s (s.fuseAgain r) := by
  let counted : State := s.modFuse r fun f => { f with retry := f.retry + 1 }
  let charged : State := counted.fuseRamp r
  have hsaved : s.fuseAgain r = charged.modNvm fun x => { x with
      fuseRetry := allRails.map fun q => (charged.rail q).fuse.retry } := State.saveFuses_writes hwindow
  have hcharged : SameBut [.rails] s charged :=
    same_step (State.modFuse_same s r _) (State.fuseRamp_same counted r) (by decide)
  rw [hsaved]
  exact ⟨rfl, same_step (same_mono hcharged (by decide)) (State.modNvm_same ..) (by decide)⟩

theorem State.fuseRested_iff {s : State} {r : RailIx} : s.fuseRested r = true ↔ (s.rail r).fuse.fstate = .tripped ∧
    elapsed s.now (s.rail r).fuse.trippedAt (msFrames (s.railN r.val Ob.Rail.fuseRetryMs)) = true := by
  simp [State.fuseRested]

/-! The rows of the state table -/

section
variable {s : State} {r : RailIx}

theorem fuseRampDone_turnsOn (hramp : (s.rail r).fuse.fstate = .ramp)
    (hfull : (s.rail r).meas.v * 1000 - s.railQ r.val Ob.Rail.insDropMv ≤ ((s.rail r).fuse.voutMv : Rat)) :
    Completes (.fuseRampDone r) s fun t =>
      t.rail r = { s.rail r with fuse := { (s.rail r).fuse with fstate := .on, limiting := false } } ∧ RailsBut r s t ∧
        SameBut [.rails] s t := by
  have hexec : exec (.fuseRampDone r) s = .next (s.modFuse r fun f => { f with fstate := .on, limiting := false }) := by
    show execFuseRampDone r s = _
    simp [execFuseRampDone, hramp, hfull]
  exact completes_modRail hexec

theorem fuseInsertTimeout_trips (hs : Orderly s) (hramp : (s.rail r).fuse.fstate = .ramp)
    (hlate : elapsed s.now (s.rail r).fuse.rampAt (msFrames (s.railN r.val Ob.Rail.insTmoMs)) = true) :
    Completes (.fuseInsertTimeout r) s fun t => (t.rail r).fuse.fstate = .tripped ∧ (t.rail r).fuse.cause = 2 ∧
      (t.rail r).fuse.trippedAt = s.now ∧ (t.rail r).fuse.retry = (s.rail r).fuse.retry ∧
      (t.rail r).seq = (s.rail r).seq ∧ Counts s t Ob.clsRail r.val Ob.Rail.fuseTrips ∧
      Logs s t Code.fuseTrip Ob.clsRail r.val 2
        (leBytes 1 (s.rail r).fuse.retry ++ leBytes 2 (State.qWord ((s.rail r).fuse.tj * 100))) ∧ RailsBut r s t ∧
      SameBut [.objs, .rails, .twin, .recd, .nvm] s t := by
  have hexec : exec (.fuseInsertTimeout r) s = .next (s.fuseTrip r 2) := by
    show execFuseInsertTimeout r s = _
    simp [execFuseInsertTimeout, hramp, hlate]
  have hrail : (s.fuseTrip r 2).rail r = { s.rail r with fuse := (s.rail r).fuse.tripNow 2 s.now } :=
    (State.rail_fuseTrip ..).trans (if_pos rfl)
  exact ⟨_, hexec, congrArg (·.fuse.fstate) hrail, congrArg (·.fuse.cause) hrail, congrArg (·.fuse.trippedAt) hrail,
    congrArg (·.fuse.retry) hrail, congrArg (·.seq) hrail, State.fuseTrip_counts hs.store .., State.fuseTrip_logs ..,
    fun q hq => (State.rail_fuseTrip ..).trans (if_neg hq), State.fuseTrip_same ..⟩

section
variable (htripped : (s.rail r).fuse.fstate = .tripped)
  (hrested : elapsed s.now (s.rail r).fuse.trippedAt (msFrames (s.railN r.val Ob.Rail.fuseRetryMs)) = true)
include htripped hrested

theorem fuseRetry_latches (hspent : s.railN r.val Ob.Rail.fuseRetries ≤ (s.rail r).fuse.retry) :
    Completes (.fuseRetry r) s fun t => (t.rail r).fuse = { (s.rail r).fuse with fstate := .latched } ∧
      Logs s t Code.fuseLatch Ob.clsRail r.val 0 (leBytes 1 (s.rail r).fuse.retry) ∧ RailsBut r s t ∧
      SameBut [.objs, .rails, .twin, .recd, .nvm] s t := by
  have hexec : exec (.fuseRetry r) s = .next ((s.modFuse r fun f => { f with fstate := .latched }).record
      Code.fuseLatch Ob.clsRail r.val 0 (leBytes 1 (s.rail r).fuse.retry)) := by
    show execFuseRetry r s = _
    rw [execFuseRetry, if_pos (State.fuseRested_iff.mpr ⟨htripped, hrested⟩), if_pos hspent]
  exact completes_modFuse_record hexec

variable (hleft : (s.rail r).fuse.retry < s.railN r.val Ob.Rail.fuseRetries)
include hleft

theorem fuseRetry_ramps (hreg : s.regulating r = true) : Completes (.fuseRetry r) s fun t =>
    (t.rail r).fuse = { (s.rail r).fuse with
      fstate := .ramp, retry := (s.rail r).fuse.retry + 1, rampAt := s.now, psArmed := false, aboveRun := 0 } ∧
    RailsBut r s t ∧ SameBut [.objs, .rails, .twin, .recd, .nvm] s t ∧
    (s.canWrite = true →
      t.nvm.fuseRetry = allRails.map (fun q => (t.rail q).fuse.retry) ∧ SameBut [.rails, .nvm] s t) := by
  have hexec : exec (.fuseRetry r) s = .next (s.fuseAgain r) := by
    show execFuseRetry r s = _
    rw [execFuseRetry, if_pos (State.fuseRested_iff.mpr ⟨htripped, hrested⟩), if_neg (Nat.not_le.mpr hleft), if_pos hreg]
  have hrail : (s.fuseAgain r).rail r = { s.rail r with fuse := (s.rail r).fuse.retryNow s.now } :=
    (State.rail_fuseAgain ..).trans (if_pos rfl)
  exact ⟨_, hexec, congrArg (·.fuse) hrail, fun q hq => (State.rail_fuseAgain ..).trans (if_neg hq),
    State.fuseAgain_same .., State.fuseAgain_saves r⟩

theorem fuseRetry_waits (hreg : s.regulating r = false) : Completes (.fuseRetry r) s fun t => t = s := by
  have hexec : exec (.fuseRetry r) s = .next s := by
    show execFuseRetry r s = _
    rw [execFuseRetry, if_pos (State.fuseRested_iff.mpr ⟨htripped, hrested⟩), if_neg (Nat.not_le.mpr hleft),
      if_neg (by simp [hreg])]
  exact ⟨s, hexec, rfl⟩

end

/-! A fitted fuse: the pass-short check (R203) and the detection of loads (R202) -/

section
variable (hfitted : s.fitted r = true)
include hfitted

theorem passShort_latches (hother : (s.rail r).fuse.fstate ≠ .passShort) (hlong : 200 ≤ (s.rail r).fuse.aboveRun)
    (hfree : s.latchedOff r = false) : Completes (.passShort r) s fun t => (t.rail r).fuse.fstate = .passShort ∧
      t.latchedOff r = true ∧ t.regulating r = false ∧
      SameBut [.objs, .phases, .rails, .domains, .tune, .twin, .recd, .mb, .nvm, .dev] s t := by
  let latched : State := s.latchRail r .passShort Code.passShort Ob.clsRail r.val 0 (leBytes 4 (s.rail r).fuse.voutMv)
  let t : State := latched.modFuse r fun f => { f with fstate := .passShort, aboveRun := 0 }
  have hexec : exec (.passShort r) s = .next t := by
    show execPassShort r s = _
    simp [execPassShort, hfitted, hother, hlong, t, latched]
  obtain ⟨hlatched, hoff⟩ : latched.latchedOff r = true ∧ latched.regulating r = false :=
    State.latchRail_off (by decide) hfree ..
  have hstands : LatchesStand latched t := .modRail latched r (fun _ h => h) fun _ => rfl
  refine ⟨t, hexec, ?_, hstands.latch r hlatched, ?_, ?_⟩
  · rw [State.fuse_modFuse_self]
  · rw [State.regulating, hstands.rseq]
    exact hoff
  · exact same_step (State.latchRail_same ..) (State.modFuse_same ..) (by decide)

theorem passShortArm_arms (hgate : s.gateOff r = true)
    (hlate : elapsed s.now (s.rail r).fuse.gateOffAt (msFrames (s.railN r.val Ob.Rail.psArmMs)) = true) :
    Completes (.passShortArm r) s fun t =>
      t.rail r = { s.rail r with fuse := { (s.rail r).fuse with psArmed := true } } ∧ RailsBut r s t ∧
        SameBut [.rails] s t := by
  have hexec : exec (.passShortArm r) s = .next (s.modFuse r fun f => { f with psArmed := true }) := by
    show execPassShortArm r s = _
    simp [execPassShortArm, hfitted, hgate, hlate]
  exact completes_modRail hexec

variable (hdet : bit (s.fuseCtrl r) 3 = true)
  (hopen : (s.rail r).fuse.fstate = .tripped ∨ (s.rail r).fuse.fstate = .latched)
include hdet hopen

theorem loadDetectChange_exec (mv : Nat) : exec (.loadDetectChange r mv) s = .next (
    if mv < 1000 ∧ (s.rail r).fuse.load = false then
      (s.modFuse r fun f => { f with load := true }).record Code.loadInserted Ob.clsRail r.val 0 []
    else if 2000 < mv ∧ (s.rail r).fuse.load = true then
      (s.modFuse r fun f => { f with load := false }).record Code.loadRemoved Ob.clsRail r.val 0 []
    else s) := by
  show execLoadDetectChange r mv s = _
  simp [execLoadDetectChange, hfitted, hdet, hopen]

variable {mv : Nat}

theorem loadDetectChange_inserts (hlow : mv < 1000) (habsent : (s.rail r).fuse.load = false) :
    Completes (.loadDetectChange r mv) s fun t => (t.rail r).fuse = { (s.rail r).fuse with load := true } ∧
      Logs s t Code.loadInserted Ob.clsRail r.val 0 [] ∧ RailsBut r s t ∧
      SameBut [.objs, .rails, .twin, .recd, .nvm] s t := by
  have hexec := loadDetectChange_exec hfitted hdet hopen mv
  rw [if_pos ⟨hlow, habsent⟩] at hexec
  exact completes_modFuse_record hexec

theorem loadDetectChange_removes (hhigh : 2000 < mv) (hpresent : (s.rail r).fuse.load = true) :
    Completes (.loadDetectChange r mv) s fun t => (t.rail r).fuse = { (s.rail r).fuse with load := false } ∧
      Logs s t Code.loadRemoved Ob.clsRail r.val 0 [] ∧ RailsBut r s t ∧
      SameBut [.objs, .rails, .twin, .recd, .nvm] s t := by
  have hexec := loadDetectChange_exec hfitted hdet hopen mv
  rw [if_neg fun h => absurd h.1 (by omega), if_pos ⟨hhigh, hpresent⟩] at hexec
  exact completes_modFuse_record hexec

theorem loadDetectChange_between (hlow : 1000 ≤ mv) (hhigh : mv ≤ 2000) :
    Completes (.loadDetectChange r mv) s fun t => t = s := by
  have hexec := loadDetectChange_exec hfitted hdet hopen mv
  rw [if_neg fun h => absurd h.1 (by omega), if_neg fun h => absurd h.1 (by omega)] at hexec
  exact ⟨s, hexec, rfl⟩

end

end

/-- Settles O48: each row of the fuse's state table is one update of the fuse, with a record where the manual asks for one
(`completes_modRail`, `completes_modFuse_record`); a retry's count reaches MRAM (`State.fuseAgain_saves`), and the latch of
a short stands when the fuse enters PASS_SHORT (`State.latchRail_off`). -/
theorem fusesRampTripAndRetry : Obligations.FusesRampTripAndRetry := fun _ _ hs =>
  ⟨fuseRampDone_turnsOn, fuseInsertTimeout_trips hs, fun htripped hrested =>
      ⟨fuseRetry_latches htripped hrested, fuseRetry_ramps htripped hrested, fuseRetry_waits htripped hrested⟩,
    passShort_latches, passShortArm_arms, fun hfitted hdet hopen _ =>
      ⟨loadDetectChange_inserts hfitted hdet hopen, loadDetectChange_removes hfitted hdet hopen,
        loadDetectChange_between hfitted hdet hopen⟩⟩

end Sys2Proof.Machine
end

section
/-! Rail levels (10 R217, R218): a warning's crossing, which only reports, and the end of a crossing of any level. -/

namespace Sys2Proof.Machine

/-! The end of a crossing (R217) -/

/-- A level of a rail is crossed, and for how many frames a change of that has been argued for. -/
def ProtState.crossing (p : ProtState) : Level → Bool × Nat
  | .uvWarn => (p.uvw, p.uvwRun)
  | .ovWarn => (p.ovw, p.ovwRun)
  | .uvFault => (p.uvf, p.uvfRun)
  | .ovFault => (p.ovf, p.ovfRun)

/-- The protection of a rail once the crossing of a level has ended. -/
def ProtState.endCrossing (p : ProtState) : Level → ProtState
  | .uvWarn => { p with uvw := false, uvwRun := 0 }
  | .ovWarn => { p with ovw := false, ovwRun := 0 }
  | .uvFault => { p with uvf := false, uvfRun := 0 }
  | .ovFault => { p with ovf := false, ovfRun := 0 }

theorem levelCrossingEnd_ends {s : State} {r : RailIx} (hrun : s.framesRun = true) (l : Level)
    (hcrossed : ((s.rail r).prot.crossing l).1 = true) (hqual : s.levelQual r l ≤ ((s.rail r).prot.crossing l).2) :
    Completes (.levelCrossingEnd r l) s fun t =>
      t.rail r = { s.rail r with prot := (s.rail r).prot.endCrossing l } ∧ RailsBut r s t ∧ SameBut [.rails] s t := by
  refine completes_modRail (f := fun x => { x with prot := x.prot.endCrossing l }) ?_
  show execLevelCrossingEnd r l s = _
  cases l
  all_goals
    simp only [ProtState.crossing] at hcrossed hqual
    simp [execLevelCrossingEnd, hrun, hcrossed, hqual, ProtState.endCrossing]

/-! The crossing of a warning (R218) -/

/-- A warning reports and does nothing else: the rail's protection, its counter, and a record where REC_WARN asks for it. -/
def Warned (s : State) (r : RailIx) (q : ProtState) (item code : Nat) (t : State) : Prop :=
  t.rail r = { s.rail r with prot := q } ∧ RailsBut r s t ∧ Counts s t Ob.clsRail r.val item ∧
    SameBut [.objs, .rails, .twin, .recd, .nvm] s t ∧
    (bit (s.obj Ob.clsRail r.val Ob.Rail.protCtrl) 3 = true → Logs s t code Ob.clsRail r.val 0 (s.levelData r)) ∧
    (bit (s.obj Ob.clsRail r.val Ob.Rail.protCtrl) 3 = false →
      t.recd = s.recd ∧ ObjsBut [(Ob.clsRail, r.val, item)] s t)

theorem State.levelData_modProt (s : State) (r : RailIx) (f : ProtState → ProtState) :
    (s.modProt r f).levelData r = s.levelData r := by
  simp [State.levelData]

theorem warned_recordIf {s : State} (hs : Orderly s) (r : RailIx) (f : ProtState → ProtState) {item : Nat}
    (hitem : item < 256) (code : Nat) : Warned s r (f (s.rail r).prot) item code
      (((s.modProt r f).count Ob.clsRail r.val item).recordIf (bit (s.obj Ob.clsRail r.val Ob.Rail.protCtrl) 3) code
        Ob.clsRail r.val 0 ((s.modProt r f).levelData r)) := by
  let crossed : State := (s.modProt r f).count Ob.clsRail r.val item
  have hrail : crossed.rail r = { s.rail r with prot := f (s.rail r).prot } := State.rail_modRail_self s r _
  have hothers : RailsBut r s crossed := State.railsBut_modRail s r _
  have hsame : SameBut [.objs, .rails, .twin, .recd, .nvm] s crossed :=
    same_step (same_mono (State.modProt_same s r f) (by decide)) (State.count_same ..) (by decide)
  rw [State.levelData_modProt, Warned]
  cases bit (s.obj Ob.clsRail r.val Ob.Rail.protCtrl) 3 with
  | false =>
    exact ⟨hrail, hothers, State.obj_setObj_self hs.store .., hsame, nofun, fun _ =>
      ⟨rfl, State.objsBut_setObj hs.store _ _ _ _⟩⟩
  | true =>
    have hcounts : Counts s (crossed.record code Ob.clsRail r.val 0 (s.levelData r)) Ob.clsRail r.val item :=
      counts_record (u := s.modProt r f) hs.store rfl (recKeys_ne (by decide) (by omega) hitem) ..
    exact ⟨(State.rail_record ..).trans hrail, fun q hq => (State.rail_record ..).trans (hothers q hq), hcounts,
      same_step hsame (State.record_same ..) (by decide), fun _ => logs_record crossed rfl rfl .., nofun⟩

section
variable {s : State} {r : RailIx}

theorem uvWarnCrossing_reports (hs : Orderly s) (hrun : s.framesRun = true) (hfree : (s.rail r).prot.uvw = false)
    (hqual : s.levelQual r .uvWarn ≤ (s.rail r).prot.uvwRun) : Completes (.uvWarnCrossing r) s
      (Warned s r { (s.rail r).prot with uvw := true, uvwRun := 0 } Ob.Rail.uvWarnCnt Code.railUvWarn) := by
  refine ⟨_, ?_, warned_recordIf hs r (fun p => { p with uvw := true, uvwRun := 0 }) (by decide) Code.railUvWarn⟩
  show execUvWarnCrossing r s = _
  rw [execUvWarnCrossing, if_pos (by simp [hrun, hfree, hqual])]
  rfl

theorem ovWarnCrossing_reports (hs : Orderly s) (hrun : s.framesRun = true) (hfree : (s.rail r).prot.ovw = false)
    (hqual : s.levelQual r .ovWarn ≤ (s.rail r).prot.ovwRun) : Completes (.ovWarnCrossing r) s
      (Warned s r { (s.rail r).prot with ovw := true, ovwRun := 0 } Ob.Rail.ovWarnCnt Code.railOvWarn) := by
  refine ⟨_, ?_, warned_recordIf hs r (fun p => { p with ovw := true, ovwRun := 0 }) (by decide) Code.railOvWarn⟩
  show execOvWarnCrossing r s = _
  rw [execOvWarnCrossing, if_pos (by simp [hrun, hfree, hqual])]
  rfl

theorem uvWarnCrossing_idle (hcrossed : (s.rail r).prot.uvw = true) : Completes (.uvWarnCrossing r) s fun t => t = s := by
  refine ⟨s, ?_, rfl⟩
  show execUvWarnCrossing r s = _
  simp [execUvWarnCrossing, hcrossed]

theorem ovWarnCrossing_idle (hcrossed : (s.rail r).prot.ovw = true) : Completes (.ovWarnCrossing r) s fun t => t = s := by
  refine ⟨s, ?_, rfl⟩
  show execOvWarnCrossing r s = _
  simp [execOvWarnCrossing, hcrossed]

end

/-- Settles O57: a crossing is an update of the rail's protection, a count and perhaps a record (`warned_recordIf`); while it
lasts nothing more happens, and its end is an update of the protection again (`levelCrossingEnd_ends`). -/
theorem warningsOnlyReport : Obligations.WarningsOnlyReport := fun _ _ hs hrun =>
  ⟨uvWarnCrossing_reports hs hrun, ovWarnCrossing_reports hs hrun, uvWarnCrossing_idle, ovWarnCrossing_idle,
    levelCrossingEnd_ends hrun .uvWarn, levelCrossingEnd_ends hrun .ovWarn⟩

end Sys2Proof.Machine
end

section
/-! What a protective action sets off (03 R75, 10 R214 to R230, 11 R245): of the object store it takes counters that count
along, and a crowbar that stands goes on standing. -/

namespace Sys2Proof.Machine

/-- The counters, by class and item, that count along with a protective action: trips, pulses and skims of phases, a session
that aborts, starts, retries and latches of a domain, fault levels of the same frame, and the recorder's. -/
abbrev sideItems : List (Nat × Nat) :=
  [(Ob.clsPhase, Ob.Phase.trips), (Ob.clsPhase, Ob.Phase.carryDiscards), (Ob.clsPhase, Ob.Phase.skimAborts),
    (Ob.clsTune, Ob.Tune.aborts), (Ob.clsDomain, Ob.Domain.starts), (Ob.clsDomain, Ob.Domain.retried),
    (Ob.clsDomain, Ob.Domain.latches), (Ob.clsRail, Ob.Rail.uvFaultCnt), (Ob.clsRail, Ob.Rail.ovFaultCnt),
    (Ob.clsRec, Ob.Rec.lost), (Ob.clsRec, Ob.Rec.writeFaults)]

/-- A session that aborts counts, and nothing else is written (07 R147). -/
theorem State.abortTune_writes (s : State) (reason : Nat) :
    WritesOnly [(Ob.clsTune, 0, Ob.Tune.aborts)] s (s.abortTune reason) := by
  unfold State.abortTune
  refine rel_ite (.of_objs rfl) ?_
  extract_lets slot counted sine _ ended
  have hcounted : WritesOnly [(Ob.clsTune, 0, Ob.Tune.aborts)] s counted := .setObj List.mem_cons_self s _
  have hfinished : SameBut [.mb] ended (ended.finishOpt slot St.aborted []) := State.finishOpt_same ..
  exact hcounted.trans (.of_objs (hfinished.same .objs (by decide)))

theorem State.abortTuneOn_writes (s : State) (r : RailIx) (reason : Nat) :
    WritesOnly [(Ob.clsTune, 0, Ob.Tune.aborts)] s (s.abortTuneOn r reason) :=
  rel_ite (s.abortTune_writes reason) (.of_objs rfl)

/-- From s to t no rail enters or leaves a crowbar, and nothing is written to the object store but such counters. -/
structure Follows (s t : State) : Prop where
  crowbar : ∀ q, (t.rail q).prot.crowbar = (s.rail q).prot.crowbar
  ok : StoreOk s.objs → StoreOk t.objs
  obj : StoreOk s.objs → ∀ c i k, i < 256 → k < 256 → (c, k) ∉ sideItems → t.obj c i k = s.obj c i k

namespace Follows

theorem trans {a b c : State} (h : Follows a b) (h' : Follows b c) : Follows a c :=
  ⟨fun q => (h'.crowbar q).trans (h.crowbar q), h'.ok ∘ h.ok, fun hok x i k hi hk hx =>
    (h'.obj (h.ok hok) x i k hi hk hx).trans (h.obj hok x i k hi hk hx)⟩

/-- What touches neither the rails nor the object store. -/
theorem of_eq {s t : State} (hrails : t.rails = s.rails) (hobjs : t.objs = s.objs) : Follows s t := by
  have hrail : ∀ q, t.rail q = s.rail q := fun q => congrArg (Vector.get · q) hrails
  exact ⟨fun q => by rw [hrail], fun hok => hobjs ▸ hok, fun _ _ _ _ _ _ _ => State.obj_of_objs hobjs ..⟩

theorem of_same {ps : List Area} {s t : State} (h : SameBut ps s t) (hps : Area.rails ∉ ps ∧ Area.objs ∉ ps) : Follows s t :=
  of_eq (h.same .rails hps.1) (h.same .objs hps.2)

theorem refl (s : State) : Follows s s := of_eq rfl rfl

theorem modRail (s : State) (r : RailIx) {f : RailState → RailState} (hf : ∀ x, (f x).prot.crowbar = x.prot.crowbar) :
    Follows s (s.modRail r f) := by
  refine ⟨fun q => ?_, id, fun _ _ _ _ _ _ _ => rfl⟩
  rw [State.rail_modRail]
  split
  next heq => rw [hf, heq]
  · rfl

theorem modPhase (s : State) (n : PhaseIx) (f : PhaseState → PhaseState) : Follows s (s.modPhase n f) :=
  of_eq rfl rfl

theorem modDomain (s : State) (d : DomainIx) (f : DomainState → DomainState) : Follows s (s.modDomain d f) :=
  of_eq rfl rfl

/-- What writes such counters only, and leaves the rails as they are. -/
theorem of_writes {os : List (Nat × Nat × Nat)} {s t : State} (hrails : t.rails = s.rails) (h : WritesOnly os s t)
    (hos : ∀ o ∈ os, o.2.1 < 256 ∧ o.2.2 < 256 ∧ (o.1, o.2.2) ∈ sideItems) : Follows s t := by
  have hrail : ∀ q, t.rail q = s.rail q := fun q => congrArg (Vector.get · q) hrails
  refine ⟨fun q => by rw [hrail], h.ok, fun hok c i k hi hk hx => h.obj_eq hok fun o ho heq => hx ?_⟩
  obtain ⟨hinst, hitem, hside⟩ := hos o ho
  obtain ⟨rfl, -, rfl⟩ := objKey_inj hi hk hinst hitem heq
  exact hside

theorem countN {cls inst item : Nat} (hbytes : inst < 256 ∧ item < 256) (hside : (cls, item) ∈ sideItems) (s : State) (n : Nat) :
    Follows s (s.countN cls inst item n) := by
  refine of_writes rfl (WritesOnly.setObj (List.mem_singleton_self (cls, inst, item)) s _) fun o ho => ?_
  rw [List.mem_singleton.mp ho]
  exact ⟨hbytes.1, hbytes.2, hside⟩

theorem count {cls inst item : Nat} (hbytes : inst < 256 ∧ item < 256) (hside : (cls, item) ∈ sideItems) (s : State) :
    Follows s (s.count cls inst item) := countN hbytes hside s 1

/-! Events -/

theorem eventRel : EventRel Follows where
  trans := trans
  recorder h := of_same h (by decide)
  lost s n := countN (by decide) (by decide) s n
  fault s := count (by decide) (by decide) s

theorem takeSnap (s : State) (seq code : Nat) (r : RailIx) (cause : Nat) : Follows s (s.takeSnap seq code r cause) := by
  have hfrozen : Follows s (s.modRail r fun x => { x with histFrozen := true }) := modRail s r fun _ => rfl
  exact hfrozen.trans (of_eq rfl rfl)

theorem event (s : State) (e : Ev) : Follows s (s.event e) := eventRel.event (fun _ _ s n => takeSnap s n ..) s

theorem record (s : State) (code cls inst sub : Nat) (data : List Byte) : Follows s (s.record code cls inst sub data) :=
  event s _

theorem recordSnap (s : State) (code cls inst sub : Nat) (data : List Byte) (r : RailIx) (cause : Nat) :
    Follows s (s.recordSnap code cls inst sub data r cause) := event s _

/-! Parts of a rail that end with its motion or its regulation -/

theorem endWait (s : State) (r : RailIx) (code : Nat) : Follows s (s.endWait r code) := by
  unfold State.endWait
  split
  · exact refl s
  · extract_lets ended
    have hended : Follows s ended := modRail s r fun _ => rfl
    exact hended.trans (of_same (State.gatherSet_same ended ..) (by decide))

theorem strokeMismatch (s : State) (r : RailIx) : Follows s (s.strokeMismatch r) :=
  rel_ite (refl s) (modRail s r fun _ => rfl)

theorem abortSkim (s : State) (r : RailIx) : Follows s (s.abortSkim r) := by
  unfold State.abortSkim
  split
  · exact refl s
  next k _ => exact (count (inst := k.phase.val) ⟨by omega, by decide⟩ (by decide) s).trans (modRail _ r fun _ => rfl)

theorem abortPassive (s : State) (r : RailIx) : Follows s (s.abortPassive r) := by
  unfold State.abortPassive
  split
  · exact refl s
  next k _ => exact (count (inst := k.phase.val) ⟨by omega, by decide⟩ (by decide) s).trans (modRail _ r fun _ => rfl)

theorem abortTuneOn (s : State) (r : RailIx) (reason : Nat) : Follows s (s.abortTuneOn r reason) :=
  of_writes ((State.abortTuneOn_same ..).same .rails (by decide)) (State.abortTuneOn_writes s r reason) (by decide)

theorem dropCarry (s : State) (n : PhaseIx) : Follows s (s.dropCarry n) :=
  rel_ite (refl s) ((count ⟨by omega, by decide⟩ (by decide) s).trans (modPhase ..))

theorem fuseOff (s : State) (r : RailIx) : Follows s (s.fuseOff r) := rel_ite (modRail s r fun _ => rfl) (refl s)

theorem leaveRegulation (s : State) (r : RailIx) (byCrowbar : Bool) : Follows s (s.leaveRegulation r byCrowbar) := by
  unfold State.leaveRegulation
  extract_lets waited faded skimmed tuned shed off
  have hfaded : Follows s faded := (endWait s r _).trans ((strokeMismatch waited r).trans (modRail _ r fun _ => rfl))
  have hskimmed : Follows faded skimmed := (abortSkim faded r).trans (abortPassive ..)
  have htuned : Follows skimmed tuned := abortTuneOn ..
  have hshed : Follows tuned shed :=
    rel_forEach refl trans (fun n _ s => (dropCarry s n).trans (modPhase ..)) tuned
  have hoff : Follows shed off := modRail shed r fun _ => rfl
  exact hfaded.trans (hskimmed.trans (htuned.trans (hshed.trans (hoff.trans (rel_ite (refl off) (fuseOff off r))))))

/-! Lower causes of the frame -/

theorem uvFaultReport (s : State) (r : RailIx) : Follows s (s.uvFaultReport r) := by
  unfold State.uvFaultReport
  extract_lets reported
  have hreported : Follows s reported := (abortTuneOn s r 4).trans (modRail _ r fun _ => rfl)
  exact hreported.trans ((count ⟨by omega, by decide⟩ (by decide) reported).trans (record ..))

theorem clearHic (s : State) (r : RailIx) : Follows s (s.clearHic r) := modRail s r fun _ => rfl

theorem recordLower (s : State) (r : RailIx) : Follows s (s.recordLower r) := by
  unfold State.recordLower
  extract_lets causes reported
  have hreported : Follows s reported := rel_ite (uvFaultReport s r) (refl s)
  exact rel_ite (refl s) (hreported.trans ((rel_ite (refl _) (record ..) : Follows reported (ite ..)).trans (clearHic ..)))

/-! The sequencer of the rail's domain -/

theorem setDom (s : State) (d : DomainIx) (st : DomSt) : Follows s (s.setDom d st) :=
  of_same (State.setDom_same ..) (by decide)

theorem settleDev (s : State) : Follows s s.settleDev := of_same (State.settleDev_same s) (by decide)

theorem refreshFlt (s : State) : Follows s s.refreshFlt := of_same (State.refreshFlt_same s) (by decide)

theorem schedUp (s : State) (d : DomainIx) (r : RailIx) : Follows s (s.schedUp d r) := by
  unfold State.schedUp
  extract_lets due
  have hdue : Follows s due := modRail s r fun _ => rfl
  exact hdue.trans (modDomain due ..)

theorem enterUp (s : State) (d : DomainIx) (fresh : Bool) : Follows s (s.enterUp d fresh) := by
  unfold State.enterUp
  extract_lets counted up sched
  have hcounted : Follows s counted := count ⟨by omega, by decide⟩ (by decide) s
  have hup : Follows counted up := (setDom counted d .up).trans (modDomain ..)
  have hsched : Follows up sched := by
    unfold sched
    split
    · exact schedUp ..
    · exact refl up
  exact hcounted.trans (hup.trans (hsched.trans (settleDev sched)))

theorem downEnd (s : State) (d : DomainIx) : Follows s (s.downEnd d) := by
  unfold State.downEnd
  extract_lets x stepped failed failCounted latched retryCounted waiting ended
  have hstepped : Follows s stepped := modDomain ..
  have hfailed : Follows stepped failed := by
    unfold failed
    split
    · exact rel_ite (modRail _ _ fun _ => rfl) (refl _)
    · exact refl _
  have hfailCounted : Follows failed failCounted := count ⟨by omega, by decide⟩ (by decide) failed
  have hlatched : Follows failCounted latched := (setDom failCounted d .latched).trans (modDomain ..)
  have hretryCounted : Follows stepped retryCounted := count ⟨by omega, by decide⟩ (by decide) stepped
  have hwaiting : Follows retryCounted waiting := (setDom retryCounted d .retryWait).trans (modDomain ..)
  have hended : Follows stepped ended := by
    unfold ended
    refine rel_ite ?_ (rel_ite ?_ (rel_ite (enterUp stepped d true) ?_))
    · exact hfailed.trans (hfailCounted.trans (hlatched.trans (record ..)))
    · exact hretryCounted.trans (hwaiting.trans (record ..))
    · exact (setDom stepped d .off).trans (record ..)
  exact hstepped.trans (hended.trans ((settleDev ended).trans (refreshFlt _)))

theorem nextDown (s : State) (d : DomainIx) : Follows s (s.nextDown d) := by
  unfold State.nextDown
  split
  · exact downEnd s d
  next r _ =>
    extract_lets due
    have hdue : Follows s due := modRail s r fun _ => rfl
    exact hdue.trans (modDomain due ..)

theorem enterDown (s : State) (d : DomainIx) : Follows s (s.enterDown d) := by
  unfold State.enterDown
  extract_lets cancelled
  have hcancelled : Follows s cancelled := by
    refine rel_forEach refl trans (fun r _ s => ?_) s
    exact modRail s r fun _ => rfl
  exact hcancelled.trans ((setDom cancelled d .down).trans (nextDown ..))

theorem powerDownAll (s : State) : Follows s s.powerDownAll := by
  refine rel_forEach refl trans (fun d _ s => ?_) s
  split
  · exact enterDown s d
  · exact enterDown s d
  · exact refl s

theorem railWentOff (s : State) (r : RailIx) : Follows s (s.railWentOff r) := by
  unfold State.railWentOff
  split
  · exact refl s
  · exact rel_ite (rel_ite (refl s) (nextDown ..)) (refl s)

theorem reportLatch (s : State) (r : RailIx) (cause : Latch) (was : Bool) : Follows s (s.reportLatch r cause was) := by
  unfold State.reportLatch
  split
  · exact refl s
  · extract_lets x iso setLatch
    have hset : Follows s (setLatch s) := modDomain ..
    split
    · exact hset.trans (enterDown ..)
    · exact rel_ite (refl s) (hset.trans (enterDown ..))
    · exact rel_ite (refl s) (rel_ite (railWentOff s r) (hset.trans (railWentOff ..)))
    · exact refl s

/-! Latches -/

theorem afterLatch (s : State) (r : RailIx) (cause : Latch) : Follows s (s.afterLatch r cause) := by
  unfold State.afterLatch
  extract_lets lower was left
  have hleft : Follows lower left := rel_ite (leaveRegulation ..) (refl lower)
  exact (recordLower s r).trans (hleft.trans ((reportLatch left r cause was).trans (refreshFlt _)))

theorem latchRail (s : State) (r : RailIx) (cause : Latch) (code cls inst sub : Nat) (data : List Byte) :
    Follows s (s.latchRail r cause code cls inst sub data) := by
  unfold State.latchRail
  extract_lets latched
  have hlatched : Follows s latched := modRail s r fun _ => rfl
  exact rel_ite (record s ..) (hlatched.trans ((recordSnap latched ..).trans (afterLatch ..)))

theorem latchRails (s : State) (rs : List RailIx) (cause : Latch) (code cls inst sub : Nat) (data : List Byte) :
    Follows s (s.latchRails rs cause code cls inst sub data) := by
  unfold State.latchRails
  extract_lets fresh latched recorded
  have hlatched : Follows s latched := by
    refine rel_forEach refl trans (fun r _ s => ?_) s
    exact modRail s r fun _ => rfl
  have hrecorded : Follows latched recorded := event latched _
  exact hlatched.trans (hrecorded.trans (rel_forEach refl trans (fun r _ s => afterLatch s r cause) recorded))

/-! Pulses that end -/

theorem disablePhases (s : State) (r : RailIx) : Follows s (s.disablePhases r) := by
  unfold State.disablePhases
  extract_lets skimmed
  have hskimmed : Follows s skimmed := (abortSkim s r).trans (abortPassive ..)
  exact hskimmed.trans (rel_forEach refl trans (fun n _ s => (dropCarry s n).trans (modPhase ..)) skimmed)

theorem tripAt (s : State) (n : PhaseIx) (pos : Nat) : Follows s (s.tripAt n pos) := by
  unfold State.tripAt
  extract_lets g
  split
  · refine rel_ite (refl s) ?_
    exact (count ⟨by omega, by decide⟩ (by decide) s).trans ((dropCarry _ n).trans (modPhase ..))
  · exact refl s

theorem tripPhase (s : State) (n : PhaseIx) (tick : Nat) : Follows s (s.tripPhase n tick) := by
  unfold State.tripPhase
  split
  · exact refl s
  next r _ =>
    extract_lets g dropped tripped
    have hdropped : Follows s dropped := (count ⟨by omega, by decide⟩ (by decide) s).trans (dropCarry _ n)
    have htripped : Follows s tripped := rel_ite (refl s) (tripAt s n _)
    split
    · exact rel_ite (hdropped.trans ((abortSkim dropped r).trans (modPhase ..))) (refl s)
    · exact rel_ite (htripped.trans (abortSkim tripped r)) htripped

end Follows

end Sys2Proof.Machine
end

section
/-! The phases of a rail become Disabled (10 R223, R226, R229), and a rail that is free again restarts through soft start: what
both leave of the rail. -/

namespace Sys2Proof.Machine

/-- An object counts once on the way from s to t, and what follows from that leaves the count. -/
theorem counts_of_follows {s u t : State} {cls inst item : Nat} (hok : StoreOk s.objs) (hbytes : inst < 256 ∧ item < 256)
    (hother : (cls, item) ∉ sideItems) (hbefore : Follows s u) (hafter : Follows (u.count cls inst item) t) :
    Counts s t cls inst item := by
  have hcounted : (u.count cls inst item).obj cls inst item = satWord ((u.obj cls inst item).toNat + 1) :=
    State.obj_setObj_self (hbefore.ok hok) ..
  have hok' : StoreOk (u.count cls inst item).objs := Store.setVal_ok (hbefore.ok hok) ..
  rw [Counts, hafter.obj hok' cls inst item hbytes.1 hbytes.2 hother, hcounted,
    hbefore.obj hok cls inst item hbytes.1 hbytes.2 hother]

/-! Skims that end, and pulses that end -/

/-- From s to t nothing of a rail changes but its placement. -/
def PlcOnly (s t : State) : Prop := ∀ q, ∃ x, t.rail q = { s.rail q with plc := x }

namespace PlcOnly

theorem trans {a b c : State} (h : PlcOnly a b) (h' : PlcOnly b c) : PlcOnly a c := fun q => by
  obtain ⟨x, hx⟩ := h q
  obtain ⟨y, hy⟩ := h' q
  exact ⟨y, by rw [hy, hx]⟩

theorem of_rails {s t : State} (h : t.rails = s.rails) : PlcOnly s t := fun q =>
  ⟨(s.rail q).plc, congrArg (Vector.get · q) h⟩

theorem of_same {ps : List Area} {s t : State} (h : SameBut ps s t) (hps : Area.rails ∉ ps) : PlcOnly s t :=
  of_rails (h.same .rails hps)

theorem refl (s : State) : PlcOnly s s := of_rails rfl

theorem modPlc (s : State) (r : RailIx) (f : PlcState → PlcState) : PlcOnly s (s.modPlc r f) := fun q => by
  by_cases hq : q = r
  · exact ⟨f (s.rail r).plc, by simp [hq]⟩
  · exact ⟨(s.rail q).plc, by simp [hq]⟩

theorem abortSkim (s : State) (r : RailIx) : PlcOnly s (s.abortSkim r) := by
  unfold State.abortSkim
  split
  · exact refl s
  · exact (of_rails rfl : PlcOnly s (s.count ..)).trans (modPlc _ r _)

theorem abortPassive (s : State) (r : RailIx) : PlcOnly s (s.abortPassive r) := by
  unfold State.abortPassive
  split
  · exact refl s
  · exact (of_rails rfl : PlcOnly s (s.count ..)).trans (modPlc _ r _)

theorem prot_eq {s t : State} (h : PlcOnly s t) (q : RailIx) : (t.rail q).prot = (s.rail q).prot := by
  obtain ⟨x, hx⟩ := h q
  rw [hx]

theorem seq_eq {s t : State} (h : PlcOnly s t) (q : RailIx) : (t.rail q).seq = (s.rail q).seq := by
  obtain ⟨x, hx⟩ := h q
  rw [hx]

end PlcOnly

/-- A generator that is Disabled: no pulse and no switching. -/
def GenOff (s : State) (n : PhaseIx) : Prop := (s.phase n).gen.switching = false ∧ (s.phase n).gen.te = 0

theorem State.rails_forEach_phases {l : List PhaseIx} {f : State → PhaseIx → State}
    (hf : ∀ s n, SameBut [.objs, .phases] s (f s n)) (s : State) : (forEach l f s).rails = s.rails :=
  (same_forEach (same_refl [.objs, .phases] s) fun s n => hf s n).same .rails (by decide)

/-- The pulse of a phase ends (R68). -/
def State.endPulse (s : State) (n : PhaseIx) : State := (s.dropCarry n).modGen n fun g =>
  { g with switching := false, rise := none, fall := none, te := 0, wokeAt := none, slamPark := false }

theorem State.endPulse_same (s : State) (n : PhaseIx) : SameBut [.objs, .phases] s (s.endPulse n) :=
  same_step (State.dropCarry_same s n) (State.modGen_same ..) (by decide)

theorem State.genOff_endPulse (s : State) (n : PhaseIx) :
    GenOff (s.endPulse n) n ∧ ∀ m, GenOff s m → GenOff (s.endPulse n) m := by
  have hself : GenOff (s.endPulse n) n := by
    rw [GenOff, State.endPulse, State.phase_modGen_self]
    exact ⟨rfl, rfl⟩
  refine ⟨hself, fun m hm => ?_⟩
  by_cases hmn : m = n
  · exact hmn ▸ hself
  · have hphase : (s.endPulse n).phase m = s.phase m := by
      rw [State.endPulse, State.modGen_eq, State.phase_modPhase, if_neg hmn, State.phase_dropCarry, if_neg hmn]
    rwa [GenOff, hphase]

theorem State.disablePhases_eq (s : State) (r : RailIx) : s.disablePhases r =
    forEach (((s.abortSkim r).abortPassive r).phasesOf r.val) State.endPulse ((s.abortSkim r).abortPassive r) := rfl

theorem State.disablePhases_plcOnly (s : State) (r : RailIx) : PlcOnly s (s.disablePhases r) :=
  (PlcOnly.abortSkim s r).trans ((PlcOnly.abortPassive _ r).trans
    (.of_rails (State.rails_forEach_phases State.endPulse_same _)))

theorem State.disablePhases_railsBut (s : State) (r : RailIx) : RailsBut r s (s.disablePhases r) := fun q hq => by
  have hrails : (s.disablePhases r).rail q = ((s.abortSkim r).abortPassive r).rail q :=
    congrArg (Vector.get · q) (State.rails_forEach_phases State.endPulse_same _)
  rw [hrails, (PeriodFrame.abortPassive (n := 0) (s.abortSkim r)).rails q hq,
    (PeriodFrame.abortSkim (n := 0) s).rails q hq]

/-- Every phase of the rail is Disabled. -/
theorem State.disablePhases_off {s : State} (hok : StoreOk s.objs) (r : RailIx) {n : PhaseIx} (hn : s.phaseRail n = some r) :
    GenOff (s.disablePhases r) n := by
  let skimmed : State := (s.abortSkim r).abortPassive r
  have hskimmed : Follows s skimmed := (Follows.abortSkim s r).trans (.abortPassive _ r)
  have hmem : n ∈ skimmed.phasesOf r.val := by
    rw [State.mem_phasesOf, State.phaseRail_congr (hskimmed.obj hok _ _ _ (by omega) (by decide) (by decide)), hn]
  obtain ⟨a, -, hend⟩ := forEach_reaches (R := fun a b => ∀ m, GenOff a m → GenOff b m) (fun _ _ => id)
    (fun h h' m hm => h' m (h m hm)) (fun n _ s => (s.genOff_endPulse n).2) hmem skimmed
  exact hend n (a.genOff_endPulse n).1

/-! Restart (R223, R226, R229) -/

/-- What the start of the law makes of the rail's protection. -/
def ProtState.started (p : ProtState) : ProtState := { p with limRun := 0, uvwRun := 0, uvfRun := 0, hicEnd := none }

theorem State.startLaw_rail (s : State) (r : RailIx) : ((s.startLaw r).rail r).prot = (s.rail r).prot.started ∧
    ((s.startLaw r).rail r).seq = (s.rail r).seq ∧ ((s.startLaw r).rail r).prof.softStart = true ∧
    ((s.startLaw r).rail r).law.regime = .linear ∧ RailsBut r s (s.startLaw r) := by
  unfold State.startLaw
  extract_lets x v fs p e q regime measured preloaded profiled fed placed started
  let wake (u : State) (n : PhaseIx) : State := (u.modSense n fun y => { y with shed := false }).modGen n fun g =>
    { g with slamPark := false, wokeAt := if u.objs.comp n.val then g.wokeAt else some u.now }
  have hwake : ∀ u n, SameBut [.objs, .phases] u (wake u n) := fun u n =>
    same_mono (same_step (State.modSense_same u n _) (State.modGen_same ..) (by decide)) (by decide)
  have hrails : ∀ q, (forEach (started.phasesOf r.val) wake started).rail q = started.rail q := fun q =>
    congrArg (Vector.get · q) (State.rails_forEach_phases hwake started)
  refine ⟨?_, ?_, ?_, ?_, fun q => ?_⟩
  all_goals
    rw [hrails]
    simp +contextual [started, placed, fed, profiled, preloaded, measured, regime, State.preload, ProtState.started]

theorem State.heldOff_congr {s t : State} {r : RailIx} (hinuv : (t.rail r).prot.inuv = (s.rail r).prot.inuv)
    (hinov : (t.rail r).prot.inov = (s.rail r).prot.inov) (hthold : (t.rail r).prot.thold = (s.rail r).prot.thold) :
    t.heldOff r = s.heldOff r := by
  simp only [State.heldOff, hinuv, hinov, hthold]

/-- What a rail whose off time and holds may be over makes of itself. -/
structure Restarted (r : RailIx) (s t : State) : Prop where
  others : RailsBut r s t
  same : SameBut [.phases, .rails] s t
  hicEnd : (s.rail r).prot.hicEnd = none → (t.rail r).prot.hicEnd = none
  inuv : (t.rail r).prot.inuv = (s.rail r).prot.inuv
  inov : (t.rail r).prot.inov = (s.rail r).prot.inov
  thold : (t.rail r).prot.thold = (s.rail r).prot.thold
  runs : (s.rail r).seq.rseq = .ramp ∨ (s.rail r).seq.rseq = .on → (s.rail r).prot.hicEnd = none → s.heldOff r = false →
    (t.rail r).prof.softStart = true ∧ (t.rail r).law.regime = .linear ∧ t.lawRuns r = true
  waits : s.heldOff r = true → t = s

theorem State.restarted_restart (s : State) (r : RailIx) : Restarted r s (s.restart r) := by
  by_cases hfree : (((s.rail r).seq.rseq == .ramp || (s.rail r).seq.rseq == .on) && !s.heldOff r && !s.inHiccup r) = true
  · obtain ⟨hprot, hseq, hsoft, hlinear, hothers⟩ := s.startLaw_rail r
    have hheld : (s.startLaw r).heldOff r = s.heldOff r :=
      State.heldOff_congr (by rw [hprot]; rfl) (by rw [hprot]; rfl) (by rw [hprot]; rfl)
    rw [State.restart, if_pos hfree]
    simp only [Bool.and_eq_true, Bool.not_eq_true'] at hfree
    obtain ⟨⟨hregulates, hnotHeld⟩, -⟩ := hfree
    have hlaw : (s.startLaw r).lawRuns r = true := by
      simp [State.lawRuns, State.inHiccup, hheld, hnotHeld, hprot, hseq, ProtState.started, hregulates]
    refine ⟨hothers, State.startLaw_same s r, fun _ => by rw [hprot]; rfl, by rw [hprot]; rfl, by rw [hprot]; rfl,
      by rw [hprot]; rfl, fun _ _ _ => ⟨hsoft, hlinear, hlaw⟩, fun hhold => absurd hhold (by simp [hnotHeld])⟩
  · rw [State.restart, if_neg hfree]
    refine ⟨fun _ _ => rfl, same_refl .., id, rfl, rfl, rfl, fun hseq hend hhold => absurd ?_ hfree, fun _ => rfl⟩
    simpa [State.inHiccup, hend, hhold] using hseq

/-- A rail that a hold or an off time leaves, as the statements of R223, R226 and R229 say it: it is free if no other hold
stands. -/
theorem Restarted.free {r : RailIx} {u t : State} (h : Restarted r u t)
    (hseq : (u.rail r).seq.rseq = .ramp ∨ (u.rail r).seq.rseq = .on) (hend : (u.rail r).prot.hicEnd = none)
    (hfree : t.heldOff r = false) : (t.rail r).prof.softStart = true ∧ t.lawRuns r = true := by
  have hheld : u.heldOff r = false := (State.heldOff_congr h.inuv h.inov h.thold).symm.trans hfree
  obtain ⟨hsoft, -, hlaw⟩ := h.runs hseq hend hheld
  exact ⟨hsoft, hlaw⟩

end Sys2Proof.Machine
end

section
/-! Hiccup and crowbar (10 R219, R220, R223, R224): what each makes of its rail. -/

namespace Sys2Proof.Machine

/-! The report of an under-voltage fault (R219) -/

theorem State.rails_abortTuneOn (s : State) (r : RailIx) (reason : Nat) : (s.abortTuneOn r reason).rails = s.rails :=
  (State.abortTuneOn_same s r reason).same .rails (by decide)

theorem State.rail_abortTuneOn (s : State) (r : RailIx) (reason : Nat) (q : RailIx) :
    (s.abortTuneOn r reason).rail q = s.rail q := congrArg (Vector.get · q) (State.rails_abortTuneOn ..)

theorem State.rail_uvFaultReport (s : State) (r q : RailIx) : (s.uvFaultReport r).rail q =
    if q = r then { s.rail r with prot := { (s.rail r).prot with uvf := true, uvfRun := 0 } } else s.rail q := by
  rw [State.uvFaultReport, State.rail_record]
  simp [State.rail_abortTuneOn]

/-- A fault that is reported: the session on the rail has aborted, and the crossing stands. -/
def State.crossed (s : State) (r : RailIx) (f : ProtState → ProtState) : State := (s.abortTuneOn r 4).modProt r f

theorem State.levelData_crossed (s : State) (r : RailIx) (f : ProtState → ProtState) :
    (s.crossed r f).levelData r = s.levelData r := by
  rw [State.crossed, State.levelData_modProt, State.levelData, State.levelData, State.rail_abortTuneOn]

theorem State.crossed_same (s : State) (r : RailIx) (f : ProtState → ProtState) :
    SameBut [.objs, .rails, .tune, .mb] s (s.crossed r f) :=
  same_step (same_mono (State.abortTuneOn_same s r 4) (by decide)) (State.modProt_same ..) (by decide)

/-- A fault level that only reports (R219, R220): the crossing, its count and its record. -/
theorem State.crossed_reports {s : State} (hok : StoreOk s.objs) (r : RailIx) (f : ProtState → ProtState) {item : Nat}
    (hitem : item < 256) (code : Nat) {t : State}
    (ht : t = ((s.crossed r f).count Ob.clsRail r.val item).record code Ob.clsRail r.val 0 ((s.crossed r f).levelData r)) :
    (t.rail r).prot = f (s.rail r).prot ∧ Counts s t Ob.clsRail r.val item ∧
      Logs s t code Ob.clsRail r.val 0 (s.levelData r) ∧ t.phases = s.phases ∧ RailsBut r s t := by
  have hsame := s.crossed_same r f
  have htune := s.abortTuneOn_writes r 4
  have hobj : (s.crossed r f).obj Ob.clsRail r.val item = s.obj Ob.clsRail r.val item :=
    htune.obj_eq hok fun o ho => List.mem_singleton.mp ho ▸ objKey_ne (by omega) hitem (by decide) (by decide) (.inl (by decide))
  have hrail : ∀ q, t.rail q = (s.crossed r f).rail q := fun q => ht ▸ State.rail_record ..
  subst ht
  refine ⟨?_, ?_, ?_, ?_, fun q hq => ?_⟩
  · rw [hrail, State.crossed, State.modProt_eq, State.rail_modRail_self, State.rail_abortTuneOn]
  · exact counts_record (u := s.crossed r f) (htune.ok hok) hobj (recKeys_ne (by decide) (by omega) hitem) ..
  · rw [State.levelData_crossed]
    exact logs_record ((s.crossed r f).count Ob.clsRail r.val item) (hsame.same .recd (by decide)) (hsame.same .nvm (by decide)) ..
  · rw [State.phases_record]
    exact hsame.same .phases (by decide)
  · rw [hrail, State.crossed, State.modProt_eq, State.railsBut_modRail _ r _ q hq, State.rail_abortTuneOn]

/-! Hiccup (R223, R224) -/

/-- The state in which a hiccup is decided on: an under-voltage fault of the frame is reported, and the causes are taken. -/
def State.hicReady (s : State) (r : RailIx) : State := (if s.uvPending r then s.uvFaultReport r else s).clearHic r

theorem State.hicReady_follows (s : State) (r : RailIx) : Follows s (s.hicReady r) :=
  (rel_ite (.uvFaultReport s r) (.refl s) : Follows s (ite ..)).trans (.clearHic _ r)

theorem State.now_hicReady (s : State) (r : RailIx) : (s.hicReady r).now = s.now := by
  have hreported : SameBut [.objs, .rails, .tune, .twin, .recd, .mb, .nvm] s
      (if s.uvPending r then s.uvFaultReport r else s) := same_ite (State.uvFaultReport_same s r) (same_refl ..)
  exact hreported.same .now (by decide)

theorem State.rail_hicReady (s : State) (r : RailIx) : ∃ uvf, (s.hicReady r).rail r = { s.rail r with
    prot := { (s.rail r).prot with uvf := uvf, uvfRun := 0, limRun := 0, cmpHic := false } } := by
  by_cases huv : s.uvPending r = true
  · exact ⟨true, by simp [State.hicReady, State.clearHic, huv, State.rail_uvFaultReport]⟩
  · exact ⟨(s.rail r).prot.uvf, by simp [State.hicReady, State.clearHic, huv]⟩

/-- The off time that begins (R223). -/
def ProtState.hiccup (p : ProtState) (hicEnd : Nat) : ProtState := { p with
  hicRun := p.hicRun + 1, hicClean := 0, uvw := false, uvf := false, uvwRun := 0, hicEnd := some hicEnd }

/-- A hiccup begins: it is counted, the off time stands, and it is recorded (R223). -/
def State.hicBegun (s : State) (r : RailIx) (causes run : Nat) : State :=
  let counted := s.count Ob.clsRail r.val Ob.Rail.hiccups
  (counted.modProt r fun p => p.hiccup (counted.now + msFrames (counted.railN r.val Ob.Rail.hicOffMs))).hicRecord r causes run

/-- A rail enters hiccup, its phases Disabled. -/
def State.enterHiccup (s : State) (r : RailIx) (causes run : Nat) : State :=
  ((s.hicBegun r causes run).disablePhases r).modSeq r fun q => { q with good := false }

theorem State.hiccupRail_eq {s : State} {r : RailIx} (hok : StoreOk s.objs) (hend : (s.rail r).prot.hicEnd = none)
    (hfree : s.latchedOff r = false) (hseq : (s.rail r).seq.rseq = .ramp ∨ (s.rail r).seq.rseq = .on) :
    s.hiccupRail r = if s.railN r.val Ob.Rail.hicMax < (s.rail r).prot.hicRun + 1 then
      (s.hicReady r).latchRail r .overcurrent Code.ocLatch Ob.clsRail r.val 0 (leBytes 1 (s.rail r).prot.hicRun)
    else (s.hicReady r).enterHiccup r (s.hicCauses r) ((s.rail r).prot.hicRun + 1) := by
  have hmax : (s.hicReady r).railN r.val Ob.Rail.hicMax = s.railN r.val Ob.Rail.hicMax :=
    congrArg BitVec.toNat ((s.hicReady_follows r).obj hok _ _ _ (by omega) (by decide) (by decide))
  have hregulates : ((s.rail r).prot.hicEnd.isSome || s.latchedOff r ||
      !((s.rail r).seq.rseq == .ramp || (s.rail r).seq.rseq == .on)) = false := by
    simpa [hend, hfree] using fun h => hseq.resolve_left h
  rw [State.hiccupRail, if_neg (by simp only [hregulates]; decide), ← hmax]
  rfl

/-- No count of a hiccup changes another object. -/
theorem State.obj_countHiccup {s : State} (hok : StoreOk s.objs) (r : RailIx) {c i k : Nat} (hi : i < 256) (hk : k < 256)
    (hother : c ≠ Ob.clsRail ∨ k ≠ Ob.Rail.hiccups) :
    (s.count Ob.clsRail r.val Ob.Rail.hiccups).obj c i k = s.obj c i k :=
  State.obj_setObj_ne hok _ _ _ _ _ _ _ (objKey_ne hi hk (by omega) (by decide) hother)

section
variable {s : State} {r : RailIx} {causes run : Nat}

theorem State.hicBegun_follows : Follows (s.count Ob.clsRail r.val Ob.Rail.hiccups) (s.hicBegun r causes run) := by
  unfold State.hicBegun
  extract_lets counted
  have hset : Follows counted (counted.modProt r fun p => p.hiccup (counted.now + msFrames (counted.railN r.val Ob.Rail.hicOffMs))) :=
    .modRail counted r fun _ => rfl
  exact hset.trans (.record ..)

theorem State.hicBegun_rail (hok : StoreOk s.objs) : (s.hicBegun r causes run).rail r = { s.rail r with
    prot := (s.rail r).prot.hiccup (s.now + msFrames (s.railN r.val Ob.Rail.hicOffMs)) } := by
  have hoff : (s.count Ob.clsRail r.val Ob.Rail.hiccups).railN r.val Ob.Rail.hicOffMs = s.railN r.val Ob.Rail.hicOffMs :=
    congrArg BitVec.toNat (State.obj_countHiccup hok r (by omega) (by decide) (.inr (by decide)))
  rw [← hoff]
  exact (State.rail_record ..).trans (State.rail_modRail_self (s.count ..) r _)

theorem State.enterHiccup_follows :
    Follows (s.count Ob.clsRail r.val Ob.Rail.hiccups) (s.enterHiccup r causes run) :=
  State.hicBegun_follows.trans ((Follows.disablePhases _ r).trans (.modRail _ r fun _ => rfl))

theorem State.enterHiccup_rail (hok : StoreOk s.objs) : ((s.enterHiccup r causes run).rail r).prot =
      (s.rail r).prot.hiccup (s.now + msFrames (s.railN r.val Ob.Rail.hicOffMs)) ∧
    ((s.enterHiccup r causes run).rail r).seq = { (s.rail r).seq with good := false } := by
  let off : State := (s.hicBegun r causes run).disablePhases r
  have hplc : PlcOnly (s.hicBegun r causes run) off := (s.hicBegun r causes run).disablePhases_plcOnly r
  have hrail : (s.enterHiccup r causes run).rail r = { off.rail r with seq := { (off.rail r).seq with good := false } } :=
    State.rail_modRail_self off r _
  rw [hrail]
  simp only [hplc.prot_eq, hplc.seq_eq, State.hicBegun_rail hok, and_self]

theorem State.enterHiccup_off (hok : StoreOk s.objs) {n : PhaseIx} (hn : s.phaseRail n = some r) :
    GenOff (s.enterHiccup r causes run) n := by
  have hcounted : StoreOk (s.count Ob.clsRail r.val Ob.Rail.hiccups).objs := Store.setVal_ok hok ..
  have hbegun : Follows (s.count Ob.clsRail r.val Ob.Rail.hiccups) (s.hicBegun r causes run) := State.hicBegun_follows
  have hrail : (s.hicBegun r causes run).phaseRail n = s.phaseRail n := State.phaseRail_congr <| by
    rw [hbegun.obj hcounted _ _ _ (by omega) (by decide) (by decide),
      State.obj_countHiccup hok r (by omega) (by decide) (.inl (by decide))]
  have hoff : GenOff ((s.hicBegun r causes run).disablePhases r) n :=
    State.disablePhases_off (hbegun.ok hcounted) r (hrail.trans hn)
  rwa [GenOff, State.enterHiccup, State.modSeq_eq, State.phase_modRail]

end

/-- What a hiccup does (R223, R224): the off time with its phases Disabled, or past HIC_MAX the latch. -/
theorem hiccups_of_exec {c : Instr} {s : State} {r : RailIx} (hok : StoreOk s.objs) (hexec : exec c s = .next (s.hiccupRail r))
    (hend : (s.rail r).prot.hicEnd = none) (hfree : s.latchedOff r = false)
    (hseq : (s.rail r).seq.rseq = .ramp ∨ (s.rail r).seq.rseq = .on) :
    ((s.rail r).prot.hicRun < s.railN r.val Ob.Rail.hicMax → Completes c s fun t =>
      (t.rail r).prot.hicEnd = some (s.now + msFrames (s.railN r.val Ob.Rail.hicOffMs)) ∧
        (t.rail r).prot.hicRun = (s.rail r).prot.hicRun + 1 ∧ (t.rail r).seq.rseq = (s.rail r).seq.rseq ∧
        (t.rail r).seq.good = false ∧ Counts s t Ob.clsRail r.val Ob.Rail.hiccups ∧ t.lawRuns r = false ∧
        ∀ n, s.phaseRail n = some r → (t.phase n).gen.switching = false ∧ (t.phase n).gen.te = 0) ∧
    (s.railN r.val Ob.Rail.hicMax ≤ (s.rail r).prot.hicRun → Completes c s fun t =>
      t.latchedOff r = true ∧ t.regulating r = false) := by
  have hready := s.hicReady_follows r
  obtain ⟨uvf, hrail⟩ := s.rail_hicReady r
  rw [State.hiccupRail_eq hok hend hfree hseq] at hexec
  refine ⟨fun hfew => ?_, fun hmany => ?_⟩
  · rw [if_neg (by omega)] at hexec
    have hoff : (s.hicReady r).railN r.val Ob.Rail.hicOffMs = s.railN r.val Ob.Rail.hicOffMs :=
      congrArg BitVec.toNat (hready.obj hok _ _ _ (by omega) (by decide) (by decide))
    obtain ⟨hprot, hseq'⟩ := State.enterHiccup_rail (r := r) (causes := s.hicCauses r)
      (run := (s.rail r).prot.hicRun + 1) (hready.ok hok)
    rw [hoff, s.now_hicReady] at hprot
    refine ⟨_, hexec, by rw [hprot]; rfl, by rw [hprot, hrail]; rfl, by rw [hseq', hrail], by rw [hseq'], ?_, ?_, fun n hn => ?_⟩
    · exact counts_of_follows hok ⟨by omega, by decide⟩ (by decide) hready State.enterHiccup_follows
    · simp [State.lawRuns, State.inHiccup, hprot, ProtState.hiccup]
    · refine State.enterHiccup_off (hready.ok hok) (hn ▸ State.phaseRail_congr ?_)
      exact hready.obj hok _ _ _ (by omega) (by decide) (by decide)
  · rw [if_pos (by omega)] at hexec
    have hfree' : (s.hicReady r).latchedOff r = false := by
      rw [← hfree, State.latchedOff, hrail, State.latchedOff]
    exact ⟨_, hexec, State.latchRail_off (by decide) hfree' ..⟩

/-! Crowbar (R220) -/

/-- The state in which a rail stands in a crowbar and is latched, before what that sets off. -/
def State.crowbarSet (s : State) (r : RailIx) : State :=
  (s.count Ob.clsRail r.val Ob.Rail.crowbars).modProt r fun p => { p with crowbar := true, latch := .crowbar }

/-- What follows from a crowbar leaves it in place, with its latch, and turns the rail OFF. -/
theorem State.crowbar_acts {s : State} {r : RailIx} (hfree : (s.rail r).prot.crowbar = false) (sub cmp : Nat) :
    Follows (s.crowbarSet r) (s.crowbar r sub cmp) ∧ (s.crowbar r sub cmp).latchedOff r = true ∧
      (s.crowbar r sub cmp).regulating r = false := by
  rw [State.crowbar, if_neg (by simp [hfree])]
  extract_lets due counted set lower freed was left
  have hset : set = s.crowbarSet r := rfl
  have hlatched : set.latchedOff r = true := State.latchedOff_iff.mpr (by simp [set])
  have hfreed : Follows lower freed ∧ LatchesStand lower freed := by
    refine ⟨rel_forEach .refl .trans (fun n _ s => (Follows.dropCarry s n).trans (.modPhase ..)) lower, ?_⟩
    refine rel_forEach .refl .trans (fun n _ s => ?_) lower
    exact (LatchesStand.of_same (State.dropCarry_same s n) (by decide)).trans (.of_rails rfl)
  have hbefore : LatchesStand set freed :=
    (LatchesStand.recordSnap set ..).trans ((LatchesStand.recordLower _ r).trans hfreed.2)
  have hleft : left.latchedOff r = true ∧ left.regulating r = false := by
    cases hwas : was
    · rw [show left = freed from if_neg (by simp [hwas])]
      exact ⟨hbefore.latch r hlatched, hwas⟩
    · rw [show left = freed.leaveRegulation r true from if_pos hwas]
      obtain ⟨hstands, hoff⟩ := State.leaveRegulation_off freed r true
      exact ⟨hstands r (hbefore.latch r hlatched), hoff⟩
  have hend : LatchesStand left (left.reportLatch r .crowbar was).refreshFlt :=
    (LatchesStand.reportLatch left r .crowbar was).trans (.refreshFlt _)
  refine ⟨?_, hend.latch r hleft.1, ?_⟩
  · have hleftFollows : Follows freed left := rel_ite (.leaveRegulation ..) (.refl freed)
    exact hset ▸ (Follows.recordSnap set ..).trans ((Follows.recordLower _ r).trans (hfreed.1.trans
      (hleftFollows.trans ((Follows.reportLatch left r .crowbar was).trans (.refreshFlt _)))))
  · rw [State.regulating, hend.rseq]
    exact hleft.2

theorem State.crowbar_stands {s : State} {r : RailIx} (hfree : (s.rail r).prot.crowbar = false) (sub cmp : Nat) :
    ((s.crowbar r sub cmp).rail r).prot.crowbar = true := by
  rw [(State.crowbar_acts hfree sub cmp).1.crowbar r, State.crowbarSet, State.modProt_eq, State.rail_modRail_self]

theorem State.obj_crowbar {s : State} {r : RailIx} (hok : StoreOk s.objs) (hfree : (s.rail r).prot.crowbar = false)
    (sub cmp : Nat) {c i k : Nat} (hi : i < 256) (hk : k < 256) (hside : (c, k) ∉ sideItems)
    (hother : c ≠ Ob.clsRail ∨ k ≠ Ob.Rail.crowbars) : (s.crowbar r sub cmp).obj c i k = s.obj c i k :=
  ((State.crowbar_acts hfree sub cmp).1.obj (Store.setVal_ok hok ..) c i k hi hk hside).trans
    (State.obj_setObj_ne hok _ _ _ _ _ _ _ (objKey_ne hi hk (by omega) (by decide) hother))

theorem State.crowbar_counts {s : State} {r : RailIx} (hok : StoreOk s.objs) (hfree : (s.rail r).prot.crowbar = false)
    (sub cmp : Nat) : Counts s (s.crowbar r sub cmp) Ob.clsRail r.val Ob.Rail.crowbars :=
  ((State.crowbar_acts hfree sub cmp).1.obj (Store.setVal_ok hok ..) _ _ _ (by omega) (by decide) (by decide)).trans
    (State.obj_setObj_self hok ..)

end Sys2Proof.Machine
end

section
/-! The commands of rail levels and of hiccup (10 R219, R220, R223, R224). -/

namespace Sys2Proof.Machine

/-- An over-voltage fault that is counted, before what it does (R220). -/
def State.ovCounted (s : State) (r : RailIx) : State :=
  (s.crossed r fun p => { p with ovf := true, ovfRun := 0 }).count Ob.clsRail r.val Ob.Rail.ovFaultCnt

section
variable {s : State} {r : RailIx}

theorem uvFaultCrossing_reports (hok : StoreOk s.objs) (hrun : s.framesRun = true) (hreg : s.regulating r = true)
    (hpending : s.uvPending r = true) (hoff : bit (s.obj Ob.clsRail r.val Ob.Rail.protCtrl) 0 = false) :
    Completes (.uvFaultCrossing r) s fun t =>
      (t.rail r).prot = { (s.rail r).prot with uvf := true, uvfRun := 0 } ∧ Counts s t Ob.clsRail r.val Ob.Rail.uvFaultCnt ∧
        Logs s t Code.railUvFault Ob.clsRail r.val 0 (s.levelData r) ∧ t.phases = s.phases ∧ RailsBut r s t := by
  refine ⟨s.uvFaultReport r, ?_, s.crossed_reports hok r (fun p => { p with uvf := true, uvfRun := 0 }) (by decide) _ rfl⟩
  show execUvFaultCrossing r s = _
  simp [execUvFaultCrossing, hrun, hreg, hpending, hoff]

theorem uvFaultCrossing_hiccups (hrun : s.framesRun = true) (hreg : s.regulating r = true)
    (hpending : s.uvPending r = true) (hon : bit (s.obj Ob.clsRail r.val Ob.Rail.protCtrl) 0 = true) :
    exec (.uvFaultCrossing r) s = .next (s.hiccupRail r) := by
  show execUvFaultCrossing r s = _
  simp [execUvFaultCrossing, hrun, hreg, hpending, hon]

theorem State.ovCounted_follows : Follows s (s.ovCounted r) := by
  let crossed : State := s.crossed r fun p => { p with ovf := true, ovfRun := 0 }
  have hcrossed : Follows s crossed := (Follows.abortTuneOn s r 4).trans (.modRail _ r fun _ => rfl)
  have hcounted : Follows crossed (crossed.count Ob.clsRail r.val Ob.Rail.ovFaultCnt) :=
    .count ⟨by omega, by decide⟩ (by decide) crossed
  exact hcrossed.trans hcounted

/-- What an over-voltage fault does after its count is as PROT_CTRL.OVF_EN says (R220). -/
theorem ovFaultCrossing_exec (hok : StoreOk s.objs) (hrun : s.framesRun = true) (hreg : s.regulating r = true)
    (hfree : (s.rail r).prot.ovf = false) (hqual : s.levelQual r .ovFault ≤ (s.rail r).prot.ovfRun) :
    exec (.ovFaultCrossing r) s = .next (if bit (s.obj Ob.clsRail r.val Ob.Rail.protCtrl) 1 then
      (s.ovCounted r).crowbar r 0 255
    else (s.ovCounted r).record Code.railOvFault Ob.clsRail r.val 0 ((s.ovCounted r).levelData r)) := by
  rw [← State.ovCounted_follows.obj hok _ _ _ (by omega) (by decide) (by decide)]
  show execOvFaultCrossing r s = _
  rw [execOvFaultCrossing, if_pos (by simp [hrun, hreg, hfree, hqual])]
  rfl

section
variable (hok : StoreOk s.objs) (hrun : s.framesRun = true) (hreg : s.regulating r = true)
  (hfree : (s.rail r).prot.ovf = false) (hqual : s.levelQual r .ovFault ≤ (s.rail r).prot.ovfRun)
include hok hrun hreg hfree hqual

theorem ovFaultCrossing_reports (hoff : bit (s.obj Ob.clsRail r.val Ob.Rail.protCtrl) 1 = false) :
    Completes (.ovFaultCrossing r) s fun t =>
      (t.rail r).prot = { (s.rail r).prot with ovf := true, ovfRun := 0 } ∧ Counts s t Ob.clsRail r.val Ob.Rail.ovFaultCnt ∧
        Logs s t Code.railOvFault Ob.clsRail r.val 0 (s.levelData r) ∧ t.phases = s.phases ∧ RailsBut r s t := by
  have hexec := ovFaultCrossing_exec hok hrun hreg hfree hqual
  rw [if_neg (by simp [hoff])] at hexec
  exact ⟨_, hexec, s.crossed_reports hok r (fun p => { p with ovf := true, ovfRun := 0 }) (by decide) _ rfl⟩

theorem ovFaultCrossing_crowbars (hon : bit (s.obj Ob.clsRail r.val Ob.Rail.protCtrl) 1 = true)
    (hnone : (s.rail r).prot.crowbar = false) :
    Completes (.ovFaultCrossing r) s fun t => (t.rail r).prot.crowbar = true ∧ t.latchedOff r = true ∧
      t.regulating r = false ∧ Counts s t Ob.clsRail r.val Ob.Rail.crowbars := by
  have hexec := ovFaultCrossing_exec hok hrun hreg hfree hqual
  rw [if_pos hon] at hexec
  have hcounted : Follows s (s.ovCounted r) := State.ovCounted_follows
  have hnone' : ((s.ovCounted r).rail r).prot.crowbar = false := (hcounted.crowbar r).trans hnone
  have hobj : (s.ovCounted r).obj Ob.clsRail r.val Ob.Rail.crowbars = s.obj Ob.clsRail r.val Ob.Rail.crowbars :=
    hcounted.obj hok _ _ _ (by omega) (by decide) (by decide)
  have hcounts := State.crowbar_counts (hcounted.ok hok) hnone' 0 255
  rw [Counts, hobj] at hcounts
  obtain ⟨-, hlatched, hoff⟩ := State.crowbar_acts hnone' 0 255
  exact ⟨_, hexec, State.crowbar_stands hnone' 0 255, hlatched, hoff, hcounts⟩

end

theorem hiccup_exec (hrun : s.framesRun = true) (hreg : s.regulating r = true)
    (hlong : s.railN r.val Ob.Rail.hicN ≤ (s.rail r).prot.limRun) : exec (.hiccup r) s = .next (s.hiccupRail r) := by
  show execHiccup r s = _
  simp [execHiccup, hrun, hreg, hlong]

theorem hiccupRestart_restarts (hrun : s.framesRun = true) {e : Nat} (hend : (s.rail r).prot.hicEnd = some e) (hover : e ≤ s.now) :
    Completes (.hiccupRestart r) s fun t =>
      (t.rail r).prot.hicEnd = none ∧ RailsBut r s t ∧ SameBut [.phases, .rails] s t ∧
        ((s.rail r).seq.rseq = .ramp ∨ (s.rail r).seq.rseq = .on → s.heldOff r = false →
          (t.rail r).prof.softStart = true ∧ (t.rail r).law.regime = .linear ∧ t.lawRuns r = true) ∧
        (s.heldOff r = true → (t.rail r).prof = (s.rail r).prof ∧ t.phases = s.phases) := by
  let ended : State := s.modProt r fun p => { p with hicEnd := none }
  have hexec : exec (.hiccupRestart r) s = .next (ended.restart r) := by
    show execHiccupRestart r s = _
    simp only [execHiccupRestart, hend]
    rw [if_pos (by simp [hrun, hover])]
  have hrail : ended.rail r = { s.rail r with prot := { (s.rail r).prot with hicEnd := none } } := State.rail_modRail_self s r _
  have hheld : ended.heldOff r = s.heldOff r := State.heldOff_congr (by rw [hrail]) (by rw [hrail]) (by rw [hrail])
  have hrestart := ended.restarted_restart r
  refine ⟨_, hexec, hrestart.hicEnd (by rw [hrail]), fun q hq => ?_, ?_, fun hseq hfree => ?_, fun hhold => ?_⟩
  · exact (hrestart.others q hq).trans (State.railsBut_modRail s r _ q hq)
  · exact same_step (same_mono (State.modProt_same s r _) (by decide)) hrestart.same fun _ h => h
  · exact hrestart.runs (by rwa [hrail]) (by rw [hrail]) (hheld.trans hfree)
  · rw [hrestart.waits (hheld.trans hhold), hrail]
    exact ⟨rfl, rfl⟩

theorem hicRunReset_clears (hclean : sFrames 60 ≤ (s.rail r).prot.hicClean) (hsome : (s.rail r).prot.hicRun ≠ 0) :
    Completes (.hicRunReset r) s fun t =>
      t.rail r = { s.rail r with prot := { (s.rail r).prot with hicRun := 0, hicClean := 0 } } ∧ RailsBut r s t ∧
        SameBut [.rails] s t := by
  refine completes_modRail (f := fun x => { x with prot := { x.prot with hicRun := 0, hicClean := 0 } }) ?_
  show execHicRunReset r s = _
  rw [execHicRunReset, if_pos ⟨hclean, hsome⟩]
  rfl

end

/-- Settles O50: a fault level that only reports is `State.crossed_reports`; every hiccup is `hiccups_of_exec`, whichever
cause it has, a crowbar is `State.crowbar_acts`, and the restart is `State.restarted_restart`. -/
theorem levelsAndHiccup : Obligations.LevelsAndHiccup := fun _ _ hs hrun =>
  ⟨fun hreg hpending => ⟨uvFaultCrossing_reports hs.store hrun hreg hpending, fun hon =>
      hiccups_of_exec hs.store (uvFaultCrossing_hiccups hrun hreg hpending hon)⟩,
    fun hreg hfree hqual => ⟨ovFaultCrossing_reports hs.store hrun hreg hfree hqual,
      ovFaultCrossing_crowbars hs.store hrun hreg hfree hqual⟩,
    ⟨levelCrossingEnd_ends hrun .uvFault, levelCrossingEnd_ends hrun .ovFault⟩,
    fun hreg hlong => hiccups_of_exec hs.store (hiccup_exec hrun hreg hlong),
    fun _ => hiccupRestart_restarts hrun, hicRunReset_clears⟩

end Sys2Proof.Machine
end

section
/-! Input and temperature holds (10 R226, R229): how a hold begins and how it ends. -/

namespace Sys2Proof.Machine

theorem any_toList_iff {α : Type} {n : Nat} {v : Vector α n} {p : α → Bool} :
    v.toList.any p = true ↔ ∃ i, p (v.get i) = true := by
  simp only [List.any_eq_true, Vector.mem_toList_iff, Vector.mem_iff_getElem, Vector.get_eq_getElem]
  constructor
  · rintro ⟨_, ⟨i, hi, rfl⟩, hp⟩
    exact ⟨⟨i, hi⟩, hp⟩
  · rintro ⟨i, hp⟩
    exact ⟨_, ⟨i.val, i.isLt, rfl⟩, hp⟩

theorem State.lawRuns_of_heldOff {s : State} {r : RailIx} (h : s.heldOff r = true) : s.lawRuns r = false := by
  simp [State.lawRuns, h]

/-! Input limits (R226) -/

/-- A limit of the input that holds a rail: its phases are Disabled, and the event is recorded. -/
theorem completes_inputHold {c : Instr} {s : State} {r : RailIx} {f : ProtState → ProtState} {code : Nat} {data : List Byte}
    (hok : StoreOk s.objs) (hheld : ∀ p, ((f p).inuv || (f p).inov) = true)
    (hexec : exec c s = .next (((s.disablePhases r).modProt r f).record code Ob.clsRail r.val 0 data)) :
    Completes c s fun t => (t.rail r).prot = f (s.rail r).prot ∧ t.heldOff r = true ∧ t.lawRuns r = false ∧
      (t.rail r).seq = (s.rail r).seq ∧ Logs s t code Ob.clsRail r.val 0 data ∧ RailsBut r s t ∧
      SameBut [.objs, .phases, .rails, .twin, .recd, .nvm] s t ∧
      ∀ n, s.phaseRail n = some r → (t.phase n).gen.switching = false ∧ (t.phase n).gen.te = 0 := by
  let off : State := s.disablePhases r
  let held : State := off.modProt r f
  let t : State := held.record code Ob.clsRail r.val 0 data
  have hsame : SameBut [.objs, .phases, .rails] s held :=
    same_step (s.disablePhases_same r) (State.modProt_same off r f) (by decide)
  have hplc := s.disablePhases_plcOnly r
  have hrail : t.rail r = { off.rail r with prot := f (s.rail r).prot } :=
    (State.rail_record held ..).trans ((State.rail_modRail_self off r _).trans (by rw [← hplc.prot_eq r]))
  have hhold : t.heldOff r = true := by
    simp [State.heldOff, hrail, hheld]
  refine ⟨t, hexec, by rw [hrail], hhold, State.lawRuns_of_heldOff hhold, by rw [hrail, ← hplc.seq_eq r], ?_,
    fun q hq => ?_, ?_, fun n hn => ?_⟩
  · exact logs_record held (hsame.same .recd (by decide)) (hsame.same .nvm (by decide)) ..
  · have hothers : held.rail q = off.rail q := State.railsBut_modRail off r _ q hq
    exact (State.rail_record held ..).trans (hothers.trans (s.disablePhases_railsBut r q hq))
  · exact same_step (same_mono hsame (by decide)) (State.record_same held ..) (by decide)
  · simpa only [t, held, GenOff, State.phase_record, State.modProt_eq, State.phase_modRail] using State.disablePhases_off hok r hn

section
variable {s : State} {r : RailIx} (hrun : s.framesRun = true)
include hrun

theorem inputUv_holds (hok : StoreOk s.objs) (hfree : (s.rail r).prot.inuv = false) (hlong : 64 ≤ (s.rail r).prot.inuvRun) :
    Completes (.inputUv r) s fun t => (t.rail r).prot.inuv = true ∧ t.heldOff r = true ∧ t.lawRuns r = false ∧
      (t.rail r).seq = (s.rail r).seq ∧ Logs s t Code.inputUv Ob.clsRail r.val 0 (leBytes 4 s.feeds.vbus) ∧ RailsBut r s t ∧
      SameBut [.objs, .phases, .rails, .twin, .recd, .nvm] s t ∧
      ∀ n, s.phaseRail n = some r → (t.phase n).gen.switching = false ∧ (t.phase n).gen.te = 0 := by
  refine completes_mono (completes_inputHold (f := fun p => { p with inuv := true, inGoodSince := none }) hok (fun _ => rfl) ?_)
    fun t ⟨hprot, hrest⟩ => ⟨by rw [hprot], hrest⟩
  show execInputUv r s = _
  rw [execInputUv, if_pos (by simp [hrun, hfree, hlong])]

theorem inputOv_holds (hok : StoreOk s.objs) (hfree : (s.rail r).prot.inov = false) (hlong : 2 ≤ (s.rail r).prot.inovRun) :
    Completes (.inputOv r) s fun t => (t.rail r).prot.inov = true ∧ t.heldOff r = true ∧ t.lawRuns r = false ∧
      (t.rail r).seq = (s.rail r).seq ∧ Logs s t Code.inputOv Ob.clsRail r.val 0 (leBytes 4 s.feeds.vbus) ∧ RailsBut r s t ∧
      SameBut [.objs, .phases, .rails, .twin, .recd, .nvm] s t ∧
      ∀ n, s.phaseRail n = some r → (t.phase n).gen.switching = false ∧ (t.phase n).gen.te = 0 := by
  refine completes_mono (completes_inputHold (f := fun p => { p with inov := true, inGoodSince := none }) hok
    (fun _ => Bool.or_true _) ?_) fun t ⟨hprot, hrest⟩ => ⟨by rw [hprot], hrest⟩
  show execInputOv r s = _
  rw [execInputOv, if_pos (by simp [hrun, hfree, hlong])]

theorem inputHoldEnd_frees {g : Nat} (hgood : (s.rail r).prot.inGoodSince = some g)
    (hlate : elapsed s.now g (msFrames 10) = true) : Completes (.inputHoldEnd r) s fun t =>
      (t.rail r).prot.inuv = false ∧ (t.rail r).prot.inov = false ∧ (t.rail r).prot.thold = (s.rail r).prot.thold ∧
        ((s.rail r).seq.rseq = .ramp ∨ (s.rail r).seq.rseq = .on → (s.rail r).prot.hicEnd = none → t.heldOff r = false →
          (t.rail r).prof.softStart = true ∧ t.lawRuns r = true) ∧
        RailsBut r s t ∧ SameBut [.phases, .rails] s t := by
  let ended : State := s.modProt r fun p => { p with inuv := false, inov := false, inGoodSince := none }
  have hexec : exec (.inputHoldEnd r) s = .next (ended.restart r) := by
    show execInputHoldEnd r s = _
    simp only [execInputHoldEnd, hgood]
    rw [if_pos (by simp [hrun, hlate])]
  have hrail : ended.rail r = { s.rail r with prot := { (s.rail r).prot with inuv := false, inov := false, inGoodSince := none } } :=
    State.rail_modRail_self s r _
  have hrestart := ended.restarted_restart r
  refine ⟨_, hexec, hrestart.inuv.trans (by rw [hrail]), hrestart.inov.trans (by rw [hrail]), hrestart.thold.trans (by rw [hrail]),
    fun hseq hend hfree => hrestart.free (by rw [hrail]; exact hseq) (by rw [hrail]; exact hend) hfree, fun q hq => ?_, ?_⟩
  · exact (hrestart.others q hq).trans (State.railsBut_modRail s r _ q hq)
  · exact same_step (same_mono (State.modProt_same s r _) (by decide)) hrestart.same fun _ h => h

end

/-! The ends of temperature actions (R229) -/

theorem State.temp_forEach_modTemp {f : TempState → TempState} {l : List TempIx} (hl : l.Nodup) (s : State) (j : TempIx) :
    (forEach l (fun s i => s.modTemp i f) s).temp j = if j ∈ l then f (s.temp j) else s.temp j := by
  induction l generalizing s with
  | nil => rfl
  | cons i l ih =>
    obtain ⟨hi, hl⟩ := List.nodup_cons.mp hl
    have hstep : forEach (i :: l) (fun s i => s.modTemp i f) s = forEach l (fun s i => s.modTemp i f) (s.modTemp i f) := rfl
    rw [hstep, ih hl, State.temp_modTemp]
    by_cases hj : j = i
    · subst hj
      simp [hi]
    · simp [hj]

theorem State.forEach_modTemp_same (f : TempState → TempState) (l : List TempIx) (s : State) :
    SameBut [.temps] s (forEach l (fun s i => s.modTemp i f) s) :=
  same_forEach (same_refl ..) fun s i => State.modTemp_same s i f

/-- The sensors that a predicate names. -/
theorem State.mem_tempsThat {p : TempIx → Bool} {i : TempIx} : i ∈ allTemps.filter p ↔ p i = true := by
  simp [allTemps]

theorem State.nodup_tempsThat (p : TempIx → Bool) : (allTemps.filter p).Nodup := List.Nodup.filter _ (List.nodup_finRange 28)

section
variable {s : State} (hrun : s.framesRun = true)
include hrun

theorem tempStopClear_frees {r : RailIx} (hstopped : (s.rail r).prot.thold = true)
    (hcool : ∀ i, (s.temp i).stops.contains r.val = true →
      ∃ b, (s.temp i).belowAt = some b ∧ elapsed s.now b (sFrames 1) = true) :
    Completes (.tempStopClear r) s fun t => (t.rail r).prot.thold = false ∧
      ((s.rail r).seq.rseq = .ramp ∨ (s.rail r).seq.rseq = .on → (s.rail r).prot.hicEnd = none → t.heldOff r = false →
        (t.rail r).prof.softStart = true ∧ t.lawRuns r = true) ∧ RailsBut r s t ∧
      (∀ i, (t.temp i).stops = (s.temp i).stops.filter fun k => k != r.val) ∧ SameBut [.phases, .rails, .temps] s t := by
  let causing : List TempIx := allTemps.filter fun i => (s.temp i).stops.contains r.val
  let release (x : TempState) : TempState := { x with stops := x.stops.filter fun k => k != r.val }
  let released : State := forEach causing (fun s i => s.modTemp i release) s
  let ended : State := released.modProt r fun p => { p with thold := false }
  have hexec : exec (.tempStopClear r) s = .next (ended.restart r) := by
    show execTempStopClear r s = _
    rw [execTempStopClear, if_pos]
    simp only [hrun, hstopped, Bool.true_and, List.all_eq_true]
    intro i hi
    obtain ⟨b, hbelow, hlate⟩ := hcool i (State.mem_tempsThat.mp hi)
    simp [hbelow, hlate]
  have hreleased : SameBut [.temps] s released := State.forEach_modTemp_same ..
  have hrails : ∀ q, released.rail q = s.rail q := fun q => congrArg (Vector.get · q) (hreleased.same .rails (by decide))
  have hrail : ended.rail r = { s.rail r with prot := { (s.rail r).prot with thold := false } } := by
    rw [← hrails]
    exact State.rail_modRail_self released r _
  have hrestart := ended.restarted_restart r
  have htemps : ∀ i, (ended.restart r).temp i = released.temp i := fun i =>
    congrArg (Vector.get · i) (hrestart.same.same .temps (by decide))
  refine ⟨_, hexec, hrestart.thold.trans (by rw [hrail]), fun hseq hend hfree =>
    hrestart.free (by rw [hrail]; exact hseq) (by rw [hrail]; exact hend) hfree, fun q hq => ?_, fun i => ?_, ?_⟩
  · exact (hrestart.others q hq).trans ((State.railsBut_modRail released r _ q hq).trans (hrails q))
  · rw [htemps, State.temp_forEach_modTemp (State.nodup_tempsThat _)]
    split
    · rfl
    next hno =>
      have hnone : r.val ∉ (s.temp i).stops := fun hin => hno (State.mem_tempsThat.mpr (by simpa using hin))
      exact (List.filter_eq_self.mpr fun k hk => bne_iff_ne.mpr fun heq : k = r.val => hnone (heq ▸ hk)).symm
  · exact same_step (same_step (same_mono hreleased (by decide)) (State.modProt_same released r _) (by decide))
      hrestart.same (by decide)

theorem tempDeviceClear_frees (hsome : s.temps.toList.any (·.device) = true)
    (hcool : ∀ i, (s.temp i).device = true → ∃ b, (s.temp i).belowAt = some b ∧ elapsed s.now b (sFrames 10) = true) :
    Completes .tempDeviceClear s fun t => (∀ i, (t.temp i).device = false) ∧
      SameBut [.objs, .rails, .domains, .temps, .mb, .dev] s t := by
  let causing : List TempIx := allTemps.filter fun i => (s.temp i).device
  let released : State := forEach causing (fun s i => s.modTemp i fun x => { x with device := false }) s
  have hexec : exec .tempDeviceClear s = .next released.startStanding.refreshFlt := by
    show execTempDeviceClear s = _
    rw [execTempDeviceClear, if_pos]
    obtain ⟨j, hj⟩ := any_toList_iff.mp hsome
    have hmem : j ∈ causing := State.mem_tempsThat.mpr hj
    simp only [hrun, Bool.true_and, Bool.and_eq_true, Bool.not_eq_true', List.isEmpty_eq_false_iff, List.all_eq_true]
    refine ⟨List.ne_nil_of_mem hmem, fun i hi => ?_⟩
    obtain ⟨b, hbelow, hlate⟩ := hcool i (State.mem_tempsThat.mp hi)
    simp [hbelow, hlate]
  have hreleased : SameBut [.temps] s released := State.forEach_modTemp_same ..
  have hstarted : SameBut [.objs, .rails, .domains, .mb, .dev] released released.startStanding.refreshFlt :=
    same_step (State.startStanding_same released) (State.refreshFlt_same _) (by decide)
  have htemps : ∀ i, released.startStanding.refreshFlt.temp i = released.temp i := fun i =>
    congrArg (Vector.get · i) (hstarted.same .temps (by decide))
  refine ⟨_, hexec, fun i => ?_, same_step (same_mono hreleased (by decide)) hstarted (by decide)⟩
  rw [htemps, State.temp_forEach_modTemp (State.nodup_tempsThat _)]
  split
  · rfl
  next hno => exact Bool.eq_false_iff.mpr fun hdevice => hno (State.mem_tempsThat.mpr hdevice)

end

end Sys2Proof.Machine
end

section
/-! Temperatures (10 R227 to R229): a reading, and what a fault level does. -/

namespace Sys2Proof.Machine

/-! What leaves the reading of a sensor -/

/-- From s to t no other sensor changes, and this one keeps its value and its state of failure and of fault. -/
structure ReadingStands (i : TempIx) (s t : State) : Prop where
  others : TempsBut i s t
  value : (t.temp i).value = (s.temp i).value
  fail : (t.temp i).fail = (s.temp i).fail
  fault : (t.temp i).fault = (s.temp i).fault

theorem State.tempsBut_modTemp (s : State) (i : TempIx) (f : TempState → TempState) : TempsBut i s (s.modTemp i f) :=
  fun _ hj => (State.temp_modTemp ..).trans (if_neg hj)

theorem State.temp_modTemp_self (s : State) (i : TempIx) (f : TempState → TempState) :
    (s.modTemp i f).temp i = f (s.temp i) := (State.temp_modTemp ..).trans (if_pos rfl)

namespace ReadingStands

variable {i : TempIx}

theorem trans {a b c : State} (h : ReadingStands i a b) (h' : ReadingStands i b c) : ReadingStands i a c :=
  ⟨fun j hj => (h'.others j hj).trans (h.others j hj), h'.value.trans h.value, h'.fail.trans h.fail, h'.fault.trans h.fault⟩

theorem of_same {ps : List Area} {s t : State} (h : SameBut ps s t) (hps : Area.temps ∉ ps) : ReadingStands i s t := by
  have htemp : ∀ j, t.temp j = s.temp j := fun j => congrArg (Vector.get · j) (h.same .temps hps)
  exact ⟨fun j _ => htemp j, by rw [htemp], by rw [htemp], by rw [htemp]⟩

theorem refl (s : State) : ReadingStands i s s := of_same (same_refl [] s) (by decide)

theorem modTemp (s : State) {f : TempState → TempState} (hvalue : ∀ x, (f x).value = x.value) (hfail : ∀ x, (f x).fail = x.fail)
    (hfault : ∀ x, (f x).fault = x.fault) : ReadingStands i s (s.modTemp i f) :=
  ⟨s.tempsBut_modTemp i f, by rw [State.temp_modTemp_self, hvalue], by rw [State.temp_modTemp_self, hfail],
    by rw [State.temp_modTemp_self, hfault]⟩

theorem tempMean (s : State) (v : Int) : ReadingStands i s (s.tempMean i v) := by
  unfold State.tempMean
  extract_lets x summed
  have hsummed : ReadingStands i s summed := modTemp s (fun _ => rfl) (fun _ => rfl) fun _ => rfl
  exact rel_ite (hsummed.trans (modTemp summed (fun _ => rfl) (fun _ => rfl) fun _ => rfl)) hsummed

end ReadingStands

/-! The action of a fault (R229) -/

/-- What comes before the action itself: the record, and the sensor's part. -/
def State.faultRecorded (s : State) (i : TempIx) (sub : Nat) : State :=
  s.record Code.tempFault Ob.clsTemp i.val sub (leBytes 2 (intWord (s.temp i).value).toNat)

/-- A rail is stopped by a sensor. -/
def State.stopRail (s : State) (r : RailIx) : State := (s.disablePhases r).modProt r fun p => { p with thold := true }

/-- A sensor stops rails: it is marked as the cause. -/
def TempState.stopping (x : TempState) (rs : List RailIx) : TempState :=
  { x with stops := x.stops ++ (rs.map (·.val)).filter fun k => !x.stops.contains k }

section
variable {s : State} {i : TempIx} {sub : Nat}

theorem State.tempAct_stop (hmode : bits (s.obj Ob.clsTemp i.val Ob.Temp.ctrl) 2 1 = 1) : s.tempAct i sub =
    forEach (s.tempRails i) State.stopRail ((s.faultRecorded i sub).modTemp i fun x => x.stopping (s.tempRails i)) := by
  rw [State.tempAct, hmode]
  rfl

theorem State.tempAct_latch (hmode : bits (s.obj Ob.clsTemp i.val Ob.Temp.ctrl) 2 1 = 2) : s.tempAct i sub =
    s.latchRails (s.tempRails i) .overtemp Code.tempFault Ob.clsTemp i.val sub
      (leBytes 2 (intWord (s.temp i).value).toNat) := by
  rw [State.tempAct, hmode]
  rfl

theorem State.tempAct_device (hmode : bits (s.obj Ob.clsTemp i.val Ob.Temp.ctrl) 2 1 = 3) : s.tempAct i sub =
    ((s.faultRecorded i sub).modTemp i fun x => { x with device := true }).powerDownAll.refreshFlt := by
  rw [State.tempAct, hmode]
  rfl

theorem State.tempAct_record (hstop : bits (s.obj Ob.clsTemp i.val Ob.Temp.ctrl) 2 1 ≠ 1)
    (hlatch : bits (s.obj Ob.clsTemp i.val Ob.Temp.ctrl) 2 1 ≠ 2) (hdevice : bits (s.obj Ob.clsTemp i.val Ob.Temp.ctrl) 2 1 ≠ 3) :
    s.tempAct i sub = s.faultRecorded i sub := by
  unfold State.tempAct
  extract_lets
  split
  next h => exact absurd h hstop
  next h => exact absurd h hlatch
  next h => exact absurd h hdevice
  · rfl

/-- The four actions of a fault (R229), for a relation that each of them keeps. -/
theorem State.rel_tempAct {R : State → State → Prop}
    (hstop : R s (forEach (s.tempRails i) State.stopRail ((s.faultRecorded i sub).modTemp i fun x => x.stopping (s.tempRails i))))
    (hlatch : R s (s.latchRails (s.tempRails i) .overtemp Code.tempFault Ob.clsTemp i.val sub
      (leBytes 2 (intWord (s.temp i).value).toNat)))
    (hdevice : R s ((s.faultRecorded i sub).modTemp i fun x => { x with device := true }).powerDownAll.refreshFlt)
    (hrecord : R s (s.faultRecorded i sub)) : R s (s.tempAct i sub) := by
  by_cases h1 : bits (s.obj Ob.clsTemp i.val Ob.Temp.ctrl) 2 1 = 1
  · exact State.tempAct_stop h1 ▸ hstop
  by_cases h2 : bits (s.obj Ob.clsTemp i.val Ob.Temp.ctrl) 2 1 = 2
  · exact State.tempAct_latch h2 ▸ hlatch
  by_cases h3 : bits (s.obj Ob.clsTemp i.val Ob.Temp.ctrl) 2 1 = 3
  · exact State.tempAct_device h3 ▸ hdevice
  · exact State.tempAct_record h1 h2 h3 ▸ hrecord

theorem State.faultRecorded_same : SameBut [.objs, .rails, .twin, .recd, .nvm] s (s.faultRecorded i sub) := State.record_same ..

theorem State.stopRail_same (s : State) (r : RailIx) : SameBut [.objs, .phases, .rails] s (s.stopRail r) :=
  same_step (State.disablePhases_same s r) (State.modProt_same ..) (by decide)

theorem ReadingStands.tempAct : ReadingStands i s (s.tempAct i sub) := by
  let recorded : State := s.faultRecorded i sub
  have hrecorded : ReadingStands i s recorded := of_same State.faultRecorded_same (by decide)
  refine State.rel_tempAct ?_ (of_same (State.latchRails_same ..) (by decide)) ?_ hrecorded
  · have hstopped : SameBut [.objs, .phases, .rails] (recorded.modTemp i fun x => x.stopping (s.tempRails i))
        (forEach (s.tempRails i) State.stopRail (recorded.modTemp i fun x => x.stopping (s.tempRails i))) :=
      same_forEach (same_refl ..) State.stopRail_same
    have hmarked : ReadingStands i recorded (recorded.modTemp i fun x => x.stopping (s.tempRails i)) :=
      modTemp recorded (fun _ => rfl) (fun _ => rfl) fun _ => rfl
    exact hrecorded.trans (hmarked.trans (of_same hstopped (by decide)))
  · have hmarked : ReadingStands i recorded (recorded.modTemp i fun x => { x with device := true }) :=
      modTemp recorded (fun _ => rfl) (fun _ => rfl) fun _ => rfl
    exact hrecorded.trans (hmarked.trans ((of_same (State.powerDownAll_same _) (by decide)).trans
      (of_same (State.refreshFlt_same _) (by decide))))

theorem Follows.stopRail (s : State) (r : RailIx) : Follows s (s.stopRail r) :=
  (Follows.disablePhases s r).trans (.modRail _ r fun _ => rfl)

theorem Follows.tempAct : Follows s (s.tempAct i sub) := by
  have hrecorded : Follows s (s.faultRecorded i sub) := .record s ..
  have hmarked : ∀ f, Follows (s.faultRecorded i sub) ((s.faultRecorded i sub).modTemp i f) := fun _ => .of_eq rfl rfl
  refine State.rel_tempAct ?_ (.latchRails ..) ?_ hrecorded
  · exact hrecorded.trans ((hmarked _).trans (rel_forEach .refl .trans (fun r _ s => .stopRail s r) _))
  · exact hrecorded.trans ((hmarked _).trans ((Follows.powerDownAll _).trans (.refreshFlt _)))

/-- A sensor that stops rails holds each of them, and is marked as the cause. -/
theorem State.tempAct_stops (hmode : bits (s.obj Ob.clsTemp i.val Ob.Temp.ctrl) 2 1 = 1) : ∀ r ∈ s.tempRails i,
    ((s.tempAct i sub).rail r).prot.thold = true ∧ ((s.tempAct i sub).temp i).stops.contains r.val = true := by
  intro r hr
  let marked : State := (s.faultRecorded i sub).modTemp i fun x => x.stopping (s.tempRails i)
  have hstopped : SameBut [.objs, .phases, .rails] marked (forEach (s.tempRails i) State.stopRail marked) :=
    same_forEach (same_refl ..) State.stopRail_same
  have hthold : ∀ (u : State) (q p : RailIx), ((u.stopRail q).rail p).prot.thold =
      if p = q then true else (u.rail p).prot.thold := by
    intro u q p
    rw [State.stopRail, State.modProt_eq, State.rail_modRail]
    split
    · rfl
    · exact congrArg ProtState.thold ((u.disablePhases_plcOnly q).prot_eq p)
  obtain ⟨a, -, hend⟩ := forEach_reaches (R := fun a b => (a.rail r).prot.thold = true → (b.rail r).prot.thold = true)
    (fun _ => id) (fun h h' => h' ∘ h) (fun q _ u hu => by rw [hthold, hu, ite_self]) hr marked
  have hstops : ((forEach (s.tempRails i) State.stopRail marked).temp i).stops = (marked.temp i).stops :=
    congrArg (fun v => (Vector.get v i).stops) (hstopped.same .temps (by decide))
  rw [State.tempAct_stop hmode]
  refine ⟨hend (by rw [hthold, if_pos rfl]), ?_⟩
  rw [hstops, State.temp_modTemp_self, TempState.stopping]
  by_cases hin : r.val ∈ ((s.faultRecorded i sub).temp i).stops
  · simp [hin]
  · have hmem : r.val ∈ (s.tempRails i).map (·.val) := List.mem_map_of_mem hr
    simpa [hin] using hmem

theorem State.afterLatch_latches {s : State} {r q : RailIx} (cause : Latch) (h : s.latchedOff q = true) :
    (s.afterLatch r cause).latchedOff q = true := by
  unfold State.afterLatch
  extract_lets lower was left
  have hlower : lower.latchedOff q = true := (LatchesStand.recordLower s r).latch q h
  have hleft : left.latchedOff q = true := by
    unfold left
    split
    · exact (State.leaveRegulation_off lower r false).1 q hlower
    · exact hlower
  exact ((LatchesStand.reportLatch left r cause was).trans (.refreshFlt _)).latch q hleft

/-- One event that latches rails off latches every one of them (R229). -/
theorem State.latchRails_latches (s : State) {rs : List RailIx} {cause : Latch} (hcause : cause ≠ .none) {r : RailIx} (hr : r ∈ rs)
    (code cls inst sub : Nat) (data : List Byte) :
    (s.latchRails rs cause code cls inst sub data).latchedOff r = true := by
  unfold State.latchRails
  extract_lets fresh latched recorded
  have hset : ∀ (u : State) (q : RailIx), LatchesStand u (u.modProt q fun p => { p with latch := cause }) := fun u q =>
    .modRail u q (fun _ _ => hcause) fun _ => rfl
  have hlatched : latched.latchedOff r = true := by
    by_cases hfree : s.latchedOff r = true
    · exact (rel_forEach .refl .trans (fun q _ u => hset u q) s : LatchesStand s latched).latch r hfree
    · have hmem : r ∈ fresh := List.mem_filter.mpr ⟨hr, by simpa using hfree⟩
      obtain ⟨a, -, hend⟩ := forEach_reaches .refl .trans (fun q _ u => hset u q) hmem s
      exact hend.latch r (State.latchedOff_iff.mpr (by simpa using hcause))
  have hrecorded : recorded.latchedOff r = true :=
    (LatchesStand.eventRel.event (fun _ _ u n => .takeSnap u n ..) latched).latch r hlatched
  exact rel_forEach (R := fun a b => a.latchedOff r = true → b.latchedOff r = true) (fun _ => id) (fun h h' => h' ∘ h)
    (fun q _ u => State.afterLatch_latches cause) recorded hrecorded

theorem State.tempAct_latches (hmode : bits (s.obj Ob.clsTemp i.val Ob.Temp.ctrl) 2 1 = 2) : ∀ r ∈ s.tempRails i,
    (s.tempAct i sub).latchedOff r = true := fun r hr => by
  rw [State.tempAct_latch hmode]
  exact State.latchRails_latches s (by decide) hr ..

theorem State.deviceHold_of_temp {s : State} {i : TempIx} (h : (s.temp i).device = true) : s.deviceHold = true := by
  have hany : s.temps.toList.any (·.device) = true := any_toList_iff.mpr ⟨i, h⟩
  simp [State.deviceHold, hany]

theorem State.tempAct_holds (hmode : bits (s.obj Ob.clsTemp i.val Ob.Temp.ctrl) 2 1 = 3) :
    ((s.tempAct i sub).temp i).device = true ∧ (s.tempAct i sub).deviceHold = true := by
  let marked : State := (s.faultRecorded i sub).modTemp i fun x => { x with device := true }
  have hdown : SameBut [.objs, .rails, .domains, .twin, .recd, .mb, .nvm, .dev] marked marked.powerDownAll.refreshFlt :=
    same_step (State.powerDownAll_same marked) (State.refreshFlt_same _) (by decide)
  have htemp : marked.powerDownAll.refreshFlt.temp i = marked.temp i :=
    congrArg (Vector.get · i) (hdown.same .temps (by decide))
  have hdevice : (marked.powerDownAll.refreshFlt.temp i).device = true := by rw [htemp, State.temp_modTemp_self]
  rw [State.tempAct_device hmode]
  exact ⟨hdevice, State.deviceHold_of_temp hdevice⟩

end

end Sys2Proof.Machine
end

section
/-! TEMP_UPDATE (10 R227 to R229): the reading that a sensor takes, and the fault that its level sets off. -/

namespace Sys2Proof.Machine

section
variable {s : State} {i : TempIx}

theorem State.tempRails_congr {s t : State} {i : TempIx}
    (hrails : t.obj Ob.clsTemp i.val Ob.Temp.rails = s.obj Ob.clsTemp i.val Ob.Temp.rails)
    (hphases : ∀ m : PhaseIx, t.obj Ob.clsPhase m.val Ob.Phase.rail = s.obj Ob.clsPhase m.val Ob.Phase.rail) :
    t.tempRails i = s.tempRails i := by
  simp only [State.tempRails, hrails, State.phasesOf_congr hphases]

/-- A sensor's levels leave its reading (R228). -/
theorem State.tempLevels_reading (s : State) (i : TempIx) : TempsBut i s (s.tempLevels i) ∧
    ((s.tempLevels i).temp i).value = (s.temp i).value ∧ ((s.tempLevels i).temp i).fail = (s.temp i).fail := by
  unfold State.tempLevels
  extract_lets x lv back failAct lim fast low level warn fault marked counted
  have hmarked : marked.temp i = { s.temp i with
      warn := warn, fault := fault, rate := fast, belowAt := if low then some ((s.temp i).belowAt.getD s.now) else none } :=
    State.temp_modTemp_self s i _
  have hcounted : ReadingStands i marked counted := .of_same (State.countIf_same ..) (by decide)
  have hacted : ReadingStands i counted (if fault && !x.fault then
      (counted.count Ob.clsTemp i.val Ob.Temp.faults).tempAct i (if level then 0 else 1) else counted) :=
    rel_ite ((ReadingStands.of_same (State.count_same ..) (by decide)).trans .tempAct) (.refl counted)
  have hrest := hcounted.trans hacted
  refine ⟨fun j hj => (hrest.others j hj).trans (s.tempsBut_modTemp i _ j hj), hrest.value.trans ?_, hrest.fail.trans ?_⟩
  · rw [hmarked]
  · rw [hmarked]

/-- At its fault level a sensor that stood in no fault enters it, which counts and acts (R228, R229). -/
theorem State.tempLevels_fault (hfree : (s.temp i).fault = false)
    (hlevel : (s.obj Ob.clsTemp i.val Ob.Temp.fault).toInt ≤ (s.temp i).value) : ∃ u sub,
    (u.temp i).fault = true ∧ WritesOnly [(Ob.clsTemp, i.val, Ob.Temp.warns)] s u ∧
      s.tempLevels i = (u.count Ob.clsTemp i.val Ob.Temp.faults).tempAct i sub := by
  unfold State.tempLevels
  extract_lets x lv back failAct lim fast low level warn fault marked counted
  have hlevel' : level = true := by simp [level, lv, x, hlevel]
  have hfault : fault = true := by simp [fault, x, hfree, hlevel']
  have hcounted : WritesOnly [(Ob.clsTemp, i.val, Ob.Temp.warns)] marked counted := State.countIf_writes List.mem_cons_self ..
  refine ⟨counted, if level then 0 else 1, ?_, (WritesOnly.of_objs rfl : WritesOnly _ s marked).trans hcounted,
    if_pos (by simp [hfault, x, hfree])⟩
  have htemp : counted.temp i = marked.temp i := congrArg (Vector.get · i) ((State.countIf_same ..).same .temps (by decide))
  rw [htemp, State.temp_modTemp_self]
  exact hfault

theorem tempKey_ne (i : TempIx) {c j k k' : Nat} (hj : j < 256) (hk : k < 256) (hk' : k' < 256) (h : c ≠ Ob.clsTemp ∨ k ≠ k') :
    objKey c j k ≠ objKey Ob.clsTemp i.val k' := objKey_ne hj hk (by omega) hk' h

/-- What a fault level sets off, in terms of the state in which it is found. -/
theorem State.tempLevels_faults (hok : StoreOk s.objs) (hfree : (s.temp i).fault = false)
    (hlevel : (s.obj Ob.clsTemp i.val Ob.Temp.fault).toInt ≤ (s.temp i).value) :
    let t := s.tempLevels i
    let mode := bits (s.obj Ob.clsTemp i.val Ob.Temp.ctrl) 2 1
    (t.temp i).fault = true ∧ Counts s t Ob.clsTemp i.val Ob.Temp.faults ∧
      (mode = 1 → ∀ r ∈ s.tempRails i, (t.rail r).prot.thold = true ∧ (t.temp i).stops.contains r.val = true) ∧
      (mode = 2 → ∀ r ∈ s.tempRails i, t.latchedOff r = true) ∧
      (mode = 3 → (t.temp i).device = true ∧ t.deviceHold = true) := by
  intro t mode
  obtain ⟨u, sub, hfault, hwarned, hacts⟩ := State.tempLevels_fault hfree hlevel
  let counted : State := u.count Ob.clsTemp i.val Ob.Temp.faults
  have hwrites : WritesOnly [(Ob.clsTemp, i.val, Ob.Temp.warns), (Ob.clsTemp, i.val, Ob.Temp.faults)] s counted :=
    (hwarned.mono (by simp)).trans (.setObj (by simp) u _)
  have hobj : ∀ c k (j : Nat), j < 256 → k < 256 → (c ≠ Ob.clsTemp ∨ k ≠ Ob.Temp.warns ∧ k ≠ Ob.Temp.faults) →
      counted.obj c j k = s.obj c j k := by
    intro c k j hj hk hother
    refine hwrites.obj_eq hok fun o ho => ?_
    rcases List.mem_pair.mp ho with rfl | rfl
    · exact tempKey_ne i (k' := Ob.Temp.warns) hj hk (by decide) (hother.imp id And.left)
    · exact tempKey_ne i (k' := Ob.Temp.faults) hj hk (by decide) (hother.imp id And.right)
  have hrails : counted.tempRails i = s.tempRails i :=
    State.tempRails_congr (hobj _ _ _ (by omega) (by decide) (.inr (by decide)))
      fun m => hobj _ _ _ (by omega) (by decide) (.inl (by decide))
  have hmode : bits (counted.obj Ob.clsTemp i.val Ob.Temp.ctrl) 2 1 = mode :=
    congrArg (bits · 2 1) (hobj _ _ _ (by omega) (by decide) (.inr (by decide)))
  have ht : t = counted.tempAct i sub := hacts
  rw [ht, ← hrails]
  refine ⟨?_, ?_, fun h => State.tempAct_stops (hmode.trans h), fun h => State.tempAct_latches (hmode.trans h),
    fun h => State.tempAct_holds (hmode.trans h)⟩
  · exact ReadingStands.tempAct.fault.trans hfault
  · have hfirst : u.obj Ob.clsTemp i.val Ob.Temp.faults = s.obj Ob.clsTemp i.val Ob.Temp.faults :=
      hwarned.obj_eq hok fun o ho => List.mem_singleton.mp ho ▸
        tempKey_ne i (k' := Ob.Temp.warns) (by omega) (by decide) (by decide) (.inr (by decide))
    have hcounted : counted.obj Ob.clsTemp i.val Ob.Temp.faults = satWord ((u.obj Ob.clsTemp i.val Ob.Temp.faults).toNat + 1) :=
      State.obj_setObj_self (hwarned.ok hok) ..
    rw [Counts, Follows.tempAct.obj (hwrites.ok hok) _ _ _ (by omega) (by decide) (by decide), hcounted, hfirst]

/-! TEMP_UPDATE -/

/-- What an update does with the reading that the sensor has taken: the means, the levels, and the write window. -/
def State.judgeTemp (s : State) (i : TempIx) : State :=
  let judged := (s.tempMean i (s.temp i).value).tempLevels i
  if i.val < 8 then judged.dieWindow else judged

/-- Of what protection looks at, the write window changes nothing. -/
theorem State.judgeTemp_same (s : State) (i : TempIx) :
    SameBut [.nvm, .dev] ((s.tempMean i (s.temp i).value).tempLevels i) (s.judgeTemp i) :=
  same_ite (State.dieWindow_same _) (same_refl ..)

theorem State.judgeTemp_reading (s : State) (i : TempIx) : TempsBut i s (s.judgeTemp i) ∧
    ((s.judgeTemp i).temp i).value = (s.temp i).value ∧ ((s.judgeTemp i).temp i).fail = (s.temp i).fail := by
  have hmean : ReadingStands i s (s.tempMean i (s.temp i).value) := .tempMean ..
  have hwindow : ReadingStands i _ (s.judgeTemp i) := .of_same (s.judgeTemp_same i) (by decide)
  obtain ⟨hothers, hvalue, hfail⟩ := (s.tempMean i (s.temp i).value).tempLevels_reading i
  exact ⟨fun j hj => (hwindow.others j hj).trans ((hothers j hj).trans (hmean.others j hj)),
    hwindow.value.trans (hvalue.trans hmean.value), hwindow.fail.trans (hfail.trans hmean.fail)⟩

/-- A reading at the fault level of a sensor without a fault. -/
theorem State.judgeTemp_faults (hok : StoreOk s.objs) (hfree : (s.temp i).fault = false)
    (hlevel : (s.obj Ob.clsTemp i.val Ob.Temp.fault).toInt ≤ (s.temp i).value) :
    let t := s.judgeTemp i
    let mode := bits (s.obj Ob.clsTemp i.val Ob.Temp.ctrl) 2 1
    (t.temp i).fault = true ∧ Counts s t Ob.clsTemp i.val Ob.Temp.faults ∧
      (mode = 1 → ∀ r ∈ s.tempRails i, (t.rail r).prot.thold = true ∧ (t.temp i).stops.contains r.val = true) ∧
      (mode = 2 → ∀ r ∈ s.tempRails i, t.latchedOff r = true) ∧
      (mode = 3 → (t.temp i).device = true ∧ t.deviceHold = true) := by
  intro t mode
  let mean : State := s.tempMean i (s.temp i).value
  have hmean : ReadingStands i s mean := .tempMean ..
  have hobjs : mean.objs = s.objs := (State.tempMean_same ..).same .objs (by decide)
  have hobj : ∀ c j k, mean.obj c j k = s.obj c j k := State.obj_of_objs hobjs
  obtain ⟨hfault, hcounts, hstops, hlatches, hholds⟩ := State.tempLevels_faults (s := mean) (i := i) (hobjs ▸ hok)
    (hmean.fault.trans hfree) (by rw [hobj, hmean.value]; exact hlevel)
  have hrails : mean.tempRails i = s.tempRails i := State.tempRails_congr (hobj ..) fun _ => hobj ..
  rw [hobj] at hstops hlatches hholds
  rw [hrails] at hstops hlatches
  rw [Counts, hobj] at hcounts
  have hsame := s.judgeTemp_same i
  have htemp : ∀ j, t.temp j = (mean.tempLevels i).temp j := fun j => congrArg (Vector.get · j) (hsame.same .temps (by decide))
  have hrail : ∀ r, t.rail r = (mean.tempLevels i).rail r := fun r => congrArg (Vector.get · r) (hsame.same .rails (by decide))
  refine ⟨(htemp i).symm ▸ hfault, (State.obj_of_objs (hsame.same .objs (by decide)) ..).trans hcounts,
    fun h r hr => ?_, fun h r hr => ?_, fun h => ?_⟩
  · rw [hrail, htemp]
    exact hstops h r hr
  · rw [State.latchedOff, hrail]
    exact hlatches h r hr
  · have hdevice : (t.temp i).device = true := (htemp i).symm ▸ (hholds h).1
    exact ⟨hdevice, State.deviceHold_of_temp hdevice⟩

end

/-! TEMP_UPDATE -/

theorem tempsBut_judgeTemp {s u : State} {i : TempIx} (h : TempsBut i s u) : TempsBut i s (u.judgeTemp i) := fun j hj =>
  ((u.judgeTemp_reading i).1 j hj).trans (h j hj)

section
variable {s : State} {i : TempIx} (hrun : s.framesRun = true) (hlive : s.teleStale = false)
include hrun hlive

theorem tempUpdate_disabled (hoff : bit (s.obj Ob.clsTemp i.val Ob.Temp.ctrl) 0 = false) (reading : Option Int) :
    Completes (.tempUpdate i reading) s fun t => (t.temp i).value = 2500 ∧ (t.temp i).fail = false ∧ TempsBut i s t := by
  let read : State := s.modTemp i fun x => { x with value := 2500, fail := false }
  have hexec : exec (.tempUpdate i reading) s = .next (read.judgeTemp i) := by
    show execTempUpdate i reading s = _
    simp only [execTempUpdate, hrun, hlive, hoff]
    rfl
  obtain ⟨-, hvalue, hfail⟩ := read.judgeTemp_reading i
  exact ⟨_, hexec, hvalue.trans (by rw [State.temp_modTemp_self]), hfail.trans (by rw [State.temp_modTemp_self]),
    tempsBut_judgeTemp (s.tempsBut_modTemp i _)⟩

section
variable (hon : bit (s.obj Ob.clsTemp i.val Ob.Temp.ctrl) 0 = true)
include hon

theorem tempUpdate_fails : Completes (.tempUpdate i none) s fun t => (t.temp i).fail = true ∧
    (t.temp i).value = (s.temp i).value ∧ TempsBut i s t := by
  let failed : State := s.modTemp i fun x => { x with fail := true }
  let read : State := failed.recordIf (!(s.temp i).fail) Code.sensorFail Ob.clsTemp i.val 0 []
  have hexec : exec (.tempUpdate i none) s = .next (read.judgeTemp i) := by
    show execTempUpdate i none s = _
    simp only [execTempUpdate, hrun, hlive, hon]
    rfl
  have hread : ReadingStands i failed read := .of_same (State.recordIf_same ..) (by decide)
  obtain ⟨-, hvalue, hfail⟩ := read.judgeTemp_reading i
  refine ⟨_, hexec, hfail.trans (hread.fail.trans ?_), hvalue.trans (hread.value.trans ?_), tempsBut_judgeTemp fun j hj => ?_⟩
  · rw [State.temp_modTemp_self]
  · rw [State.temp_modTemp_self]
  · exact (hread.others j hj).trans (s.tempsBut_modTemp i _ j hj)

theorem tempUpdate_reads (hok : StoreOk s.objs) (q : Int) : Completes (.tempUpdate i (some q)) s fun t =>
    (t.temp i).fail = false ∧ (t.temp i).value = s.tempValue i q ∧ TempsBut i s t ∧
      ((s.obj Ob.clsTemp i.val Ob.Temp.fault).toInt ≤ s.tempValue i q → (s.temp i).fault = false →
        (t.temp i).fault = true ∧ Counts s t Ob.clsTemp i.val Ob.Temp.faults ∧
        (bits (s.obj Ob.clsTemp i.val Ob.Temp.ctrl) 2 1 = 1 → ∀ r ∈ s.tempRails i,
          (t.rail r).prot.thold = true ∧ (t.temp i).stops.contains r.val = true) ∧
        (bits (s.obj Ob.clsTemp i.val Ob.Temp.ctrl) 2 1 = 2 → ∀ r ∈ s.tempRails i, t.latchedOff r = true) ∧
        (bits (s.obj Ob.clsTemp i.val Ob.Temp.ctrl) 2 1 = 3 → (t.temp i).device = true ∧ t.deviceHold = true)) := by
  let read : State := s.modTemp i fun x => { x with value := s.tempValue i q, fail := false }
  have hexec : exec (.tempUpdate i (some q)) s = .next (read.judgeTemp i) := by
    show execTempUpdate i (some q) s = _
    simp only [execTempUpdate, hrun, hlive, hon]
    rfl
  have htemp : read.temp i = { s.temp i with value := s.tempValue i q, fail := false } := State.temp_modTemp_self s i _
  obtain ⟨-, hvalue, hfail⟩ := read.judgeTemp_reading i
  refine ⟨_, hexec, hfail.trans (by rw [htemp]), hvalue.trans (by rw [htemp]), tempsBut_judgeTemp (s.tempsBut_modTemp i _),
    fun hlevel hfree => ?_⟩
  exact State.judgeTemp_faults (s := read) hok (by rw [htemp]; exact hfree) (by rw [htemp]; exact hlevel)

end

end

/-- Settles O51: an input limit is `completes_inputHold`, the end of a hold `State.restarted_restart`, the end of a temperature's
action a loop over the sensors that caused it (`State.temp_forEach_modTemp`), and a fault level `State.judgeTemp_faults`. -/
theorem holdsBeginAndEnd : Obligations.HoldsBeginAndEnd := fun _ hs hrun =>
  ⟨fun _ => ⟨inputUv_holds hrun hs.store, inputOv_holds hrun hs.store, fun _ => inputHoldEnd_frees hrun,
      tempStopClear_frees hrun⟩,
    tempDeviceClear_frees hrun, fun _ hlive => ⟨fun q hoff => tempUpdate_disabled hrun hlive hoff q,
      fun hon => ⟨tempUpdate_fails hrun hlive hon, tempUpdate_reads hrun hlive hon hs.store⟩⟩⟩

end Sys2Proof.Machine
end

section
/-! The assertion of a comparator (10 R214): the trips that it gives to phases, and its action by ROUTE. -/

namespace Sys2Proof.Machine

theorem State.cmp_modCmp_self (s : State) (c : CmpIx) (f : CmpState → CmpState) : (s.modCmp c f).cmp c = f (s.cmp c) :=
  (State.cmp_modCmp ..).trans (if_pos rfl)

theorem State.cmpsBut_modCmp (s : State) (c : CmpIx) (f : CmpState → CmpState) : CmpsBut c s (s.modCmp c f) :=
  fun _ he => (State.cmp_modCmp ..).trans (if_neg he)

theorem State.cmp_of_same {ps : List Area} {s t : State} (h : SameBut ps s t) (hps : Area.cmps ∉ ps) (e : CmpIx) :
    t.cmp e = s.cmp e := congrArg (Vector.get · e) (h.same .cmps hps)

@[simp] theorem State.cmpBlanked_modCmp (s : State) (c e : CmpIx) (f : CmpState → CmpState) (tick : Nat) :
    (s.modCmp e f).cmpBlanked c tick = s.cmpBlanked c tick := rfl
@[simp] theorem State.cmpLatch_modCmp (s : State) (c e : CmpIx) (f : CmpState → CmpState) :
    (s.modCmp e f).cmpLatch c = s.cmpLatch c := rfl

/-! The trips of phases -/

theorem PlcOnly.tripPhase (s : State) (n : PhaseIx) (tick : Nat) : PlcOnly s (s.tripPhase n tick) := by
  unfold State.tripPhase
  split
  · exact refl s
  next r _ =>
    extract_lets g dropped tripped
    have hdropped : PlcOnly s dropped :=
      (of_rails rfl : PlcOnly s (s.count ..)).trans (of_same (State.dropCarry_same ..) (by decide))
    have htripped : PlcOnly s tripped := of_same (State.tripInput_same ..) (by decide)
    split
    · exact rel_ite (hdropped.trans ((abortSkim dropped r).trans (of_same (State.modGen_same ..) (by decide)))) (refl s)
    · exact rel_ite (htripped.trans (abortSkim tripped r)) htripped

/-- The phases that a comparator trips (R75). -/
def State.cmpPhases (s : State) (c : CmpIx) : List PhaseIx :=
  allPhases.filter fun n => bit (s.obj Ob.clsPhase n.val Ob.Phase.tripsel) c.val

theorem State.cmpPhases_nil {s : State} {c : CmpIx}
    (h : ∀ n : PhaseIx, bit (s.obj Ob.clsPhase n.val Ob.Phase.tripsel) c.val = false) : s.cmpPhases c = [] :=
  List.filter_eq_nil_iff.mpr fun n _ => by simp [h n]

/-- The trips that an assertion gives. -/
def State.cmpTrips (s : State) (c : CmpIx) (tick : Nat) : State :=
  forEach (s.cmpPhases c) (fun s n => s.tripPhase n tick) s

theorem State.cmpTrips_same (s : State) (c : CmpIx) (tick : Nat) : SameBut [.objs, .phases, .rails] s (s.cmpTrips c tick) :=
  same_forEach (same_refl ..) fun s n => State.tripPhase_same s n tick

theorem Follows.cmpTrips (s : State) (c : CmpIx) (tick : Nat) : Follows s (s.cmpTrips c tick) :=
  rel_forEach refl trans (fun n _ s => tripPhase s n tick) s

theorem PlcOnly.cmpTrips (s : State) (c : CmpIx) (tick : Nat) : PlcOnly s (s.cmpTrips c tick) :=
  rel_forEach refl trans (fun n _ s => tripPhase s n tick) s

theorem State.cmpTrips_of_none {s : State} {c : CmpIx} (h : s.cmpPhases c = []) (tick : Nat) : s.cmpTrips c tick = s := by
  rw [State.cmpTrips, h]
  rfl

/-! The state in which an assertion acts by ROUTE -/

/-- The output of a comparator that asserts (R210, R213). -/
def CmpState.asserted (x : CmpState) (tick : Nat) (latched : Bool) : CmpState :=
  { x with out := true, outAt := tick, initHold := false, latched := latched }

/-- The output is asserted, and the assertion counted. -/
def State.cmpCounted (s : State) (c : CmpIx) (tick : Nat) : State :=
  (s.modCmp c fun x => x.asserted tick (s.cmpLatch c != 0)).count Ob.clsCmp c.val Ob.Cmp.asserts

/-- The output is asserted and counted, and its phases are tripped. -/
def State.cmpActs (s : State) (c : CmpIx) (tick : Nat) : State := (s.cmpCounted c tick).cmpTrips c tick

theorem State.cmpFire_eq (s : State) (c : CmpIx) (tick : Nat) : s.cmpFire c tick = (s.cmpActs c tick).cmpRoute c := rfl

section
variable {s : State} {c : CmpIx} {tick : Nat}

theorem State.cmpActs_cmp : (s.cmpActs c tick).cmp c = (s.cmp c).asserted tick (s.cmpLatch c != 0) ∧
    CmpsBut c s (s.cmpActs c tick) := by
  let asserted : State := s.modCmp c fun x => x.asserted tick (s.cmpLatch c != 0)
  have hafter : SameBut [.objs, .phases, .rails] asserted (s.cmpActs c tick) :=
    same_step (same_mono (State.count_same asserted ..) (by decide)) (State.cmpTrips_same ..) fun _ h => h
  exact ⟨(State.cmp_of_same hafter (by decide) c).trans (s.cmp_modCmp_self c _), fun e he =>
    (State.cmp_of_same hafter (by decide) e).trans (s.cmpsBut_modCmp c _ e he)⟩

theorem State.cmpActs_ok (hok : StoreOk s.objs) : StoreOk (s.cmpActs c tick).objs :=
  (Follows.cmpTrips (s.cmpCounted c tick) c tick).ok (Store.setVal_ok hok ..)

theorem State.cmpCounted_obj (hok : StoreOk s.objs) {cls i k : Nat} (hi : i < 256) (hk : k < 256)
    (hother : cls ≠ Ob.clsCmp ∨ k ≠ Ob.Cmp.asserts) : (s.cmpCounted c tick).obj cls i k = s.obj cls i k :=
  State.obj_setObj_ne (s := s.modCmp c fun x => x.asserted tick (s.cmpLatch c != 0)) hok _ _ _ _ _ _ _
    (objKey_ne hi hk (by omega) (by decide) hother)

theorem State.cmpActs_obj (hok : StoreOk s.objs) {cls i k : Nat} (hi : i < 256) (hk : k < 256) (hside : (cls, k) ∉ sideItems)
    (hother : cls ≠ Ob.clsCmp ∨ k ≠ Ob.Cmp.asserts) : (s.cmpActs c tick).obj cls i k = s.obj cls i k :=
  ((Follows.cmpTrips (s.cmpCounted c tick) c tick).obj (Store.setVal_ok hok ..) cls i k hi hk hside).trans
    (State.cmpCounted_obj hok hi hk hother)

theorem State.cmpActs_counts (hok : StoreOk s.objs) : Counts s (s.cmpActs c tick) Ob.clsCmp c.val Ob.Cmp.asserts := by
  let asserted : State := s.modCmp c fun x => x.asserted tick (s.cmpLatch c != 0)
  have hasserted : Follows s asserted := .of_eq rfl rfl
  have htrips : Follows (asserted.count Ob.clsCmp c.val Ob.Cmp.asserts) (s.cmpActs c tick) := .cmpTrips ..
  exact counts_of_follows hok ⟨by omega, by decide⟩ (by decide) hasserted htrips

theorem State.cmpActs_prot (q : RailIx) : ((s.cmpActs c tick).rail q).prot = (s.rail q).prot :=
  (PlcOnly.cmpTrips (s.cmpCounted c tick) c tick).prot_eq q

theorem State.cmpActs_of_none (hok : StoreOk s.objs)
    (h : ∀ n : PhaseIx, bit (s.obj Ob.clsPhase n.val Ob.Phase.tripsel) c.val = false) :
    s.cmpActs c tick = s.cmpCounted c tick :=
  State.cmpTrips_of_none (State.cmpPhases_nil fun n => by
    rw [State.cmpCounted_obj hok (by omega) (by decide) (.inl (by decide))]
    exact h n) tick

end

/-! The action by ROUTE -/

/-- ROUTE, the action that it names. -/
def State.route (s : State) (c : CmpIx) : Nat := bits (s.obj Ob.clsCmp c.val Ob.Cmp.route) 2 0

section
variable {s : State} {c : CmpIx}

theorem State.cmpRoute_record (h : s.route c = 1) : s.cmpRoute c = s.cmpRecord c 1 := by
  rw [State.cmpRoute, ← State.route, h]
  rfl

theorem State.cmpRoute_crowbar (h : s.route c = 2) : s.cmpRoute c = s.crowbar (s.cmpRail c) 1 c.val := by
  rw [State.cmpRoute, ← State.route, h]
  rfl

theorem State.cmpRoute_hiccup (h : s.route c = 3) : s.cmpRoute c = if s.inHiccup (s.cmpRail c) then s.cmpRecord c 3
    else s.modProt (s.cmpRail c) fun p => { p with cmpHic := true } := by
  rw [State.cmpRoute, ← State.route, h]
  rfl

theorem State.cmpRoute_latch (h : s.route c = 4) : s.cmpRoute c =
    s.latchRail (s.cmpRail c) .cmp Code.cmpAssert Ob.clsCmp c.val 4 (leBytes 1 (s.cmpRail c).val) := by
  rw [State.cmpRoute, ← State.route, h]
  rfl

/-- A comparator holds the device (R214): the event is recorded, and the comparator is marked as the cause. -/
def State.cmpHolds (s : State) (c : CmpIx) : State := (s.cmpRecord c 5).modCmp c fun x => { x with device := true }

theorem State.cmpRoute_device (h : s.route c = 5) : s.cmpRoute c = (s.cmpHolds c).powerDownAll.refreshFlt := by
  rw [State.cmpRoute, ← State.route, h]
  rfl

theorem State.cmpRoute_none (h : s.route c ∉ [1, 2, 3, 4, 5]) : s.cmpRoute c = s := by
  simp only [List.mem_cons, List.not_mem_nil, or_false, not_or] at h
  obtain ⟨h1, h2, h3, h4, h5⟩ := h
  unfold State.cmpRoute
  extract_lets
  split
  next h => exact absurd h h1
  next h => exact absurd h h2
  next h => exact absurd h h3
  next h => exact absurd h h4
  next h => exact absurd h h5
  · rfl

/-- The action leaves the comparators, but for the mark of one that holds the device, and the comparator's own count. -/
structure Routed (c : CmpIx) (s t : State) : Prop where
  others : CmpsBut c s t
  output : ∃ device, t.cmp c = { s.cmp c with device := device }
  counted : StoreOk s.objs → t.obj Ob.clsCmp c.val Ob.Cmp.asserts = s.obj Ob.clsCmp c.val Ob.Cmp.asserts

theorem Routed.of_same {ps : List Area} {t : State} (h : SameBut ps s t) (hps : Area.cmps ∉ ps)
    (hcounted : StoreOk s.objs → t.obj Ob.clsCmp c.val Ob.Cmp.asserts = s.obj Ob.clsCmp c.val Ob.Cmp.asserts) :
    Routed c s t :=
  ⟨fun e _ => State.cmp_of_same h hps e, ⟨(s.cmp c).device, State.cmp_of_same h hps c⟩, hcounted⟩

theorem Follows.asserts {t : State} (h : Follows s t) (hok : StoreOk s.objs) :
    t.obj Ob.clsCmp c.val Ob.Cmp.asserts = s.obj Ob.clsCmp c.val Ob.Cmp.asserts :=
  h.obj hok _ _ _ (by omega) (by decide) (by decide)

theorem Routed.cmpRecord (sub : Nat) : Routed c s (s.cmpRecord c sub) :=
  .of_same (State.cmpRecord_same ..) (by decide) (Follows.record s ..).asserts

theorem Routed.crowbar (r : RailIx) (sub cmp : Nat) : Routed c s (s.crowbar r sub cmp) := by
  refine .of_same (State.crowbar_same ..) (by decide) fun hok => ?_
  by_cases hfree : (s.rail r).prot.crowbar = false
  · exact State.obj_crowbar hok hfree sub cmp (by omega) (by decide) (by decide) (.inl (by decide))
  · rw [State.crowbar, if_pos (by simpa using hfree)]
    exact (Follows.record s ..).asserts hok

theorem Routed.cmpHolds : Routed c s (s.cmpHolds c).powerDownAll.refreshFlt := by
  have hrecorded : ∀ e, (s.cmpRecord c 5).cmp e = s.cmp e := State.cmp_of_same (State.cmpRecord_same ..) (by decide)
  have hdown : SameBut [.objs, .rails, .domains, .twin, .recd, .mb, .nvm, .dev] (s.cmpHolds c)
      (s.cmpHolds c).powerDownAll.refreshFlt :=
    same_step (State.powerDownAll_same _) (State.refreshFlt_same _) (by decide)
  have hfollows : Follows s (s.cmpHolds c).powerDownAll.refreshFlt :=
    (Follows.record s ..).trans ((Follows.of_eq rfl rfl : Follows (s.cmpRecord c 5) (s.cmpHolds c)).trans
      ((Follows.powerDownAll _).trans (.refreshFlt _)))
  refine ⟨fun e he => ?_, ⟨true, ?_⟩, hfollows.asserts⟩
  · exact (State.cmp_of_same hdown (by decide) e).trans ((State.cmpsBut_modCmp _ c _ e he).trans (hrecorded e))
  · rw [State.cmp_of_same hdown (by decide), State.cmpHolds, State.cmp_modCmp_self, hrecorded]

theorem State.cmpRoute_routed (s : State) (c : CmpIx) : Routed c s (s.cmpRoute c) := by
  by_cases hnone : s.route c ∉ [1, 2, 3, 4, 5]
  · rw [State.cmpRoute_none hnone]
    exact .of_same (same_refl [] s) (by decide) fun _ => rfl
  simp only [List.mem_cons, List.not_mem_nil, or_false, not_not] at hnone
  obtain h | h | h | h | h := hnone
  · exact State.cmpRoute_record h ▸ .cmpRecord 1
  · exact State.cmpRoute_crowbar h ▸ .crowbar ..
  · rw [State.cmpRoute_hiccup h]
    exact rel_ite (.cmpRecord 3) (.of_same (State.modProt_same ..) (by decide) fun _ => rfl)
  · rw [State.cmpRoute_latch h]
    exact .of_same (State.latchRail_same ..) (by decide) (Follows.latchRail ..).asserts
  · exact State.cmpRoute_device h ▸ .cmpHolds

theorem State.deviceHold_of_cmp (h : (s.cmp c).device = true) : s.deviceHold = true := by
  have hany : s.cmps.toList.any (·.device) = true := any_toList_iff.mpr ⟨c, h⟩
  simp [State.deviceHold, hany]

theorem State.cmpRoute_holds (h : s.route c = 5) : ((s.cmpRoute c).cmp c).device = true ∧ (s.cmpRoute c).deviceHold = true := by
  have hdown : SameBut [.objs, .rails, .domains, .twin, .recd, .mb, .nvm, .dev] (s.cmpHolds c)
      (s.cmpHolds c).powerDownAll.refreshFlt :=
    same_step (State.powerDownAll_same _) (State.refreshFlt_same _) (by decide)
  have hdevice : ((s.cmpHolds c).powerDownAll.refreshFlt.cmp c).device = true := by
    rw [State.cmp_of_same hdown (by decide), State.cmpHolds, State.cmp_modCmp_self]
  rw [State.cmpRoute_device h]
  exact ⟨hdevice, State.deviceHold_of_cmp hdevice⟩

theorem State.cmpRoute_latches (h : s.route c = 4) : (s.cmpRoute c).latchedOff (s.cmpRail c) = true := by
  rw [State.cmpRoute_latch h]
  by_cases hfree : s.latchedOff (s.cmpRail c) = false
  · exact (State.latchRail_off (by decide) hfree ..).1
  · have hlatched : s.latchedOff (s.cmpRail c) = true := by simpa using hfree
    rw [State.latchRail, if_pos hlatched]
    exact (LatchesStand.record s ..).latch _ hlatched

theorem State.cmpRoute_hiccups (h : s.route c = 3) (hfree : s.inHiccup (s.cmpRail c) = false) :
    ((s.cmpRoute c).rail (s.cmpRail c)).prot.cmpHic = true := by
  rw [State.cmpRoute_hiccup h, if_neg (by simp [hfree]), State.modProt_eq, State.rail_modRail_self]

theorem State.cmpRoute_crowbars (h : s.route c = 2) (hfree : (s.rail (s.cmpRail c)).prot.crowbar = false) :
    (s.cmpRoute c).latchedOff (s.cmpRail c) = true ∧ ((s.cmpRoute c).rail (s.cmpRail c)).prot.crowbar = true := by
  rw [State.cmpRoute_crowbar h]
  exact ⟨(State.crowbar_acts hfree ..).2.1, State.crowbar_stands hfree ..⟩

end

end Sys2Proof.Machine
end

section
/-! The commands of comparators (10 R209 to R214): CMP_ASSERT, CMP_DEASSERT and CMP_FIRST_DECISION. -/

namespace Sys2Proof.Machine

/-! An assertion, as a whole -/

section
variable {s : State} {c : CmpIx} {tick : Nat}

theorem State.cmpFire_fires (hok : StoreOk s.objs) : let t := s.cmpFire c tick
    (∃ device, t.cmp c = { (s.cmp c).asserted tick (s.cmpLatch c != 0) with device := device }) ∧
      Counts s t Ob.clsCmp c.val Ob.Cmp.asserts ∧ CmpsBut c s t := by
  intro t
  obtain ⟨hcmp, hothers⟩ := State.cmpActs_cmp (s := s) (c := c) (tick := tick)
  have hrouted : Routed c (s.cmpActs c tick) t := State.cmpRoute_routed ..
  refine ⟨?_, ?_, fun e he => (hrouted.others e he).trans (hothers e he)⟩
  · obtain ⟨device, houtput⟩ := hrouted.output
    exact ⟨device, by rw [houtput, hcmp]⟩
  · exact (hrouted.counted (State.cmpActs_ok hok)).trans (State.cmpActs_counts hok)

/-- What ROUTE says of an assertion, in terms of the state before it (R214). -/
theorem State.cmpFire_routes (hok : StoreOk s.objs) : let t := s.cmpFire c tick
    let r := s.cmpRail c
    (s.route c = 2 → (s.rail r).prot.crowbar = false → t.latchedOff r = true ∧ (t.rail r).prot.crowbar = true) ∧
      (s.route c = 3 → s.inHiccup r = false → (t.rail r).prot.cmpHic = true) ∧
      (s.route c = 4 → t.latchedOff r = true) ∧
      (s.route c = 5 → (t.cmp c).device = true ∧ t.deviceHold = true) ∧
      ((∀ n : PhaseIx, bit (s.obj Ob.clsPhase n.val Ob.Phase.tripsel) c.val = false) → s.route c = 1 →
        t.phases = s.phases ∧ Logs s t Code.cmpAssert Ob.clsCmp c.val 1 (leBytes 1 r.val)) := by
  intro t r
  let acts : State := s.cmpActs c tick
  have hobj : acts.obj Ob.clsCmp c.val Ob.Cmp.route = s.obj Ob.clsCmp c.val Ob.Cmp.route :=
    State.cmpActs_obj hok (by omega) (by decide) (by decide) (.inr (by decide))
  have hroute : acts.route c = s.route c := by rw [State.route, hobj, State.route]
  have hrail : acts.cmpRail c = r := Fin.ext (by simp only [State.cmpRail, hobj, r])
  have hprot : (acts.rail (acts.cmpRail c)).prot = (s.rail r).prot := by
    rw [hrail]
    exact State.cmpActs_prot r
  refine ⟨fun h hfree => ?_, fun h hfree => ?_, fun h => ?_, fun h => State.cmpRoute_holds (hroute.trans h), fun hnone h => ?_⟩
  · have hcrowbar := State.cmpRoute_crowbars (hroute.trans h) ((congrArg ProtState.crowbar hprot).trans hfree)
    rwa [hrail] at hcrowbar
  · have hhiccup := State.cmpRoute_hiccups (hroute.trans h) ((congrArg (·.hicEnd.isSome) hprot).trans hfree)
    rwa [hrail] at hhiccup
  · have hlatched := State.cmpRoute_latches (hroute.trans h)
    rwa [hrail] at hlatched
  · have hacts : acts = s.cmpCounted c tick := State.cmpActs_of_none hok hnone
    have ht : t = (s.cmpCounted c tick).record Code.cmpAssert Ob.clsCmp c.val 1 (leBytes 1 r.val) := by
      rw [← hrail, ← hacts]
      exact State.cmpRoute_record (hroute.trans h)
    rw [ht]
    exact ⟨State.phases_record .., logs_record (s.cmpCounted c tick) rfl rfl ..⟩

end

/-! Decisions (R210 to R213) -/

/-- The state in which the decision of a comparator has become so. -/
def State.cmpDecided (s : State) (c : CmpIx) (asserted : Bool) : State := s.modCmp c fun y => { y with decision := asserted }

/-- What a decision that falls makes of a comparator, where its output follows. -/
def CmpState.released (x : CmpState) : CmpState :=
  { x with decision := false, out := false, initHold := false, latched := false }

section
variable {s : State} {c : CmpIx} {tick : Nat}

theorem State.cmp_cmpDecided (asserted : Bool) :
    (s.cmpDecided c asserted).cmp c = { s.cmp c with decision := asserted } := s.cmp_modCmp_self c _

theorem State.cmpDecide_stands (h : (s.cmp c).out = true ∧ (s.cmp c).initHold = false ∨ s.cmpBlanked c tick = true) :
    s.cmpDecide c tick = s.cmpDecided c true := by
  refine if_pos ?_
  rw [State.cmpBlanked_modCmp]
  simpa using h

/-- Outside blanking, an output that is not asserted yet, or stands at INIT, asserts with the decision. -/
theorem State.cmpDecide_fires (hout : (s.cmp c).out = false ∨ (s.cmp c).initHold = true) (hblank : s.cmpBlanked c tick = false) :
    s.cmpDecide c tick = (s.cmpDecided c true).cmpFire c tick := by
  have hfree : ((s.cmp c).out && !(s.cmp c).initHold) = false := by
    obtain h | h := hout <;> simp [h]
  refine if_neg ?_
  rw [State.cmpBlanked_modCmp, hfree, hblank]
  decide

theorem State.cmp_cmpRelease (s : State) (c : CmpIx) (tick : Nat) : CmpsBut c s (s.cmpRelease c tick) ∧
    (s.cmpRelease c tick).cmp c = if (s.cmp c).initHold || (s.cmpLatch c == 0 && !s.cmpBlanked c tick) then
      (s.cmp c).released else { s.cmp c with decision := false } := by
  unfold State.cmpRelease
  extract_lets fell
  have hfell : fell.cmp c = { s.cmp c with decision := false } := s.cmp_modCmp_self c _
  have hothers : CmpsBut c s fell := s.cmpsBut_modCmp c _
  rw [hfell, State.cmpLatch_modCmp, State.cmpBlanked_modCmp]
  split
  · refine ⟨fun e he => (fell.cmpsBut_modCmp c _ e he).trans (hothers e he), ?_⟩
    rw [State.cmp_modCmp_self, hfell]
    rfl
  · exact ⟨hothers, hfell⟩

end

/-! The commands -/

section
variable {s : State} {c : CmpIx} {uv : Int} {tick : Nat}

theorem cmpAssert_exec (hruns : s.cmpRuns c = true) (hdecided : (s.cmp c).decided = true)
    (hover : s.cmpOver c (s.cmpInput c uv) tick = true) :
    exec (.cmpAssert c uv tick) s = .next (s.cmpDecide c tick) := by
  show execCmpAssert c uv tick s = _
  rw [execCmpAssert, if_pos (by simp [hruns, hdecided, hover])]

theorem cmpDeassert_exec (hruns : s.cmpRuns c = true) (hdecided : (s.cmp c).decided = true)
    (hunder : s.cmpUnder c (s.cmpInput c uv) s.frameTick = true) :
    exec (.cmpDeassert c uv) s = .next (s.cmpRelease c s.frameTick) := by
  show execCmpDeassert c uv s = _
  rw [execCmpDeassert, if_pos (by simp [hruns, hdecided, hunder])]

/-- The state in which a comparator has taken its first decision. -/
def State.cmpFirst (s : State) (c : CmpIx) : State := s.modCmp c fun y => { y with decided := true }

theorem State.cmp_cmpFirst : (s.cmpFirst c).cmp c = { s.cmp c with decided := true } := s.cmp_modCmp_self c _

theorem cmpFirstDecision_exec (hruns : s.cmpRuns c = true) (hfirst : (s.cmp c).decided = false) :
    exec (.cmpFirstDecision c uv) s = .next (
      if s.cmpOver c (s.cmpInput c uv) s.frameTick then (s.cmpFirst c).cmpDecide c s.frameTick
      else if s.cmpUnder c (s.cmpInput c uv) s.frameTick then (s.cmpFirst c).cmpRelease c s.frameTick
      else s.cmpFirst c) := by
  show execCmpFirstDecision c uv s = _
  simp only [execCmpFirstDecision, hruns, hfirst]
  rfl

theorem cmpAssert_stands (hexec : exec (.cmpAssert c uv tick) s = .next (s.cmpDecide c tick))
    (h : (s.cmp c).out = true ∧ (s.cmp c).initHold = false ∨ s.cmpBlanked c tick = true) :
    Completes (.cmpAssert c uv tick) s fun t =>
      t.cmp c = { s.cmp c with decision := true } ∧ CmpsBut c s t ∧ SameBut [.cmps] s t :=
  ⟨_, hexec.trans (congrArg _ (State.cmpDecide_stands h)), State.cmp_cmpDecided true, s.cmpsBut_modCmp c _, s.modCmp_same c _⟩

theorem cmpAssert_fires (hok : StoreOk s.objs) (hexec : exec (.cmpAssert c uv tick) s = .next (s.cmpDecide c tick))
    (hout : (s.cmp c).out = false ∨ (s.cmp c).initHold = true) (hblank : s.cmpBlanked c tick = false) :
    Completes (.cmpAssert c uv tick) s fun t =>
      (t.cmp c).decision = true ∧ (t.cmp c).out = true ∧ (t.cmp c).initHold = false ∧
        (t.cmp c).latched = (s.cmpLatch c != 0) ∧ Counts s t Ob.clsCmp c.val Ob.Cmp.asserts ∧ CmpsBut c s t ∧
        (s.route c = 2 → (s.rail (s.cmpRail c)).prot.crowbar = false →
          t.latchedOff (s.cmpRail c) = true ∧ (t.rail (s.cmpRail c)).prot.crowbar = true) ∧
        (s.route c = 3 → s.inHiccup (s.cmpRail c) = false → (t.rail (s.cmpRail c)).prot.cmpHic = true) ∧
        (s.route c = 4 → t.latchedOff (s.cmpRail c) = true) ∧
        (s.route c = 5 → (t.cmp c).device = true ∧ t.deviceHold = true) ∧
        ((∀ n : PhaseIx, bit (s.obj Ob.clsPhase n.val Ob.Phase.tripsel) c.val = false) → s.route c = 1 →
          t.phases = s.phases ∧ Logs s t Code.cmpAssert Ob.clsCmp c.val 1 (leBytes 1 (s.cmpRail c).val)) := by
  obtain ⟨⟨device, hcmp⟩, hcounts, hothers⟩ := State.cmpFire_fires (s := s.cmpDecided c true) (c := c) (tick := tick) hok
  rw [State.cmp_cmpDecided] at hcmp
  refine ⟨_, hexec.trans (congrArg _ (State.cmpDecide_fires hout hblank)), by rw [hcmp]; rfl, by rw [hcmp]; rfl, by rw [hcmp]; rfl,
    by rw [hcmp]; rfl, hcounts, fun e he => ?_, State.cmpFire_routes (s := s.cmpDecided c true) hok⟩
  exact (hothers e he).trans (s.cmpsBut_modCmp c _ e he)

theorem cmpDeassert_releases (hexec : exec (.cmpDeassert c uv) s = .next (s.cmpRelease c s.frameTick)) :
    Completes (.cmpDeassert c uv) s fun t =>
      (t.cmp c).decision = false ∧ CmpsBut c s t ∧ SameBut [.cmps] s t ∧
        (s.cmpLatch c = 0 → s.cmpBlanked c s.frameTick = false → (t.cmp c).out = false) ∧
        (s.cmpLatch c ≠ 0 → (s.cmp c).initHold = false → t.cmp c = { s.cmp c with decision := false }) := by
  obtain ⟨hothers, hcmp⟩ := s.cmp_cmpRelease c s.frameTick
  refine ⟨_, hexec, ?_, hothers, State.cmpRelease_same .., fun hlevel hblank => ?_, fun hlatch hinit => ?_⟩
  · rw [hcmp]
    split <;> rfl
  · rw [hcmp, if_pos (by simp [hlevel, hblank])]
    rfl
  · rw [hcmp, if_neg (by simp [hlatch, hinit])]

section
variable (hruns : s.cmpRuns c = true) (hfirst : (s.cmp c).decided = false)
include hruns hfirst

theorem cmpFirstDecision_waits (hover : s.cmpOver c (s.cmpInput c uv) s.frameTick = false)
    (hunder : s.cmpUnder c (s.cmpInput c uv) s.frameTick = false) : Completes (.cmpFirstDecision c uv) s fun t =>
      t.cmp c = { s.cmp c with decided := true } ∧ CmpsBut c s t ∧ SameBut [.cmps] s t := by
  have hexec := cmpFirstDecision_exec (uv := uv) hruns hfirst
  rw [if_neg (by simp [hover]), if_neg (by simp [hunder])] at hexec
  exact ⟨_, hexec, State.cmp_cmpFirst, s.cmpsBut_modCmp c _, s.modCmp_same c _⟩

theorem cmpFirstDecision_releases (hover : s.cmpOver c (s.cmpInput c uv) s.frameTick = false)
    (hunder : s.cmpUnder c (s.cmpInput c uv) s.frameTick = true) (hinit : (s.cmp c).initHold = true) :
    Completes (.cmpFirstDecision c uv) s fun t => (t.cmp c).decided = true ∧ (t.cmp c).out = false ∧
      (t.cmp c).initHold = false ∧ CmpsBut c s t ∧ SameBut [.cmps] s t := by
  have hexec := cmpFirstDecision_exec (uv := uv) hruns hfirst
  rw [if_neg (by simp [hover]), if_pos hunder] at hexec
  obtain ⟨hothers, hcmp⟩ := (s.cmpFirst c).cmp_cmpRelease c s.frameTick
  rw [State.cmp_cmpFirst, if_pos (by simp [hinit])] at hcmp
  refine ⟨_, hexec, by rw [hcmp]; rfl, by rw [hcmp]; rfl, by rw [hcmp]; rfl, fun e he => ?_, ?_⟩
  · exact (hothers e he).trans (s.cmpsBut_modCmp c _ e he)
  · exact same_step (s.modCmp_same c _) (State.cmpRelease_same ..) fun _ h => h

theorem cmpFirstDecision_asserts (hok : StoreOk s.objs) (hover : s.cmpOver c (s.cmpInput c uv) s.frameTick = true)
    (hinit : (s.cmp c).initHold = true) (hblank : s.cmpBlanked c s.frameTick = false) :
    Completes (.cmpFirstDecision c uv) s fun t => (t.cmp c).decided = true ∧ (t.cmp c).out = true ∧
      (t.cmp c).initHold = false ∧ Counts s t Ob.clsCmp c.val Ob.Cmp.asserts ∧ CmpsBut c s t := by
  have hexec := cmpFirstDecision_exec (uv := uv) hruns hfirst
  have hinit' : ((s.cmpFirst c).cmp c).initHold = true := by rw [State.cmp_cmpFirst]; exact hinit
  rw [if_pos hover, State.cmpDecide_fires (.inr hinit') hblank] at hexec
  obtain ⟨⟨device, hcmp⟩, hcounts, hothers⟩ :=
    State.cmpFire_fires (s := (s.cmpFirst c).cmpDecided c true) (c := c) (tick := s.frameTick) hok
  rw [State.cmp_cmpDecided, State.cmp_cmpFirst] at hcmp
  refine ⟨_, hexec, by rw [hcmp]; rfl, by rw [hcmp]; rfl, by rw [hcmp]; rfl, hcounts, fun e he => ?_⟩
  exact (hothers e he).trans (((s.cmpFirst c).cmpsBut_modCmp c _ e he).trans (s.cmpsBut_modCmp c _ e he))

end

end

/-- Settles O49: an assertion is `State.cmpFire_fires`, with what ROUTE says in `State.cmpFire_routes`, a decision that falls
`State.cmp_cmpRelease`, and a first decision one of the two, as the input leaves the hysteresis band. -/
theorem comparatorsAssertAndRelease : Obligations.ComparatorsAssertAndRelease := fun _ _ _ _ hs hruns =>
  ⟨fun hdecided hover => ⟨cmpAssert_stands (cmpAssert_exec hruns hdecided hover),
      cmpAssert_fires hs.store (cmpAssert_exec hruns hdecided hover)⟩,
    fun hdecided hunder => cmpDeassert_releases (cmpDeassert_exec hruns hdecided hunder),
    fun hfirst => ⟨cmpFirstDecision_waits hruns hfirst, cmpFirstDecision_releases hruns hfirst,
      cmpFirstDecision_asserts hruns hfirst hs.store⟩⟩

end Sys2Proof.Machine
end

section
/-! One step, counters and the state after a power-on reset (14 R296, 15 R304, R308, 16 R324). -/

namespace Sys2Proof.Machine

-- One proof at a time: proofs that wait for one another each hold a thread's stack.
set_option Elab.async false

/-- Settles O1: a step takes the queue apart once, and a command in front of a queue is what it finds there. -/
theorem stepRunsTheFrontCommand : Obligations.StepRunsTheFrontCommand := by
  refine ⟨fun c s => rfl, fun s hidle => ?_⟩
  rw [step, hidle]

/-- The number of a saturated word (R296). -/
theorem toNat_satWord (n : Nat) : (satWord n).toNat = min n 4294967295 := by
  rw [satWord, BitVec.toNat_ofNat, Nat.mod_eq_of_lt (by simp only [maxWord]; omega)]
  rfl

/-- Settles O7: the count is the saturated successor, written to the counter's own object. -/
theorem countersSaturate : Obligations.CountersSaturate := by
  intro s cls inst item hs
  refine ⟨?_, State.objsBut_setObj hs.store _ _ _ _⟩
  rw [State.count_eq, State.obj_setObj_self hs.store, toNat_satWord]

/-- Every log is empty at a power-on reset, and so is the object store. -/
theorem orderly_reset : Orderly State.reset :=
  ⟨StoreOk.nil, Nat.zero_le _, Nat.zero_le _, Nat.zero_le _, Nat.zero_le _, Nat.zero_le _, Nat.zero_le _⟩

/-- Settles O3: the mailbox of the reset state is the initial one. -/
theorem whatResetLeaves : Obligations.WhatResetLeaves := by
  refine ⟨⟨rfl, ?_, rfl, rfl, rfl, ?_, rfl, rfl, rfl⟩, orderly_reset⟩
  · decide
  · decide

end Sys2Proof.Machine
end

section
/-! What stands of the twin while the other chapters act (12 R258, 14 R293): they only add to what waits for the partner. -/

namespace Sys2Proof.Machine

-- One proof at a time: proofs that wait for one another each hold a thread's stack.
set_option Elab.async false

/-- From s to t nothing of the twin changes but what waits for the partner. -/
def TwinStands (s t : State) : Prop := { t.twin with outbox := [] } = { s.twin with outbox := [] }

theorem twin_same {ps : List Area} {s t : State} (h : SameBut ps s t) (hps : Area.twin ∉ ps := by decide) : t.twin = s.twin :=
  h.same .twin hps

namespace TwinStands

variable {s t u x : State}

theorem refl (s : State) : TwinStands s s := rfl

theorem trans (h : TwinStands s t) (h' : TwinStands t u) : TwinStands s u := Eq.trans h' h

theorem of_twin (h : t.twin = s.twin) : TwinStands s t := by rw [TwinStands, h]

/-- A change outside the twin. -/
theorem quiet {ps : List Area} (h : SameBut ps s t) (hps : Area.twin ∉ ps := by decide) : TwinStands s t :=
  of_twin (twin_same h hps)

/-- An update of other areas only. -/
theorem still (h : t.twin = s.twin := by rfl) : TwinStands s t := of_twin h

/-- A change outside the twin, and an update of other areas after it. -/
theorem nearly {ps : List Area} (h : SameBut ps s t) (ht : u.twin = t.twin := by rfl) (hps : Area.twin ∉ ps := by decide) :
    TwinStands s u := of_twin (ht.trans (twin_same h hps))

theorem armed_eq (h : TwinStands s t) : t.twin.armed = s.twin.armed := by
  have hfield := congrArg TwinState.armed h
  exact hfield

theorem ite {c : Prop} [Decidable c] {a b : State} (ha : TwinStands s a) (hb : TwinStands s b) :
    TwinStands s (if c then a else b) := rel_ite ha hb

theorem forEach {α : Type} {l : List α} {f : State → α → State} (hf : ∀ s a, TwinStands s (f s a)) (s : State) :
    TwinStands s (forEach l f s) := rel_forEach refl trans (fun a _ s => hf s a) s

/-! The recorder -/

theorem toTwin (s : State) (m : TwinMsg) : TwinStands s (s.toTwin m) := ite (refl s) rfl

theorem pushRam (s : State) (r : Rec) : TwinStands s (s.pushRam r) := quiet (State.pushRam_same ..)

theorem mediaFault (s : State) (r : Rec) (n : Nat) : TwinStands s (s.mediaFault r n) :=
  ite (trans (pushRam (s.modRec _) _) (toTwin (State.modRec _ _) _)) still

theorem commitRec (s : State) (r : Rec) (n : Nat) : TwinStands s (s.commitRec r n) := by
  unfold State.commitRec
  extract_lets counted spared
  have hspared : TwinStands s spared := ite still (pushRam (counted.count ..) r)
  exact ite (pushRam ..) (ite still (hspared.trans (mediaFault ..)))

theorem place (s : State) (r : Rec) : TwinStands s (s.place r) := ite still (commitRec ..)

theorem writeKeptReserve (s : State) : TwinStands s s.writeKeptReserve := by
  unfold State.writeKeptReserve
  split
  · exact refl s
  · exact ite still (place (State.modRec _ _) _)

theorem emit (s : State) (e : Ev) : TwinStands s (s.emit e) := by
  unfold State.emit
  extract_lets raised kept n flags r snapped relayed sent
  have hraised : TwinStands s raised := quiet s.raiseReserve_same
  have hkept : TwinStands s kept := hraised.trans (writeKeptReserve _)
  have hsnapped : TwinStands s snapped := hkept.trans (forEach (fun _ _ => still) _)
  have hsent : TwinStands s sent := hsnapped.trans (ite (toTwin ..) still)
  exact ite hraised (hsent.trans (ite still (place (State.modRec _ _) _)))

theorem event (s : State) (e : Ev) : TwinStands s (s.event e) := by
  unfold State.event
  split
  · exact refl s
  · exact emit s e

theorem record (h : TwinStands s x) (code cls inst sub : Nat) (data : List Byte) :
    TwinStands s (x.record code cls inst sub data) := h.trans (event ..)

theorem recordSnap (h : TwinStands s x) (code cls inst sub : Nat) (data : List Byte) (r : RailIx) (cause : Nat) :
    TwinStands s (x.recordSnap code cls inst sub data r cause) := h.trans (event ..)

theorem recordIf (h : TwinStands s x) (b : Bool) (code cls inst sub : Nat) (data : List Byte) :
    TwinStands s (x.recordIf b code cls inst sub data) := ite (h.record ..) h

theorem closeBatch (s : State) : TwinStands s s.closeBatch := by
  unfold State.closeBatch
  split
  · exact refl s
  · exact forEach emit (State.modRec _ _)

theorem anchor (s : State) (sub : Nat) : TwinStands s (s.anchor sub) := event s _

theorem disarmRec (h : TwinStands s x) : TwinStands s x.disarmRec := h.trans (quiet x.disarmRec_same)

theorem thaw (s : State) : TwinStands s s.thaw :=
  ite still (disarmRec (forEach (fun _ _ => commitRec ..) (State.modRec _ _)))

theorem drainRam (s : State) : TwinStands s s.drainRam :=
  disarmRec (forEach (fun _ _ => commitRec ..) (State.modRec _ _))

theorem save (s : State) (d : Deferred) : TwinStands s (s.save d) :=
  ite (quiet (State.writeSave_same ..)) (ite still (record still ..))

theorem saveFuses (h : TwinStands s x) : TwinStands s x.saveFuses := h.trans (save ..)

/-! Rails and their domains -/

theorem latchPhase (s : State) (n : PhaseIx) (r : RailIx) : TwinStands s (s.latchPhase n r) :=
  record (nearly (s.dropCarry_same n)) ..

theorem refreshFlt (h : TwinStands s x) : TwinStands s x.refreshFlt := h.trans (quiet x.refreshFlt_same)

theorem downEnd (s : State) (d : DomainIx) : TwinStands s (s.downEnd d) := by
  unfold State.downEnd
  extract_lets x idle latch counted latched retried waiting ended
  refine refreshFlt (trans ?_ (quiet ended.settleDev_same))
  have hlatch : TwinStands s latch := by
    unfold latch
    split
    · exact ite still still
    · exact still
  clear_value latch
  have hlatched : TwinStands s latched := hlatch.trans (trans (t := counted) still (nearly (counted.setDom_same d .latched)))
  have hwaiting : TwinStands s waiting := trans (t := retried) still (nearly (retried.setDom_same d .retryWait))
  refine ite (hlatched.record ..) (ite (hwaiting.record ..) (ite ?_ (record ?_ ..)))
  · exact trans (t := idle) still (quiet (idle.enterUp_same d true))
  · exact trans (t := idle) still (quiet (idle.setDom_same d .off))

theorem nextDown (s : State) (d : DomainIx) : TwinStands s (s.nextDown d) := by
  unfold State.nextDown
  split
  · exact downEnd s d
  · exact still

theorem enterDown (s : State) (d : DomainIx) : TwinStands s (s.enterDown d) :=
  trans (trans (forEach (fun _ _ => still) s) (quiet (State.setDom_same ..))) (nextDown ..)

theorem railWentOff (s : State) (r : RailIx) : TwinStands s (s.railWentOff r) := by
  unfold State.railWentOff
  split
  · exact refl s
  · exact ite (ite still (nextDown ..)) still

theorem reportLatch (s : State) (r : RailIx) (cause : Latch) (was : Bool) : TwinStands s (s.reportLatch r cause was) := by
  unfold State.reportLatch
  split
  · exact refl s
  · extract_lets x iso setLatch
    have hset : TwinStands s (setLatch s) := still
    split
    · exact hset.trans (enterDown ..)
    · exact ite still (hset.trans (enterDown ..))
    · exact ite still (ite (railWentOff ..) (hset.trans (railWentOff ..)))
    · exact refl s

theorem uvFaultReport (s : State) (r : RailIx) : TwinStands s (s.uvFaultReport r) :=
  record (nearly (s.abortTuneOn_same r 4)) ..

theorem recordLower (s : State) (r : RailIx) : TwinStands s (s.recordLower r) := by
  unfold State.recordLower
  extract_lets causes reported
  have hreported : TwinStands s reported := ite (uvFaultReport ..) still
  exact ite still (trans (ite hreported (hreported.record ..)) (quiet (State.clearHic_same ..)))

theorem leaveRegulation (s : State) (r : RailIx) (b : Bool) : TwinStands s (s.leaveRegulation r b) :=
  quiet (State.leaveRegulation_same ..)

theorem afterLatch (s : State) (r : RailIx) (cause : Latch) : TwinStands s (s.afterLatch r cause) :=
  refreshFlt (trans (trans (recordLower s r) (ite (leaveRegulation ..) still)) (reportLatch ..))

theorem latchRail (s : State) (r : RailIx) (cause : Latch) (code cls inst sub : Nat) (data : List Byte) :
    TwinStands s (s.latchRail r cause code cls inst sub data) :=
  ite (record still ..) (trans (recordSnap still ..) (afterLatch ..))

theorem latchRails (s : State) (rs : List RailIx) (cause : Latch) (code cls inst sub : Nat) (data : List Byte) :
    TwinStands s (s.latchRails rs cause code cls inst sub data) :=
  trans (trans (forEach (fun _ _ => still) s) (event ..)) (forEach (fun _ _ => afterLatch ..) _)

theorem crowbar (s : State) (r : RailIx) (sub cmp : Nat) : TwinStands s (s.crowbar r sub cmp) := by
  unfold State.crowbar
  extract_lets data due counted set lowered cut was left
  have hlowered : TwinStands s lowered := trans (recordSnap still ..) (recordLower ..)
  have hcut : TwinStands lowered cut := forEach (fun s n => nearly (s.dropCarry_same n)) lowered
  have hleft : TwinStands cut left := ite (leaveRegulation ..) still
  exact ite (record still ..) (refreshFlt (trans (hlowered.trans (hcut.trans hleft)) (reportLatch ..)))

theorem hiccupRail (s : State) (r : RailIx) : TwinStands s (s.hiccupRail r) := by
  unfold State.hiccupRail
  extract_lets x causes reported cleared counted begun recorded
  have hreported : TwinStands s reported := ite (uvFaultReport ..) still
  clear_value reported
  have hcleared : TwinStands s cleared := hreported.trans (quiet (State.clearHic_same ..))
  clear_value cleared
  have hrecorded : TwinStands cleared recorded := record still ..
  refine ite (quiet (State.clearHic_same ..)) (hcleared.trans (ite (latchRail ..) (hrecorded.trans ?_)))
  clear_value recorded
  exact nearly (recorded.disablePhases_same r)

/-! Skims, ports, feeds and fuses -/

theorem skimResult (s : State) (k : Skim) : TwinStands s (s.skimResult k).1 := by
  unfold State.skimResult
  dsimp only
  split
  · exact refl s
  · split
    · exact record still ..
    · exact still

theorem endSkim (s : State) (r : RailIx) (k : Skim) (passive : Bool) : TwinStands s (s.endSkim r k passive) := by
  unfold State.endSkim
  extract_lets q sensed saved
  have hres : TwinStands s q.1 := skimResult s k
  clear_value q
  have hsensed : TwinStands s sensed := hres.trans still
  clear_value sensed
  have hsaved : TwinStands s saved := hsensed.trans (ite (save ..) still)
  clear_value saved
  exact hsaved.trans still

theorem impliedWl1 (h : TwinStands s x) (p : PortIx) : TwinStands s (x.impliedWl1 p) :=
  ite h (record (h.trans (nearly (x.enterVersion_same p .wl1))) ..)

theorem rxValid (s : State) (p : PortIx) (seq : Nat) : TwinStands s (s.rxValid p seq) := quiet (State.rxValid_same ..)

theorem rxHello (s : State) (p : PortIx) (m : HelloMsg) : TwinStands s (s.rxHello p m) := by
  unfold State.rxHello
  extract_lets valid known fresh ver versioned replied recorded
  have hknown : TwinStands s known := rxValid s p m.seq
  clear_value known
  have hfresh : TwinStands s fresh := hknown.trans (ite (nearly (known.emptyPort_same p)) still)
  clear_value fresh
  have hversioned : TwinStands s versioned := hfresh.trans (quiet (State.enterVersion_same ..))
  clear_value versioned
  have hreplied : TwinStands s replied := hversioned.trans (ite still (quiet (State.enqueue_same ..)))
  have hrecorded : TwinStands s recorded := hreplied.record ..
  exact ite still (ite hfresh (hrecorded.trans (ite (quiet (State.enqueue_same ..)) still)))

theorem rxVreq (s : State) (p : PortIx) (m : VreqMsg) : TwinStands s (s.rxVreq p m) := by
  unfold State.rxVreq
  extract_lets known
  have hknown : TwinStands s known := impliedWl1 (rxValid s p m.seq) p
  exact ite still (hknown.trans (ite (quiet (State.vreqOn_same ..)) (quiet (State.vreqOn_same ..))))

theorem rxPos (s : State) (p : PortIx) (seq position : Nat) : TwinStands s (s.rxPos p seq position) := by
  unfold State.rxPos
  extract_lets known placed
  have hknown : TwinStands s known := impliedWl1 (rxValid s p seq) p
  clear_value known
  have hplaced : TwinStands s placed := hknown.trans still
  clear_value placed
  exact ite still (hplaced.trans (forEach (fun _ _ => quiet (State.ffPos_same ..)) placed))

theorem rxFrame (s : State) (p : PortIx) (hdr : Nat) (pl : List Byte) : TwinStands s (s.rxFrame p hdr pl).1 := by
  unfold State.rxFrame
  dsimp only
  split
  · exact still
  · split
    · exact still
    · split
      · exact rxHello ..
      · exact rxVreq ..
      · exact rxPos ..
      · exact quiet (State.rxStroke_same ..)
      · exact quiet (State.rxStatus_same ..)
      · exact quiet (State.rxPing_same ..)

theorem rxChars (p : PortIx) (gapEnd : Bool) (n : Nat) (cs : List RxChar) (s : State) :
    TwinStands s (s.rxChars p gapEnd n cs) := by
  induction n generalizing s cs with
  | zero => exact refl s
  | succ n ih =>
    cases cs with
    | nil => exact refl s
    | cons c cs =>
      unfold State.rxChars
      refine ite (ih ..) ?_
      split
      · exact ite still still
      · exact ih _ (s.count ..)
      · exact ih _ (s.count ..)
      · exact ih _ (s.count ..)
      · exact (rxFrame ..).trans (ih ..)

theorem feedRecord (h : TwinStands s x) (code : Nat) (f : FeedId) (sub : Nat) : TwinStands s (x.feedRecord code f sub) :=
  h.record ..

theorem setSel (h : TwinStands s x) (sel : SelState) : TwinStands s (x.setSel sel) := h.trans (quiet (State.setSel_same ..))

theorem startBreak (h : TwinStands s x) (f : FeedId) (other : Option FeedId) (b : Bool) : TwinStands s (x.startBreak f other b) :=
  h.trans (quiet (State.startBreak_same ..))

theorem onRows (s : State) (f : FeedId) : TwinStands s (s.onRows f) :=
  ite (ite (startBreak still ..) (setSel (feedRecord still ..) _)) <|
    ite (startBreak (feedRecord still ..) ..) (ite (startBreak still ..) (ite (startBreak still ..) still))

theorem selectFrame (s : State) : TwinStands s s.selectFrame := by
  refine ite still ?_
  split
  · exact quiet (State.turnOnFeed_same ..)
  · exact onRows ..
  · exact onRows ..
  · split
    · exact refl s
    · exact still
  · exact refl s

theorem warnEdge (s : State) : TwinStands s s.warnEdge :=
  ite (trans (record still ..) (quiet (State.warnAll_same _))) still

theorem feedFrame (s : State) (i : FeedIn) : TwinStands s (s.feedFrame i) := by
  unfold State.feedFrame
  extract_lets released
  have hreleased : TwinStands s released := trans (quiet (State.feedSample_same ..)) (quiet (State.releaseFeedWrites_same _))
  have hclassed : TwinStands released ((released.feedClassify .a).feedClassify .b) :=
    trans (quiet (State.feedClassify_same ..)) (quiet (State.feedClassify_same ..))
  exact trans (hreleased.trans hclassed) (trans (selectFrame _) (warnEdge _))

theorem gateFails (s : State) (f : FeedId) (k code : Nat) : TwinStands s (s.gateFails f k code) :=
  refreshFlt (setSel (feedRecord still ..) _)

theorem fuseTrip (s : State) (r : RailIx) (cause : Nat) : TwinStands s (s.fuseTrip r cause) := record still ..

theorem fuseFrame (s : State) (r : RailIx) (fsrcMv : Nat) (ftmpUv : Int) : TwinStands s (s.fuseFrame r fsrcMv ftmpUv) :=
  ite still (ite (fuseTrip (State.modFuse s r _) ..) still)

/-! Domains -/

theorem setReq (s : State) (d : DomainIx) (on : Bool) : TwinStands s (s.setReq d on) := by
  unfold State.setReq
  extract_lets x asked
  refine ite still (trans (t := asked) still (ite (quiet (State.tryStart_same ..)) ?_))
  split
  · exact enterDown ..
  · exact enterDown ..
  · exact still
  · exact trans (quiet (State.setDom_same ..)) (quiet (State.settleDev_same _))
  · exact still

theorem pinRequest (s : State) (d : DomainIx) : TwinStands s (s.pinRequest d) := by
  refine ite ?_ still
  split
  · exact setReq ..
  · exact setReq ..

theorem powerDownAll (h : TwinStands s x) : TwinStands s x.powerDownAll := by
  refine h.trans (forEach (fun s d => ?_) x)
  split
  · exact enterDown ..
  · exact enterDown ..
  · exact refl s

theorem fuseAgain (s : State) (r : RailIx) : TwinStands s (s.fuseAgain r) :=
  saveFuses (trans (t := s.modFuse r _) still (quiet (State.fuseRamp_same ..)))

theorem fuseWaited (s : State) (r : RailIx) : TwinStands s (s.fuseWaited r) := ite (fuseAgain ..) still

theorem enterRamp (s : State) (r : RailIx) : TwinStands s (s.enterRamp r) :=
  trans (t := s.modRail r _) still
    (trans (quiet (State.startLaw_same ..)) (trans (quiet (State.fuseStart_same ..)) (fuseWaited ..)))

theorem enterOff (s : State) (r : RailIx) : TwinStands s (s.enterOff r) :=
  trans (trans (quiet (State.disablePhases_same ..)) (leaveRegulation ..)) (railWentOff ..)

/-! Comparators and temperatures -/

theorem cmpRoute (s : State) (c : CmpIx) : TwinStands s (s.cmpRoute c) := by
  unfold State.cmpRoute
  extract_lets r
  split
  · exact record still ..
  · exact crowbar ..
  · exact ite (record still ..) still
  · exact latchRail ..
  · exact refreshFlt (powerDownAll (record still ..))
  · exact refl s

theorem cmpFire (s : State) (c : CmpIx) (tick : Nat) : TwinStands s (s.cmpFire c tick) :=
  trans (forEach (fun _ _ => quiet (State.tripPhase_same ..)) ((s.modCmp c _).count ..)) (cmpRoute ..)

theorem cmpDecide (s : State) (c : CmpIx) (tick : Nat) : TwinStands s (s.cmpDecide c tick) :=
  ite still (cmpFire (s.modCmp c _) ..)

theorem cmpFrame (s : State) : TwinStands s s.cmpFrame :=
  forEach (fun _ _ => ite still (ite (cmpFire ..) (ite still still))) s

theorem cmpPeriod (s : State) (n : PhaseIx) : TwinStands s (s.cmpPeriod n) :=
  forEach (fun s _ => ite (ite (cmpFire (s.modCmp _ _) ..) still) still) s

theorem cmpClear (s : State) (c : CmpIx) : TwinStands s (s.cmpClear c) :=
  ite (ite (ite (cmpFire ..) still) still) <|
    ite (refreshFlt (trans (t := s.modCmp c _) still (quiet (State.startStanding_same _)))) still

theorem cmpHiccups (s : State) : TwinStands s s.cmpHiccups := forEach (fun _ _ => ite (hiccupRail ..) still) s

theorem tempAct (s : State) (i : TempIx) (sub : Nat) : TwinStands s (s.tempAct i sub) := by
  unfold State.tempAct
  extract_lets data rs recorded
  have hrecorded : TwinStands s (recorded s) := record still ..
  clear_value recorded
  split
  · exact hrecorded.trans (forEach (fun s r => nearly (s.disablePhases_same r)) (State.modTemp _ i _))
  · exact latchRails ..
  · exact refreshFlt (powerDownAll hrecorded)
  · exact hrecorded

theorem tempLevels (s : State) (i : TempIx) : TwinStands s (s.tempLevels i) := by
  unfold State.tempLevels
  extract_lets x lv back failAct lim fast low level warn fault judged counted
  have hcounted : TwinStands s counted := ite still still
  exact hcounted.trans (ite (tempAct (counted.count ..) ..) still)

/-! Time -/

theorem timeTo (s : State) (sec : Nat) (ns : Rat) (sub : Nat) : TwinStands s (s.timeTo sec ns sub) := by
  unfold State.timeTo
  extract_lets set anchored
  have hanchored : TwinStands s anchored := anchor (set.count ..) sub
  exact ite still (hanchored.trans (ite (quiet (State.meterTimeSet_same ..)) still))

theorem mainPps (s : State) : TwinStands s s.mainPps := by
  unfold State.mainPps
  extract_lets stepNs q
  split
  · exact trans (timeTo (State.modMeter (s.modTime _) _) ..) (quiet (State.finishOpt_same ..))
  · exact ite (timeTo (s.modTime _) ..) still

/-! Object writes and the frame edge -/

theorem ffCommand (s : State) (r : RailIx) (cmd : Nat) : TwinStands s (s.ffCommand r cmd) := by
  unfold State.ffCommand
  split
  · exact quiet (State.ffClear_same ..)
  · exact save ..
  · exact quiet (State.ffRestore_same ..)
  · exact refl s

theorem writeRail (s : State) (r : RailIx) (item : Nat) (raw v : Word) : TwinStands s (s.writeRail r item raw v) := by
  unfold State.writeRail
  extract_lets set
  refine ite (quiet (State.writeTarget_same ..)) (ite (quiet (State.writeLawCtrl_same ..)) (ite (quiet (State.tblWrite_same ..))
    (ite still (ite (ffCommand ..) (trans (t := set) still (ite (quiet (State.reclamp_same ..)) (ite (ite ?_ still)
      (ite (quiet (State.ltClamp_same ..)) (ite (quiet (State.linkPolicy_same ..)) still)))))))))
  exact quiet (State.ltReset_same ..)

theorem writeCmp (s : State) (c : CmpIx) (item : Nat) (v : Word) : TwinStands s (s.writeCmp c item v) :=
  ite (cmpClear ..) (ite (trans (t := s.setObj _ _ _ _) still (quiet (State.cmpRestart_same ..))) still)

theorem applyWrite (s : State) (w : ObjWrite) : TwinStands s (s.applyWrite w) := by
  unfold State.applyWrite
  extract_lets o v marked set
  have hmarked : TwinStands s marked := quiet (State.markModified_same ..)
  clear_value marked
  have hset : TwinStands marked set := still
  clear_value set
  refine hmarked.trans (ite ?_ (ite ?_ (ite (quiet (State.writeClk_same ..)) (ite ?_ (ite (quiet (State.writeFeed_same ..))
    (ite ?_ (ite (quiet (State.abortTune_same ..)) (ite (quiet (State.writeAuth_same ..)) (hset.trans (ite ?_
      (ite (forEach pinRequest set) still)))))))))))
  · split
    · exact writeRail ..
    · exact still
  · split
    · exact quiet (State.writePhase_same ..)
    · exact still
  · split
    · exact quiet (State.writePort_same ..)
    · exact still
  · split
    · exact writeCmp ..
    · exact still
  · split
    · exact pinRequest ..
    · exact still

theorem replicate (s : State) (r : Req) : TwinStands s (s.replicate r) := ite (toTwin ..) still

theorem startSlot (h : TwinStands s x) (k : SlotIx) : TwinStands s (x.startSlot k) := h

theorem queueCoefs (h : TwinStands s x) (ms : List ObjWrite) : TwinStands s (x.queueCoefs ms) :=
  h.trans (quiet (State.queueCoefs_same ..))

theorem acceptSet (s : State) (k : SlotIx) (w : ObjWrite) : TwinStands s (s.acceptSet k w) :=
  (replicate s (.set w)).trans (ite (startSlot (queueCoefs (x := State.atEdge _ _) still _) k) (applyWrite ..))

theorem doSet (s : State) (k : SlotIx) (authed : Bool) (w : ObjWrite) : TwinStands s (s.doSet k authed w) :=
  ite (acceptSet ..) still

theorem applyMember (s : State) (budget : Bool) (ws : List ObjWrite) : TwinStands s (s.applyMember budget ws).1 := by
  unfold State.applyMember
  split
  · exact refl s
  · exact forEach applyWrite s

theorem applyMembers (budget : Bool) (ms : List (List ObjWrite)) (s : State) :
    TwinStands s (s.applyMembers budget ms).1 := by
  induction ms generalizing s with
  | nil => exact refl s
  | cons m ms ih => exact (applyMember s budget m).trans (ih _)

theorem finishOpt (h : TwinStands s x) (k : Option SlotIx) (status : Nat) (payload : List Byte) :
    TwinStands s (x.finishOpt k status payload) := h.trans (quiet (State.finishOpt_same ..))

theorem clearLatch (s : State) (r : RailIx) (override : Bool) (key : Nat) :
    TwinStands s (s.clearLatch r override key) := by
  unfold State.clearLatch
  extract_lets former freed phases fused saved idle recorded
  have hfreed : TwinStands s freed := nearly (s.endCrowbar_same r)
  clear_value freed
  have hphases : TwinStands s phases := hfreed.trans (forEach (fun _ _ => ite still still) freed)
  clear_value phases
  have hsaved : TwinStands s saved := saveFuses (hphases.trans still)
  clear_value saved
  have hidle : TwinStands saved idle := by
    unfold idle
    split
    · exact refl saved
    · exact ite (trans (nearly (saved.setDom_same _ .off)) (quiet (State.settleDev_same _))) (refl saved)
  clear_value idle
  have hrecorded : TwinStands s recorded := record (hsaved.trans hidle) ..
  exact refreshFlt (hrecorded.trans still)

theorem clearCounters (s : State) (cls inst key : Nat) : TwinStands s (s.clearCounters cls inst key) :=
  event { s with objs := _ } _

theorem commitAt (s : State) (gen : Nat) : TwinStands s (s.commitAt gen) := by
  unfold State.commitAt
  split
  · exact refl s
  next q _ =>
    extract_lets installed old running recorded
    have hinstalled : TwinStands s installed := quiet (State.install_same ..)
    clear_value installed
    have hrecorded : TwinStands s recorded := record (hinstalled.trans still) ..
    exact hrecorded.trans (forEach pinRequest recorded)

theorem applyEdge (s : State) (a : EdgeAction) : TwinStands s (s.applyEdge a) := by
  unfold State.applyEdge
  split
  · exact ite (finishOpt (applyWrite ..) ..) (finishOpt still ..)
  · exact finishOpt (applyMembers ..) ..
  · exact finishOpt (applyMembers ..) ..
  · exact finishOpt (forEach (fun _ _ => setReq ..) s) ..
  · exact quiet (State.applyTargets_same ..)
  · exact finishOpt (clearLatch ..) ..
  · split
    · exact finishOpt still ..
    · exact quiet (State.tuneBegin_same ..)
  · exact finishOpt (quiet (State.freeze_same s)) ..
  · exact finishOpt (clearCounters ..) ..
  · exact finishOpt (commitAt ..) ..
  · exact quiet (State.useCoefs_same ..)
  · exact finishOpt (ffCommand ..) ..

theorem applyQueue (s : State) : TwinStands s s.applyQueue :=
  trans (forEach applyEdge { s with edgeQueue := [] }) (forEach applyEdge _)

/-! The mailbox -/

theorem irq (h : TwinStands s x) (k : Fin 16) : TwinStands s (x.irq k) := h

theorem authCheck (s : State) (r : Req) (op : Nat) (body : List Byte) (block : Option (List Byte)) :
    TwinStands s (s.authCheck r op body block).1 := by
  unfold State.authCheck
  split
  · exact refl s
  · dsimp only
    split
    · exact still
    · exact event _ _

theorem checkRequest (s : State) (k : SlotIx) : TwinStands s (s.checkRequest k).1 := by
  unfold State.checkRequest
  split
  · exact refl s
  · dsimp only
    split <;> exact authCheck ..

theorem takeSlot (s : State) (k : SlotIx) : TwinStands s (s.takeSlot k) := by
  unfold State.takeSlot
  extract_lets p q ordered taken
  have hchecked : TwinStands s q.1 := checkRequest s k
  clear_value q
  split <;> exact hchecked.trans still

theorem acceptEdge (h : TwinStands s x) (k : SlotIx) (r : Req) (a : EdgeAction) : TwinStands s (x.acceptEdge k r a) :=
  h.trans (replicate x r)

theorem domainReq (s : State) (k : SlotIx) (r : Req) (mask : BitVec 8) (on : Bool) :
    TwinStands s (s.domainReq k r mask on) := ite (acceptEdge still ..) still

theorem clearRecords (s : State) (n key : Nat) : TwinStands s (s.clearRecords n key).1 :=
  disarmRec (event (State.count (s.modRec _) ..) _)

theorem rejectCommit (h : TwinStands s x) (k : SlotIx) (status : Nat) (f : Option ImageFault) :
    TwinStands s (x.rejectCommit k status f) := h.trans (quiet (State.rejectCommit_same ..))

theorem commitStaged (s : State) (k : SlotIx) (len : Nat) : TwinStands s (s.commitStaged k len) := by
  refine ite still (ite (rejectCommit still ..) ?_)
  split
  · exact rejectCommit still ..
  · extract_lets paired agrees asked
    have hasked : TwinStands s asked := ite still still
    exact ite (rejectCommit hasked ..)
      (ite (rejectCommit hasked ..) (hasked.trans (acceptEdge (x := { asked with cfg := _ }) still ..)))

theorem timeNow (s : State) (sec ns : Nat) : TwinStands s (s.timeNow sec ns) := by
  unfold State.timeNow
  extract_lets old set metered
  have hset : TwinStands s set := trans (quiet s.supersedeSet_same) (timeTo ..)
  have hmetered : TwinStands s metered := hset.trans (ite still still)
  exact hmetered.trans (quiet (State.timeIrq_same ..))

theorem startTune (s : State) (k : SlotIx) (r : Req) (rail : Nat) (auto : Bool) :
    TwinStands s (s.startTune k r rail auto) := by
  unfold State.startTune
  split
  · refine ite still ?_
    split
    · exact still
    · exact acceptEdge still ..
  · exact still

theorem onRequest (s : State) (k : SlotIx) (r : Req) {f : Option Nat → State} (hf : ∀ key, TwinStands s (f key)) :
    TwinStands s (s.onRequest k r f) := by
  unfold State.onRequest
  split
  · exact ite (hf _) still
  · exact refl s

theorem onSet (s : State) (k : SlotIx) (o : Obj) (v : Word) : TwinStands s (s.onSet k o v) :=
  onRequest s k _ fun _ => doSet ..

/-! The recorder's own commands, sleep and the lost regions -/

theorem storeSnap (h : TwinStands s x) (q : Snap) : TwinStands s (x.storeSnap q) :=
  h.trans (save (State.irq (x.modRec _) _) _)

theorem takeDue (s : State) (ok : Bool) : TwinStands s (s.takeDue ok) := by
  unfold State.takeDue
  split
  · exact refl s
  next q rest _ =>
    have hdue : TwinStands s ((s.modRec fun x => { x with due := rest }).thawHistory q) :=
      trans (t := s.modRec _) still (quiet (State.thawHistory_same ..))
    exact hdue.trans (ite (storeSnap still q) still)

theorem storeWaiting (s : State) : TwinStands s s.storeWaiting := by
  unfold State.storeWaiting
  split
  · exact ite (storeSnap still _) still
  · exact refl s

theorem mediaRetry (s : State) : TwinStands s s.mediaRetry := by
  refine ite ((drainRam s).record ..) (ite (record (disarmRec ?_) ..) still)
  exact nearly s.moveToSpare_same

theorem enterSleep (s : State) : TwinStands s s.enterSleep := by
  unfold State.enterSleep
  extract_lets low thawed cleared free
  have hthawed : TwinStands s thawed := trans (t := s.modMb _) still (thaw _)
  clear_value thawed
  have hcleared : TwinStands thawed cleared := forEach (fun _ _ => ite still still) thawed
  clear_value cleared
  exact hthawed.trans (hcleared.trans (trans (t := { free with feeds := _, dev := _ }) still (quiet (State.refreshFstat_same _))))

theorem loseRegion (s : State) (k : Nat) : TwinStands s (s.loseRegion k) := by
  unfold State.loseRegion
  split
  · exact still
  · exact ite (recordIf still ..) (ite (recordIf still ..) (ite (recordIf still ..) (ite still still)))

end TwinStands

end Sys2Proof.Machine
end

section
/-! What every command keeps (12 R256, R262, 13 R272, R276, R278, 14 R287 to R292): the queue, the evidence, order, and a
device that is not armed. -/

namespace Sys2Proof.Machine

-- One proof at a time: proofs that wait for one another each hold a thread's stack.
set_option Elab.async false

/-- From s to t the queue, the evidence and order are kept, and a device that is not armed stays so. -/
structure Kept (s t : State) : Prop where
  keeps : Keeps s t
  unarmed : s.twin.armed = false → t.twin.armed = false

namespace Kept

variable {s x t : State}

theorem refl (s : State) : Kept s s := ⟨.refl s, id⟩

theorem trans (h : Kept s x) (h' : Kept x t) : Kept s t := ⟨h.keeps.trans h'.keeps, h'.unarmed ∘ h.unarmed⟩

/-- An operation that leaves the twin alone but for what waits for the partner. -/
theorem op (h : Kept s x) (hk : Keeps x t) (ht : TwinStands x t) : Kept s t :=
  h.trans ⟨hk, fun hu => ht.armed_eq.trans hu⟩

/-- An operation outside the twin. -/
theorem quiet {ps : List Area} (h : Kept s x) (hk : Keeps x t) (hs : SameBut ps x t) (hps : Area.twin ∉ ps := by decide) :
    Kept s t := h.op hk (.quiet hs hps)

/-- An update of areas that hold neither logs nor objects. -/
theorem free (h : Kept s x) (hq : t.pending = x.pending := by rfl) (ho : t.objs = x.objs := by rfl)
    (hm : t.meter = x.meter := by rfl) (hr : t.recd = x.recd := by rfl) (ht : t.twin.armed = x.twin.armed := by rfl) :
    Kept s t :=
  h.trans ⟨⟨hq, hm ▸ evidence_refl _, fun o => ⟨ho ▸ o.store, hr ▸ o.ring, hr ▸ o.spare, hr ▸ o.ram, hr ▸ o.hold,
    hm ▸ o.intervals, hm ▸ o.audit⟩⟩, fun hu => ht.trans hu⟩

theorem ite {c : Prop} [Decidable c] {a b : State} (ha : Kept s a) (hb : Kept s b) : Kept s (if c then a else b) := rel_ite ha hb

theorem forEach {α : Type} {l : List α} {f : State → α → State} (h : Kept s x) (hf : ∀ s a, Kept s (f s a)) :
    Kept s (forEach l f x) := h.trans (rel_forEach refl trans (fun a _ s => hf s a) x)

theorem setObj (h : Kept s x) (cls inst item : Nat) (v : Word) : Kept s (x.setObj cls inst item v) :=
  h.quiet (State.setObj_keeps ..) (State.setObj_same ..)

theorem countN (h : Kept s x) (cls inst item n : Nat) : Kept s (x.countN cls inst item n) := h.setObj ..

theorem count (h : Kept s x) (cls inst item : Nat) : Kept s (x.count cls inst item) := h.setObj ..

theorem countIf (h : Kept s x) (b : Bool) (cls inst item : Nat) : Kept s (x.countIf b cls inst item) := ite (h.count ..) h

theorem irq (h : Kept s x) (k : Fin 16) : Kept s (x.irq k) := h.free

theorem finish (h : Kept s x) (k : SlotIx) (status : Nat) (payload : List Byte) : Kept s (x.finish k status payload) := h.free

theorem finishOpt (h : Kept s x) (k : Option SlotIx) (status : Nat) (payload : List Byte) :
    Kept s (x.finishOpt k status payload) := h.quiet (State.finishOpt_keeps ..) (State.finishOpt_same ..)

theorem event (h : Kept s x) (e : Ev) : Kept s (x.event e) := h.op (State.event_keeps ..) (.event ..)

theorem record (h : Kept s x) (code cls inst sub : Nat) (data : List Byte) : Kept s (x.record code cls inst sub data) :=
  h.event _

theorem recordIf (h : Kept s x) (b : Bool) (code cls inst sub : Nat) (data : List Byte) :
    Kept s (x.recordIf b code cls inst sub data) := ite (h.record ..) h

theorem anchor (h : Kept s x) (sub : Nat) : Kept s (x.anchor sub) := h.op (State.anchor_keeps ..) (.anchor ..)

theorem replicate (h : Kept s x) (r : Req) : Kept s (x.replicate r) := h.op (State.replicate_keeps ..) (.replicate ..)

theorem refreshFlt (h : Kept s x) : Kept s x.refreshFlt := h.quiet (State.refreshFlt_keeps _) (State.refreshFlt_same _)

theorem refreshFstat (h : Kept s x) : Kept s x.refreshFstat := h.quiet (State.refreshFstat_keeps _) (State.refreshFstat_same _)

theorem latchRail (h : Kept s x) (r : RailIx) (cause : Latch) (code cls inst sub : Nat) (data : List Byte) :
    Kept s (x.latchRail r cause code cls inst sub data) := h.op (State.latchRail_keeps ..) (.latchRail ..)

/-- A change of the meter that leaves its logs, numbers and SEAL_COUNT alone. -/
theorem modMeter (h : Kept s x) {f : MeterState → MeterState} (hf : (f x.meter).sealCount = x.meter.sealCount ∧
    (f x.meter).ivNext = x.meter.ivNext ∧ (f x.meter).audit = x.meter.audit ∧ (f x.meter).intervals = x.meter.intervals) :
    Kept s (x.modMeter f) := h.quiet (State.modMeter_keeps_same hf) (State.modMeter_same ..)

/-- A change of the recorder that keeps every log within its memory. -/
theorem modRec (h : Kept s x) {f : RecState → RecState} (hf : RecFits x.recd → RecFits (f x.recd)) : Kept s (x.modRec f) :=
  h.quiet (State.modRec_keeps hf) (State.modRec_same ..)

/-- A change of the twin that leaves it armed or unarmed as it was. -/
theorem modTwin (h : Kept s x) {f : TwinState → TwinState} (hf : (f x.twin).armed = x.twin.armed := by rfl) :
    Kept s (x.modTwin f) :=
  h.free (ht := hf)

theorem onRequest (s : State) (k : SlotIx) (r : Req) {f : Option Nat → State} (hf : ∀ key, Kept s (f key)) :
    Kept s (s.onRequest k r f) := by
  unfold State.onRequest
  split
  · exact ite (hf _) (refl s)
  · exact refl s

/-! The twin -/

theorem setRole (h : Kept s x) (role : TwinRole) : Kept s (x.setRole role) := irq (record (h.free) ..) _

theorem abortHandover (h : Kept s x) : Kept s x.abortHandover := by
  unfold State.abortHandover
  split
  · exact h.free
  · exact h

theorem endArm (h : Kept s x) : Kept s x.endArm := by
  unfold State.endArm
  split
  · exact h.free
  · exact h

theorem unarmFor (h : Kept s x) (u : Unarm) : Kept s (x.unarmFor u) :=
  h.trans ⟨State.unarmFor_keeps .., fun _ => by
    unfold State.unarmFor
    extract_lets was unarmed reported
    have hunarmed : unarmed.twin.armed = false := rfl
    clear_value unarmed
    have hreported : Kept unarmed reported := ite (irq (record (count (refl _) ..) ..) _) (refl _)
    exact (abortHandover (endArm hreported)).unarmed hunarmed⟩

theorem resync (h : Kept s x) : Kept s x.resync := h.free

theorem drive (h : Kept s x) : Kept s x.drive :=
  forEach (h.free (t := x.modTwin _)) fun s n =>
    free (quiet (refl s) (State.nextOnSchedule_keeps s n) (State.nextOnSchedule_same s n))

theorem sendAlign (h : Kept s x) : Kept s x.sendAlign := by
  refine h.op (State.sendAlign_keeps _) (.ite (.refl _) ?_)
  extract_lets k aligned
  have haligned : TwinStands x aligned := .ite (.toTwin ..) (.refl _)
  exact .ite (haligned.trans (.toTwin ..)) haligned

theorem adopt (h : Kept s x) (ar : AlignRec) : Kept s (x.adopt ar) := h.quiet (State.adopt_keeps ..) (State.adopt_same ..)

theorem adoptFrame (h : Kept s x) : Kept s x.adoptFrame := by
  unfold State.adoptFrame
  split
  · exact h
  next ar _ =>
    extract_lets lag adopted
    clear_value lag
    have hadopted : Kept s adopted := modTwin (h.adopt ar)
    clear_value adopted
    exact ite (resync (unarmFor hadopted _)) hadopted

theorem applyReplicated (h : Kept s x) : Kept s x.applyReplicated :=
  forEach (h.free (t := x.modTwin _)) fun _ _ => (refl _).op (State.applyEdge_keeps ..) (.applyEdge ..)

theorem twinFrame (h : Kept s x) (actN heartbeat twFs : Bool) : Kept s (x.twinFrame actN heartbeat twFs) := by
  unfold State.twinFrame
  extract_lets hb counted fol missed locked sent driven ended adopted
  refine ite h ?_
  have hcounted : Kept s counted := h.countIf ..
  clear_value counted
  have hlocked : Kept s locked := hcounted.free
  clear_value locked
  have hsent : Kept s sent := hlocked.sendAlign
  clear_value sent
  have hdriven : Kept s driven := by
    unfold driven
    split
    · exact ite hsent.drive hsent
    · exact hsent
  clear_value driven
  have hended : Kept s ended := by
    unfold ended
    split
    · exact ite hdriven.free hdriven
    · exact hdriven
  clear_value ended
  have hadopted : Kept s adopted := hended.adoptFrame.applyReplicated
  exact ite (ite hadopted.resync hadopted) hended

theorem followStarted (h : Kept s x) (started : List Nat) : Kept s (x.followStarted started) := by
  unfold State.followStarted
  extract_lets old dropped
  have hdropped : Kept s dropped := h.forEach fun _ _ => (refl _).free
  clear_value dropped
  exact hdropped.free

/-! The frame -/

theorem frameLaw (h : Kept s x) (inp : FrameIn) : Kept s (x.frameLaw inp) := by
  unfold State.frameLaw
  extract_lets ticked twin railed sensed measured
  have hticked : Kept s ticked :=
    (h.quiet (State.tick_keeps ..) (State.tick_same ..)).quiet (State.engineBack_keeps _) (State.engineBack_same _)
  have htwin : Kept s twin := twinFrame (hticked.op (State.applyQueue_keeps _) (.applyQueue _)) ..
  have hrailed : Kept s railed := htwin.forEach fun _ _ => (refl _).quiet (State.railFrame_keeps ..) (State.railFrame_same ..)
  have hsensed : Kept s sensed := hrailed.quiet (State.sense_keeps ..) (State.sense_same ..)
  have hmeasured : Kept s measured :=
    hsensed.forEach fun _ _ => (refl _).quiet (State.measureFrame_keeps ..) (State.measureFrame_same ..)
  exact hmeasured.forEach fun _ _ => (refl _).quiet (State.slamFrame_keeps ..) (State.slamFrame_same ..)

theorem frameJudge (h : Kept s x) (inp : FrameIn) : Kept s (x.frameJudge inp) := by
  unfold State.frameJudge
  extract_lets held tuned judged hiccuped scaled placed
  have htuned : Kept s tuned := h.quiet (State.tuneFrame_keeps ..) (State.tuneFrame_same ..)
  have hjudged : Kept s judged := htuned.forEach fun _ _ => (refl _).quiet (State.railJudge_keeps ..) (State.railJudge_same ..)
  have hhiccuped : Kept s hiccuped :=
    (hjudged.quiet (State.injectFrame_keeps _) (State.injectFrame_same _)).op (State.cmpHiccups_keeps _) (.cmpHiccups _)
  have hscaled : Kept s scaled := hhiccuped.forEach fun _ _ => (refl _).quiet (State.scaleFrame_keeps ..)
    (State.scaleFrame_same ..)
  have hplaced : Kept s placed := hscaled.forEach fun _ _ => (refl _).quiet (State.railPlace_keeps ..) (State.railPlace_same ..)
  exact ite hplaced (hplaced.quiet (State.arbiter_keeps _) (State.arbiter_same _))

theorem frameRest (h : Kept s x) (inp : FrameIn) : Kept s (x.frameRest inp) := by
  unfold State.frameRest
  extract_lets fed limited linked fused good compared
  have hfed : Kept s fed := h.op (State.feedFrame_keeps ..) (.feedFrame ..)
  have hlimited : Kept s limited := hfed.forEach fun _ _ => (refl _).quiet (State.inputFrame_keeps ..) (State.inputFrame_same ..)
  have hlinked : Kept s linked := ite hlimited (hlimited.quiet (State.linkFrame_keeps _) (State.linkFrame_same _))
  have hfused : Kept s fused := hlinked.forEach fun _ _ => (refl _).op (State.fuseFrame_keeps ..) (.fuseFrame ..)
  have hgood : Kept s good := hfused.forEach fun _ _ => (refl _).quiet (State.goodFrame_keeps ..) (State.goodFrame_same ..)
  have hcompared : Kept s compared :=
    (hgood.quiet (State.levelTrips_keeps _) (State.levelTrips_same _)).op (State.cmpFrame_keeps _) (.cmpFrame _)
  exact (((hcompared.quiet (State.pinFrame_keeps ..) (State.pinFrame_same ..)).quiet (State.peakFrame_keeps ..)
    (State.peakFrame_same ..)).quiet (State.meterFrame_keeps _) (State.meterFrame_same _)).quiet (State.assignSlots_keeps _)
    (State.assignSlots_same _)

theorem frameEnd (h : Kept s x) : Kept s x.frameEnd := by
  unfold State.frameEnd
  extract_lets rows closed
  have hrows : Kept s rows := h.forEach fun _ _ => (refl _).quiet (State.historyFrame_keeps ..) (State.historyFrame_same ..)
  have hshown : Kept s rows.refreshFlt.refreshPg := hrows.refreshFlt.quiet (State.refreshPg_keeps _) (State.refreshPg_same _)
  exact (hshown.op (State.closeBatch_keeps _) (.closeBatch _)).refreshFlt.refreshFstat

theorem frame (h : Kept s x) (inp : FrameIn) : Kept s (x.frame inp) :=
  ((((h.quiet (State.openBatch_keeps _) (State.openBatch_same _)).frameLaw inp).frameJudge inp).frameRest inp).frameEnd

/-! Resets, boot and the supply -/

/-- A reset leaves the twin's pairing behind. -/
theorem resetTo (h : Kept s x) (cause : Nat) : Kept s (x.resetTo cause) := h.trans ⟨State.resetTo_keeps .., fun _ => rfl⟩

theorem bootRecords (h : Kept s x) (intact : Bool) : Kept s (x.bootRecords intact) := by
  refine h.op (State.bootRecords_keeps ..) ?_
  unfold State.bootRecords
  extract_lets numbered noted copy booted held configured
  have hbooted : TwinStands x booted := .record (.recordIf .still ..) ..
  clear_value booted
  have hlost : TwinStands x ((booted.anchor 1).bootLost intact) := by
    refine (hbooted.trans (.anchor ..)).trans (.ite (.refl _) ?_)
    extract_lets lost deferred
    have hlost : TwinStands (booted.anchor 1) lost := .recordIf (.refl _) ..
    exact (hlost.trans (.recordIf (.refl _) ..)).trans (.quiet (State.irqIf_same ..))
  have hheld : TwinStands x held := hlost.trans (.trans (t := State.modRec _ _) .still (.thaw _))
  clear_value held
  have hconfigured : TwinStands x configured := hheld.recordIf ..
  exact .ite (hconfigured.trans (.drainRam _)) hconfigured.disarmRec

theorem bootConfig (h : Kept s x) : Kept s x.bootConfig := by
  refine h.trans ⟨State.bootConfig_keeps _, fun hu => ?_⟩
  unfold State.bootConfig
  extract_lets q ran stored tables railed phased ported ctrl
  have hstored : TwinStands x stored := by
    unfold stored
    cases q <;> exact .still
  clear_value stored
  have hrailed : TwinStands stored railed := .forEach
    (fun _ _ => .trans (.quiet (State.loadCoefs_same ..)) (.quiet (State.bootTables_same ..))) _
  have hphased : TwinStands railed phased := .forEach (fun _ _ => .still) _
  have hported : TwinStands phased ported := .forEach (fun _ _ => .ite (.quiet (State.enablePort_same ..)) (.refl _)) _
  exact (((hstored.trans hrailed).trans hphased).trans hported).armed_eq.trans hu

theorem bootTime (h : Kept s x) (n : Nat) : Kept s (x.bootTime n) := h.quiet (State.bootTime_keeps ..) (State.bootTime_same ..)

theorem bootFull (h : Kept s x) (k : Nat) : Kept s (x.bootFull k) := by
  unfold State.bootFull
  extract_lets intact timed configured compared tailed firmware device standing flushed
  have htimed : Kept s timed := ((h.quiet (State.bootFirmware_keeps ..) (State.bootFirmware_same ..)).quiet
    (State.bootMeter_keeps _) (State.bootMeter_same _)).bootTime _
  have hconfigured : Kept s configured := by
    have := htimed.bootConfig.quiet (State.bootStates_keeps _) (State.bootStates_same _)
    unfold configured
    generalize timed.bootConfig.bootStates = y at *
    exact this.free
  have hcompared : Kept s compared := (hconfigured.bootRecords _).forEach fun _ _ =>
    (refl _).quiet (State.cmpRestart_keeps ..) (State.cmpRestart_same ..)
  have hstanding : Kept s standing := free (hcompared.bootTime _)
  have hflushed : Kept s flushed := ite (hstanding.quiet (State.flushSaves_keeps _) (State.flushSaves_same _)) hstanding
  exact ((hflushed.refreshFlt.quiet (State.refreshPg_keeps _) (State.refreshPg_same _)).irq _).refreshFstat

theorem bootNow (h : Kept s x) : Kept s x.bootNow := by
  unfold State.bootNow
  extract_lets old counted
  have hcounted : Kept s counted := h.free
  split
  · exact hcounted.bootFull _
  · exact hcounted.quiet (State.bootRecovery_keeps _) (State.bootRecovery_same _)

end Kept

end Sys2Proof.Machine
end

section
/-! Every command completes and keeps what it must (opcode_table.json: every row). -/

namespace Sys2Proof.Machine

-- One proof at a time: proofs that wait for one another each hold a thread's stack.
set_option Elab.async false

/-- The command with this outcome completes in s and keeps what every command keeps. -/
def Ends (s : State) (o : Out) : Prop := ∃ t, o = .next t ∧ Kept s t

namespace Kept

variable {s x t : State}

theorem next (h : Kept s t) : Ends s (.next t) := ⟨t, rfl, h⟩

theorem idle : Ends s (.next s) := next (refl s)

theorem fork {c : Prop} [Decidable c] {a b : Out} (ha : Ends s a) (hb : Ends s b) : Ends s (if c then a else b) := by
  split
  · exact ha
  · exact hb

/-- A command under a condition that does nothing where it fails. -/
theorem when {c : Prop} [Decidable c] (h : Kept s t) : Ends s (.next (if c then t else s)) := next (ite h (refl s))

/-- A command that answers a request. -/
theorem answers (k : SlotIx) (r : Req) {f : Option Nat → State} (hf : ∀ key, Kept s (f key)) :
    Ends s (.next (s.onRequest k r f)) := next (onRequest s k r hf)

theorem finished (s : State) (k : SlotIx) (status : Nat) (payload : List Byte) : Kept s (s.finish k status payload) :=
  finish (refl s) ..

theorem startSlot (h : Kept s x) (k : SlotIx) : Kept s (x.startSlot k) := h.free

theorem modClk (h : Kept s x) (f : ClkState → ClkState) : Kept s (x.modClk f) := h.free

theorem modTime (h : Kept s x) (f : TimeState → TimeState) : Kept s (x.modTime f) := h.free

theorem modMb (h : Kept s x) (f : MbState → MbState) : Kept s (x.modMb f) := h.free

theorem modNvm (h : Kept s x) (f : NvmState → NvmState) : Kept s (x.modNvm f) := h.free

theorem modGen (h : Kept s x) (n : PhaseIx) (f : GenState → GenState) : Kept s (x.modGen n f) := h.free

theorem modSense (h : Kept s x) (n : PhaseIx) (f : SenseState → SenseState) : Kept s (x.modSense n f) := h.free

theorem modPlc (h : Kept s x) (r : RailIx) (f : PlcState → PlcState) : Kept s (x.modPlc r f) := h.free

theorem modMeas (h : Kept s x) (r : RailIx) (f : MeasState → MeasState) : Kept s (x.modMeas r f) := h.free

theorem modProf (h : Kept s x) (r : RailIx) (f : ProfState → ProfState) : Kept s (x.modProf r f) := h.free

theorem modFf (h : Kept s x) (r : RailIx) (f : FfState → FfState) : Kept s (x.modFf r f) := h.free

theorem modFuse (h : Kept s x) (r : RailIx) (f : FuseState → FuseState) : Kept s (x.modFuse r f) := h.free

theorem modProt (h : Kept s x) (r : RailIx) (f : ProtState → ProtState) : Kept s (x.modProt r f) := h.free

theorem modSeq (h : Kept s x) (r : RailIx) (f : SeqState → SeqState) : Kept s (x.modSeq r f) := h.free

theorem modDomain (h : Kept s x) (d : DomainIx) (f : DomainState → DomainState) : Kept s (x.modDomain d f) := h.free

theorem modPort (h : Kept s x) (p : PortIx) (f : PortState → PortState) : Kept s (x.modPort p f) := h.free

theorem modCmp (h : Kept s x) (c : CmpIx) (f : CmpState → CmpState) : Kept s (x.modCmp c f) := h.free

theorem modTemp (h : Kept s x) (i : TempIx) (f : TempState → TempState) : Kept s (x.modTemp i f) := h.free

theorem onGet (s : State) (k : SlotIx) (o : Obj) : Kept s (s.onGet k o) :=
  refl s |>.quiet (State.onGet_keeps ..) (State.onGet_same ..)

theorem onSet (s : State) (k : SlotIx) (o : Obj) (v : Word) : Kept s (s.onSet k o v) :=
  refl s |>.op (State.onSet_keeps ..) (.onSet ..)

theorem enqueue (h : Kept s x) (p : PortIx) (m : TxMsg) : Kept s (x.enqueue p m) :=
  h |>.quiet (State.enqueue_keeps ..) (State.enqueue_same ..)

theorem restart (h : Kept s x) (r : RailIx) : Kept s (x.restart r) := h |>.quiet (State.restart_keeps ..) (State.restart_same ..)

theorem meterAnswer (h : Kept s x) (k : SlotIx) (status : Nat) : Kept s (x.meterAnswer k status) :=
  h |>.quiet (State.meterAnswer_keeps ..) (State.meterAnswer_same ..)

theorem inSession (s : State) (k : SlotIx) {f : State → State} (hf : ∀ x, Kept x (f x)) : Kept s (s.inSession k f) :=
  ite ((refl s).meterAnswer ..) ((modMeter (refl s) ⟨rfl, rfl, rfl, rfl⟩).trans (hf _))

theorem armSlot (h : Kept s x) (k : SlotIx) (cause : Nat) : Kept s (x.armSlot k cause) :=
  h |>.quiet (State.armSlot_keeps ..) (State.armSlot_same ..)

/-! Requests -/

theorem execSetGroup (slot : SlotIx) (ms : List ObjWrite) : Ends s (execSetGroup slot ms s) := by
  refine answers slot (.setGroup ms) fun key => ite (finished ..) ?_
  split
  · exact finished ..
  · exact refl s |>.replicate _ |>.quiet (State.atEdge_keeps ..) (State.atEdge_same ..)
      |>.quiet (State.queueCoefs_keeps ..) (State.queueCoefs_same ..) |>.startSlot _

theorem execRailClearLatch (slot : SlotIx) (rail : Nat) (override : Bool) : Ends s (execRailClearLatch slot rail override s) := by
  refine answers slot (.railClearLatch rail override) fun key => ?_
  split
  · exact ite (finished ..) (refl s |>.op (State.acceptEdge_keeps ..) (.acceptEdge (.refl _) ..))
  · exact finished ..

theorem execSnapRead (slot : SlotIx) (snap offset len : Nat) : Ends s (execSnapRead slot snap offset len s) := by
  refine answers slot (.snapRead snap offset len) fun _ => ?_
  split
  · exact finished ..
  · exact ite (finished ..) (finished ..)

theorem execCfgStage (slot : SlotIx) (offset : Nat) (data : List Byte) : Ends s (execCfgStage slot offset data s) :=
  answers slot (.cfgStage offset data) fun _ => ite (finished ..) <| ite (finished ..) <| ite (finished ..) <|
    refl s |>.replicate _ |>.free |>.finish ..

theorem execCfgRead (slot : SlotIx) (copy offset len : Nat) : Ends s (execCfgRead slot copy offset len s) := by
  refine answers slot (.cfgRead copy offset len) fun _ => ite (finished ..) ?_
  split
  · exact finished ..
  · exact ite (finished ..) (finished ..)

theorem execFwActivate (slot : SlotIx) (fwSlot : Nat) : Ends s (execFwActivate slot fwSlot s) :=
  answers slot (.fwActivate fwSlot) fun _ => ite (finished ..) <| ite (finished ..) <| ite (finished ..) <|
    ite (finished ..) <| (refl s).free |>.record .. |>.armSlot ..

theorem execTwinArm (slot : SlotIx) : Ends s (execTwinArm slot s) := by
  refine answers slot .twinArm fun _ => ?_
  split
  · exact finished ..
  · exact ite (finished ..) (ite ((refl s).resync.modTwin.startSlot _) ((refl s).modTwin.finish ..))
  · exact finished ..

theorem execMeterRead (slot : SlotIx) (what first index count : Nat) : Ends s (execMeterRead slot what first index count s) := by
  refine answers slot (.meterRead what first index count) fun _ => ite (finished ..) ?_
  split
  · exact finished ..
  · exact finished ..

theorem execMeterSessionKeyLoad (slot : SlotIx) (key : List Byte) : Ends s (execMeterSessionKeyLoad slot key s) :=
  answers slot (.meterKeyLoad key) fun _ => ite
    (inSession s slot fun x => refl x |>.quiet (State.meterStage_keeps ..) (State.meterStage_same ..)) <|
    ite ((refl s).meterAnswer ..)
      (modMeter (refl s) ⟨rfl, rfl, rfl, rfl⟩ |>.quiet (State.sealStep_keeps ..) (State.sealStep_same ..) |>.meterAnswer ..)

theorem execSpiTransaction (mosi : List Byte) : Ends s (execSpiTransaction mosi s) := by
  refine fork idle ?_
  split
  · exact idle
  · refine fork (next (modMb (ite (refl s |>.quiet (State.hostWrite_keeps ..) (State.hostWrite_same ..)) (refl s)) _)) <| fork
      (next (modMb ?_ _)) <|
      next (modMb (refl s |>.quiet (State.hostErr_keeps ..) (State.hostErr_same ..)) _)
    split
    · exact refl s |>.quiet (State.hostRead_keeps ..) (State.hostRead_same ..)
    · exact refl s

theorem execTblDataAccess (slot : SlotIx) (r : RailIx) (acc : TblAccess) : Ends s (execTblDataAccess slot r acc s) := by
  cases acc with
  | read => exact next (onGet ..)
  | write v => exact next (onSet ..)

/-! The frame and the phases -/

theorem execPeriodStart (n : PhaseIx) (mid : Bool) : Ends s (execPeriodStart n mid s) := by
  unfold Machine.execPeriodStart
  split
  · exact idle
  · refine fork idle ?_
    extract_lets placed g was started
    have hplaced : Kept s placed := refl s |>.quiet (State.placeCarrier_keeps ..) (State.placeCarrier_same ..)
    have hstarted : Kept s started := hplaced |>.quiet (State.startPeriod_keeps ..) (State.startPeriod_same ..)
      |>.quiet (State.forceChange_keeps ..) (State.forceChange_same ..)
    exact fork (next (ite (hplaced |>.quiet (State.midReload_keeps ..) (State.midReload_same ..)) hplaced)) <|
      fork (next (ite (hstarted |>.op (State.cmpPeriod_keeps ..) (.cmpPeriod ..)) hstarted
        |>.quiet (State.startTrip_keeps ..) (State.startTrip_same ..))) (next hplaced)

theorem execTripLatch (n : PhaseIx) : Ends s (execTripLatch n s) := by
  unfold Machine.execTripLatch
  split
  · exact idle
  · refine fork idle ?_
    extract_lets was latched
    have hlatched : Kept s latched := refl s |>.quiet (State.abortSkim_keeps ..) (State.abortSkim_same ..)
      |>.op (State.latchPhase_keeps ..) (.latchPhase ..)
    exact next (ite (hlatched.latchRail ..) hlatched)

theorem execCmpFirstDecision (c : CmpIx) (pinUv : Int) : Ends s (execCmpFirstDecision c pinUv s) :=
  when <| ite ((refl s).modCmp c _ |>.op (State.cmpDecide_keeps ..) (.cmpDecide ..))
    (ite ((refl s).modCmp c _ |>.quiet (State.cmpRelease_keeps ..) (State.cmpRelease_same ..)) ((refl s).modCmp c _))

theorem execDlcal (n : PhaseIx) (spans : Bool) (tap : Nat) : Ends s (execDlcal n spans tap s) :=
  fork idle <| fork (next ((refl s).free |>.modGen ..)) (next ((refl s).free |>.modGen .. |>.record ..))

theorem execHsunlockExpiry (n : PhaseIx) : Ends s (execHsunlockExpiry n s) := by
  unfold Machine.execHsunlockExpiry
  split
  · exact idle
  · exact when ((refl s).modGen ..)

theorem execDebugHalt (e : EngineIx) : Ends s (execDebugHalt e s) :=
  fork idle <| next <| (refl s).free |>.forEach fun s r => (refl s).forEach fun s n => refl s
    |>.quiet (State.dropCarry_keeps ..) (State.dropCarry_same ..) |>.modGen ..

theorem execDebugResume (e : EngineIx) : Ends s (execDebugResume e s) :=
  fork idle <| next <| (refl s).free |>.forEach fun s r => (refl s).modMeas r _ |>.forEach fun s n =>
    (refl s).modGen n _ |>.quiet (State.nextOnSchedule_keeps ..) (State.nextOnSchedule_same ..)

/-! Time -/

theorem execSyncInEdge (pulse : Option SyncPulse) : Ends s (execSyncInEdge pulse s) := by
  refine fork idle ?_
  split
  · exact next ((refl s).modClk _)
  · exact next ((refl s).modClk _)

theorem execHoldoverExpiry : Ends s (execHoldoverExpiry s) := by
  unfold Machine.execHoldoverExpiry
  split
  · exact when ((refl s).modClk _)
  · exact idle

theorem execPpsEdge (falling : Bool) : Ends s (execPpsEdge falling s) := by
  unfold Machine.execPpsEdge
  refine fork idle ?_
  extract_lets before beforeNs old set stepped told
  have hset : Kept s set := ite (refl s |>.op (State.mainPps_keeps ..) (.mainPps ..)) (refl s)
  have htold : Kept s told := hset |>.quiet (State.timeIrq_keeps ..) (State.timeIrq_same ..)
  exact next (ite (htold |>.quiet (State.meterPps_keeps ..) (State.meterPps_same ..)) htold)

theorem execPpsLoss : Ends s (execPpsLoss s) := by
  unfold Machine.execPpsLoss
  extract_lets lost
  have hlost : Kept s lost := ite
    ((refl s).modTime _ |>.quiet (State.timeIrq_keeps ..) (State.timeIrq_same ..) |>.count .. |>.record ..) (refl s)
  exact next (ite (hlost.modMeter ⟨rfl, rfl, rfl, rfl⟩) hlost)

theorem execTimeSetTimeout : Ends s (execTimeSetTimeout s) := by
  unfold Machine.execTimeSetTimeout
  split
  · exact idle
  · exact when ((refl s).modTime _ |>.finishOpt ..)

/-! Placement, skims and calibration -/

theorem execSkimStart (r : RailIx) : Ends s (execSkimStart r s) := by
  refine fork ?_ idle
  split
  · exact idle
  · exact next ((refl s).modPlc ..)

theorem execSkimMeasureStart (n : PhaseIx) : Ends s (execSkimMeasureStart n s) := by
  unfold Machine.execSkimMeasureStart
  split
  · exact idle
  · exact next ((refl s).modPlc ..)

theorem execSkimEnd (n : PhaseIx) : Ends s (execSkimEnd n s) := by
  unfold Machine.execSkimEnd
  split
  · exact idle
  next r _ =>
    extract_lets ended
    have hended : Kept s ended := by
      unfold ended
      split
      · exact ite (refl s |>.op (State.endSkim_keeps ..) (.endSkim ..)) (refl s)
      · exact refl s
    clear_value ended
    split
    · exact next (ite (hended |>.op (State.endSkim_keeps ..) (.endSkim ..)) hended)
    · exact next hended

theorem execPassiveSkimStart (r : RailIx) : Ends s (execPassiveSkimStart r s) := by
  refine fork ?_ idle
  split
  · exact idle
  · exact next ((refl s).modPlc ..)

theorem execGcalWindowEnd (r : RailIx) : Ends s (execGcalWindowEnd r s) := by
  unfold Machine.execGcalWindowEnd
  extract_lets x on mean counts corrected
  refine fork idle ?_
  have hcorrected : Kept s corrected := ite
    (((refl s).forEach fun s n => (refl s).modSense ..).op (State.saveZeros_keeps ..) (.save ..)) (refl s)
  exact next (hcorrected.modPlc ..)

theorem execAutotuneDesignEnd : Ends s (execAutotuneDesignEnd s) :=
  when <| ite ((refl s).free |>.setObj .. |>.setObj .. |>.setObj .. |>.setObj .. |>.setObj .. |>.finishOpt ..)
    ((refl s).free |>.finishOpt ..)

theorem execFfFadeEnd (r : RailIx) : Ends s (execFfFadeEnd r s) := by
  unfold Machine.execFfFadeEnd
  split
  · exact next ((refl s).modFf ..)
  · exact idle

/-! The links -/

theorem execVackDone (p : PortIx) : Ends s (execVackDone p s) := by
  unfold Machine.execVackDone
  split
  · exact when (refl s |>.quiet (State.enqueueAck_keeps ..) (State.enqueueAck_same ..) |>.modPort ..)
  · exact idle

theorem execLinkFrameTransmit (p : PortIx) : Ends s (execLinkFrameTransmit p s) := by
  unfold Machine.execLinkFrameTransmit
  extract_lets x counted
  split
  · exact idle
  next m _ =>
    extract_lets q refused
    refine fork idle ?_
    have hcounted : Kept s counted := (refl s).count ..
    have hrefused : Kept s refused := by
      unfold refused
      split
      · exact hcounted.count ..
      · exact hcounted
    exact next (hrefused.modPort ..)

theorem execPortLost (p : PortIx) : Ends s (execPortLost p s) := by
  unfold Machine.execPortLost
  extract_lets x t lost counted left
  refine fork idle ?_
  have hlost : Kept s lost := refl s |>.quiet (State.emptyPort_keeps ..) (State.emptyPort_same ..) |>.modPort ..
  have hleft : Kept s left := (hlost.count .. |>.record .. |>.irq _).forEach fun s r => refl s
    |>.quiet (State.strokeMismatch_keeps ..) (State.strokeMismatch_same ..)
  exact next (ite (hleft.modPort .. |>.enqueue ..) hleft)

/-! The feeds, the fuses and the levels -/

theorem execFeedReturn : Ends s (execFeedReturn s) := by
  refine next ?_
  split
  · exact refl s
  · exact ite (refl s |>.quiet (State.startBreak_keeps ..) (State.startBreak_same ..)) (refl s)

theorem execDeadEnd : Ends s (execDeadEnd s) := by
  refine when ?_
  split
  · exact ite (refl s |>.quiet (State.startMake_keeps ..) (State.startMake_same ..))
      (ite (refl s |>.quiet (State.startMake_keeps ..) (State.startMake_same ..))
      (refl s |>.quiet (State.setSel_keeps ..) (State.setSel_same ..)))
  · exact ite (refl s |>.quiet (State.startMake_keeps ..) (State.startMake_same ..))
      (refl s |>.quiet (State.setSel_keeps ..) (State.setSel_same ..))

theorem execEwarnClear : Ends s (execEwarnClear s) :=
  when <| (refl s).free |>.irq _ |>.op (State.warnRecord_keeps ..) (.record (.refl _) ..)
    |>.quiet (State.warnAll_keeps ..) (State.warnAll_same ..)

theorem execFuseRetry (r : RailIx) : Ends s (execFuseRetry r s) :=
  when <| ite ((refl s).modFuse .. |>.record ..) (ite (refl s |>.op (State.fuseAgain_keeps ..) (.fuseAgain ..)) (refl s))

theorem execLoadDetectChange (r : RailIx) (fsrcMv : Nat) : Ends s (execLoadDetectChange r fsrcMv s) :=
  when <| ite ((refl s).modFuse .. |>.record ..) (ite ((refl s).modFuse .. |>.record ..) (refl s))

theorem execOvFaultCrossing (r : RailIx) : Ends s (execOvFaultCrossing r s) := by
  have hset : Kept s (((s.abortTuneOn r 4).modProt r fun p =>
    { p with ovf := true, ovfRun := 0 }).count Ob.clsRail r.val Ob.Rail.ovFaultCnt) :=
    refl s |>.quiet (State.abortTuneOn_keeps ..) (State.abortTuneOn_same ..) |>.modProt .. |>.count ..
  exact when (ite (hset |>.op (State.crowbar_keeps ..) (.crowbar ..)) (hset.record ..))

theorem execLevelCrossingEnd (r : RailIx) (l : Level) : Ends s (execLevelCrossingEnd r l s) := by
  refine next (ite (refl s) ?_)
  cases l <;> exact ite ((refl s).modProt ..) (refl s)

theorem execHiccupRestart (r : RailIx) : Ends s (execHiccupRestart r s) := by
  unfold Machine.execHiccupRestart
  split
  · exact idle
  · exact when ((refl s).modProt .. |>.restart _)

theorem execInputHoldEnd (r : RailIx) : Ends s (execInputHoldEnd r s) := by
  unfold Machine.execInputHoldEnd
  split
  · exact idle
  · exact when ((refl s).modProt .. |>.restart _)

theorem execTempUpdate (i : TempIx) (reading : Option Int) : Ends s (execTempUpdate i reading s) := by
  unfold Machine.execTempUpdate
  extract_lets en read levelled
  refine next (ite (refl s) ?_)
  have hread : Kept s read := by
    unfold read
    refine ite ((refl s).modTemp ..) ?_
    split
    · exact (refl s).modTemp ..
    · exact (refl s).modTemp .. |>.recordIf ..
  clear_value read
  have hlevelled : Kept s levelled := hread |>.quiet (State.tempMean_keeps ..) (State.tempMean_same ..)
    |>.op (State.tempLevels_keeps ..) (.tempLevels ..)
  exact ite (hlevelled |>.quiet (State.dieWindow_keeps ..) (State.dieWindow_same ..)) hlevelled

theorem execTempStopClear (r : RailIx) : Ends s (execTempStopClear r s) :=
  when <| (refl s).forEach (fun s _ => (refl s).modTemp ..) |>.modProt .. |>.restart _

theorem execTempDeviceClear : Ends s (execTempDeviceClear s) :=
  when <| ((refl s).forEach fun s _ => (refl s).modTemp ..) |>.quiet (State.startStanding_keeps ..)
    (State.startStanding_same ..) |>.refreshFlt

/-! Domains -/

theorem execEnPinChange (pin : Fin 4) : Ends s (execEnPinChange pin s) :=
  when <| (refl s).free |>.forEach fun s d => ite ((refl s).modDomain .. |>.op (State.pinRequest_keeps ..) (.pinRequest ..))
    (refl s)

theorem execRailUpStep (r : RailIx) : Ends s (execRailUpStep r s) := by
  unfold Machine.execRailUpStep
  split
  · exact when (refl s |>.op (State.enterRamp_keeps ..) (.enterRamp ..)
      |>.quiet (State.schedAfter_keeps ..) (State.schedAfter_same ..))
  · exact idle

theorem execRailQualified (r : RailIx) : Ends s (execRailQualified r s) := by
  unfold Machine.execRailQualified
  split
  · refine when ?_
    extract_lets on after fused us
    have hon : Kept s on := (refl s).modSeq ..
    have hfused : Kept s fused := ite (hon |>.quiet (State.fuseRamp_keeps ..) (State.fuseRamp_same ..)) hon
    exact ite hfused (ite (hfused |>.quiet (State.setDom_keeps ..) (State.setDom_same ..) |>.modDomain .. |>.record ..)
      (hfused |>.quiet (State.schedAfter_keeps ..) (State.schedAfter_same ..)))
  · exact idle

theorem execStartFail (r : RailIx) : Ends s (execStartFail r s) := by
  unfold Machine.execStartFail
  split
  · exact idle
  next d _ =>
    have hcounted := (refl s).count Ob.clsRail r.val Ob.Rail.startFail
    exact when <| ite (hcounted.modDomain d _ |>.modDomain d _ |>.record .. |>.op (State.enterDown_keeps ..) (.enterDown ..))
      (hcounted.modDomain d _ |>.modDomain d _ |>.op (State.recordSnap_keeps ..) (.recordSnap (.refl _) ..)
        |>.op (State.enterDown_keeps ..) (.enterDown ..))

theorem execRailDownStep (r : RailIx) : Ends s (execRailDownStep r s) := by
  unfold Machine.execRailDownStep
  split
  · exact idle
  · exact when (refl s |>.quiet (State.enterDischarge_keeps ..) (State.enterDischarge_same ..))

/-! The twin -/

theorem execTwinTakeover : Ends s (execTwinTakeover s) := by
  refine fork ?_ idle
  have hunarmed : Kept s (s.modTwin fun t =>
      { t with driveActN := true, armed := false, partner := false, unarm := .notRequested, resyncing := false }) :=
    ⟨State.modTwin_keeps .., fun _ => rfl⟩
  exact next (hunarmed.setRole _ |>.count .. |>.record .. |>.quiet (State.markDuplicate_keeps ..) (State.markDuplicate_same ..)
    |>.drive)

theorem execTwinLinkUp (major minor digest : Nat) (sameSeat : Bool) : Ends s (execTwinLinkUp major minor digest sameSeat s) := by
  unfold Machine.execTwinLinkUp
  refine fork idle ?_
  extract_lets up
  have hup : Kept s up := (refl s).modTwin
  clear_value up
  split
  · exact next (ite (hup.record ..) hup)
  · exact next (ite hup (hup.unarmFor _ |>.setRole _))
  · exact next (ite (hup.setRole _) hup)
  · exact next hup

theorem execTwinLinkDown : Ends s (execTwinLinkDown s) :=
  fork idle <| next <| ite ((refl s).modTwin.unarmFor _) (refl s).modTwin

theorem execListenJoin : Ends s (execListenJoin s) :=
  when <| .setRole ⟨State.modTwin_keeps .., fun _ => rfl⟩ _

theorem execListenClaim : Ends s (execListenClaim s) := by
  have hcold : Kept s s.coldStart := refl s |>.quiet (State.coldStart_keeps ..) (State.coldStart_same ..)
  unfold Machine.execListenClaim
  generalize s.coldStart = x at *
  exact when (hcold.modTwin.setRole _ |>.drive)

theorem execTwinSplit : Ends s (execTwinSplit s) :=
  fork (next ((refl s).modTwin.unarmFor _ |>.count .. |>.record .. |>.irq _)) idle

theorem execTwinPartnerLost : Ends s (execTwinPartnerLost s) := by
  refine fork (next ((refl s).record .. |>.modTwin |>.setRole _)) (fork (next ?_) idle)
  have hlost : ∀ x : State, Kept s x → Kept s (x.modTwin fun t => { t with partner := false, armed := false }) :=
    fun x h => h.trans ⟨State.modTwin_keeps .., fun _ => rfl⟩
  exact (hlost _ ((refl s).record ..) |>.quiet (State.irqIf_keeps ..) (State.irqIf_same ..)).abortHandover

theorem execRejoinHoldoffEnd : Ends s (execRejoinHoldoffEnd s) := by
  unfold Machine.execRejoinHoldoffEnd
  split
  · exact when (refl s).modTwin
  · exact idle

theorem execTwinReplicatedCommand (edge : Nat) (act : EdgeAction) : Ends s (execTwinReplicatedCommand edge act s) :=
  fork idle <| fork (next (refl s).modTwin) (when ((refl s).unarmFor _ |>.resync))

/-! The recorder, the supply and sleep -/

theorem execRecorderMediaRetry (ringOk spareOk : Bool) : Ends s (execRecorderMediaRetry ringOk spareOk s) := by
  have hmedium : Kept s (s.modRec fun x => { x with ringOk := ringOk, spareOk := spareOk }) := modRec (refl s) id
  exact next (ite (hmedium |>.op (State.mediaRetry_keeps ..) (.mediaRetry ..)) hmedium)

theorem execHousekeepingWatchdog : Ends s (execHousekeepingWatchdog s) := by
  unfold Machine.execHousekeepingWatchdog
  refine when ?_
  extract_lets noted device back n recorded
  have hnoted : Kept s noted := refl s |>.quiet (State.noteRestart_keeps ..) (State.noteRestart_same ..)
  have hback : Kept s back := hnoted.free
  have hrecorded : Kept s recorded := hback.record ..
  clear_value recorded
  exact ite (hrecorded.free |>.op (State.powerDownAll_keeps ..) (.powerDownAll (.refl _) ..) |>.refreshFlt) hrecorded

theorem execSupervisorWatchdog : Ends s (execSupervisorWatchdog s) := by
  have hfailed : Kept s (s.noteRestart 1).trialFailed := refl s |>.quiet (State.noteRestart_keeps ..)
    (State.noteRestart_same ..) |>.quiet (State.trialFailed_keeps ..) (State.trialFailed_same ..)
  exact when (hfailed.free.resetTo _)

theorem execLinkEngineWatchdog : Ends s (execLinkEngineWatchdog s) := by
  have hnoted : Kept s (s.noteRestart 3) := refl s |>.quiet (State.noteRestart_keeps ..) (State.noteRestart_same ..)
  exact when (hnoted.free.record ..)

theorem execAuthLockEnd : Ends s (execAuthLockEnd s) := by
  unfold Machine.execAuthLockEnd
  split
  · exact when ((refl s).modMb _)
  · exact idle

theorem execUvloReset : Ends s (execUvloReset s) :=
  when <| (refl s).resetTo 0 |>.quiet (State.loseRetention_keeps ..) (State.loseRetention_same ..) |>.free

theorem execCommandResetExecute : Ends s (execCommandResetExecute s) := by
  unfold Machine.execCommandResetExecute
  split
  · exact next ((refl s).resetTo _)
  · exact idle

theorem execWindowOpen : Ends s (execWindowOpen s) := by
  unfold Machine.execWindowOpen
  split
  · refine when ?_
    extract_lets flushed
    have hflushed : Kept s flushed := (refl s).modNvm _ |>.quiet (State.flushSaves_keeps ..) (State.flushSaves_same ..)
    exact ite hflushed (hflushed |>.op (State.drainRam_keeps ..) (.drainRam ..))
      |>.op (State.storeWaiting_keeps ..) (.storeWaiting ..)
  · exact idle

theorem execDeferArmedClear : Ends s (execDeferArmedClear s) := by
  unfold Machine.execDeferArmedClear
  split
  · exact when ((refl s).modNvm _)
  · exact idle

theorem execEccScrub (corrected : Nat) (lost : List Nat) : Ends s (execEccScrub corrected lost s) :=
  when <| (refl s).countN .. |>.forEach fun s _ => (refl s).count .. |>.op (State.loseRegion_keeps ..) (.loseRegion ..)

/-- Every command but a heartbeat, a resynchronisation's end and a handover's edge leaves a device unarmed that is so. -/
theorem exec_ends (c : Instr) (s : State) (hb : ∀ hb, c ≠ .twinHeartbeat hb) (resynced : ∀ f ar, c ≠ .twinResyncComplete f ar)
    (ho : c ≠ .handoverEdge) : Ends s (exec c s) := by
  cases c with
  | hello slot _ _ _ => exact answers slot _ fun _ => ite (finished ..) (ite (finished ..) ((refl s).modMb _ |>.finish ..))
  | identify slot => exact answers slot _ fun _ => finished ..
  | get slot o => exact answers slot _ fun _ => refl s |>.quiet (State.doGet_keeps ..) (State.doGet_same ..)
  | set slot o v => exact answers slot _ fun _ => refl s |>.op (State.doSet_keeps ..) (.doSet ..)
  | getBlock slot o count =>
    exact answers slot _ fun _ => ite (finished ..)
      (refl s |>.quiet (State.readBlock_keeps ..) (State.readBlock_same ..) |>.finish ..)
  | setGroup slot ms => exact execSetGroup ..
  | domainOn slot mask => exact answers slot _ fun _ => refl s |>.op (State.domainReq_keeps ..) (.domainReq ..)
  | domainOff slot mask => exact answers slot _ fun _ => refl s |>.op (State.domainReq_keeps ..) (.domainReq ..)
  | railTarget slot ms =>
    exact answers slot _ fun _ => ite (finished ..)
      (ite ((refl s).modMb _ |>.op (State.acceptEdge_keeps ..) (.acceptEdge (.refl _) ..)) (finished ..))
  | railClearLatch slot rail override => exact execRailClearLatch ..
  | phaseForce slot ms =>
    exact answers slot _ fun _ => ite (finished ..)
      (ite (refl s |>.op (State.acceptEdge_keeps ..) (.acceptEdge (.refl _) ..)) (finished ..))
  | tuneStart slot rail => exact answers slot _ fun _ => refl s |>.op (State.startTune_keeps ..) (.startTune ..)
  | tuneRead slot what first count =>
    exact answers slot _ fun _ => ite (finished ..) <| ite (ite (finished ..) (finished ..)) <|
      ite (ite (finished ..) (finished ..)) (finished ..)
  | autotune slot rail => exact answers slot _ fun _ => refl s |>.op (State.startTune_keeps ..) (.startTune ..)
  | recRead slot n => exact answers slot _ fun _ => finished ..
  | recFreeze slot => exact answers slot _ fun _ => refl s |>.quiet (State.atEdge_keeps ..) (State.atEdge_same ..) |>.startSlot _
  | recThaw slot => exact answers slot _ fun _ => refl s |>.op (State.thaw_keeps ..) (.thaw ..) |>.finish ..
  | recClear slot n =>
    exact answers slot _ fun _ => ite (finished ..) <| ite (finished ..) <| ite (finished ..) <|
      refl s |>.op (State.clearRecords_keeps ..) (.clearRecords ..) |>.finish ..
  | snapRead slot snap offset len => exact execSnapRead ..
  | cntClear slot cls inst =>
    exact answers slot _ fun _ => ite (refl s |>.quiet (State.atEdge_keeps ..) (State.atEdge_same ..) |>.startSlot _)
      (finished ..)
  | authChallenge slot key =>
    exact answers slot _ fun _ => ite (finished ..) (ite (finished ..) ((refl s).modMb _ |>.finish ..))
  | cfgStage slot offset data => exact execCfgStage ..
  | cfgCommit slot length => exact answers slot _ fun _ => refl s |>.op (State.commitStaged_keeps ..) (.commitStaged ..)
  | cfgRead slot copy offset len => exact execCfgRead ..
  | fwStage slot offset data =>
    exact answers slot _ fun _ => ite (finished ..) <| ite (finished ..) <| ite (finished ..) <|
      refl s |>.quiet (State.setFwImage_keeps ..) (State.setFwImage_same ..) |>.finish ..
  | fwActivate slot fwSlot => exact execFwActivate ..
  | twinHandover slot => exact answers slot _ fun _ => ite (finished ..) (ite (finished ..) ((refl s).modTwin.startSlot _))
  | twinArm slot => exact execTwinArm ..
  | meterRead slot what first index count => exact execMeterRead ..
  | meterIntervals slot number max =>
    exact answers slot _ fun _ => ite (finished ..) (ite (finished ..) (finished ..))
  | meterSessionOpen slot =>
    exact answers slot _ fun _ => ite ((refl s).meterAnswer ..) (modMeter (refl s) ⟨rfl, rfl, rfl, rfl⟩ |>.meterAnswer ..)
  | meterSessionStage slot param point value =>
    exact answers slot _ fun _ => inSession s slot fun x => ite
      (refl x |>.quiet (State.meterStage_keeps ..) (State.meterStage_same ..)) ((refl x).meterAnswer ..)
  | meterSessionCommit slot =>
    exact answers slot _ fun _ => inSession s slot fun x => ite ((refl x).meterAnswer ..) <|
      ite (refl x |>.quiet (State.meterCommit_keeps ..) (State.meterCommit_same ..) |>.meterAnswer ..) ((refl x).meterAnswer ..)
  | meterSessionAbandon slot =>
    exact answers slot _ fun _ => inSession s slot fun x => refl x |>.quiet (State.abandonSession_keeps ..)
      (State.abandonSession_same ..) |>.meterAnswer ..
  | meterSessionFwChunk slot offset data =>
    exact answers slot _ fun _ => inSession s slot fun x => ite ((refl x).meterAnswer ..)
      (refl x |>.quiet (State.meterStage_keeps ..) (State.meterStage_same ..))
  | meterSessionKeyLoad slot key => exact execMeterSessionKeyLoad ..
  | timeSetAtPps slot sec =>
    exact answers slot _ fun _ => ite (finished ..) <|
      (refl s).replicate _ |>.quiet (State.supersedeSet_keeps ..) (State.supersedeSet_same ..) |>.modTime _ |>.startSlot _
  | timeSetNow slot sec ns =>
    exact answers slot _ fun _ => ite (finished ..)
      ((refl s).replicate _ |>.op (State.timeNow_keeps ..) (.timeNow ..) |>.finish ..)
  | timeGet slot => exact answers slot _ fun _ => finished ..
  | sleep slot wakeMs => exact answers slot _ fun _ => ite ((refl s).free.armSlot ..) (finished ..)
  | reset slot => exact answers slot _ fun _ => (refl s).armSlot ..
  | spiTransaction mosi => exact execSpiTransaction ..
  | i2cTransaction addr written readLen =>
    exact next (ite (refl s)
      (ite (refl s |>.quiet (State.i2cWrite_keeps ..) (State.i2cWrite_same ..)
      |>.quiet (State.i2cRead_keeps ..) (State.i2cRead_same ..)) ((refl s).modMb _)))
  | alertResponse won => exact next (ite ((refl s).modMb _) ((refl s).modMb _))
  | windowRegisterWrite off data => exact when (refl s |>.quiet (State.hostWrite_keeps ..) (State.hostWrite_same ..))
  | istatClear v => exact when (refl s |>.quiet (State.istatClear_keeps ..) (State.istatClear_same ..))
  | doorbell v => exact when (refl s |>.quiet (State.ring_keeps ..) (State.ring_same ..))
  | release v => exact when (refl s |>.quiet (State.releaseSlots_keeps ..) (State.releaseSlots_same ..))
  | headerRead slot => exact when (refl s |>.quiet (State.headerRead_keeps ..) (State.headerRead_same ..))
  | requestSlotWrite slot off data => exact when (refl s |>.quiet (State.hostWrite_keeps ..) (State.hostWrite_same ..))
  | slotTaken slot => exact when (refl s |>.op (State.takeSlot_keeps ..) (.takeSlot ..))
  | responseReady slot => exact when (refl s |>.quiet (State.respond_keeps ..) (State.respond_same ..))
  | frameLoRead slot => exact next (onGet ..)
  | secLoRead slot => exact next (onGet ..)
  | recFirstLastLoRead slot which => exact next (onGet ..)
  | meterLoRead slot point dir => exact next (onGet ..)
  | cebudRead slot e => exact next (onGet ..)
  | meterStatRead slot point => exact next (onGet ..)
  | tblDataAccess slot r acc => exact execTblDataAccess ..
  | align slot v => exact next (onSet ..)
  | coefApply slot r v => exact next (onSet ..)
  | tuneStop slot v => exact next (onSet ..)
  | cmpClr slot c v => exact next (onSet ..)
  | hsunlock slot n v => exact next (onSet ..)
  | ltReset slot r v => exact when (onSet ..)
  | keyApply slot v => exact next (onSet ..)
  | ffCmdClear slot r => exact next (onSet ..)
  | ffCmdSave slot r => exact next (onSet ..)
  | ffCmdRestore slot r => exact next (onSet ..)
  | targetWrite slot r v => exact next (onSet ..)
  | forceWrite slot n field v => exact next (onSet ..)
  | busModeWrite slot v => exact next (onSet ..)
  | portEnable slot p v => exact when (onSet ..)
  | portDisable slot p v => exact next (ite (refl s) (onSet ..))
  | linkCtrlWrite slot r field v => exact next (onSet ..)
  | slamDisable slot r v => exact next (ite (refl s) (onSet ..))
  | syncDisable slot v => exact next (ite (refl s) (onSet ..))
  | frameEdge inp =>
    exact next (ite ((refl s).frame _)
      (ite (refl s |>.quiet (State.tick_keeps ..) (State.tick_same ..) |>.refreshFstat) (refl s)))
  | overrun r => exact when ((refl s).latchRail ..)
  | slamTimeout r =>
    exact when (refl s |>.quiet (State.slamDisable_keeps ..) (State.slamDisable_same ..) |>.count .. |>.record ..)
  | periodStart n mid => exact execPeriodStart ..
  | cleanRunLeak n => exact when ((refl s).modGen ..)
  | cmpAssert c pinUv tick => exact when (refl s |>.op (State.cmpDecide_keeps ..) (.cmpDecide ..))
  | tripLatch n => exact execTripLatch ..
  | cmpFirstDecision c pinUv => exact execCmpFirstDecision ..
  | clockFault unlocked => exact when ((refl s).record .. |>.resetTo _)
  | dlcal n spans tap => exact execDlcal ..
  | syncInEdge pulse => exact execSyncInEdge ..
  | syncAcquire => exact when ((refl s).modClk _)
  | syncLock => exact when ((refl s).modClk _)
  | syncLoss => exact when ((refl s).modClk _ |>.count .. |>.record ..)
  | holdoverExpiry => exact execHoldoverExpiry
  | returnComplete => exact when ((refl s).modClk _)
  | alignComplete => exact when ((refl s).modClk _)
  | ppsEdge falling => exact execPpsEdge ..
  | ppsLoss => exact execPpsLoss
  | timeSetTimeout => exact execTimeSetTimeout
  | periodicTimeAnchor => exact when ((refl s).anchor _)
  | supervisorWatchdog => exact execSupervisorWatchdog
  | housekeepingWatchdog => exact execHousekeepingWatchdog
  | linkEngineWatchdog => exact execLinkEngineWatchdog
  | debugHalt e => exact execDebugHalt ..
  | debugResume e => exact execDebugResume ..
  | skimStart r => exact execSkimStart ..
  | skimMeasureStart n => exact execSkimMeasureStart ..
  | skimEnd n => exact execSkimEnd ..
  | passiveSkimStart r => exact execPassiveSkimStart ..
  | gcalWindowEnd r => exact execGcalWindowEnd ..
  | phaseLagging n => exact fork idle (next ((refl s).modSense .. |>.count .. |>.record ..))
  | laggingClear n => exact when ((refl s).modSense ..)
  | qaccSave => exact when (.op (refl s) (State.saveQacc_keeps ..) (.save ..))
  | commandDone r => exact when ((refl s).modProf .. |>.quiet (State.endWait_keeps ..) (State.endWait_same ..))
  | softstartEnd r => exact when ((refl s).modProf ..)
  | ffFadeEnd r => exact execFfFadeEnd ..
  | strokeTimeout r => exact when (refl s |>.quiet (State.strokeMismatch_keeps ..) (State.strokeMismatch_same ..))
  | posStale r => exact when ((refl s).modFf ..)
  | tuneSettleEnd => exact when (refl s).free
  | sweepStepEnd => exact when (refl s).free
  | tuneDone => exact when (refl s).free
  | autotuneDesignEnd => exact execAutotuneDesignEnd
  | ltWindowEnd r => exact when (refl s |>.quiet (State.ltWindow_keeps ..) (State.ltWindow_same ..))
  | ltResume r => exact when (refl s |>.quiet (State.ltBegin_keeps ..) (State.ltBegin_same ..))
  | wairelHello p m => exact next (refl s |>.op (State.rxHello_keeps ..) (.rxHello ..))
  | vreq p m => exact next (refl s |>.op (State.rxVreq_keeps ..) (.rxVreq ..))
  | vackDone p => exact execVackDone ..
  | pos p seq position => exact next (refl s |>.op (State.rxPos_keeps ..) (.rxPos ..))
  | stroke p m => exact next (refl s |>.quiet (State.rxStroke_keeps ..) (State.rxStroke_same ..))
  | loadStatus p m => exact next (refl s |>.quiet (State.rxStatus_keeps ..) (State.rxStatus_same ..))
  | ping p seq reply cookie => exact next (refl s |>.quiet (State.rxPing_keeps ..) (State.rxPing_same ..))
  | linkFrameDiscarded p chars => exact when (refl s |>.op (State.rxChars_keeps ..) (.rxChars ..))
  | frameGapTimeout p chars => exact when (refl s |>.op (State.rxChars_keeps ..) (.rxChars ..))
  | linkFrameTransmit p => exact execLinkFrameTransmit ..
  | helloRetry p => exact when ((refl s).modPort .. |>.enqueue ..)
  | portLost p => exact execPortLost ..
  | pingTimer p => exact when ((refl s).modPort .. |>.enqueue ..)
  | statusTimer p => exact when ((refl s).modPort .. |>.enqueue ..)
  | warnRepeat p => exact when ((refl s).modPort .. |>.enqueue ..)
  | feedReturn => exact execFeedReturn
  | breakConfirm => exact when (refl s |>.quiet (State.setSel_keeps ..) (State.setSel_same ..))
  | breakFail => exact when (refl s |>.op (State.gateFails_keeps ..) (.gateFails ..))
  | deadEnd => exact execDeadEnd
  | feedOn =>
    exact when ((refl s).count .. |>.quiet (State.setSel_keeps ..) (State.setSel_same ..)
      |>.op (State.feedRecord_keeps ..) (.feedRecord (.refl _) ..))
  | makeFail => exact when (refl s |>.op (State.gateFails_keeps ..) (.gateFails ..))
  | ewarnClear => exact execEwarnClear
  | fuseRampDone r => exact when ((refl s).modFuse ..)
  | fuseInsertTimeout r => exact when (refl s |>.op (State.fuseTrip_keeps ..) (.fuseTrip ..))
  | fuseRetry r => exact execFuseRetry ..
  | passShort r => exact when ((refl s).latchRail .. |>.modFuse ..)
  | passShortArm r => exact when ((refl s).modFuse ..)
  | loadDetectChange r fsrcMv => exact execLoadDetectChange ..
  | uvWarnCrossing r => exact when ((refl s).modProt .. |>.count .. |>.recordIf ..)
  | ovWarnCrossing r => exact when ((refl s).modProt .. |>.count .. |>.recordIf ..)
  | uvFaultCrossing r =>
    exact when (ite (refl s |>.op (State.hiccupRail_keeps ..) (.hiccupRail ..))
      (refl s |>.op (State.uvFaultReport_keeps ..) (.uvFaultReport ..)))
  | ovFaultCrossing r => exact execOvFaultCrossing ..
  | levelCrossingEnd r l => exact execLevelCrossingEnd ..
  | hiccup r => exact when (refl s |>.op (State.hiccupRail_keeps ..) (.hiccupRail ..))
  | hiccupRestart r => exact execHiccupRestart ..
  | hicRunReset r => exact when ((refl s).modProt ..)
  | inputUv r =>
    exact when (refl s |>.quiet (State.disablePhases_keeps ..) (State.disablePhases_same ..) |>.modProt .. |>.record ..)
  | inputOv r =>
    exact when (refl s |>.quiet (State.disablePhases_keeps ..) (State.disablePhases_same ..) |>.modProt .. |>.record ..)
  | inputHoldEnd r => exact execInputHoldEnd ..
  | tempUpdate i reading => exact execTempUpdate ..
  | tempStopClear r => exact execTempStopClear ..
  | tempDeviceClear => exact execTempDeviceClear
  | enPinChange pin => exact execEnPinChange ..
  | domainUnblocked d => exact when (refl s |>.quiet (State.tryStart_keeps ..) (State.tryStart_same ..))
  | railUpStep r => exact execRailUpStep ..
  | railQualified r => exact execRailQualified ..
  | startFail r => exact execStartFail ..
  | railDownStep r => exact execRailDownStep ..
  | dischargeDone r => exact when (refl s |>.op (State.enterOff_keeps ..) (.enterOff ..))
  | dischargeTimeout r => exact when ((refl s).count .. |>.record .. |>.op (State.enterOff_keeps ..) (.enterOff ..))
  | domainRetry d => exact when (refl s |>.quiet (State.enterUp_keeps ..) (State.enterUp_same ..))
  | twinHeartbeat m => exact absurd rfl (hb m)
  | twinAlignmentRecord ar => exact when (refl s).modTwin
  | twinTakeover => exact execTwinTakeover
  | twinSplit => exact execTwinSplit
  | twinFrameSyncLoss => exact when ((refl s).modTwin.unarmFor _)
  | twinLinkUp major minor digest seat => exact execTwinLinkUp ..
  | twinLinkDown => exact execTwinLinkDown
  | listenJoin => exact execListenJoin
  | listenClaim => exact execListenClaim
  | twinPartnerLost => exact execTwinPartnerLost
  | twinResyncComplete f ar => exact absurd rfl (resynced f ar)
  | handoverEdge => exact absurd rfl ho
  | rejoinHoldoffEnd => exact execRejoinHoldoffEnd
  | partnerRecord rr => exact fork idle (next ((refl s).event _))
  | twinReplicatedCommand edge act => exact execTwinReplicatedCommand ..
  | actLineFault => exact when ((refl s).record ..)
  | meterSample i shuntNv dividerUv => exact when (modMeter (refl s) ⟨rfl, rfl, rfl, rfl⟩)
  | meterSave ok =>
    exact next (ite (refl s)
      (ite (refl s |>.quiet (State.meterSaved_keeps ..) (State.meterSaved_same ..))
      (refl s |>.quiet (State.meterMedia_keeps ..) (State.meterMedia_same ..))))
  | powerFailWarning =>
    have hclosed : Kept s s.meterPowerFail := refl s |>.quiet (State.meterPowerFail_keeps ..) (State.meterPowerFail_same ..)
    exact when (ite (hclosed.op (State.saveCounters_keeps _) (.save ..)) hclosed)
  | intervalBoundary => exact when (refl s |>.quiet (State.cutIv_keeps ..) (State.cutIv_same ..))
  | meterFwCheck crc =>
    exact when (modMeter (refl s) ⟨rfl, rfl, rfl, rfl⟩ |>.quiet (State.auditAdd_keeps ..) (State.auditAdd_same ..))
  | mirrorPublish => exact when (refl s |>.quiet (State.publish_keeps ..) (State.publish_same ..))
  | sessionTimeout => exact when (refl s |>.quiet (State.abandonSession_keeps ..) (State.abandonSession_same ..))
  | sealRelease =>
    exact when (modMeter (refl s).free ⟨rfl, rfl, rfl, rfl⟩ |>.quiet (State.abandonSession_keeps ..)
      (State.abandonSession_same ..))
  | meterCoreWatchdog => exact when (modMeter (refl s) ⟨rfl, rfl, rfl, rfl⟩)
  | freezeExpiry => exact when (refl s |>.op (State.thaw_keeps ..) (.thaw ..))
  | recorderMediaRetry ringOk spareOk => exact execRecorderMediaRetry ..
  | snapshotStore ok => exact next (refl s |>.op (State.takeDue_keeps ..) (.takeDue ..))
  | snapshotRetry ok => exact when (refl s |>.op (State.storeWaiting_keeps ..) (.storeWaiting ..))
  | counterSave => exact when (.op (refl s) (State.saveCounters_keeps ..) (.save ..))
  | windowOpen => exact execWindowOpen
  | deferArmedClear => exact execDeferArmedClear
  | nvmRefresh rewritten remapped => exact when ((refl s).countN .. |>.countN ..)
  | eccScrub corrected lost => exact execEccScrub ..
  | trialEnd => exact when (refl s).free
  | authLockEnd => exact execAuthLockEnd
  | nonceExpiry => exact when ((refl s).modMb _)
  | hsunlockExpiry n => exact execHsunlockExpiry ..
  | uvloRelease => exact when (refl s).free
  | uvloReset => exact execUvloReset
  | resetN => exact when ((refl s).resetTo _)
  | boot => exact when (refl s).bootNow
  | commandResetExecute => exact execCommandResetExecute
  | sleepEntry => exact when (refl s |>.op (State.enterSleep_keeps ..) (.enterSleep ..))
  | wake source frames =>
    exact when (refl s |>.quiet (State.sleepTime_keeps ..) (State.sleepTime_same ..)
      |>.quiet (State.wakeNow_keeps ..) (State.wakeNow_same ..))
  | wakeTimer => exact when (refl s |>.quiet (State.wakeNow_keeps ..) (State.wakeNow_same ..))
  | slowTick frames => exact when (refl s |>.quiet (State.sleepTime_keeps ..) (State.sleepTime_same ..) |>.refreshFstat)
  | cmpDeassert c pinUv => exact when (refl s |>.quiet (State.cmpRelease_keeps ..) (State.cmpRelease_same ..))

end Kept

end Sys2Proof.Machine
end

section
/-! No command stops the machine; every step keeps order and the evidence, and none arms a standby while its hold-off runs
(12 R262, 13 R272, R276, R278, 14 R287 to R292). -/

namespace Sys2Proof.Machine

-- One proof at a time: proofs that wait for one another each hold a thread's stack.
set_option Elab.async false

variable {s x t : State}

/-- What the twin holds beside what waits for the partner. -/
theorem TwinStands.field {α : Type} (h : TwinStands s t) (f : TwinState → α)
    (hf : ∀ w : TwinState, f { w with outbox := [] } = f w := by intro _; rfl) : f t.twin = f s.twin := by
  rw [← hf, h, hf]

/-- A standby whose hold-off runs. -/
def OnHold (s : State) : Prop := s.twin.role = .standby ∧ s.twin.holdoffEnd ≠ none

/-- The command with this outcome completes, keeps the queue, the evidence and order, and arms no standby on hold. -/
def EndsOnHold (s : State) (o : Out) : Prop :=
  ∃ t, o = .next t ∧ Keeps s t ∧ (OnHold s → s.twin.armed = false → t.twin.armed = false)

theorem Ends.onHold {o : Out} (h : Ends s o) : EndsOnHold s o := by
  obtain ⟨t, hc, hk⟩ := h
  exact ⟨t, hc, hk.keeps, fun _ => hk.unarmed⟩

namespace EndsOnHold

theorem next (h : Kept s t) : EndsOnHold s (.next t) := (Kept.next h).onHold

theorem fork {c : Prop} [Decidable c] {a b : Out} (ha : c → EndsOnHold s a) (hb : ¬c → EndsOnHold s b) :
    EndsOnHold s (if c then a else b) := by
  split
  · exact ha ‹_›
  · exact hb ‹_›

end EndsOnHold

theorem role_followStarted (s : State) (started : List Nat) : (s.followStarted started).twin.role = s.twin.role := by
  unfold State.followStarted
  extract_lets old dropped
  have hdropped : dropped.twin = s.twin := twin_same (same_forEach (same_refl [.ports] s) fun _ _ => State.modPort_same ..)
  clear_value dropped
  have hrole : dropped.twin.role = s.twin.role := by rw [hdropped]
  exact hrole

open EndsOnHold in
/-- Only an active learns from a heartbeat that the pair is armed. -/
theorem execTwinHeartbeat_ends (hb : Heartbeat) (s : State) : EndsOnHold s (execTwinHeartbeat hb s) := by
  unfold execTwinHeartbeat
  refine fork (fun _ => next (.refl s)) fun _ => fork (fun _ => next ((Kept.refl s).count ..)) fun _ => ?_
  extract_lets followed was heard told
  have hfollowed : Kept s followed := .ite ((Kept.refl s).followStarted _) (.refl s)
  have hrole : followed.twin.role = s.twin.role := by
    unfold followed
    split
    · exact role_followStarted ..
    · rfl
  clear_value followed
  have hheard : Kept s heard := hfollowed.modTwin
  have htold : Kept s told := hheard |>.quiet (State.irqIf_keeps ..) (State.irqIf_same ..)
  have htoldRole : told.twin.role = s.twin.role := by
    rw [← hrole, twin_same (State.irqIf_same heard was Irq.twin)]
    rfl
  clear_value told
  refine ⟨_, rfl, htold.keeps.trans (.ite (.ite ?_ ?_) (.refl told)), ?_⟩
  · exact (State.modTwin_keeps ..).trans (State.irq_keeps ..)
  · exact ((State.modTwin_keeps ..).trans (State.irq_keeps ..)).trans (State.abortHandover_keeps ..)
  · rintro ⟨hstandby, _⟩ hu
    rw [if_neg (by simp [htoldRole, hstandby])]
    exact htold.unarmed hu

/-- The hold-off is the last reason against arming, so it always stands against it. -/
theorem armReason_ne_none (h : s.twin.holdoffEnd ≠ none) : s.armReason ≠ .none := by
  rw [← Option.isSome_iff_ne_none] at h
  unfold State.armReason
  extract_lets w
  split_ifs
  all_goals decide

open EndsOnHold in
/-- A resynchronisation that ends while the hold-off runs unarms again. -/
theorem execTwinResyncComplete_ends (frame : Nat) (ar : AlignRec) (s : State) :
    EndsOnHold s (execTwinResyncComplete frame ar s) := by
  unfold execTwinResyncComplete
  refine fork (fun _ => ?_) fun _ => next (.refl s)
  extract_lets adopted f stepped dated anchored why
  have hadopted : Kept s adopted := (Kept.refl s).adopt ar
  have hadoptedTwin : adopted.twin = s.twin := twin_same (State.adopt_same s ar)
  clear_value adopted f stepped
  have hdated : Kept s dated := hadopted.modClk _
  have hanchored : Kept s anchored := .ite (hdated.anchor _) hdated
  have hholdoff : anchored.twin.holdoffEnd = s.twin.holdoffEnd := by
    have hdatedTwin : TwinStands dated anchored := .ite (.anchor ..) (.refl _)
    rw [hdatedTwin.field TwinState.holdoffEnd, ← hadoptedTwin]
    rfl
  refine fork (fun _ => next hadopted.modTwin) fun _ => ?_
  clear_value anchored
  refine ⟨_, rfl, hanchored.keeps.trans (.ite (State.arm_keeps _) (State.unarmFor_keeps ..)), ?_⟩
  rintro ⟨_, hheld⟩ hu
  rw [if_neg (by simpa using armReason_ne_none (hholdoff ▸ hheld))]
  exact ((Kept.refl anchored).unarmFor _).unarmed (hanchored.unarmed hu)

open EndsOnHold in
/-- Only an active becomes an armed standby at a handover's edge. -/
theorem execHandoverEdge_ends (s : State) : EndsOnHold s (execHandoverEdge s) := by
  unfold execHandoverEdge
  split
  next hactive _ =>
    refine fork (fun _ => next (.refl s)) fun _ => ⟨_, rfl, ?_, fun h => ?_⟩
    · exact ((State.modTwin_keeps ..).trans (State.setRole_keeps ..)).trans (State.count_keeps ..)
    · exact absurd (hactive.symm.trans h.1) (by decide)
  · exact fork (fun _ => next (.refl s)) fun _ => next ((Kept.refl s).modTwin.setRole _ |>.count ..)
  · exact next (.refl s)

/-- Every command completes, keeps the queue, the evidence and order, and arms no standby whose hold-off runs. -/
theorem exec_endsOnHold (c : Instr) (s : State) : EndsOnHold s (exec c s) := by
  by_cases hb : ∃ hb, c = .twinHeartbeat hb
  · obtain ⟨hb, rfl⟩ := hb
    exact execTwinHeartbeat_ends ..
  by_cases hr : ∃ f ar, c = .twinResyncComplete f ar
  · obtain ⟨f, ar, rfl⟩ := hr
    exact execTwinResyncComplete_ends ..
  by_cases ho : c = .handoverEdge
  · subst ho
    exact execHandoverEdge_ends s
  · exact (Kept.exec_ends c s (fun m hm => hb ⟨m, hm⟩) (fun f ar hf => hr ⟨f, ar, hf⟩) ho).onHold

/-- Every command completes and keeps the queue, the evidence and order. -/
theorem exec_completes (c : Instr) (s : State) : Completes c s (Keeps s) := by
  obtain ⟨t, hc, hk, _⟩ := exec_endsOnHold c s
  exact ⟨t, hc, hk⟩

/-- A step leaves the queue's rest, and keeps the evidence and order of the state it finds. -/
theorem step_completes (s : State) : ∃ t, step s = .next t ∧ Keeps { s with pending := s.pending.tail } t := by
  rw [step]
  cases hq : s.pending with
  | nil =>
    refine ⟨s, rfl, ?_⟩
    rw [List.tail_nil, ← hq]
    exact .refl s
  | cons c rest => exact exec_completes c { s with pending := rest }

theorem keeps_of_step (h : step s = .next t) : Keeps { s with pending := s.pending.tail } t := by
  obtain ⟨u, hstep, hk⟩ := step_completes s
  cases hstep.symm.trans h
  exact hk

/-- Settles O2: every command's outcome is a next state that keeps the queue. -/
theorem noCommandStops : Obligations.NoCommandStops := by
  refine ⟨fun c s => ?_, fun s => ?_, fun s t h => (keeps_of_step h).queue⟩
  · exact completes_mono (exec_completes c s) fun _ hk => hk.queue
  · obtain ⟨t, ht, _⟩ := step_completes s
    exact ⟨t, ht⟩

/-- Settles O4: each operation of a command keeps order, and so does what a command makes of them. -/
theorem stepKeepsOrder : Obligations.StepKeepsOrder := fun _ _ ho h =>
  (keeps_of_step h).orderly ⟨ho.store, ho.ring, ho.spare, ho.ram, ho.hold, ho.intervals, ho.audit⟩

/-- Settles O5: no operation of a command takes a number back or an audit entry away. -/
theorem stepKeepsEvidence : Obligations.StepKeepsEvidence := fun _ _ h => (keeps_of_step h).evidence

end Sys2Proof.Machine
end

section
/-! The mailbox at the host's side: window registers, DOORBELL, RELEASE, request bytes and header reads
(15 R301, R304, R306 to R310). -/

namespace Sys2Proof.Machine

-- One proof at a time: proofs that wait for one another each hold a thread's stack.
set_option Elab.async false

/-- A command under a condition that holds has its effect. -/
theorem completes_when {c : Instr} {s t : State} {b : Bool} {p : State → Prop} (hb : b = true)
    (hexec : exec c s = .next (if b then t else s)) (hp : p t) : Completes c s p := ⟨t, by rw [hexec, if_pos hb], hp⟩

/-! Words and bytes -/

theorem leNat_leBytes (n v : Nat) : leNat (leBytes n v) = v % 256 ^ n := by
  induction n generalizing v with
  | zero => rw [leBytes, leNat, pow_zero, Nat.mod_one]
  | succ n ih =>
    have hlow : (BitVec.ofNat 8 v).toNat = v % 256 := BitVec.toNat_ofNat v 8
    rw [leBytes, leNat, ih, hlow, Nat.pow_succ', Nat.mod_mul (x := v)]

theorem length_leBytes (n v : Nat) : (leBytes n v).length = n := by
  induction n generalizing v with
  | zero => rfl
  | succ n ih => rw [leBytes, List.length_cons, ih]

theorem length_wordBytes (v : Word) : (wordBytes v).length = 4 := length_leBytes 4 _

/-- A word's four bytes spell the word (R8). -/
theorem leAt_wordBytes (v : Word) : BitVec.ofNat 32 (leAt (wordBytes v) 0 4) = v := by
  rw [leAt, List.drop_zero, List.take_of_length_le (length_wordBytes v).le, wordBytes, leNat_leBytes,
    Nat.mod_eq_of_lt (b := 256 ^ 4) v.isLt, BitVec.ofNat_toNat, BitVec.setWidth_eq]

/-! The window's registers -/

/-- Where exactly one index of a register satisfies the test of a write, that register is written. -/
theorem filter_range_eq {n i : Nat} {p : Nat → Bool} (hi : i < n) (hp : ∀ j, p j = true ↔ j = i) :
    (List.range n).filter p = [i] := by
  have hcongr : (List.range n).filter p = (List.range n).filter (· == i) :=
    List.filter_congr fun j _ => by rw [Bool.eq_iff_iff, hp, beq_iff_eq]
  rw [hcongr, List.filter_beq, List.nodup_range.count, if_pos (List.mem_range.mpr hi), List.replicate_one]

/-- A write of four bytes that covers one register is the write of that register. -/
theorem State.writeWindow_word (s : State) {i : Nat} (hi : i < 64) (v : Word) :
    s.writeWindow (4 * i) (wordBytes v) = s.writeReg (4 * i) v := by
  have hone := filter_range_eq (n := 64) (i := i)
    (p := fun j => decide (4 * i < 4 * j + 4) && decide (4 * j < min (4 * i + (wordBytes v).length) 0x100)) hi fun j => by
      rw [Bool.and_eq_true, decide_eq_true_eq, decide_eq_true_eq, length_wordBytes]
      omega
  have hcovers : 4 * i ≤ 4 * i ∧ 4 * i + 4 ≤ min (4 * i + (wordBytes v).length) 0x100 := by
    rw [length_wordBytes]
    omega
  rw [State.writeWindow, hone]
  simp only [forEach, List.foldl_cons, List.foldl_nil, if_pos hcovers, Nat.sub_self, leAt_wordBytes]

/-- A write of one byte covers no register. -/
theorem State.writeWindow_byte (s : State) {i : Nat} (hi : i < 64) (b : Byte) :
    s.writeWindow (4 * i) [b] = s.irq Irq.hostErr := by
  have hone := filter_range_eq (n := 64) (i := i)
    (p := fun j => decide (4 * i < 4 * j + 4) && decide (4 * j < min (4 * i + [b].length) 0x100)) hi fun j => by
      rw [Bool.and_eq_true, decide_eq_true_eq, decide_eq_true_eq, List.length_singleton]
      omega
  have hpart : ¬(4 * i ≤ 4 * i ∧ 4 * i + 4 ≤ min (4 * i + [b].length) 0x100) := by
    rw [List.length_singleton]
    omega
  rw [State.writeWindow, hone]
  simp only [forEach, List.foldl_cons, List.foldl_nil, if_neg hpart, State.hostErr]

/-- A window write by the host is the write of its bytes. -/
theorem completes_windowWrite {s : State} {off : Nat} {data : List Byte} {p : State → Prop} (hs : s.powered = true)
    (hoff : off < 0x100) (hdata : data ≠ []) (hp : p (s.writeWindow off data)) :
    Completes (.windowRegisterWrite off data) s p := by
  have hwrite : s.hostWrite off data = s.writeWindow off data := by
    rw [State.hostWrite, if_neg (by simpa using hdata), if_pos hoff]
  exact completes_when (t := s.hostWrite off data) (b := s.powered && decide (off < 0x100)) (by simp [hs, hoff]) rfl (hwrite ▸ hp)

theorem completes_registerWrite {s : State} {i : Nat} {v : Word} {p : State → Prop} (hs : s.powered = true)
    (hi : i < 64) (hp : p (s.writeReg (4 * i) v)) : Completes (.windowRegisterWrite (4 * i) (wordBytes v)) s p :=
  completes_windowWrite hs (by omega) (by simp [← List.length_pos_iff, length_wordBytes])
    (State.writeWindow_word s hi v ▸ hp)

/-! DOORBELL and RELEASE -/

/-- One bit of DOORBELL or RELEASE names one slot. -/
theorem filter_slotBit (k : SlotIx) : (List.finRange 4).filter (fun j => bit (BitVec.ofNat 32 (2 ^ k.val)) j.val) = [k] := by
  revert k
  decide

theorem State.releaseSlots_one (s : State) (k : SlotIx) : s.releaseSlots (BitVec.ofNat 32 (2 ^ k.val)) = s.releaseSlot k := by
  rw [State.releaseSlots, filter_slotBit]
  rfl

theorem slotsBut_refl (k : SlotIx) (s : State) : SlotsBut k s s := fun _ _ => rfl

theorem slotsBut_of_vset {s t : State} {k : SlotIx} {x : Slot} (h : t.mb.slots = vset s.mb.slots k x) : SlotsBut k s t :=
  fun j hj => (congrArg (fun v => v.get j) h).trans ((vset_get ..).trans (if_neg hj))

theorem slot_of_vset {s t : State} {k : SlotIx} {x : Slot} (h : t.mb.slots = vset s.mb.slots k x) : t.slot k = x :=
  (congrArg (fun v => v.get k) h).trans (vset_get_self ..)

/-- A doorbell posts a FREE slot behind the others, and is an error on any other (R308, R310). -/
theorem doorbell_acts (s : State) (k : SlotIx) (hs : s.powered = true) :
    Completes (.doorbell (BitVec.ofNat 32 (2 ^ k.val))) s fun t => SlotsBut k s t ∧ SameBut [.mb] s t ∧
      (if (s.slot k).st = .free then t.slot k = { s.slot k with st := .posted } ∧ t.mb.order = s.mb.order ++ [k]
       else t.slot k = s.slot k ∧ t.mb.order = s.mb.order ∧ t.mb.istat = s.mb.istat ||| 0x2000) := by
  refine completes_when hs rfl ?_
  have hsame := State.ring_same s (BitVec.ofNat 32 (2 ^ k.val))
  rw [State.ring, filter_slotBit] at hsame ⊢
  by_cases hfree : (s.slot k).st = .free
  · have hposted : (forEach [k] State.ringSlot (s.modMb fun m => { m with arming := m.arming.filter fun a => a.cause != 0 })) =
        ((s.modMb fun m => { m with arming := m.arming.filter fun a => a.cause != 0 }).modSlot k fun x =>
          { x with st := .posted }).modMb fun m => { m with order := m.order ++ [k] } := if_pos (beq_iff_eq.mpr hfree)
    rw [hposted] at hsame ⊢
    exact ⟨slotsBut_of_vset rfl, hsame, (if_pos hfree).mpr ⟨slot_of_vset rfl, rfl⟩⟩
  · have herr : (forEach [k] State.ringSlot (s.modMb fun m => { m with arming := m.arming.filter fun a => a.cause != 0 })) =
        (s.modMb fun m => { m with arming := m.arming.filter fun a => a.cause != 0 }).irq Irq.hostErr :=
      if_neg (mt beq_iff_eq.mp hfree)
    rw [herr] at hsame ⊢
    exact ⟨fun _ _ => rfl, hsame, (if_neg hfree).mpr ⟨rfl, rfl, rfl⟩⟩

/-- RELEASE gives a slot back, marks a PENDING one for discarding, and is an error on a FREE one (R308). -/
theorem release_acts (s : State) (k : SlotIx) (hs : s.powered = true) :
    Completes (.release (BitVec.ofNat 32 (2 ^ k.val))) s fun t => SlotsBut k s t ∧ SameBut [.mb] s t ∧
      (match (s.slot k).st with
       | .free => t.slot k = s.slot k ∧ t.mb.istat = s.mb.istat ||| 0x2000
       | .posted => t.slot k = { s.slot k with st := .free } ∧ t.mb.order = s.mb.order.filter (· != k)
       | .pending => t.slot k = { s.slot k with st := .discard }
       | .discard => t.slot k = s.slot k
       | _ => (t.slot k).st = .free ∧ (t.slot k).resp = List.replicate 256 0) := by
  refine completes_when hs rfl ?_
  have hsame := State.releaseSlots_same s (BitVec.ofNat 32 (2 ^ k.val))
  rw [State.releaseSlots_one] at hsame ⊢
  cases hst : (s.slot k).st with
  | free =>
    have herr : s.releaseSlot k = s.irq Irq.hostErr := by rw [State.releaseSlot, hst, State.hostErr]
    rw [herr] at hsame ⊢
    exact ⟨slotsBut_refl k s, hsame, rfl, rfl⟩
  | posted =>
    have hback : s.releaseSlot k = (s.modSlot k fun x => { x with st := .free }).modMb fun m =>
        { m with order := m.order.filter (· != k) } := by rw [State.releaseSlot, hst]
    rw [hback] at hsame ⊢
    exact ⟨slotsBut_of_vset rfl, hsame, slot_of_vset rfl, rfl⟩
  | pending =>
    have hmark : s.releaseSlot k = s.modSlot k fun x => { x with st := .discard } := by rw [State.releaseSlot, hst]
    rw [hmark] at hsame ⊢
    exact ⟨slotsBut_of_vset rfl, hsame, slot_of_vset rfl⟩
  | discard =>
    have hstands : s.releaseSlot k = s := by rw [State.releaseSlot, hst]
    rw [hstands] at hsame ⊢
    exact ⟨slotsBut_refl k s, hsame, rfl⟩
  | ready | read =>
    have hset : (s.releaseSlot k).mb.slots = vset s.mb.slots k { s.slot k with st := .free, resp := List.replicate 256 0 } := by
      rw [State.releaseSlot, hst]
      rfl
    have hslot := slot_of_vset hset
    exact ⟨slotsBut_of_vset hset, hsame, congrArg Slot.st hslot, congrArg Slot.resp hslot⟩

/-- Settles O8: a window write that covers a register is that register's write, and one bit of DOORBELL or RELEASE acts on
one slot. -/
theorem windowWritesAct : Obligations.WindowWritesAct := by
  refine ⟨fun s v hs => ⟨?_, ?_, ?_, completes_when hs rfl ⟨rfl, State.istatClear_same ..⟩⟩,
    fun s k hs => ⟨doorbell_acts s k hs, release_acts s k hs⟩⟩
  · intro off hoff
    simp only [List.mem_cons, List.not_mem_nil, or_false] at hoff
    obtain rfl | rfl | rfl := hoff
    · exact completes_registerWrite (i := 3) hs (by decide) ⟨rfl, State.istatClear_same ..⟩
    · exact completes_registerWrite (i := 4) hs (by decide) ⟨rfl, State.modMb_same s fun m => { m with imask := v &&& 0xFFFF }⟩
    · exact completes_registerWrite (i := 10) hs (by decide) ⟨rfl, State.modMb_same s fun m => { m with hostcfg := v &&& 1 }⟩
  · intro off hoff
    obtain ⟨i, hi, rfl, hro⟩ : ∃ i < 64, off = 4 * i ∧ ∀ v, s.writeReg (4 * i) v = s.irq Irq.hostErr := by
      simp only [List.mem_cons, List.not_mem_nil, or_false] at hoff
      obtain rfl | rfl | rfl | rfl | rfl | rfl | rfl | rfl := hoff
      exacts [⟨0, by decide, rfl, fun _ => rfl⟩, ⟨1, by decide, rfl, fun _ => rfl⟩, ⟨2, by decide, rfl, fun _ => rfl⟩,
        ⟨5, by decide, rfl, fun _ => rfl⟩, ⟨6, by decide, rfl, fun _ => rfl⟩, ⟨8, by decide, rfl, fun _ => rfl⟩,
        ⟨16, by decide, rfl, fun _ => rfl⟩, ⟨31, by decide, rfl, fun _ => rfl⟩]
    exact completes_registerWrite hs hi (hro v)
  · intro off hoff b
    obtain ⟨i, hi, rfl⟩ : ∃ i < 64, off = 4 * i := by
      simp only [List.mem_cons, List.not_mem_nil, or_false] at hoff
      obtain rfl | rfl | rfl := hoff
      exacts [⟨3, by decide, rfl⟩, ⟨4, by decide, rfl⟩, ⟨10, by decide, rfl⟩]
    exact completes_windowWrite hs (by omega) (List.cons_ne_nil _ _) (State.writeWindow_byte s hi b)

/-! Request bytes and header reads -/

/-- The address of a request's byte. -/
theorem slotAt_request (k : SlotIx) {off : Nat} (hoff : off < 256) :
    State.slotAt 0x1000 (0x1000 + 256 * k.val + off) = some k := by
  have hk := k.isLt
  rw [State.slotAt, dif_pos (by omega)]
  congr 1
  apply Fin.ext
  show (0x1000 + 256 * k.val + off - 0x1000) / 256 = k.val
  omega

/-- A byte of a request goes to the request of its slot. -/
theorem State.hostWrite_request (s : State) (k : SlotIx) {off : Nat} (hoff : off < 256) (b : Byte) :
    s.hostWrite (0x1000 + 256 * k.val + off) [b] = s.writeRequest k off [b] := by
  have hbyte : (0x1000 + 256 * k.val + off) % 256 = off := by omega
  rw [State.hostWrite, if_neg (by simp), if_neg (by omega), slotAt_request k hoff]
  simp only [hbyte]

/-- One byte written into a list of 256 replaces the one that stands there. -/
theorem take_append_drop_byte {l : List Byte} (hl : l.length = 256) {off : Nat} (hoff : off < 256) (b : Byte) :
    (l.take off ++ [b] ++ l.drop (off + [b].length)).take 256 = l.set off b := by
  have hlen : off < l.length := hl ▸ hoff
  rw [List.length_singleton, List.append_assoc, List.singleton_append, ← List.set_eq_take_cons_drop b hlen,
    List.take_of_length_le (by rw [List.length_set, hl])]

/-- Settles O9: a byte of a FREE slot's request is stored where it is written, and a header read marks a READY slot. -/
theorem slotsAreReadAndWritten : Obligations.SlotsAreReadAndWritten := by
  refine ⟨fun s k off b hs hoff hlen => ?_, fun s k hs => ?_⟩
  · refine completes_when (b := s.powered && decide (off < 256)) (by simp [hs, hoff]) rfl ?_
    have hsame := State.hostWrite_same s (0x1000 + 256 * k.val + off) [b]
    rw [State.hostWrite_request s k hoff, State.writeRequest] at hsame ⊢
    by_cases hfree : (s.slot k).st = .free
    · rw [if_pos (beq_iff_eq.mpr hfree)] at hsame ⊢
      refine ⟨slotsBut_of_vset rfl, hsame, (if_pos hfree).mpr ⟨(slot_of_vset rfl).trans ?_, rfl⟩⟩
      exact congrArg (fun l => { s.slot k with req := l }) (take_append_drop_byte hlen hoff b)
    · rw [if_neg (mt beq_iff_eq.mp hfree)] at hsame ⊢
      exact ⟨fun _ _ => rfl, hsame, (if_neg hfree).mpr rfl⟩
  · refine completes_when hs rfl ?_
    have hsame := State.headerRead_same s k
    rw [State.headerRead] at hsame ⊢
    cases hst : (s.slot k).st with
    | ready =>
      rw [hst] at hsame
      exact ⟨⟨rfl, slotsBut_of_vset rfl, hsame⟩, slot_of_vset rfl⟩
    | free => exact ⟨⟨rfl, slotsBut_refl k s, same_refl ..⟩, rfl⟩
    | posted => exact ⟨⟨rfl, slotsBut_refl k s, same_refl ..⟩, rfl⟩
    | pending => exact ⟨⟨rfl, slotsBut_refl k s, same_refl ..⟩, rfl⟩
    | read => exact ⟨⟨rfl, slotsBut_refl k s, same_refl ..⟩, rfl⟩
    | discard => exact ⟨⟨rfl, slotsBut_refl k s, same_refl ..⟩, rfl⟩

end Sys2Proof.Machine
end

section
/-! The mailbox at the device's side: SLOT_TAKEN, the checks of a request, the lockout and RESPONSE_READY
(15 R307 to R310, R313, R314). -/

namespace Sys2Proof.Machine

-- One proof at a time: proofs that wait for one another each hold a thread's stack.
set_option Elab.async false

/-! A slot that is taken -/

/-- What takeSlot does behind the checks of the request, whose outcome is c. -/
def State.takeChecked (s : State) (k : SlotIx) (p : Nat × List Byte × Option (List Byte)) (c : Option Nat) : State :=
  let s := s.modMb fun m => { m with order := m.order.filter (· != k) }
  let s := s.modSlot k fun x => { x with
    st := .pending, reply := none
    taken := some ⟨p.1, BitVec.ofNat 8 (byteAt x.req 1), p.2.1, p.2.2.map fun b => byteAt b 0, c.isSome⟩ }
  match c with
  | some c => s.finish k c []
  | none => s

variable {s : State} {k : SlotIx} {p : Nat × List Byte × Option (List Byte)} {c : Option Nat} {r : Req}

theorem State.takeSlot_eq (s : State) (k : SlotIx) :
    s.takeSlot k = (s.checkRequest k).1.takeChecked k (s.slotParts k) (s.checkRequest k).2 := rfl

theorem State.mb_takeChecked : (s.takeChecked k p c).mb =
    { s.mb with order := s.mb.order.filter (· != k), slots := (s.takeChecked k p c).mb.slots } := by
  cases c <;> rfl

theorem State.slot_takeChecked : (s.takeChecked k p c).slot k =
    { s.slot k with
      st := .pending, reply := c.map fun c => ⟨c, []⟩
      taken := some ⟨p.1, BitVec.ofNat 8 (byteAt (s.slot k).req 1), p.2.1, p.2.2.map fun b => byteAt b 0, c.isSome⟩ } := by
  cases c with
  | none => exact slot_of_vset rfl
  | some c => simp only [State.takeChecked, State.finish_eq, State.slot_modSlot, if_pos]; rfl

theorem State.slotsBut_takeChecked : SlotsBut k s (s.takeChecked k p c) := by
  intro j hj
  cases c <;> simp [State.takeChecked, hj] <;> rfl

theorem State.takeChecked_same : SameBut [.mb] s (s.takeChecked k p c) := by
  have hqueued := State.modMb_same s fun m => { m with order := m.order.filter (· != k) }
  cases c with
  | none => exact same_step hqueued (State.modSlot_same ..) (by decide)
  | some c => exact same_step (same_step hqueued (State.modSlot_same ..) (by decide)) (State.finish_same ..) (by decide)

theorem answers_takeChecked {code : Nat} (hc : c = some code) : Answers (s.takeChecked k p c) k code [] := by
  rw [Answers, State.slot_takeChecked, hc]
  rfl

/-- A request that passed its checks waits for its effect under the opcode and body that were read. -/
theorem asks_takeChecked (hc : c = none) (hparse : parseReq p.1 p.2.1 = some r) : Asks (s.takeChecked k p c) k r := by
  rw [Asks, State.request, State.slot_takeChecked, hc]
  simp [hparse]

/-! The checks of a request -/

theorem State.parseReq_of_readRequest (h : s.readRequest k = .ok r) :
    parseReq (s.slotParts k).1 (s.slotParts k).2.1 = some r := by
  unfold State.readRequest at h
  extract_lets q parts op at h
  split_ifs at h
  split at h
  · next hparse =>
    rw [← Except.ok.inj h]
    exact hparse
  · exact absurd h nofun

/-- The authorisation of the request that a slot holds. -/
abbrev State.authOf (s : State) (k : SlotIx) (r : Req) : State × Option Nat :=
  s.authCheck r (s.slotParts k).1 (s.slotParts k).2.1 (s.slotParts k).2.2

theorem State.checkRequest_error {code : Nat} (h : s.readRequest k = .error code) : s.checkRequest k = (s, some code) := by
  rw [State.checkRequest, h]

theorem State.checkRequest_fst (h : s.readRequest k = .ok r) : (s.checkRequest k).1 = (s.authOf k r).1 := by
  rw [State.checkRequest, h]
  dsimp only
  split <;> rfl

theorem State.checkRequest_refused {code : Nat} (h : s.readRequest k = .ok r) (hauth : (s.authOf k r).2 = some code) :
    (s.checkRequest k).2 = some code := by
  rw [State.checkRequest, h]
  simp only [hauth]

theorem State.checkRequest_barred {code : Nat} (h : s.readRequest k = .ok r) (hauth : (s.authOf k r).2 = none)
    (hbar : (s.authOf k r).1.barred (s.slotParts k).1 = some code) : (s.checkRequest k).2 = some code := by
  rw [State.checkRequest, h]
  simp only [hauth, hbar]

theorem State.checkRequest_passed (h : s.readRequest k = .ok r) (hauth : (s.authOf k r).2 = none)
    (hbar : (s.authOf k r).1.barred (s.slotParts k).1 = none) (htime : ∀ m sec ns, r ≠ .timeSet m sec ns)
    (hmeter : ∀ op, r ≠ .meterBadOp op) : (s.checkRequest k).2 = none := by
  rw [State.checkRequest, h]
  simp only [hauth, hbar]

/-! Requests without a block -/

theorem State.authOf_unsigned (h : (s.slotParts k).2.2 = none) :
    s.authOf k r = (s, if s.needsAuth r then some St.authRequired else none) := by
  rw [State.authOf, h, State.authCheck]

/-- Without a block no check changes anything. -/
theorem State.checkRequest_unsigned (h : (s.slotParts k).2.2 = none) : (s.checkRequest k).1 = s := by
  cases hread : s.readRequest k with
  | error code => rw [State.checkRequest_error hread]
  | ok r => rw [State.checkRequest_fst hread, State.authOf_unsigned h]

/-- What becomes of a request without a block that could be read (R314). -/
theorem unsigned_answered (hunsigned : (s.slotParts k).2.2 = none) (hread : s.readRequest k = .ok r) :
    if s.needsAuth r = true then Answers (s.takeChecked k (s.slotParts k) (s.checkRequest k).2) k St.authRequired []
    else match s.barred (s.slotParts k).1 with
      | some code => Answers (s.takeChecked k (s.slotParts k) (s.checkRequest k).2) k code []
      | none => (∀ m sec ns, r ≠ .timeSet m sec ns) → (∀ op, r ≠ .meterBadOp op) →
          Asks (s.takeChecked k (s.slotParts k) (s.checkRequest k).2) k r := by
  have hauth := State.authOf_unsigned (r := r) hunsigned
  split
  next hneeds =>
    rw [if_pos hneeds] at hauth
    exact answers_takeChecked (State.checkRequest_refused hread (by rw [hauth]))
  next hfree =>
    rw [if_neg hfree] at hauth
    split
    next hbar => exact answers_takeChecked (State.checkRequest_barred hread (by rw [hauth]) (by rw [hauth, hbar]))
    next hbar =>
      intro htime hmeter
      exact asks_takeChecked (State.checkRequest_passed hread (by rw [hauth]) (by rw [hauth, hbar]) htime hmeter)
        (State.parseReq_of_readRequest hread)

/-- Settles O11: the front of the order is the only slot that is taken, and its request is read as R314 says. -/
theorem slotsAreTakenInOrder : Obligations.SlotsAreTakenInOrder := by
  intro s k hready hfront hposted
  refine ⟨fun j hj => ?_, fun hunsigned => ?_⟩
  · have hother : (s.ready && s.mb.order.head? == some j && (s.slot j).st == .posted) = false := by
      simp [hfront, Ne.symm hj]
    exact ⟨s, congrArg Host.Outcome.next (if_neg (by simp [hother])), rfl⟩
  · have htaken : (s.ready && s.mb.order.head? == some k && (s.slot k).st == .posted) = true := by
      simp [hready, hfront, hposted]
    refine completes_when htaken rfl ?_
    rw [State.takeSlot_eq, State.checkRequest_unsigned hunsigned]
    refine ⟨?_, ?_, State.slotsBut_takeChecked, State.takeChecked_same, ?_, ?_⟩
    · rw [State.slot_takeChecked]
    · rw [State.mb_takeChecked]
    · rw [State.mb_takeChecked]
    · cases hread : s.readRequest k with
      | error code => exact answers_takeChecked (by rw [State.checkRequest_error hread])
      | ok r => exact unsigned_answered hunsigned hread

/-! Requests with a block -/

/-- A block that passes consumes the nonce and ends the row of failures. -/
theorem State.authCheck_passed {op : Nat} {body b : List Byte} (hok : s.blockOk r op body b = true) :
    (s.authCheck r op body (some b)).2 = none ∧
      (s.authCheck r op body (some b)).1.mb = { s.mb with nonce := none, fails := 0 } := by
  simp only [State.authCheck, hok]
  exact ⟨rfl, rfl⟩

theorem State.mb_record (s : State) (code cls inst sub : Nat) (data : List Byte) :
    (s.record code cls inst sub data).mb = s.mb := (State.record_same s code cls inst sub data).same .mb (by decide)

/-- A failure sets ISTAT.AUTH and counts; the third in a row begins the lockout of 10 s. -/
theorem State.mb_authFailed (s : State) (keySlot op : Nat) : (s.authFailed keySlot op).mb =
    if 3 ≤ s.mb.fails + 1 then { (s.irq Irq.auth).mb with fails := 0, lockEnd := some (s.now + sFrames 10) }
    else { (s.irq Irq.auth).mb with fails := s.mb.fails + 1 } := by
  unfold State.authFailed
  have hmb := State.mb_record (s.count Ob.clsAuth 0 Ob.Auth.fails) Code.authFailed Ob.clsAuth 0 keySlot (leBytes 1 op)
  have hnow := State.now_record (s.count Ob.clsAuth 0 Ob.Auth.fails) Code.authFailed Ob.clsAuth 0 keySlot (leBytes 1 op)
  generalize (s.count Ob.clsAuth 0 Ob.Auth.fails).record Code.authFailed Ob.clsAuth 0 keySlot (leBytes 1 op) = u at hmb hnow
  simp only [State.modMb, State.irq, hmb, hnow]
  rfl

/-- A block that fails answers AUTH_FAILED, and the nonce is consumed all the same. -/
theorem State.authCheck_failed {op : Nat} {body b : List Byte} (hbad : s.blockOk r op body b = false) :
    s.authCheck r op body (some b) =
      ((s.modMb fun m => { m with nonce := none }).authFailed (byteAt b 0) op, some St.authFailed) := by
  rw [State.authCheck]
  simp only [hbad]
  rfl

/-- What the check of a block leaves of the mailbox, and its outcome. -/
theorem State.authOf_signed {b : List Byte} (hblock : (s.slotParts k).2.2 = some b) :
    (s.authOf k r).1.mb.nonce = none ∧ (s.authOf k r).1.mb.slots = s.mb.slots ∧
      if s.blockOk r (s.slotParts k).1 (s.slotParts k).2.1 b = true then
        (s.authOf k r).1.mb.fails = 0 ∧ (s.authOf k r).1.mb.lockEnd = s.mb.lockEnd
      else (s.authOf k r).2 = some St.authFailed ∧ (s.authOf k r).1.mb.istat = s.mb.istat ||| 0x4000 ∧
        if s.mb.fails < 2 then
          (s.authOf k r).1.mb.fails = s.mb.fails + 1 ∧ (s.authOf k r).1.mb.lockEnd = s.mb.lockEnd
        else (s.authOf k r).1.mb.fails = 0 ∧ (s.authOf k r).1.mb.lockEnd = some (s.now + 20000000) := by
  rw [State.authOf, hblock]
  cases hok : s.blockOk r (s.slotParts k).1 (s.slotParts k).2.1 b with
  | true =>
    rw [(State.authCheck_passed hok).2]
    exact ⟨rfl, rfl, rfl, rfl⟩
  | false =>
    rw [State.authCheck_failed hok, State.mb_authFailed, if_neg Bool.false_ne_true]
    have hfails : (s.modMb fun m => { m with nonce := none }).mb.fails = s.mb.fails := rfl
    by_cases hlow : s.mb.fails < 2
    · rw [if_neg (c := 3 ≤ (State.modMb s _).mb.fails + 1) (by omega), if_pos hlow]
      exact ⟨rfl, rfl, rfl, rfl, rfl, rfl⟩
    · rw [if_pos (c := 3 ≤ (State.modMb s _).mb.fails + 1) (by omega), if_neg hlow]
      exact ⟨rfl, rfl, rfl, rfl, rfl, rfl⟩

/-- SLOT_TAKEN of a request with a block (R313, R314). -/
theorem signed_taken {b : List Byte} (hready : s.ready = true) (hfront : s.mb.order.head? = some k)
    (hposted : (s.slot k).st = .posted) (hread : s.readRequest k = .ok r) (hblock : (s.slotParts k).2.2 = some b) :
    Completes (.slotTaken k) s fun t => t.mb.nonce = none ∧ SlotsBut k s t ∧
      if s.blockOk r (s.slotParts k).1 (s.slotParts k).2.1 b = true then t.mb.fails = 0 ∧ t.mb.lockEnd = s.mb.lockEnd
      else Answers t k St.authFailed [] ∧ t.mb.istat = s.mb.istat ||| 0x4000 ∧
        if s.mb.fails < 2 then t.mb.fails = s.mb.fails + 1 ∧ t.mb.lockEnd = s.mb.lockEnd
        else t.mb.fails = 0 ∧ t.mb.lockEnd = some (s.now + 20000000) := by
  have htaken : (s.ready && s.mb.order.head? == some k && (s.slot k).st == .posted) = true := by
    simp [hready, hfront, hposted]
  refine completes_when htaken rfl ?_
  obtain ⟨hnonce, hslots, hrest⟩ := State.authOf_signed (r := r) hblock
  rw [State.takeSlot_eq, State.checkRequest_fst hread, State.mb_takeChecked]
  refine ⟨hnonce, fun j hj => ?_, ?_⟩
  · rw [State.slotsBut_takeChecked j hj]
    exact congrArg (fun v => v.get j) hslots
  · split at hrest
    next hok => 
      rw [if_pos hok]
      exact hrest
    next hbad =>
      obtain ⟨hrefused, hcounted⟩ := hrest
      rw [if_neg hbad]
      exact ⟨answers_takeChecked (State.checkRequest_refused hread hrefused), hcounted⟩

theorem State.liveNonce_isNone {key issued : Nat} {n : List Byte} (h : s.mb.nonce = some (key, n, issued)) :
    s.liveNonce.isNone = decide (issued + 20000000 ≤ s.now) := by
  rw [State.liveNonce, h]
  by_cases hdue : issued + 20000000 ≤ s.now
  · simp [elapsed, sFrames, hdue]
  · simp [elapsed, sFrames, hdue]

/-- A challenge that is answered: a new nonce of the key in place of the earlier one (R313). -/
def State.challenged (s : State) (k : SlotIx) (key : Nat) : State :=
  (s.modMb fun m => { m with nonce := some (key, padTo 16 (Config.nonce s.mb.nonces), s.now), nonces := m.nonces + 1 }).finish
    k St.ok (padTo 16 (Config.nonce s.mb.nonces))

/-- Settles O12: the check of a block is one of two (`State.authOf_signed`), and each timer of the mailbox acts when due. -/
theorem authorisation : Obligations.Authorisation := by
  refine ⟨fun s k r b hready hfront hposted hread hblock => signed_taken hready hfront hposted hread hblock,
    fun s k key hasks => ?_, fun s e hlock => ?_, fun s key issued n hnonce => ?_⟩
  · obtain ⟨auth, hreq⟩ := asks_iff.mp hasks
    have hexec : exec (.authChallenge k key) s = .next (if s.mb.lockEnd.isSome then s.finish k St.busy []
        else if (s.keyOf key).isNone then s.finish k St.state [] else s.challenged k key) :=
      congrArg Host.Outcome.next (State.onRequest_of_request hreq _)
    split
    next hlocked => exact justAnswers_of_exec (by rw [hexec, if_pos hlocked])
    next hopen =>
      rw [if_neg hopen] at hexec
      split
      next hnone => exact justAnswers_of_exec (by rw [hexec, if_pos hnone])
      next hsome =>
        rw [if_neg hsome] at hexec
        exact ⟨_, hexec, answers_finish .., rfl, slotsBut_of_vset rfl,
          same_step (State.modMb_same ..) (State.finish_same ..) (by decide)⟩
  · refine ⟨_, by rw [exec, execAuthLockEnd, hlock], ?_⟩
    by_cases hdue : e ≤ s.now
    · rw [if_pos hdue, if_pos hdue]
      exact ⟨rfl, State.modMb_same ..⟩
    · rw [if_neg hdue, if_neg hdue, ← hlock]
      exact ⟨rfl, same_refl ..⟩
  · refine ⟨_, rfl, ?_⟩
    rw [State.liveNonce_isNone hnonce]
    by_cases hdue : issued + 20000000 ≤ s.now
    · rw [if_pos (decide_eq_true hdue), if_pos hdue]
      exact ⟨rfl, State.modMb_same ..⟩
    · rw [if_neg (mt of_decide_eq_true hdue), if_neg hdue]
      exact ⟨rfl, same_refl ..⟩

/-! RESPONSE_READY -/

/-- The response area of a slot that answers (R307, R308). -/
def responseOf (r : Reply) (x : Taken) : List Byte :=
  padTo 256 (leBytes 1 r.status ++ [x.tag] ++ leBytes 1 (min r.payload.length 252) ++ [0] ++ r.payload.take 252)

theorem responseOf_eq {r : Reply} {x : Taken} (hlen : r.payload.length ≤ 252) :
    responseOf r x = padTo 256 (leBytes 1 r.status ++ [x.tag] ++ leBytes 1 r.payload.length ++ [0] ++ r.payload) := by
  rw [responseOf, Nat.min_eq_left hlen, List.take_of_length_le hlen]

theorem State.slots_respond_pending {r : Reply} {x : Taken} (hreply : (s.slot k).reply = some r)
    (htaken : (s.slot k).taken = some x) (hst : (s.slot k).st = .pending) : (s.respond k).mb.slots =
      vset s.mb.slots k { s.slot k with st := .ready, taken := none, reply := none, resp := responseOf r x } := by
  rw [State.respond, hreply, htaken]
  dsimp only
  rw [hst, if_neg (by decide)]
  rfl

theorem State.bit_istat_respond {r : Reply} {x : Taken} (hreply : (s.slot k).reply = some r)
    (htaken : (s.slot k).taken = some x) (hst : (s.slot k).st = .pending) : bit (s.respond k).mb.istat k.val = true := by
  rw [State.respond, hreply, htaken]
  dsimp only
  rw [hst, if_neg (by decide)]
  exact State.bit_istat_irq _ (Irq.slot k)

/-- A slot marked for discarding is let go without a response (R308). -/
theorem State.respond_discard {r : Reply} {x : Taken} (hreply : (s.slot k).reply = some r)
    (htaken : (s.slot k).taken = some x) (hst : (s.slot k).st = .discard) : s.respond k =
      (s.modSlot k fun x => { x with st := .free, taken := none, reply := none }).armingNow k := by
  rw [State.respond, hreply, htaken]
  dsimp only
  rw [hst, if_pos (by decide)]

/-- Settles O13: the response of a PENDING slot is written with the slot's reply, and a discarded one is not. -/
theorem responsesBecomeReady : Obligations.ResponsesBecomeReady := by
  intro s k r x hreply htaken hlen
  refine ⟨fun hst => ?_, fun hst => ?_⟩
  · refine completes_when (b := (s.slot k).st == .pending || (s.slot k).st == .discard) (by rw [hst]; rfl) rfl ?_
    have hset := State.slots_respond_pending hreply htaken hst
    have hslot := slot_of_vset hset
    refine ⟨?_, ?_, ?_, ?_, State.bit_istat_respond hreply htaken hst, slotsBut_of_vset hset, State.respond_same ..⟩
    · rw [hslot]
    · rw [hslot]
    · rw [hslot]
    · rw [hslot, responseOf_eq hlen]
  · refine completes_when (b := (s.slot k).st == .pending || (s.slot k).st == .discard) (by rw [hst]; rfl) rfl ?_
    have hsame := State.respond_same s k
    have hslots : (s.respond k).mb.slots = vset s.mb.slots k { s.slot k with st := .free, taken := none, reply := none } := by
      rw [State.respond_discard hreply htaken hst]
      rfl
    have hslot := slot_of_vset hslots
    refine ⟨?_, ?_, ?_, ?_, ?_, slotsBut_of_vset hslots, hsame⟩
    · rw [hslot]
    · rw [hslot]
    · rw [hslot]
    · rw [hslot]
    · rw [State.respond_discard hreply htaken hst]
      rfl

end Sys2Proof.Machine
end

section
/-! Requests of the mailbox that wait or bring the device down: SET_GROUP, RESET, FW_ACTIVATE and SLEEP, TWIN_HANDOVER and
TWIN_ARM (12 R256, R259, 15 R317, R320, 16 R327, R340). -/

namespace Sys2Proof.Machine

-- One proof at a time: proofs that wait for one another each hold a thread's stack.
set_option Elab.async false

variable {s u t : State} {k : SlotIx} {r : Req} {q : Req × Option Nat}

/-- A request whose answer needs no key runs its command on the state as it stands. -/
theorem exec_of_asks {c : Instr} {f : Option Nat → State} {t : State} (hasks : Asks s k r)
    (hexec : exec c s = .next (s.onRequest k r f)) (hf : ∀ key, f key = t) : exec c s = .next t := by
  obtain ⟨key, hreq⟩ := asks_iff.mp hasks
  rw [hexec, State.onRequest_of_request hreq, hf]

/-! SET_GROUP -/

theorem State.atEdges_atEdges (s : State) (as bs : List EdgeAction) : (s.atEdges as).atEdges bs = s.atEdges (as ++ bs) := by
  simp [State.atEdges]

/-- COEF_APPLY among the members of a group queues coefficients, and the other members nothing (R114). -/
theorem State.exists_queueCoefs (s : State) (ms : List ObjWrite) : ∃ cs : List EdgeAction,
    (∀ a ∈ cs, ∃ r b0 b1 b2 a1 a2, a = .coefs r b0 b1 b2 a1 a2) ∧ s.queueCoefs ms = s.atEdges cs := by
  induction ms generalizing s with
  | nil => exact ⟨[], by simp, by simp [State.queueCoefs, State.atEdges, forEach]⟩
  | cons m ms ih =>
    have hcons : ∃ cs : List EdgeAction, (∀ a ∈ cs, ∃ r b0 b1 b2 a1 a2, a = .coefs r b0 b1 b2 a1 a2) ∧
        s.queueCoefs (m :: ms) = (s.atEdges cs).queueCoefs ms := by
      by_cases hcoef : (decide (m.obj.cls = Ob.clsRail) && decide (m.obj.item = Ob.Rail.coefApply)) = true
      · by_cases hrail : m.obj.inst < 16
        · refine ⟨[s.shadowCoefs ⟨m.obj.inst, hrail⟩], by simp [State.shadowCoefs], ?_⟩
          simp only [State.queueCoefs, forEach, List.foldl_cons, if_pos hcoef, dif_pos hrail]
          rfl
        · refine ⟨[], by simp, ?_⟩
          simp only [State.queueCoefs, forEach, List.foldl_cons, if_pos hcoef, dif_neg hrail]
          simp [State.atEdges]
      · refine ⟨[], by simp, ?_⟩
        simp only [State.queueCoefs, forEach, List.foldl_cons, if_neg hcoef]
        simp [State.atEdges]
    obtain ⟨cs, hcs, hfirst⟩ := hcons
    obtain ⟨ds, hds, hrest⟩ := ih (s.atEdges cs)
    refine ⟨cs ++ ds, fun a ha => (List.mem_append.mp ha).elim (hcs a) (hds a), ?_⟩
    rw [hfirst, hrest, State.atEdges_atEdges]

/-- Settles O18: a refused group is only answered, and one that passes stands whole in the edge queue. -/
theorem groupsAreAllOrNothing : Obligations.GroupsAreAllOrNothing := by
  intro s k ms key hreq
  have hexec : exec (.setGroup k ms) s = .next (if ms.isEmpty ∨ 31 < ms.length then s.finish k St.range []
      else match s.groupRefusal key.isSome ms with
      | some codes => s.finish k (State.firstBad codes) (State.codesPayload codes)
      | none => (((s.replicate (.setGroup ms)).atEdge (.group (some k) ms)).queueCoefs ms).startSlot k) :=
    congrArg Host.Outcome.next (State.onRequest_of_request hreq _)
  have hempty : (ms.isEmpty = true ∨ 31 < ms.length) ↔ (ms = [] ∨ 31 < ms.length) := by rw [List.isEmpty_iff]
  split
  next hrange => exact justAnswers_of_exec (by rw [hexec, if_pos (hempty.mpr hrange)])
  next hrange =>
    rw [if_neg (mt hempty.mp hrange)] at hexec
    split
    next codes hrefused => exact justAnswers_of_exec (by rw [hexec, hrefused])
    next hpassed =>
      obtain ⟨cs, hcs, hqueued⟩ := State.exists_queueCoefs ((s.replicate (.setGroup ms)).atEdge (.group (some k) ms)) ms
      refine ⟨cs, hcs, queuesAtEdge_of_exec (u := s.replicate (.setGroup ms)) hreq (.inr ⟨_, rfl⟩) ?_⟩
      rw [hexec, hpassed]
      dsimp only
      rw [hqueued]
      exact congrArg (fun x : State => Host.Outcome.next (x.startSlot k)) (State.atEdges_atEdges _ [_] cs)

/-! RESET, SLEEP and FW_ACTIVATE -/

/-- What arming a slot leaves of the mailbox, and its answer (R320). -/
theorem armSlot_effect (hmb : u.mb = s.mb) (cause : Nat) : Answers (u.armSlot k cause) k St.ok [] ∧
    (u.armSlot k cause).mb = { s.mb with slots := (u.armSlot k cause).mb.slots, arming := s.mb.arming ++ [⟨k, cause, none⟩] } ∧
      SlotsBut k s (u.armSlot k cause) := by
  refine ⟨answers_finish .., ?_, slotsBut_of_vset (x := { s.slot k with reply := some ⟨St.ok, []⟩ }) ?_⟩
  · rw [← hmb]
    rfl
  · rw [State.slot, ← hmb]
    rfl

/-- Settles O24: each request arms its slot (`armSlot_effect`) where the device may go down, and is refused elsewhere. -/
theorem requestsThatGoDown : Obligations.RequestsThatGoDown := by
  intro s k
  refine ⟨fun hasks => ?_, fun ms hasks => ?_, fun i hasks hheld hi => ?_⟩
  · obtain ⟨hanswers, hmb, hslots⟩ := armSlot_effect (s := s) (k := k) rfl 2
    exact ⟨_, exec_of_asks hasks rfl fun _ => rfl, hanswers, hmb, hslots, State.armSlot_same ..⟩
  · have hexec : exec (.sleep k ms) s = .next (if s.sleepOk k then
        { s with dev := { s.dev with wakeMs := ms } }.armSlot k 0 else s.finish k St.state []) :=
      exec_of_asks hasks rfl fun _ => rfl
    split
    next hok =>
      obtain ⟨hanswers, hmb, hslots⟩ :=
        armSlot_effect (s := s) (u := { s with dev := { s.dev with wakeMs := ms } }) (k := k) rfl 0
      have hdev : SameBut [.dev] s { s with dev := { s.dev with wakeMs := ms } } :=
        ⟨fun p hp => by cases p <;> simp [Area.Same] at hp ⊢⟩
      exact ⟨_, by rw [hexec, if_pos hok], hanswers, rfl, hmb, hslots,
        same_step (same_mono hdev (by decide)) (State.armSlot_same ..) (by decide)⟩
    next hbad => exact justAnswers_of_exec (by rw [hexec, if_neg hbad])
  · have hexec : exec (.fwActivate k i) s = .next (if !State.fwVerifies (s.fwImage i) then s.finish k St.state []
        else if !s.nvm.window then s.finish k St.media []
        else ({ s with fw := { s.fw with preferred := i, trialNext := true } }.record Code.fwActivate Ob.clsDev 0 i
          (leBytes 2 (State.fwRelease (s.fwImage i)))).armSlot k 5) :=
      exec_of_asks hasks rfl fun _ => by rw [if_neg (by simp [hheld]), if_neg (Nat.not_lt.mpr hi)]; rfl
    split
    next hbad => exact justAnswers_of_exec (by rw [hexec, if_pos (by simp [hbad])])
    next hverifies =>
      rw [if_neg (by simpa using hverifies)] at hexec
      split
      next hclosed => exact justAnswers_of_exec (by rw [hexec, if_pos (by simp [hclosed])])
      next hopen =>
        rw [if_neg (by simpa using hopen)] at hexec
        have hfw : SameBut [.fw] s { s with fw := { s.fw with preferred := i, trialNext := true } } :=
          ⟨fun p hp => by cases p <;> simp [Area.Same] at hp ⊢⟩
        have hrecord := State.record_same { s with fw := { s.fw with preferred := i, trialNext := true } } Code.fwActivate
          Ob.clsDev 0 i (leBytes 2 (State.fwRelease (s.fwImage i)))
        have hlogs := logs_record (s := s) { s with fw := { s.fw with preferred := i, trialNext := true } } rfl rfl
          Code.fwActivate Ob.clsDev 0 i (leBytes 2 (State.fwRelease (s.fwImage i)))
        generalize { s with fw := { s.fw with preferred := i, trialNext := true } }.record Code.fwActivate
          Ob.clsDev 0 i (leBytes 2 (State.fwRelease (s.fwImage i))) = x at hexec hrecord hlogs
        obtain ⟨hanswers, hmb, hslots⟩ := armSlot_effect (s := s) (u := x) (k := k) (hrecord.same .mb (by decide)) 5
        exact ⟨_, hexec, hanswers, hrecord.same .fw (by decide), hmb, hslots, hlogs,
          same_step (same_step (same_mono hfw (by decide)) hrecord (by decide)) (State.armSlot_same ..) (by decide)⟩

/-! TWIN_HANDOVER and TWIN_ARM -/

theorem State.reply_of_request (h : s.request k = some q) : (s.slot k).reply = none := by
  unfold State.request at h
  extract_lets x at h
  split at h
  · split at h
    next hwaits =>
      simp only [Bool.and_eq_true, Option.isNone_iff_eq_none] at hwaits
      exact hwaits.2
    · exact absurd h nofun
  · exact absurd h nofun

/-- A request that is started waits for its outcome. -/
theorem waits_startSlot (hreq : s.request k = some q) (hmb : u.mb = s.mb) : Waits (u.startSlot k) k := by
  obtain ⟨x, hx⟩ := State.exists_taken_of_request hreq
  have hslot : (u.startSlot k).slot k = { s.slot k with taken := some { x with started := true } } := by
    rw [State.slot_startSlot, if_pos rfl, State.slot_eq_of_mb hmb, hx]
    rfl
  rw [Waits, hslot]
  exact ⟨State.reply_of_request hreq, rfl⟩

theorem mbButSlot_startSlot (hmb : u.mb = s.mb) : MbButSlot k s (u.startSlot k) := by
  refine ⟨by rw [← hmb]; rfl, fun j hj => ?_⟩
  rw [State.slot_startSlot, if_neg hj, State.slot_eq_of_mb hmb]

/-- The edge of a handover: the first superframe start at least 48 frames on (R256). -/
theorem handoverEdge_bounds (frame superframe : Nat) :
    let e := frame + 48 + (64 - (superframe + 48) % 64) % 64
    frame + 48 ≤ e ∧ e < frame + 112 ∧ (superframe + (e - frame)) % 64 = 0 := by
  dsimp only
  omega

theorem twinHandover_answered (hasks : Asks s k .twinHandover) :
    if s.twin.pendingHo.isSome then JustAnswers (.twinHandover k) s k St.busy []
    else if s.twin.role = .active ∧ s.twin.armed = true ∧ s.feeds.sel ≠ .brk ∧ s.feeds.sel ≠ .dead ∧ s.feeds.sel ≠ .make ∧
        s.tune.tstate ≠ .running then
      Completes (.twinHandover k) s fun t => Waits t k ∧ SameBut [.twin, .mb] s t ∧
        ∃ e, t.twin = { s.twin with pendingHo := some (k, e), hoEdge := e } ∧ s.clk.frame + 48 ≤ e ∧
          e < s.clk.frame + 112 ∧ (s.clk.superframe + (e - s.clk.frame)) % 64 = 0
    else JustAnswers (.twinHandover k) s k St.state [] := by
  obtain ⟨key, hreq⟩ := asks_iff.mp hasks
  obtain ⟨e, he⟩ : ∃ e, e = s.clk.frame + 48 + (64 - (s.clk.superframe + 48) % 64) % 64 := ⟨_, rfl⟩
  have hexec : exec (.twinHandover k) s = .next (if s.twin.pendingHo.isSome then s.finish k St.busy []
      else if s.twin.role != .active || !s.twin.armed || s.feeds.sel == .brk || s.feeds.sel == .dead || s.feeds.sel == .make
        || s.tune.tstate == .running then s.finish k St.state []
      else (s.modTwin fun t => { t with pendingHo := some (k, e), hoEdge := e }).startSlot k) :=
    exec_of_asks hasks rfl fun _ => by rw [he]
  split
  next hbusy => exact justAnswers_of_exec (by rw [hexec, if_pos hbusy])
  next hfree =>
    rw [if_neg hfree] at hexec
    split
    next hmay =>
      obtain ⟨hactive, harmed, hbrk, hdead, hmake, htune⟩ := hmay
      rw [if_neg (by simp [hactive, harmed, hbrk, hdead, hmake, htune])] at hexec
      refine ⟨_, hexec, waits_startSlot hreq rfl, ?_, e, rfl, he ▸ handoverEdge_bounds ..⟩
      exact same_step (same_mono (State.modTwin_same ..) (by decide)) (State.startSlot_same ..) (by decide)
    next hmaynot =>
      refine justAnswers_of_exec (hexec.trans (congrArg _ (if_pos ?_)))
      by_contra hrest
      simp only [Bool.not_eq_true, Bool.or_eq_false_iff, bne_eq_false_iff_eq, Bool.not_eq_false', beq_eq_false_iff_ne] at hrest
      obtain ⟨⟨⟨⟨⟨hactive, harmed⟩, hbrk⟩, hdead⟩, hmake⟩, htune⟩ := hrest
      exact hmaynot ⟨hactive, harmed, hbrk, hdead, hmake, htune⟩

theorem twinArm_answered (hasks : Asks s k .twinArm) :
    match s.twin.role with
    | .monitor => JustAnswers (.twinArm k) s k St.version []
    | .standby =>
      if s.twin.armed = true then JustAnswers (.twinArm k) s k St.ok [0]
      else if s.armReason = .none then Completes (.twinArm k) s fun t => Waits t k ∧
        t.twin = { s.twin with resyncing := true, resyncOnly := false, armSlot := some k } ∧ MbButSlot k s t ∧
          SameBut [.twin, .mb] s t
      else Completes (.twinArm k) s fun t => Answers t k St.ok (leBytes 1 s.armReason.code) ∧
        t.twin = { s.twin with unarm := s.armReason } ∧ MbButSlot k s t ∧ SameBut [.twin, .mb] s t
    | _ => JustAnswers (.twinArm k) s k St.state [] := by
  obtain ⟨key, hreq⟩ := asks_iff.mp hasks
  have hexec : exec (.twinArm k) s = .next (match s.twin.role with
      | .monitor => s.finish k St.version []
      | .standby =>
        if s.twin.armed then s.finish k St.ok (leBytes 1 0)
        else if s.armReason == .none then (s.resync.modTwin fun t => { t with armSlot := some k }).startSlot k
        else (s.modTwin fun t => { t with unarm := s.armReason }).finish k St.ok (leBytes 1 s.armReason.code)
      | _ => s.finish k St.state []) := exec_of_asks hasks rfl fun _ => rfl
  cases hrole : s.twin.role with
  | monitor => exact justAnswers_of_exec (by rw [hexec, hrole])
  | standby =>
    rw [hrole] at hexec
    dsimp only at hexec ⊢
    split
    next harmed => exact justAnswers_of_exec (by rw [hexec, if_pos harmed]; rfl)
    next hunarmed =>
      rw [if_neg hunarmed] at hexec
      split
      next hnone =>
        rw [if_pos (beq_iff_eq.mpr hnone)] at hexec
        refine ⟨_, hexec, waits_startSlot hreq rfl, rfl, mbButSlot_startSlot rfl, ?_⟩
        exact same_step (same_step (same_mono (State.resync_same s) (by decide)) (State.modTwin_same ..) (by decide))
          (State.startSlot_same ..) (by decide)
      next hwhy =>
        rw [if_neg (mt beq_iff_eq.mp hwhy)] at hexec
        exact ⟨_, hexec, answers_finish .., rfl, mbButSlot_finish rfl ..,
          same_step (same_mono (State.modTwin_same ..) (by decide)) (State.finish_same ..) (by decide)⟩
  | solo | active | listen => exact justAnswers_of_exec (by rw [hexec, hrole])

/-- Settles O26: a handover takes the next superframe start with room for it (`handoverEdge_bounds`), and TWIN_ARM acts by
role. -/
theorem twinRequests : Obligations.TwinRequests := fun _ _ => ⟨twinHandover_answered, twinArm_answered⟩

end Sys2Proof.Machine
end

section
/-! Resets, the supply, sleep and wake (16 R320, R324, R327, R339 to R344). -/

namespace Sys2Proof.Machine

-- One proof at a time: proofs that wait for one another each hold a thread's stack.
set_option Elab.async false

variable {s t u x : State}

/-! What a record leaves of MRAM (16 R337) -/

/-- From s to t nothing of MRAM changes but REC_ARMED. -/
def NvmStands (s t : State) : Prop := { t.nvm with recArmed := false } = { s.nvm with recArmed := false }

namespace NvmStands

theorem refl (s : State) : NvmStands s s := rfl

theorem trans (h : NvmStands s t) (h' : NvmStands t u) : NvmStands s u := Eq.trans h' h

/-- A change outside MRAM. -/
theorem quiet {ps : List Area} (h : SameBut ps s t) (hps : Area.nvm ∉ ps := by decide) : NvmStands s t := by
  rw [NvmStands, show t.nvm = s.nvm from h.same .nvm hps]

theorem ite {c : Prop} [Decidable c] {a b : State} (ha : NvmStands s a) (hb : NvmStands s b) :
    NvmStands s (if c then a else b) := rel_ite ha hb

theorem field {α : Type} (h : NvmStands s t) (f : NvmState → α)
    (hf : ∀ m : NvmState, f { m with recArmed := false } = f m := by intro _; rfl) : f t.nvm = f s.nvm := by
  rw [← hf, h, hf]

theorem pushRam (s : State) (r : Rec) : NvmStands s (s.pushRam r) := by
  unfold State.pushRam
  extract_lets armed lost
  have harmed : NvmStands s armed := rfl
  exact ite (harmed.trans (quiet (State.modRec_same ..)))
    ((harmed.trans (quiet (State.countLost_same ..))).trans (quiet (State.modRec_same ..)))

theorem loseReserve (s : State) : NvmStands s s.loseReserve :=
  (quiet (State.countLost_same ..)).trans (quiet (State.modRec_same ..))

theorem mediaFault (s : State) (r : Rec) (n : Nat) : NvmStands s (s.mediaFault r n) := by
  unfold State.mediaFault
  extract_lets failed lf
  have hfailed : NvmStands s failed := quiet (State.modRec_same ..)
  refine ite (((hfailed.trans (pushRam ..)).trans (quiet (State.modRec_same ..))).trans (quiet (State.toTwin_same ..))) ?_
  exact (hfailed.trans (quiet (State.modRec_same ..))).trans (loseReserve _)

theorem commitRec (s : State) (r : Rec) (n : Nat) : NvmStands s (s.commitRec r n) := by
  unfold State.commitRec
  extract_lets counted spared
  have hcounted : NvmStands s counted := quiet (State.count_same ..)
  have hspared : NvmStands counted spared :=
    ite (quiet (State.modRec_same ..)) ((quiet (State.count_same ..)).trans (pushRam ..))
  exact ite (pushRam ..) (ite (quiet (State.pushRing_same ..)) ((hcounted.trans hspared).trans (mediaFault ..)))

theorem place (s : State) (r : Rec) : NvmStands s (s.place r) := ite (quiet (State.modRec_same ..)) (commitRec ..)

theorem writeKeptReserve (s : State) : NvmStands s s.writeKeptReserve := by
  unfold State.writeKeptReserve
  split
  · exact refl s
  · extract_lets _ numbered
    have hnumbered : NvmStands s numbered := quiet (State.modRec_same ..)
    exact ite hnumbered ((hnumbered.trans (quiet (State.modRec_same ..))).trans (place ..))

theorem emit (s : State) (e : Ev) : NvmStands s (s.emit e) := by
  unfold State.emit
  extract_lets raised kept n flags r snapped relayed sent
  have hraised : NvmStands s raised := quiet (State.raiseReserve_same s)
  have hkept : NvmStands s kept := hraised.trans (writeKeptReserve _)
  have hsnapped : NvmStands kept snapped := rel_forEach refl trans (fun _ _ _ => quiet (State.takeSnap_same ..)) kept
  have hsent : NvmStands s sent := (hkept.trans hsnapped).trans (ite (quiet (State.toTwin_same ..)) (refl _))
  refine ite (hraised.trans (loseReserve _)) (hsent.trans (ite ?_ ?_))
  · exact (quiet (State.countLost_same ..)).trans (quiet (State.modRec_same ..))
  · exact (quiet (State.modRec_same ..)).trans (place ..)

theorem record (s : State) (code cls inst sub : Nat) (data : List Byte) : NvmStands s (s.record code cls inst sub data) := by
  unfold State.record State.event
  split
  · exact quiet (State.modRec_same ..)
  · exact emit ..

end NvmStands

/-! Resets -/

theorem sameBut_dev (s : State) (d : DevState) : SameBut [.dev] s { s with dev := d } :=
  ⟨fun p hp => by cases p <;> simp [Area.Same] at hp ⊢⟩

/-- t is what a reset of s with this cause leaves (R320, R324, R339). -/
def IsReset (s t : State) (cause : Nat) : Prop :=
  t.dev.dstate = .boot ∧ t.dev.cause = cause ∧ t.objs = [] ∧ (∀ k, (t.slot k).st = .free) ∧ t.mb.mp = 0 ∧ t.mb.istat = 0 ∧
    t.edgeQueue = [] ∧ t.tune.tstate = .idle ∧ (∀ d, (t.domain d).dstate = .off ∧ (t.domain d).req = false) ∧
    (∀ r, (t.rail r).seq.rseq = .off ∧ (t.rail r).prot.latch = .none ∧ (t.rail r).ff.t0 = (s.rail r).ff.t0 ∧
      (t.rail r).ff.t1 = (s.rail r).ff.t1) ∧
    t.mb.keys = s.mb.keys ∧ t.cfg.copy0 = s.cfg.copy0 ∧ t.cfg.copy1 = s.cfg.copy1 ∧ t.nvm.counters = s.nvm.counters ∧
    t.nvm.patterns = s.nvm.patterns ∧ t.nvm.queue = s.nvm.queue ∧ t.meter.points = s.meter.points ∧
    t.meter.intervals = s.meter.intervals ∧ t.meter.session = false ∧ t.now = s.now

/-- A reset leaves the rails' tables and nothing else of them. -/
theorem State.rail_resetTo (s : State) (cause : Nat) (r : RailIx) : (s.resetTo cause).rail r = State.railKept (s.rail r) := by
  have hrails : s.abandonSession.rails = s.rails := (State.abandonSession_same s).same .rails (by decide)
  show (s.abandonSession.rails.map State.railKept).get r = _
  rw [Vector.get_map, hrails]
  rfl

/-- What memory a reset keeps. -/
theorem State.resetTo_kept (s : State) (cause : Nat) : (s.resetTo cause).now = s.now ∧
    (s.resetTo cause).meter = s.abandonSession.meter ∧ (s.resetTo cause).recd = State.recKept s.recd ∧
    (s.resetTo cause).mb = State.mbKept s.mb ∧ (s.resetTo cause).fw = s.fw ∧
    (s.resetTo cause).dev = State.devKept s.dev cause ∧ (s.resetTo cause).cfg.copy0 = s.cfg.copy0 ∧
    (s.resetTo cause).cfg.copy1 = s.cfg.copy1 ∧ (s.resetTo cause).nvm = { s.nvm with goodSince := none, armGood := none } := by
  have hsame := State.abandonSession_same s
  unfold State.resetTo
  generalize s.abandonSession = u at hsame
  have hnow : u.now = s.now := hsame.same .now (by decide)
  have hrecd : u.recd = s.recd := hsame.same .recd (by decide)
  have hmb : u.mb = s.mb := hsame.same .mb (by decide)
  have hfw : u.fw = s.fw := hsame.same .fw (by decide)
  have hdev : u.dev = s.dev := hsame.same .dev (by decide)
  have hcfg : u.cfg = s.cfg := hsame.same .cfg (by decide)
  have hcopy0 : u.cfg.copy0 = s.cfg.copy0 := by rw [hcfg]
  have hcopy1 : u.cfg.copy1 = s.cfg.copy1 := by rw [hcfg]
  have hnvm : u.nvm = s.nvm := hsame.same .nvm (by decide)
  exact ⟨hnow, rfl, congrArg State.recKept hrecd, congrArg State.mbKept hmb, hfw, congrArg (State.devKept · cause) hdev,
    hcopy0, hcopy1,
    congrArg (fun m : NvmState => { m with goodSince := none, armGood := none }) hnvm⟩

/-- A reset behind operations that leave what a reset keeps. -/
theorem isReset_resetTo {ps : List Area} (h : SameBut ps s u) (hn : NvmStands s u) (cause : Nat)
    (hps : ∀ p ∈ ps, p ∈ [Area.objs, .twin, .recd, .nvm, .dev, .fw] := by decide) : IsReset s (u.resetTo cause) cause := by
  have hout {p : Area} (hp : p ∉ [Area.objs, .twin, .recd, .nvm, .dev, .fw]) : p.Same s u := h.same p fun hmem => hp (hps p hmem)
  have hrail : ∀ r, u.rail r = s.rail r := fun r => congrArg (fun v => v.get r) (hout (p := .rails) (by decide))
  have hmb : u.mb = s.mb := hout (p := .mb) (by decide)
  have hcfg : u.cfg = s.cfg := hout (p := .cfg) (by decide)
  have hmeter : u.meter = s.meter := hout (p := .meter) (by decide)
  have hnow : u.now = s.now := hout (p := .now) (by decide)
  obtain ⟨hnow', hmeter', -, hmb', -, hdev', hcopy0, hcopy1, hnvm'⟩ := State.resetTo_kept u cause
  have hclosed := State.meter_abandonSession u
  refine ⟨by rw [hdev']; rfl, by rw [hdev']; rfl, rfl, fun k => ?_, by rw [hmb']; rfl, by rw [hmb']; rfl, rfl, rfl,
    fun d => ?_, fun r => ?_, by rw [hmb', ← hmb]; rfl, by rw [hcopy0, hcfg], by rw [hcopy1, hcfg], ?_, ?_, ?_, ?_, ?_, ?_,
    hnow'.trans hnow⟩
  · rw [State.slot, hmb']
    exact congrArg Slot.st (Vector.get_replicate ..)
  · have hdomain : (u.resetTo cause).domain d = {} := Vector.get_replicate ..
    rw [hdomain]
    exact ⟨rfl, rfl⟩
  · rw [State.rail_resetTo, hrail]
    exact ⟨rfl, rfl, rfl, rfl⟩
  · rw [hnvm']
    exact hn.field NvmState.counters
  · rw [hnvm']
    exact hn.field NvmState.patterns
  · rw [hnvm']
    exact hn.field NvmState.queue
  · rw [hmeter', hclosed, hmeter]
  · rw [hmeter', hclosed, hmeter]
  · rw [hmeter', hclosed]

theorem State.fw_trialFailed (s : State) : s.trialFailed.fw =
    if s.fw.trial = true then { s.fw with trial := false, preferred := 1 - s.fw.preferred } else s.fw := by
  rw [State.trialFailed]
  split <;> rfl

/-- The supervisor's restart: a reset with WD pending, behind the end of a trial (R327). -/
theorem supervisorWatchdog_resets (hready : s.ready = true) : Completes .supervisorWatchdog s fun t =>
    IsReset s t 3 ∧ t.dev.wdPending = true ∧ t.recd.ring = s.recd.ring ∧ t.fw.slotA = s.fw.slotA ∧ t.fw.slotB = s.fw.slotB ∧
      (s.fw.trial = true → t.fw.trial = false ∧ t.fw.preferred = 1 - s.fw.preferred) ∧ (s.fw.trial = false → t.fw = s.fw) := by
  refine completes_when hready rfl ?_
  have hfailed : SameBut [.dev, .fw] s (s.noteRestart 1).trialFailed :=
    same_step (same_mono (State.noteRestart_same ..) (by decide)) (State.trialFailed_same _) (by decide)
  have hfw : (s.noteRestart 1).trialFailed.fw =
      if s.fw.trial = true then { s.fw with trial := false, preferred := 1 - s.fw.preferred } else s.fw :=
    State.fw_trialFailed (s.noteRestart 1)
  generalize (s.noteRestart 1).trialFailed = x at hfailed hfw
  have hsame : SameBut [.dev, .fw] s { x with dev := { x.dev with wdPending := true } } :=
    same_step hfailed (sameBut_dev x _) (by decide)
  obtain ⟨-, -, hrecd', -, hfw', hdev', -⟩ := State.resetTo_kept { x with dev := { x.dev with wdPending := true } } 3
  have hrecd : x.recd = s.recd := hfailed.same .recd (by decide)
  refine ⟨isReset_resetTo hsame (.quiet hsame) 3, by rw [hdev']; rfl, ?_, ?_, ?_, fun htrial => ?_, fun htrial => ?_⟩
  · rw [hrecd', hrecd]
    rfl
  · rw [hfw', hfw]
    split <;> rfl
  · rw [hfw', hfw]
    split <;> rfl
  · rw [hfw', hfw, if_pos htrial]
    exact ⟨rfl, rfl⟩
  · rw [hfw', hfw, if_neg (by simp [htrial])]

/-- Settles O32: every one of these commands resets a state that holds what the reset keeps (`isReset_resetTo`). -/
theorem resetsKeepWhatTheyMust : Obligations.ResetsKeepWhatTheyMust := by
  intro s hs
  have hstraight (cause : Nat) : IsReset s (s.resetTo cause) cause ∧ (s.resetTo cause).recd.ring = s.recd.ring ∧
      (s.resetTo cause).recd.ram = s.recd.ram ∧ (s.resetTo cause).fw = s.fw := by
    obtain ⟨-, -, hrecd, -, hfw, -⟩ := State.resetTo_kept s cause
    exact ⟨isReset_resetTo (same_refl [] s) (.refl s) cause, by rw [hrecd]; rfl, by rw [hrecd]; rfl, hfw⟩
  refine ⟨completes_when hs rfl (hstraight 1), fun a b harmed hcause hdue hb => ?_, fun e hready => ?_,
    supervisorWatchdog_resets⟩
  · refine ⟨_, ?_, hstraight a.cause⟩
    show execCommandResetExecute s = _
    simp [execCommandResetExecute, harmed, hcause, hdue, hb]
  · refine completes_when (b := s.ready || (s.dev.dstate == .sleep && !e)) (by simp [hready]) rfl ?_
    have hrecord := State.record_frame s Code.clockFault Ob.clsDev 0 (flag e 0) []
    have hnvm := NvmStands.record s Code.clockFault Ob.clsDev 0 (flag e 0) []
    refine ⟨isReset_resetTo hrecord hnvm 4, ?_⟩
    obtain ⟨-, -, -, -, hfw, -⟩ := State.resetTo_kept (s.record Code.clockFault Ob.clsDev 0 (flag e 0) []) 4
    exact hfw.trans (hrecord.same .fw (by decide))

end Sys2Proof.Machine
end

section
/-! The recorder: what the parts of an event leave, and what becomes of one (14 R282, R283, R287, R289, R292). -/

namespace Sys2Proof.Machine

-- One proof at a time: proofs that wait for one another each hold a thread's stack.
set_option Elab.async false

variable {s t u x : State} {r : Rec} {n : Nat} {p : Prop}

/-! Numbers only rise, and no record up to a number comes back -/

/-- The next number lies beyond n, and, where p holds, so does every record of the memories. -/
def Above (n : Nat) (p : Prop) (s : State) : Prop :=
  n < s.recd.next ∧ (p → ∀ x ∈ s.recd.ring ++ s.recd.spare ++ s.recd.ram, n < x.seq)

namespace Above

theorem of_recd (h : Above n p s) (hr : t.recd = s.recd) : Above n p t := by
  rw [Above, hr]
  exact h

/-- An update that adds no record and takes no number back. -/
theorem update (h : Above n p s) {f : RecState → RecState} (hnext : s.recd.next ≤ (f s.recd).next)
    (hring : (f s.recd).ring = s.recd.ring := by rfl) (hspare : (f s.recd).spare = s.recd.spare := by rfl)
    (hram : (f s.recd).ram = s.recd.ram := by rfl) : Above n p (s.modRec f) := by
  refine ⟨h.1.trans_le hnext, fun hp => ?_⟩
  rw [State.recd_modRec, hring, hspare, hram]
  exact h.2 hp

theorem ite {c : Prop} [Decidable c] {a b : State} (ha : Above n p a) (hb : Above n p b) : Above n p (if c then a else b) := by
  split
  · exact ha
  · exact hb

theorem countLost (h : Above n p s) (k : Nat) : Above n p (s.countLost k) := h.of_recd rfl

theorem pushRing (h : Above n p s) (hr : p → n < r.seq) : Above n p (s.pushRing r) := by
  refine ⟨h.1, fun hp x hx => ?_⟩
  simp only [State.pushRing, State.recd_modRec, List.mem_append, List.mem_singleton] at hx
  obtain ((hold | rfl) | hspare) | hram := hx
  · refine h.2 hp x (List.mem_append_left _ (List.mem_append_left _ ?_))
    split at hold
    · exact List.mem_of_mem_drop hold
    · exact hold
  · exact hr hp
  · exact h.2 hp x (List.mem_append_left _ (List.mem_append_right _ hspare))
  · exact h.2 hp x (List.mem_append_right _ hram)

theorem pushRam (h : Above n p s) (hr : p → n < r.seq) : Above n p (s.pushRam r) := by
  unfold State.pushRam
  extract_lets armed lost
  have hram : ∀ (l : List Rec) (y : State), l.Sublist s.recd.ram → y.recd.next = s.recd.next →
      y.recd.ring = s.recd.ring → y.recd.spare = s.recd.spare → y.recd.ram = l ++ [r] → Above n p y := by
    intro l y hl hnext hring hspare hram
    refine ⟨hnext ▸ h.1, fun hp x hx => ?_⟩
    rw [hring, hspare, hram] at hx
    simp only [List.mem_append, List.mem_singleton] at hx
    obtain hmem | hmem | rfl := hx
    · exact h.2 hp x (List.mem_append_left _ (List.mem_append.mpr hmem))
    · exact h.2 hp x (List.mem_append_right _ (hl.subset hmem))
    · exact hr hp
  split
  · exact hram s.recd.ram _ (List.Sublist.refl _) rfl rfl rfl rfl
  · exact hram (s.recd.ram.drop 1) _ (List.drop_sublist ..) rfl rfl rfl rfl

theorem toTwin (h : Above n p s) (m : TwinMsg) : Above n p (s.toTwin m) :=
  h.of_recd ((State.toTwin_same s m).same .recd (by decide))

theorem loseReserve (h : Above n p s) : Above n p s.loseReserve := (h.countLost 1).update le_rfl

theorem mediaFault {k : Nat} (h : Above n p s) (hk : n < k) : Above n p (s.mediaFault r k) := by
  unfold State.mediaFault
  extract_lets failed lf
  have hfailed : Above n p failed := h.update le_rfl
  refine ite (toTwin ?_ _) (loseReserve (hfailed.update le_rfl))
  exact ⟨Nat.lt_succ_of_lt hk, (hfailed.pushRam fun _ => hk).2⟩

theorem commitRec {k : Nat} (h : Above n p s) (hr : p → n < r.seq) (hk : n < k) : Above n p (s.commitRec r k) := by
  unfold State.commitRec
  extract_lets counted spared
  have hcounted : Above n p counted := h.of_recd rfl
  have hspared : Above n p spared := by
    refine ite ⟨hcounted.1, fun hp x hx => ?_⟩ (pushRam (hcounted.of_recd rfl) hr)
    simp only [State.recd_modRec, List.mem_append, List.mem_singleton] at hx
    obtain (hring | hspare | rfl) | hram := hx
    · exact hcounted.2 hp x (List.mem_append_left _ (List.mem_append_left _ hring))
    · exact hcounted.2 hp x (List.mem_append_left _ (List.mem_append_right _ hspare))
    · exact hr hp
    · exact hcounted.2 hp x (List.mem_append_right _ hram)
  exact ite (h.pushRam hr) (ite (h.pushRing hr) (hspared.mediaFault hk))

theorem place (h : Above n p s) (hr : p → n < r.seq) : Above n p (s.place r) := ite (h.update le_rfl) (h.commitRec hr h.1)

theorem raiseReserve (h : Above n p s) : Above n p s.raiseReserve := ite h (ite (h.update le_rfl) (h.update le_rfl))

theorem writeKeptReserve (h : Above n p s) (hkept : p → s.recd.keptReserve = none) : Above n p s.writeKeptReserve := by
  unfold State.writeKeptReserve
  split
  · exact h
  next k hk =>
    extract_lets lost numbered
    have hnumbered : Above n p numbered := h.update (le_max_left ..)
    have hnot : ¬p := fun hp => by simp [hkept hp] at hk
    exact ite hnumbered ((hnumbered.update le_rfl).place fun hp => absurd hp hnot)

theorem takeSnap (h : Above n p s) (k code : Nat) (q : RailIx) (cause : Nat) : Above n p (s.takeSnap k code q cause) := by
  unfold State.takeSnap
  extract_lets body railed
  clear_value body
  have hrailed : Above n p railed := h.of_recd rfl
  exact hrailed.update le_rfl

theorem forEach {α : Type} {f : State → α → State} (hf : ∀ s a, Above n p s → Above n p (f s a)) (l : List α)
    (h : Above n p s) : Above n p (forEach l f s) := by
  induction l generalizing s with
  | nil => exact h
  | cons a l ih => exact ih (hf _ _ h)

theorem emit (h : Above n p s) (hkept : p → s.recd.keptReserve = none) (e : Ev) : Above n p (s.emit e) := by
  unfold State.emit
  extract_lets raised kept k flags r snapped relayed sent
  have hraised : Above n p raised := h.raiseReserve
  have hraisedKept : p → raised.recd.keptReserve = none := fun hp => by
    have hstands : raised.recd.keptReserve = s.recd.keptReserve := by
      unfold raised State.raiseReserve
      split_ifs <;> rfl
    rw [hstands, hkept hp]
  clear_value raised
  refine ite hraised.loseReserve ?_
  have hknown : Above n p kept := hraised.writeKeptReserve hraisedKept
  have hseq : n < r.seq := hknown.1
  have hk : n < k := hknown.1
  clear_value r k kept
  have hsnapped : Above n p snapped := hknown.forEach (fun s q hs => takeSnap hs ..) _
  have hsent : Above n p sent := ite (hsnapped.toTwin _) hsnapped
  have hlost : Above n p (sent.countLost 1) := hsent.countLost 1
  refine ite ?_ (place ⟨Nat.lt_succ_of_lt hk, hsent.2⟩ fun _ => hseq)
  generalize sent.countLost 1 = y at hlost
  rw [Above, State.recd_modRec]
  cases y.recd.keptHold with
  | none => exact ⟨Nat.lt_succ_of_lt hk, hlost.2⟩
  | some held => exact hlost

theorem event (h : Above n p s) (hkept : p → s.recd.keptReserve = none) (e : Ev) : Above n p (s.event e) := by
  unfold State.event
  split
  · exact h.update le_rfl
  · exact h.emit hkept e

theorem record (h : Above n p s) (hkept : p → s.recd.keptReserve = none) (code cls inst sub : Nat) (data : List Byte) :
    Above n p (s.record code cls inst sub data) := h.event hkept _

end Above

/-- No record takes the next number back (R282). -/
theorem State.next_record_le (s : State) (code cls inst sub : Nat) (data : List Byte) :
    s.recd.next ≤ (s.record code cls inst sub data).recd.next := by
  cases hnext : s.recd.next with
  | zero => exact Nat.zero_le _
  | succ n =>
    have hstart : Above n False s := ⟨by omega, False.elim⟩
    exact (hstart.record False.elim ..).1

/-! The reserve stays ahead (R283) -/

/-- The next number lies below the reserve. -/
def Roomy (s : State) : Prop := s.recd.next < s.reserve

namespace Roomy

/-- An update that leaves the next number and the reserve. -/
theorem of_fields (h : Roomy s) (hn : t.recd.next = s.recd.next := by rfl) (h0 : t.recd.reserve0 = s.recd.reserve0 := by rfl)
    (h1 : t.recd.reserve1 = s.recd.reserve1 := by rfl) : Roomy t := by
  rw [Roomy, State.reserve, hn, h0, h1]
  exact h

theorem of_recd (h : Roomy s) (hr : t.recd = s.recd) : Roomy t := h.of_fields (by rw [hr]) (by rw [hr]) (by rw [hr])

theorem pushRam (h : Roomy s) (r : Rec) : Roomy (s.pushRam r) := by
  unfold State.pushRam
  extract_lets armed lost
  split
  · exact h.of_fields
  · exact h.of_fields

theorem mediaFault (h : Roomy s) (r : Rec) (k : Nat) : Roomy (s.mediaFault r k) := by
  unfold State.mediaFault
  extract_lets failed lf
  have hfailed : Roomy failed := h.of_fields
  have hram : (failed.pushRam lf).reserve = failed.reserve := by
    unfold State.pushRam
    extract_lets armed lost
    split <;> rfl
  split
  next hroom =>
    have hnumbered : Roomy ((failed.pushRam lf).modRec fun x => { x with next := k + 1 }) := by
      show k + 1 < (failed.pushRam lf).reserve
      rw [hram]
      exact hroom
    exact hnumbered.of_recd ((State.toTwin_same _ _).same .recd (by decide))
  · exact of_fields (s := failed) hfailed

theorem commitRec (h : Roomy s) (r : Rec) (k : Nat) : Roomy (s.commitRec r k) := by
  unfold State.commitRec
  extract_lets counted spared
  have hspared : Roomy spared := by
    unfold spared
    split
    · exact h.of_fields
    · exact pushRam (s := counted.count Ob.clsRec 0 Ob.Rec.writeFaults) h.of_fields r
  split
  · exact h.pushRam r
  · split
    · exact h.of_fields
    · exact hspared.mediaFault r k

theorem place (h : Roomy s) (r : Rec) : Roomy (s.place r) := by
  unfold State.place
  split
  · exact h.of_fields
  · exact h.commitRec r _

end Roomy

/-! Where a record is placed (R287, R289, R292) -/

theorem State.commitRec_ring (hwrite : s.canWrite = true) (hok : s.recd.ringOk = true) (hram : s.recd.ram = []) (r : Rec)
    (k : Nat) :
    s.commitRec r k = s.pushRing r := by
  rw [State.commitRec, if_neg (by simp [hwrite, State.nvmDegraded, hram]), if_pos hok]

theorem State.place_ring (hfrozen : s.recd.frozen = false) (hwrite : s.canWrite = true) (hok : s.recd.ringOk = true)
    (hram : s.recd.ram = []) : s.place r = s.pushRing r := by
  rw [State.place, if_neg (by simp [hfrozen]), State.commitRec_ring hwrite hok hram]

theorem State.place_ram (hfrozen : s.recd.frozen = false) (hwrite : s.canWrite = false) : s.place r = s.pushRam r := by
  rw [State.place, if_neg (by simp [hfrozen]), State.commitRec, if_pos (by simp [hwrite])]

theorem State.ring_pushRing (s : State) (r : Rec) : (s.pushRing r).recd.ring =
    (if s.recd.ring.length < 16384 then s.recd.ring else s.recd.ring.drop 1) ++ [r] := by
  show (if decide (16384 ≤ s.recd.ring.length) = true then s.recd.ring.drop 1 else s.recd.ring) ++ [r] = _
  by_cases hfull : s.recd.ring.length < 16384
  · rw [if_neg (by simpa using hfull), if_pos hfull]
  · rw [if_pos (by simpa using hfull), if_neg hfull]

theorem State.pushRam_room (hroom : s.recd.ram.length < 512) :
    s.pushRam r = s.armRec.modRec fun x => { x with ram := x.ram ++ [r] } := if_pos hroom

/-! An event outside a frame edge, with room in the reserve or the means to raise it -/

/-- The recorder takes an event at once, and its number does not reach a reserve that cannot be raised (R283). -/
structure TakesEvents (s : State) : Prop where
  batch : s.recd.batch = none
  reserved : s.recd.reserveFail = false
  kept : s.recd.keptReserve = none
  room : s.recd.next + 1 < s.reserve ∨ s.canWrite = true ∧ s.recd.ringOk = true ∧ s.recd.next < s.reserve

/-- The state in which the record of an event is placed: the reserve is ahead of its number, and nothing else of the
recorder has changed. -/
structure Raised (s u : State) : Prop where
  same : SameBut [.twin, .recd] s u
  recd : u.recd = { s.recd with reserve0 := u.recd.reserve0, reserve1 := u.recd.reserve1 }
  room : s.recd.next + 1 < u.reserve

theorem State.raised_raiseReserve (h : TakesEvents s) : Raised s s.raiseReserve ∧ s.raiseReserve.recd.reserveFail = false := by
  have hsame : SameBut [.twin, .recd] s s.raiseReserve := same_mono (State.raiseReserve_same s) (by decide)
  unfold State.raiseReserve at hsame ⊢
  split
  next hroom => exact ⟨⟨same_refl .., rfl, hroom⟩, h.reserved⟩
  next hshort =>
    obtain ⟨hwrite, hring, hlow⟩ := h.room.resolve_left hshort
    rw [if_neg hshort] at hsame
    rw [if_pos (by simp [hwrite, hring])] at hsame ⊢
    refine ⟨⟨hsame, ?_, ?_⟩, rfl⟩
    · simp only [State.recd_modRec, h.reserved]
    · show s.recd.next + 1 < max (s.reserve + 4096) (s.reserve + 4096)
      omega

/-- What an event without a snapshot does once its reserve stands. -/
theorem State.exists_raised (h : TakesEvents s) (code cls inst sub : Nat) (data : List Byte) : ∃ u, Raised s u ∧
    s.record code cls inst sub data =
      if u.holdFull then
        (u.countLost 1).modRec fun x => match x.keptHold with
          | some k => { x with keptHold := some (k.1, k.2 + 1) }
          | none => { x with keptHold := some (s.recd.next, 1), next := s.recd.next + 1 }
      else (u.modRec fun x => { x with next := s.recd.next + 1 }).place ⟨s.recd.next, code, cls, inst, sub, 0, data⟩ := by
  obtain ⟨hraised, hfail⟩ := State.raised_raiseReserve h
  have hnext : s.raiseReserve.recd.next = s.recd.next := by rw [hraised.recd]
  have hkept : s.raiseReserve.recd.keptReserve = none := by rw [hraised.recd]; exact h.kept
  rw [State.record, State.event, h.batch]
  dsimp only
  unfold State.emit
  generalize s.raiseReserve = x at *
  have hwritten : x.writeKeptReserve = x := by rw [State.writeKeptReserve, hkept]
  rw [if_neg (by simp [hfail]), hwritten, ← hnext]
  let r : Rec := ⟨x.recd.next, code, cls, inst, sub, 0, data⟩
  refine ⟨if (code == Code.watchdog || code == Code.logMediaFault) && !false then x.toTwin (.relay (relayOf r)) else x, ?_, rfl⟩
  split
  · have htold := State.toTwin_same x (.relay (relayOf r))
    have hrecd := htold.same .recd (by decide)
    refine ⟨same_step hraised.same htold (by decide), ?_, ?_⟩
    · rw [show (x.toTwin (.relay (relayOf r))).recd = x.recd from hrecd]
      exact hraised.recd
    · rw [State.reserve, show (x.toTwin (.relay (relayOf r))).recd = x.recd from hrecd]
      exact hraised.room
  · exact hraised

namespace Raised

theorem field {α : Type} (h : Raised s u) (f : RecState → α)
    (hf : ∀ (x : RecState) a b, f { x with reserve0 := a, reserve1 := b } = f x := by intro _ _ _; rfl) :
    f u.recd = f s.recd := by
  rw [h.recd, hf]

theorem holdFull (h : Raised s u) : u.holdFull = s.holdFull := by
  rw [State.holdFull, State.holdFull, h.field RecState.frozen, h.field RecState.hold]

end Raised

/-- The state whose record is placed: its next number is the one behind the event's. -/
structure Numbered (s v : State) : Prop where
  same : SameBut [.twin, .recd] s v
  recd : v.recd = { s.recd with reserve0 := v.recd.reserve0, reserve1 := v.recd.reserve1, next := s.recd.next + 1 }

namespace Numbered

theorem next (h : Numbered s u) : u.recd.next = s.recd.next + 1 := by rw [h.recd]

theorem field {α : Type} (h : Numbered s u) (f : RecState → α)
    (hf : ∀ (x : RecState) a b k, f { x with reserve0 := a, reserve1 := b, next := k } = f x := by intro _ _ _ _; rfl) :
    f u.recd = f s.recd := by
  rw [h.recd, hf]

theorem canWrite (h : Numbered s u) : u.canWrite = s.canWrite :=
  congrArg NvmState.window (h.same.same .nvm (by decide) : u.nvm = s.nvm)

end Numbered

/-- With room in the hold queue an event takes the next number. -/
theorem State.exists_placed (h : TakesEvents s) (hfull : s.holdFull = false) (code cls inst sub : Nat) (data : List Byte) :
    ∃ v, Numbered s v ∧ s.record code cls inst sub data = v.place ⟨s.recd.next, code, cls, inst, sub, 0, data⟩ := by
  obtain ⟨u, hu, hrecord⟩ := State.exists_raised h code cls inst sub data
  rw [hu.holdFull, if_neg (by simp [hfull])] at hrecord
  refine ⟨_, ⟨same_step hu.same (State.modRec_same ..) (by decide), ?_⟩, hrecord⟩
  rw [State.recd_modRec, hu.recd]

section
variable (h : TakesEvents s) (code cls inst sub : Nat) (data : List Byte)
include h

theorem record_roomy : Roomy (s.record code cls inst sub data) := by
  obtain ⟨u, hu, hrecord⟩ := State.exists_raised h code cls inst sub data
  have hnumbered : Roomy (u.modRec fun x => { x with next := s.recd.next + 1 }) := hu.room
  rw [hrecord]
  split
  · have hlow : (u.countLost 1).recd.next < (u.countLost 1).reserve := by
      show u.recd.next < u.reserve
      rw [hu.field RecState.next]
      exact Nat.lt_of_succ_lt hu.room
    rw [Roomy, State.reserve, State.recd_modRec]
    cases (u.countLost 1).recd.keptHold with
    | none => exact hu.room
    | some k => exact hlow
  · exact hnumbered.place _

/-- The ring takes an event, its oldest record making room (R287). -/
theorem record_rings (hfrozen : s.recd.frozen = false) (hwrite : s.canWrite = true) (hok : s.recd.ringOk = true)
    (hram : s.recd.ram = []) : (s.record code cls inst sub data).recd.next = s.recd.next + 1 ∧
      (s.record code cls inst sub data).recd.hold = s.recd.hold ∧
      (s.record code cls inst sub data).recd.ring =
        (if s.recd.ring.length < 16384 then s.recd.ring else s.recd.ring.drop 1) ++ [⟨s.recd.next, code, cls, inst, sub, 0, data⟩] := by
  obtain ⟨u, hu, hrecord⟩ := State.exists_placed h (by simp [State.holdFull, hfrozen]) code cls inst sub data
  rw [hrecord, State.place_ring ((hu.field RecState.frozen).trans hfrozen) (hu.canWrite.trans hwrite)
    ((hu.field RecState.ringOk).trans hok) ((hu.field RecState.ram).trans hram)]
  exact ⟨hu.next, hu.field RecState.hold, by rw [State.ring_pushRing, hu.field RecState.ring]⟩

/-- The hold queue takes an event during a freeze (R289). -/
theorem record_holds (hfrozen : s.recd.frozen = true) (hroom : s.recd.hold.length < 256) :
    (s.record code cls inst sub data).recd.next = s.recd.next + 1 ∧ (s.record code cls inst sub data).recd.ring = s.recd.ring ∧
      (s.record code cls inst sub data).recd.hold =
        s.recd.hold ++ [⟨s.recd.next, code, cls, inst, sub, RecFlag.held, data⟩] := by
  obtain ⟨u, hu, hrecord⟩ := State.exists_placed h (by simp [State.holdFull, hroom]) code cls inst sub data
  rw [hrecord, State.place, if_pos ((hu.field RecState.frozen).trans hfrozen)]
  refine ⟨hu.next, hu.field RecState.ring, ?_⟩
  show u.recd.hold ++ [_] = _
  rw [hu.field RecState.hold, Nat.zero_add]

/-- A full hold queue counts what it loses (R289). -/
theorem record_lost (hs : Orderly s) (hfrozen : s.recd.frozen = true) (hfull : s.recd.hold.length = 256) :
    (s.record code cls inst sub data).recd.ring = s.recd.ring ∧ (s.record code cls inst sub data).recd.hold = s.recd.hold ∧
      Counts s (s.record code cls inst sub data) Ob.clsRec 0 Ob.Rec.lost := by
  obtain ⟨u, hu, hrecord⟩ := State.exists_raised h code cls inst sub data
  rw [hu.holdFull, if_pos (by simp [State.holdFull, hfrozen, hfull])] at hrecord
  have hobjs : u.objs = s.objs := hu.same.same .objs (by decide)
  have hrecd : (s.record code cls inst sub data).recd.ring = u.recd.ring ∧
    (s.record code cls inst sub data).recd.hold = u.recd.hold := by
    rw [hrecord, State.recd_modRec]
    cases (u.countLost 1).recd.keptHold <;> exact ⟨rfl, rfl⟩
  refine ⟨hrecd.1.trans (hu.field RecState.ring), hrecd.2.trans (hu.field RecState.hold), ?_⟩
  have hcounted : (s.record code cls inst sub data).obj Ob.clsRec 0 Ob.Rec.lost =
      (u.setObj Ob.clsRec 0 Ob.Rec.lost (satWord ((u.obj Ob.clsRec 0 Ob.Rec.lost).toNat + 1))).obj Ob.clsRec 0 Ob.Rec.lost := by
    rw [hrecord]
    rfl
  rw [Counts, hcounted, State.obj_setObj_self (hobjs ▸ hs.store), State.obj_of_objs hobjs]

/-- Retention RAM takes an event while the window is closed (R292, R337). -/
theorem record_waits (hfrozen : s.recd.frozen = false) (hwrite : s.canWrite = false) (hroom : s.recd.ram.length < 512) :
    (s.record code cls inst sub data).recd.next = s.recd.next + 1 ∧ (s.record code cls inst sub data).recd.ring = s.recd.ring ∧
      (s.record code cls inst sub data).recd.ram = s.recd.ram ++ [⟨s.recd.next, code, cls, inst, sub, 0, data⟩] ∧
      (s.record code cls inst sub data).nvm.recArmed = true := by
  obtain ⟨u, hu, hrecord⟩ := State.exists_placed h (by simp [State.holdFull, hfrozen]) code cls inst sub data
  rw [hrecord, State.place_ram ((hu.field RecState.frozen).trans hfrozen) (hu.canWrite.trans hwrite),
    State.pushRam_room (by rw [hu.field RecState.ram]; exact hroom)]
  exact ⟨hu.next, hu.field RecState.ring, congrArg (· ++ _) (hu.field RecState.ram), rfl⟩

end

/-- Settles O55: the reserve is raised or stands (`State.exists_raised`), and the record is placed by the state of the
recorder. -/
theorem eventsAreNumbered : Obligations.EventsAreNumbered := by
  intro s code cls inst sub data hs
  refine ⟨State.record_same .., State.rails_record .., State.next_record_le .., fun l hl => ?_,
    fun hbatch hreserved hkept hroom => ?_⟩
  · rw [State.record, State.event, hl]
    rfl
  · have h : TakesEvents s := ⟨hbatch, hreserved, hkept, hroom⟩
    exact ⟨record_roomy h .., record_rings h code cls inst sub data, record_holds h code cls inst sub data,
      record_lost h code cls inst sub data hs, record_waits h code cls inst sub data⟩

end Sys2Proof.Machine
end

section
/-! The end of a freeze, REC_CLEAR, the retry of the medium, and snapshots (14 R290 to R294, 16 R337). -/

namespace Sys2Proof.Machine

-- One proof at a time: proofs that wait for one another each hold a thread's stack.
set_option Elab.async false

variable {s t u : State} {r : Rec} {k : SlotIx}

/-! The end of a freeze -/

/-- From s to t the freeze and the hold queue stand. -/
def HoldStands (s t : State) : Prop := t.recd.frozen = s.recd.frozen ∧ t.recd.hold = s.recd.hold

namespace HoldStands

theorem refl (s : State) : HoldStands s s := ⟨rfl, rfl⟩

theorem trans (h : HoldStands s t) (h' : HoldStands t u) : HoldStands s u := ⟨h'.1.trans h.1, h'.2.trans h.2⟩

theorem of_recd (h : t.recd = s.recd) : HoldStands s t := by
  rw [HoldStands, h]
  exact ⟨rfl, rfl⟩

theorem pushRam (s : State) (r : Rec) : HoldStands s (s.pushRam r) := by
  unfold State.pushRam
  extract_lets armed lost
  split <;> exact ⟨rfl, rfl⟩

theorem mediaFault (s : State) (r : Rec) (n : Nat) : HoldStands s (s.mediaFault r n) := by
  unfold State.mediaFault
  extract_lets failed lf
  have hfailed : HoldStands s failed := ⟨rfl, rfl⟩
  split
  · have hfaulted : HoldStands s ((failed.pushRam lf).modRec fun x => { x with next := n + 1 }) :=
      (hfailed.trans (pushRam failed lf)).trans ⟨rfl, rfl⟩
    exact hfaulted.trans (of_recd ((State.toTwin_same _ _).same .recd (by decide)))
  · exact ⟨rfl, rfl⟩

theorem commitRec (s : State) (r : Rec) (n : Nat) : HoldStands s (s.commitRec r n) := by
  unfold State.commitRec
  extract_lets counted spared
  have hspared : HoldStands s spared := by
    unfold spared
    split
    · exact ⟨rfl, rfl⟩
    · exact pushRam (counted.count Ob.clsRec 0 Ob.Rec.writeFaults) r
  exact rel_ite (pushRam s r) (rel_ite ⟨rfl, rfl⟩ (hspared.trans (mediaFault ..)))

theorem disarmRec (s : State) : HoldStands s s.disarmRec := of_recd ((State.disarmRec_same s).same .recd (by decide))

end HoldStands

/-- A thaw ends the freeze and empties the hold queue (R290). -/
theorem State.thaw_ends (h : s.recd.frozen = true) : s.thaw.recd.frozen = false ∧ s.thaw.recd.hold = [] := by
  unfold State.thaw
  rw [if_neg (by simp [h])]
  extract_lets kept held opened
  have hopened : opened.recd.frozen = false ∧ opened.recd.hold = [] := ⟨rfl, rfl⟩
  clear_value opened
  obtain ⟨hfrozen, hhold⟩ := (rel_forEach HoldStands.refl HoldStands.trans (l := held ++ kept)
    (fun r _ s => HoldStands.commitRec s r s.recd.next) opened).trans (HoldStands.disarmRec _)
  exact ⟨hfrozen.trans hopened.1, hhold.trans hopened.2⟩

/-- Outside a freeze there is nothing to thaw. -/
theorem State.thaw_of_not_frozen (h : s.recd.frozen = false) : s.thaw = s := if_pos (by simp [h])

theorem State.frozen_thaw (s : State) : s.thaw.recd.frozen = false := by
  cases h : s.recd.frozen with
  | true => exact (State.thaw_ends h).1
  | false => rw [State.thaw_of_not_frozen h, h]

theorem recThaw_thaws (hasks : Asks s k .recThaw) : Completes (.recThaw k) s fun t => Answers t k St.ok [] ∧
    t.recd.frozen = false ∧ (s.recd.frozen = true → t.recd.hold = []) ∧ (s.recd.frozen = false → t.recd = s.recd) ∧
    SlotsBut k s t ∧ SameBut [.objs, .twin, .recd, .mb, .nvm] s t := by
  have hthaw := State.thaw_same s
  refine ⟨s.thaw.finish k St.ok [], exec_of_asks hasks rfl fun _ => rfl, answers_finish .., State.frozen_thaw s,
    fun h => (State.thaw_ends h).2, fun h => ?_, (mbButSlot_finish (hthaw.same .mb (by decide)) ..).2,
    same_step (same_mono hthaw (by decide)) (State.finish_same ..) (by decide)⟩
  show s.thaw.recd = s.recd
  rw [State.thaw_of_not_frozen h]

/-! REC_CLEAR -/

/-- A clear leaves no record up to its number, and the record of the clear has a later one (R291). -/
theorem State.above_clearRecords {n : Nat} (key : Nat) (hkept : s.recd.keptReserve = none) (hn : n < s.recd.next) :
    Above n True (s.clearRecords n key).1 := by
  have hcleared : Above n True (s.modRec fun x => { x with
      ring := x.ring.filter fun r => n < r.seq, spare := x.spare.filter fun r => n < r.seq
      ram := x.ram.filter fun r => n < r.seq }) := by
    refine ⟨hn, fun _ x hx => ?_⟩
    rw [State.recd_modRec] at hx
    simp only [List.mem_append, List.mem_filter, decide_eq_true_eq] at hx
    obtain (⟨-, hseq⟩ | ⟨-, hseq⟩) | ⟨-, hseq⟩ := hx <;> exact hseq
  unfold State.clearRecords
  extract_lets gone keep kept counted recorded
  have hcounted : Above n True counted := hcleared.of_recd rfl
  have hcountedKept : counted.recd.keptReserve = none := hkept
  clear_value counted
  exact (hcounted.record (fun _ => hcountedKept) ..).of_recd ((State.disarmRec_same _).same .recd (by decide))

theorem recClear_clears {n : Nat} (hasks : Asks s k (.recClear n)) :
    if s.recd.frozen = true then JustAnswers (.recClear k n) s k St.state []
    else if s.recLast < n then JustAnswers (.recClear k n) s k St.range []
    else if s.nvm.window = false then JustAnswers (.recClear k n) s k St.media []
    else Completes (.recClear k n) s fun t => (∃ p, Answers t k St.ok p) ∧ SlotsBut k s t ∧
      SameBut [.objs, .rails, .twin, .recd, .mb, .nvm] s t ∧
      (s.recd.batch = none → s.recd.keptReserve = none → n < s.recd.next →
        ∀ x ∈ t.recd.ring ++ t.recd.spare ++ t.recd.ram, n < x.seq) := by
  obtain ⟨key, hreq⟩ := asks_iff.mp hasks
  have hexec : exec (.recClear k n) s = .next (if s.recd.frozen then s.finish k St.state []
      else if s.recLast < n then s.finish k St.range []
      else if !s.nvm.window then s.finish k St.media []
      else (s.clearRecords n (key.getD 0)).1.finish k St.ok (leBytes 4 (s.clearRecords n (key.getD 0)).2)) :=
    congrArg Host.Outcome.next (State.onRequest_of_request hreq _)
  split
  next hfrozen => exact justAnswers_of_exec (by rw [hexec, if_pos hfrozen])
  next hfrozen =>
    rw [if_neg hfrozen] at hexec
    split
    next hlast => exact justAnswers_of_exec (by rw [hexec, if_pos hlast])
    next hlast =>
      rw [if_neg hlast] at hexec
      split
      next hclosed => exact justAnswers_of_exec (by rw [hexec, if_pos (by simp [hclosed])])
      next hopen =>
        rw [if_neg (by simpa using hopen)] at hexec
        have hclear := State.clearRecords_same s n (key.getD 0)
        refine ⟨_, hexec, ⟨_, answers_finish ..⟩, (mbButSlot_finish (hclear.same .mb (by decide)) ..).2,
          same_step (same_mono hclear (by decide)) (State.finish_same ..) (by decide), fun _ hkept hn => ?_⟩
        exact (State.above_clearRecords (key.getD 0) hkept hn).2 trivial

/-! A retry of the medium that verifies (R292) -/

/-- The ring takes what is recorded, and each of the records l stands in it with fewer than m behind it. -/
structure Flowing (spare : Bool) (l : List Rec) (m : Nat) (s : State) : Prop where
  write : s.canWrite = true
  ok : s.recd.ringOk = true
  ram : s.recd.ram = []
  fault : s.recd.mediaFault = false
  spare : s.recd.spareOk = spare
  recent : ∀ x ∈ l, ∃ a b, s.recd.ring = a ++ x :: b ∧ b.length < m

namespace Flowing

variable {spare : Bool} {l : List Rec} {m : Nat}

theorem mono {m' : Nat} (h : Flowing spare l m s) (hm : m ≤ m') : Flowing spare l m' s :=
  ⟨h.write, h.ok, h.ram, h.fault, h.spare, fun x hx => by
    obtain ⟨a, b, hring, hb⟩ := h.recent x hx
    exact ⟨a, b, hring, hb.trans_le hm⟩⟩

/-- An update of neither the memories nor their state. -/
theorem of_fields (h : Flowing spare l m s) (hwrite : t.canWrite = s.canWrite := by rfl)
    (hok : t.recd.ringOk = s.recd.ringOk := by rfl)
    (hram : t.recd.ram = s.recd.ram := by rfl) (hfault : t.recd.mediaFault = s.recd.mediaFault := by rfl)
    (hspare : t.recd.spareOk = s.recd.spareOk := by rfl) (hring : t.recd.ring = s.recd.ring := by rfl) : Flowing spare l m t :=
  ⟨hwrite.trans h.write, hok.trans h.ok, hram.trans h.ram, hfault.trans h.fault, hspare.trans h.spare, hring ▸ h.recent⟩

theorem of_recd (h : Flowing spare l m s) (hrecd : t.recd = s.recd) (hwrite : t.canWrite = s.canWrite) : Flowing spare l m t :=
  h.of_fields hwrite (by rw [hrecd]) (by rw [hrecd]) (by rw [hrecd]) (by rw [hrecd]) (by rw [hrecd])

/-- One more record in the ring pushes none of the latest out. -/
theorem pushRing (h : Flowing spare l m s) (hm : m < 16384) (r : Rec) : Flowing spare (r :: l) (m + 1) (s.pushRing r) := by
  refine ⟨h.write, h.ok, h.ram, h.fault, h.spare, fun x hx => ?_⟩
  rw [State.ring_pushRing]
  rcases List.mem_cons.mp hx with rfl | hx
  · exact ⟨_, [], rfl, Nat.succ_pos m⟩
  · obtain ⟨a, b, hring, hb⟩ := h.recent x hx
    rw [hring]
    have hlen : (b ++ [r]).length < m + 1 := by simpa using hb
    split
    · exact ⟨a, b ++ [r], by simp, hlen⟩
    next hfull =>
      cases a with
      | nil => simp at hfull; omega
      | cons y a => exact ⟨a, b ++ [r], by simp, hlen⟩

theorem commitRec (h : Flowing spare l m s) (hm : m < 16384) (r : Rec) (n : Nat) :
    Flowing spare (r :: l) (m + 1) (s.commitRec r n) := by
  rw [State.commitRec_ring h.write h.ok h.ram]
  exact h.pushRing hm r

theorem sub {l' : List Rec} (h : Flowing spare l m s) (hl : l' ⊆ l) : Flowing spare l' m s :=
  ⟨h.write, h.ok, h.ram, h.fault, h.spare, fun x hx => h.recent x (hl hx)⟩

theorem commitAll (rs : List Rec) (h : Flowing spare l m s) (hm : m + rs.length ≤ 16384) :
    Flowing spare (rs ++ l) (m + rs.length) (forEach rs (fun s r => s.commitRec r s.recd.next) s) := by
  induction rs generalizing s l m with
  | nil => exact h
  | cons r rs ih =>
    rw [List.length_cons] at hm ⊢
    have hrest := ih (h.commitRec (by omega) r s.recd.next) (by omega)
    have hlen : m + 1 + rs.length = m + (rs.length + 1) := by omega
    exact (hlen ▸ hrest).sub fun x hx => by
      simp only [List.cons_append, List.mem_cons, List.mem_append] at hx ⊢
      tauto

theorem place (h : Flowing spare l m s) (hm : m < 16384) (r : Rec) : Flowing spare l (m + 1) (s.place r) := by
  unfold State.place
  split
  · exact (h.mono (Nat.le_succ m)).of_fields
  · exact (h.commitRec hm r _).sub (List.subset_cons_self r l)

theorem writeKeptReserve (h : Flowing spare l m s) (hm : m < 16384) : Flowing spare l (m + 1) s.writeKeptReserve := by
  unfold State.writeKeptReserve
  split
  · exact h.mono (Nat.le_succ m)
  next k _ =>
    extract_lets lost numbered
    have hnumbered : Flowing spare l m numbered := h.of_fields
    split
    · exact hnumbered.mono (Nat.le_succ m)
    · exact place hnumbered.of_fields hm _

theorem record (h : Flowing spare l m s) (hm : m + 1 < 16384) (code cls inst sub : Nat) (data : List Byte) :
    Flowing spare l (m + 2) (s.record code cls inst sub data) := by
  unfold State.record State.event
  split
  · exact (h.mono (by omega)).of_fields
  unfold State.emit
  extract_lets raised kept n flags r snapped relayed sent
  have hraised : Flowing spare l m raised := by
    unfold raised State.raiseReserve
    split_ifs
    · exact h
    · exact h.of_fields
    · exact h.of_fields
  clear_value raised
  have hkept : Flowing spare l (m + 1) kept := hraised.writeKeptReserve (by omega)
  clear_value r n kept
  have hsent : Flowing spare l (m + 1) sent := by
    unfold sent
    split
    · have htold := State.toTwin_same kept (.relay (State.relayOf r))
      exact of_recd hkept (htold.same .recd (by decide)) (congrArg NvmState.window (htold.same .nvm (by decide)))
    · exact hkept
  clear_value sent
  split
  · exact (hraised.mono (by omega)).of_fields
  · split
    · have hlost : Flowing spare l (m + 2) (sent.countLost 1) := (hsent.mono (by omega)).of_fields
      generalize sent.countLost 1 = y at hlost
      refine hlost.of_fields rfl ?_ ?_ ?_ ?_ ?_
      all_goals
        rw [State.recd_modRec]
        cases y.recd.keptHold <;> rfl
    · exact place hsent.of_fields hm r

theorem disarmRec (h : Flowing spare l m s) : Flowing spare l m s.disarmRec := by
  refine h.of_recd ((State.disarmRec_same s).same .recd (by decide)) ?_
  unfold State.disarmRec
  split <;> rfl

end Flowing

/-- A drain moves every waiting record to the ring (R292). -/
theorem State.flowing_drainRam {spare : Bool} (hwrite : s.canWrite = true) (hok : s.recd.ringOk = true)
    (hspare : s.recd.spareOk = spare) (hram : s.recd.ram.length ≤ 512) : Flowing spare s.recd.ram 513 s.drainRam := by
  unfold State.drainRam
  extract_lets waiting kept emptied
  have hemptied : Flowing spare [] 0 emptied := ⟨hwrite, hok, rfl, rfl, hspare, nofun⟩
  have hkept : kept.length ≤ 1 := by
    unfold kept
    split <;> simp
  have hlen : (kept ++ waiting).length ≤ 513 := by
    rw [List.length_append]
    exact Nat.add_comm .. ▸ Nat.add_le_add hram hkept
  clear_value emptied kept
  have hmoved := (hemptied.commitAll (kept ++ waiting) (by omega)).mono (m' := 513) (by omega)
  exact (hmoved.sub fun x hx => List.mem_append_left _ (List.mem_append_right _ hx)).disarmRec

theorem mediaRetry_moves {spare : Bool} (hs : Orderly s) (hfault : s.recd.mediaFault = true) (hwrite : s.canWrite = true)
    (hwaiting : s.recd.ram ≠ []) : Completes (.recorderMediaRetry true spare) s fun t =>
      t.recd.ram = [] ∧ t.recd.mediaFault = false ∧ t.recd.ringOk = true ∧ t.recd.spareOk = spare ∧
        (∀ x ∈ s.recd.ram, x ∈ t.recd.ring) ∧ SameBut [.objs, .rails, .twin, .recd, .nvm] s t := by
  obtain ⟨u, hu⟩ : ∃ u, u = s.modRec fun x => { x with ringOk := true, spareOk := spare } := ⟨_, rfl⟩
  have husame : SameBut [.recd] s u := hu ▸ State.modRec_same ..
  have hexec : exec (.recorderMediaRetry true spare) s = .next u.mediaRetry := by
    rw [hu]
    show execRecorderMediaRetry true spare s = _
    exact congrArg Host.Outcome.next (if_pos (by
      show (s.recd.mediaFault && s.canWrite && !s.recd.ram.isEmpty) = true
      simp [hfault, hwrite, hwaiting]))
  have hmoved : u.mediaRetry = u.drainRam.mediaBack u.recd.ram.length := if_pos (by rw [hu]; rfl)
  have hdrained : Flowing spare u.recd.ram 513 u.drainRam := by
    rw [hu]
    exact State.flowing_drainRam hwrite rfl rfl hs.ram
  have hback : Flowing spare u.recd.ram 515 u.mediaRetry := by
    rw [hmoved]
    exact hdrained.record (by omega) ..
  refine ⟨_, hexec, hback.ram, hback.fault, hback.ok, hback.spare, fun x hx => ?_,
    same_step (same_mono husame (by decide)) (State.mediaRetry_same u) (by decide)⟩
  obtain ⟨a, b, hring, -⟩ := hback.recent x (by rw [hu]; exact hx)
  rw [hring]
  exact List.mem_append_right _ List.mem_cons_self

/-! Snapshots (R294) -/

/-- A stored snapshot stands in the next slot of its ring, and the counters are saved with it. -/
theorem State.storeSnap_stores {q : Snap} {k : Fin 8} (hnext : s.recd.snapNext = k.val) (hwrite : s.canWrite = true) :
    (s.storeSnap q).recd = { s.recd with snaps := vset s.recd.snaps k (some q), newest := k.val, snapNext := (k.val + 1) % 8 } ∧
      bit (s.storeSnap q).mb.istat Irq.snap.val = true ∧ (s.storeSnap q).nvm.counters = s.counterStore := by
  unfold State.storeSnap
  extract_lets n placed
  have hplaced : placed = s.modRec fun x => { x with
      snaps := vset s.recd.snaps k (some q), newest := k.val, snapNext := (k.val + 1) % 8 } := by
    unfold placed n
    rw [hnext]
    simp [State.modRec]
  have hsaved : (placed.irq Irq.snap).saveCounters =
      (placed.irq Irq.snap).modNvm fun x => { x with counters := (placed.irq Irq.snap).counterStore } := by
    refine if_pos ?_
    rw [hplaced]
    exact hwrite
  rw [hsaved, hplaced]
  exact ⟨rfl, State.bit_istat_irq _ Irq.snap, rfl⟩

/-- The ring of snapshots after one is stored in slot k. -/
def Stored (s t : State) (q : Snap) (k : Fin 8) : Prop :=
  t.recd.snaps.get k = some q ∧ (∀ j, j ≠ k → t.recd.snaps.get j = s.recd.snaps.get j) ∧ t.recd.newest = k.val ∧
    t.recd.snapNext = (k.val + 1) % 8 ∧ bit t.mb.istat Irq.snap.val = true

theorem State.stored_storeSnap {q : Snap} {k : Fin 8} (hsnaps : u.recd.snaps = s.recd.snaps) (hnext : u.recd.snapNext = k.val)
    (hwrite : u.canWrite = true) : Stored s (u.storeSnap q) q k := by
  obtain ⟨hrecd, histat, -⟩ := State.storeSnap_stores (q := q) hnext hwrite
  rw [Stored, hrecd]
  refine ⟨vset_get_self .., fun j hj => ?_, rfl, rfl, histat⟩
  rw [← hsnaps]
  exact (vset_get ..).trans (if_neg hj)

section
variable {q : Snap} {slot : Fin 8} {rest : List Snap} (hnext : s.recd.snapNext = slot.val) (hdue : s.recd.due = q :: rest)
include hdue

/-- A snapshot that is due leaves the queue of those due, and its rail's history runs on. -/
theorem State.exists_takeDue (ok : Bool) : ∃ u : State, u.recd = { s.recd with due := rest } ∧ u.nvm = s.nvm ∧ u.objs = s.objs ∧
    s.takeDue ok = if ok && u.canWrite then u.storeSnap q else u.modRec fun x => { x with waiting := some q } := by
  have hthaw := State.thawHistory_same (s.modRec fun x => { x with due := rest }) q
  refine ⟨_, hthaw.same .recd (by decide), hthaw.same .nvm (by decide), hthaw.same .objs (by decide), ?_⟩
  rw [State.takeDue, hdue]

include hnext

theorem snapshotStore_stores (hwrite : s.canWrite = true) : Completes (.snapshotStore true) s fun t =>
    Stored s t q slot ∧ t.recd.due = rest ∧ t.nvm.counters = s.counterStore := by
  obtain ⟨u, hrecd, hnvm, hobjs, htaken⟩ := State.exists_takeDue hdue true
  have hmay : u.canWrite = true := (congrArg NvmState.window hnvm).trans hwrite
  rw [if_pos (by simp [hmay])] at htaken
  have hunext : u.recd.snapNext = slot.val := by rw [hrecd]; exact hnext
  obtain ⟨hstored, -, hsaved⟩ := State.storeSnap_stores (q := q) hunext hmay
  refine ⟨_, congrArg Host.Outcome.next htaken, State.stored_storeSnap (by rw [hrecd]) hunext hmay, ?_, ?_⟩
  · rw [hstored, hrecd]
  · rw [hsaved, State.counterStore, State.counterStore, hobjs]

omit hnext in
theorem snapshotStore_waits {ok : Bool} (hbad : ok = false ∨ s.canWrite = false) : Completes (.snapshotStore ok) s fun t =>
    t.recd.waiting = some q ∧ t.recd.due = rest ∧ t.recd.snaps = s.recd.snaps := by
  obtain ⟨u, hrecd, hnvm, -, htaken⟩ := State.exists_takeDue hdue ok
  have hmay : u.canWrite = s.canWrite := congrArg NvmState.window hnvm
  rw [if_neg (by rcases hbad with h | h <;> simp [hmay, h])] at htaken
  refine ⟨_, congrArg Host.Outcome.next htaken, rfl, ?_, ?_⟩
  · show u.recd.due = rest
    rw [hrecd]
  · show u.recd.snaps = s.recd.snaps
    rw [hrecd]

end

theorem snapshotRetry_stores {q : Snap} {slot : Fin 8} (hnext : s.recd.snapNext = slot.val) (hwaits : s.recd.waiting = some q)
    (hwrite : s.canWrite = true) : Completes (.snapshotRetry true) s fun t =>
      Stored s t q slot ∧ t.recd.waiting = none ∧ t.recd.due = s.recd.due := by
  have hexec : exec (.snapshotRetry true) s = .next ((s.modRec fun x => { x with waiting := none }).storeSnap q) := by
    show Host.Outcome.next (if true then s.storeWaiting else s) = _
    rw [if_pos rfl, State.storeWaiting, hwaits]
    exact congrArg Host.Outcome.next (if_pos hwrite)
  obtain ⟨hstored, -, -⟩ := State.storeSnap_stores (s := s.modRec fun x => { x with waiting := none }) (q := q) hnext hwrite
  refine ⟨_, hexec, State.stored_storeSnap rfl hnext hwrite, ?_, ?_⟩
  · rw [hstored]
    rfl
  · rw [hstored]
    rfl

/-- Settles O56: a freeze ends empty (`State.thaw_ends`), a clear leaves later numbers only (`State.above_clearRecords`), a
drain loses no record (`State.flowing_drainRam`), and a snapshot goes to its slot or waits. -/
theorem thawClearRetryAndStore : Obligations.ThawClearRetryAndStore := by
  refine fun s => ⟨fun k => recThaw_thaws, fun k n => recClear_clears, fun hfrozen hdue => ?_, fun hfrozen hlater => ?_,
    fun spare => mediaRetry_moves, fun q slot hnext => ⟨fun rest hdue => ⟨snapshotStore_stores hnext hdue,
      fun ok => snapshotStore_waits hdue⟩, snapshotRetry_stores hnext⟩⟩
  · obtain ⟨hends, hempty⟩ := State.thaw_ends hfrozen
    exact completes_when (by simp [hfrozen, hdue]) rfl ⟨hends, hempty, State.thaw_same s⟩
  · refine ⟨s, congrArg Host.Outcome.next (if_neg ?_), rfl⟩
    simp [hlater]

end Sys2Proof.Machine
end

section
/-! The supply, the power-fail warning, sleep and wake (13 R267, 16 R324, R339 to R344). -/

namespace Sys2Proof.Machine

-- One proof at a time: proofs that wait for one another each hold a thread's stack.
set_option Elab.async false

variable {s t u x : State}

/-! Loss of the supply -/

theorem uvloReset_darkens (hs : s.powered = true) : Completes .uvloReset s fun t =>
    t.dev.dstate = .unpowered ∧ t.recd.ram = [] ∧ t.recd.hold = [] ∧ t.nvm.queue = [] ∧ t.nvm.marker = false ∧
      (∀ r, (t.rail r).ff.t0 = [] ∧ (t.rail r).ff.t1 = []) ∧ t.recd.ring = s.recd.ring ∧ t.recd.spare = s.recd.spare ∧
      t.nvm.counters = s.nvm.counters ∧ t.nvm.patterns = s.nvm.patterns ∧ t.cfg.copy0 = s.cfg.copy0 ∧
      t.cfg.copy1 = s.cfg.copy1 ∧ t.fw = s.fw := by
  refine completes_when hs rfl ?_
  obtain ⟨-, -, hrecd, -, hfw, -, hcopy0, hcopy1, hnvm⟩ := State.resetTo_kept s 0
  generalize s.resetTo 0 = x at *
  have hring : x.recd.ring = s.recd.ring := by rw [hrecd]; rfl
  have hspare : x.recd.spare = s.recd.spare := by rw [hrecd]; rfl
  have hcounters : x.nvm.counters = s.nvm.counters := by rw [hnvm]
  have hpatterns : x.nvm.patterns = s.nvm.patterns := by rw [hnvm]
  refine ⟨rfl, rfl, rfl, rfl, rfl, fun r => ?_, hring, hspare, hcounters, hpatterns, hcopy0, hcopy1, hfw⟩
  have hrail : (x.loseRetention).rail r = {} := Vector.get_map ..
  exact ⟨congrArg (fun y : RailState => y.ff.t0) hrail, congrArg (fun y : RailState => y.ff.t1) hrail⟩

/-! The power-fail warning -/

/-- Closing the meter's intervals leaves what the points hold. -/
theorem State.points_closeIv (s : State) (endAt : Rat) (flags : Nat) : (s.closeIv endAt flags).meter.points = s.meter.points := by
  have hfold : ∀ (l : List PointIx) (m : MeterState),
      (l.foldl (fun m i => State.pushIv m (State.ivRec m i endAt flags)) m).points = m.points := fun l => by
    induction l with
    | nil => exact fun _ => rfl
    | cons i l ih => exact fun m => ih _
  exact hfold ..

/-- A new interval starts its marks and leaves the energies. -/
theorem State.imp_cutIv (s : State) (endAt startAt : Rat) (flags : Nat) (i : PointIx) :
    ((s.cutIv endAt startAt flags).meter.points.get i).imp = (s.meter.points.get i).imp := by
  show ((State.openIv (s.closeIv endAt flags).meter startAt flags).points.get i).imp = _
  rw [State.openIv, Vector.get_map, State.points_closeIv]

theorem State.counterStore_of_objs (h : t.objs = s.objs) : t.counterStore = s.counterStore := by
  rw [State.counterStore, State.counterStore, h]

theorem State.powered_of_ready (h : s.ready = true) : s.powered = true := by
  unfold State.ready at h
  unfold State.powered
  cases hst : s.dev.dstate <;> simp_all

theorem powerFailWarning_saves (hready : s.ready = true) (hmeter : s.meterRuns = true) :
    Completes .powerFailWarning s fun t => t.meter.saved.closed = true ∧ t.meter.saved.points = t.meter.points ∧
      (∀ i, (t.meter.points.get i).imp = (s.meter.points.get i).imp) ∧
      (s.nvm.window = true → t.nvm.counters = s.counterStore) ∧ SameBut [.objs, .rails, .twin, .meter, .recd, .nvm] s t := by
  have hexec : exec .powerFailWarning s = .next s.meterPowerFail.saveCounters := by
    show execPowerFailWarning s = _
    rw [execPowerFailWarning, if_pos (State.powered_of_ready hready), if_pos hready]
  have hclosed : s.meterPowerFail =
      (s.cutIv s.meter.time.seconds s.meter.time.seconds IvFlag.powerFail).meterSaved true := by
    rw [State.meterPowerFail, if_neg (by simp [hmeter])]
  have hfail := State.meterPowerFail_same s
  obtain ⟨hend, hpoints, himp⟩ : s.meterPowerFail.meter.saved.closed = true ∧
      s.meterPowerFail.meter.saved.points = s.meterPowerFail.meter.points ∧
      ∀ i, (s.meterPowerFail.meter.points.get i).imp = (s.meter.points.get i).imp := by
    rw [hclosed]
    exact ⟨rfl, rfl, State.imp_cutIv s s.meter.time.seconds s.meter.time.seconds IvFlag.powerFail⟩
  clear hclosed
  generalize s.meterPowerFail = x at *
  have hsave := State.saveCounters_same x
  have hstands : x.saveCounters.meter = x.meter := hsave.same .meter (by decide)
  refine ⟨_, hexec, hstands ▸ hend, hstands ▸ hpoints, hstands ▸ himp, fun hwindow => ?_,
    same_step (same_mono hfail (by decide)) hsave (by decide)⟩
  have hnvm : x.nvm = s.nvm := hfail.same .nvm (by decide)
  have hwrite : x.saveCounters = x.writeSave (.counters x.counterStore) := if_pos (by rw [State.canWrite, hnvm, hwindow])
  rw [hwrite]
  exact State.counterStore_of_objs (hfail.same .objs (by decide))

/-! Sleep and wake -/

theorem State.refreshFstat_stands (s : State) : s.refreshFstat.dev = s.dev ∧ s.refreshFstat.clk = s.clk ∧
    s.refreshFstat.feeds = s.feeds ∧ s.refreshFstat.recd = s.recd := by
  have hsame := State.refreshFstat_same s
  exact ⟨hsame.same .dev (by decide), hsame.same .clk (by decide), hsame.same .feeds (by decide), hsame.same .recd (by decide)⟩

/-- Refreshing FSTAT leaves what waits to be armed. -/
theorem State.arming_refreshFstat (s : State) : s.refreshFstat.mb.arming = s.mb.arming := by
  unfold State.refreshFstat
  extract_lets new deg shown
  unfold State.irqIf
  cases deg with
  | true => rfl
  | false => rfl

theorem State.enterSleep_sleeps {a : Arming} (harmed : s.mb.arming = [a]) (hcause : a.cause = 0) :
    s.enterSleep.dev.dstate = .sleep ∧ s.enterSleep.dev.sleepAt = s.now ∧ s.enterSleep.dev.sleptFrom = s.clk.frame ∧
      s.enterSleep.feeds.ewarn = false ∧ s.enterSleep.mb.arming = [] ∧ s.enterSleep.clk.sync = .own ∧
      s.enterSleep.recd.frozen = false := by
  unfold State.enterSleep
  extract_lets low disarmed cleared free
  obtain ⟨hnow, hclk, hmb⟩ : disarmed.now = s.now ∧ disarmed.clk = s.clk ∧
      disarmed.mb = { s.mb with arming := s.mb.arming.filter fun a => a.cause != 0 } :=
    ⟨(State.thaw_same _).same .now (by decide), (State.thaw_same _).same .clk (by decide),
      (State.thaw_same _).same .mb (by decide)⟩
  have hfrozen : disarmed.recd.frozen = false := State.frozen_thaw _
  have hcleared : SameBut [.cmps] disarmed cleared :=
    same_forEach (same_refl ..) fun _ _ => same_ite (same_refl ..) (State.modCmp_same ..)
  clear_value low disarmed cleared
  have harming : cleared.mb.arming = [] := by
    rw [hcleared.same .mb (by decide), hmb]
    simp [harmed, hcause]
  have hframe : cleared.clk.frame = s.clk.frame := by rw [hcleared.same .clk (by decide), hclk]
  have hat : cleared.now = s.now := (hcleared.same .now (by decide)).trans hnow
  have hthawed : cleared.recd.frozen = false := (congrArg RecState.frozen (hcleared.same .recd (by decide))).trans hfrozen
  obtain ⟨hdev, hclock, hfeeds, hrecd⟩ := State.refreshFstat_stands { free with
    feeds := { free.feeds with ewarn := false, cause := 0 }
    dev := { free.dev with dstate := .sleep, faultAtSleep := low, sleepAt := free.now, sleptFrom := free.clk.frame } }
  rw [hdev, hclock, hfeeds, hrecd, State.arming_refreshFstat]
  exact ⟨rfl, hat, hframe, rfl, harming, rfl, hthawed⟩

theorem sleepEntry_sleeps {a : Arming} {b : Nat} (hst : s.dev.dstate = .standby) (harmed : s.mb.arming = [a])
    (hcause : a.cause = 0) (hdue : a.due = some b) (hb : b ≤ s.now) :
    Completes .sleepEntry s fun t => t.dev.dstate = .sleep ∧ t.dev.sleepAt = s.now ∧ t.dev.sleptFrom = s.clk.frame ∧
      t.feeds.ewarn = false ∧ t.mb.arming = [] ∧ t.clk.sync = .own ∧ t.recd.frozen = false ∧ t.rails = s.rails ∧
      t.meter = s.meter := by
  have hexec : exec .sleepEntry s = .next s.enterSleep := by
    show execSleepEntry s = _
    refine congrArg Host.Outcome.next (if_pos ?_)
    simp [harmed, hcause, hdue, hb, hst]
  have hsame := State.enterSleep_same s
  obtain ⟨hsleep, hat, hfrom, hwarn, harming, hsync, hfrozen⟩ := State.enterSleep_sleeps harmed hcause
  exact ⟨_, hexec, hsleep, hat, hfrom, hwarn, harming, hsync, hfrozen, hsame.same .rails (by decide),
    hsame.same .meter (by decide)⟩

theorem State.now_sleepTime (s : State) (n : Nat) : (s.sleepTime n).now = s.now + n :=
  (State.passTime_same { s with now := s.now + n } (500 * n)).same .now (by decide)

theorem slowTick_passes {n : Nat} (hst : s.dev.dstate = .sleep) : Completes (.slowTick n) s fun t =>
    t.now = s.now + n ∧ t.dev = s.dev ∧ t.clk = s.clk ∧ SameBut [.now, .time, .meter, .mb] s t := by
  have hshown := State.refreshFstat_same (s.sleepTime n)
  have hsame : SameBut [.now, .time, .meter, .mb] s (s.sleepTime n).refreshFstat :=
    same_step (same_mono (State.sleepTime_same ..) (by decide)) hshown (by decide)
  have hnow : (s.sleepTime n).refreshFstat.now = s.now + n := (hshown.same .now (by decide)).trans (State.now_sleepTime s n)
  exact completes_when (b := s.dev.dstate == .sleep) (by rw [hst]; rfl) rfl
    ⟨hnow, hsame.same .dev (by decide), hsame.same .clk (by decide), hsame⟩

/-- A wake brings STANDBY back with the frame index counted on (R342). -/
theorem State.wakeNow_wakes (s : State) (src : Nat) : (s.wakeNow src).dev.dstate = .standby ∧
    (s.wakeNow src).dev.wakeSrc = 2 ^ src ∧
    (s.wakeNow src).clk.frame = (s.dev.sleptFrom + (s.now - s.dev.sleepAt)) % 281474976710656 := by
  unfold State.wakeNow
  extract_lets old woken f dated compared
  have hcompared : SameBut [.cmps] dated compared := same_forEach (same_refl ..) fun _ _ => State.cmpRestart_same ..
  have hlinks : SameBut [.ports] compared (forEach allPorts (fun s p => s.modPort p fun x => { x with
      lastValid := s.now, lastHello := s.now, lastPing := s.now, lastStatus := s.now }) compared) :=
    same_forEach (same_refl ..) fun _ _ => State.modPort_same ..
  have hsame : SameBut [.cmps, .ports, .mb] dated _ :=
    same_step (same_step (same_mono hcompared (by decide)) hlinks (by decide)) (State.refreshFstat_same _) (by decide)
  rw [hsame.same .dev (by decide), hsame.same .clk (by decide)]
  exact ⟨rfl, rfl, rfl⟩

theorem wake_wakes {src n : Nat} (hst : s.dev.dstate = .sleep) (hsrc : src < 4) (hcause : s.wakeCause src = true) :
    Completes (.wake src n) s fun t => t.dev.dstate = .standby ∧ t.dev.wakeSrc = 2 ^ src ∧ t.now = s.now + n ∧
      t.clk.frame = (s.dev.sleptFrom + (s.now + n - s.dev.sleepAt)) % 281474976710656 ∧ t.rails = s.rails := by
  have hslept := State.sleepTime_same s n
  have hwoken := State.wakeNow_same (s.sleepTime n) src
  have hdev : (s.sleepTime n).dev = s.dev := hslept.same .dev (by decide)
  obtain ⟨hstandby, hwake, hframe⟩ := State.wakeNow_wakes (s.sleepTime n) src
  rw [hdev, State.now_sleepTime] at hframe
  have hnow : ((s.sleepTime n).wakeNow src).now = s.now + n := (hwoken.same .now (by decide)).trans (State.now_sleepTime s n)
  exact completes_when (b := s.dev.dstate == .sleep && decide (src < 4) && s.wakeCause src) (by simp [hst, hsrc, hcause]) rfl
    ⟨hstandby, hwake, hnow, hframe, (same_step (same_mono hslept (ps := [.now, .time, .meter, .clk, .ports, .cmps, .mb, .dev])
      (by decide)) hwoken (by decide)).same .rails (by decide)⟩

theorem wakeTimer_wakes (hst : s.dev.dstate = .sleep) (hen : bit (s.obj Ob.clsDev 0 Ob.Dev.wakeCtrl) 4 = true)
    (hms : 0 < s.dev.wakeMs) (hdue : s.dev.sleepAt + 2000 * s.dev.wakeMs ≤ s.now) : Completes .wakeTimer s fun t =>
      t.dev.dstate = .standby ∧ t.dev.wakeSrc = 16 ∧ t.now = s.now ∧ t.rails = s.rails := by
  have hwoken := State.wakeNow_same s 4
  obtain ⟨hstandby, hwake, -⟩ := State.wakeNow_wakes s 4
  refine completes_when (b := s.dev.dstate == .sleep && bit (s.obj Ob.clsDev 0 Ob.Dev.wakeCtrl) 4 && s.dev.wakeMs != 0
      && elapsed s.now s.dev.sleepAt (msFrames s.dev.wakeMs)) ?_ rfl
    ⟨hstandby, hwake, hwoken.same .now (by decide), hwoken.same .rails (by decide)⟩
  simp [hst, hen, elapsed, msFrames, hdue, Nat.pos_iff_ne_zero.mp hms]

/-- Settles O33: one lemma per command of the supply and of sleep. -/
theorem supplyAndSleep : Obligations.SupplyAndSleep :=
  ⟨fun s => ⟨uvloReset_darkens, fun hdark => completes_when (b := s.dev.dstate == .unpowered) (by rw [hdark]; rfl) rfl
    ⟨rfl, sameBut_dev s _⟩, powerFailWarning_saves⟩,
   fun _ => ⟨fun _ _ => sleepEntry_sleeps, fun _ => slowTick_passes, fun _ _ => wake_wakes, wakeTimer_wakes⟩⟩

end Sys2Proof.Machine
end

section
/-! The hold-off of the pair (12 R262) and DEFER_ARMED (16 R338). -/

namespace Sys2Proof.Machine

-- One proof at a time: proofs that wait for one another each hold a thread's stack.
set_option Elab.async false

variable {s t u x : State}

/-! The hold-off -/

/-- What a link that comes up leaves in the twin's state, before the role is looked at. -/
def TwinState.linked (w : TwinState) (major minor digest : Nat) (sameSeat : Bool) (holdoffEnd : Nat) : TwinState :=
  { w with
    linkUp := true, sameSeat := sameSeat, peerVer := 256 * (major % 256) + minor % 256
    ver := if major = 2 then 512 + min minor 1 else 0, peerDigest := digest % 4294967296
    holdoffEnd := some holdoffEnd, unarm := if w.armed then w.unarm else .holdoff }

/-- The state of a pair whose link came up. -/
def State.linked (s : State) (major minor digest : Nat) (sameSeat : Bool) : State :=
  s.modTwin fun w => w.linked major minor digest sameSeat (s.now + sFrames (s.obj Ob.clsTwin 0 Ob.Twin.rejoinS).toNat)

theorem exec_twinLinkUp {major minor digest : Nat} {sameSeat : Bool} (hrole : s.twin.role ≠ .solo)
    (hlink : s.linkSilent = false) (hrun : s.framesRun = true) :
    exec (.twinLinkUp major minor digest sameSeat) s = .next (match s.twin.role with
      | .listen => if sameSeat then
          (s.linked major minor digest sameSeat).record Code.twinSeatConflict Ob.clsTwin 0 0 (leBytes 6 s.clk.frame)
        else s.linked major minor digest sameSeat
      | .standby => if major = 2 then s.linked major minor digest sameSeat
        else ((s.linked major minor digest sameSeat).unarmFor .version).setRole .monitor
      | .monitor => if major = 2 then (s.linked major minor digest sameSeat).setRole .standby
        else s.linked major minor digest sameSeat
      | _ => s.linked major minor digest sameSeat) := by
  have hexec : exec (.twinLinkUp major minor digest sameSeat) s = execTwinLinkUp major minor digest sameSeat s := rfl
  have hl : (s.linked major minor digest sameSeat).twin.role = s.twin.role := rfl
  rw [hexec, execTwinLinkUp, if_neg (by simp [hrole, hlink, hrun])]
  show (match (s.linked major minor digest sameSeat).twin.role with
    | .listen => _
    | .standby => _
    | .monitor => _
    | _ => _) = _
  rw [hl]
  cases s.twin.role with
  | _ => rfl

namespace TwinStands

/-- A new role changes the role alone (12 R251). -/
theorem setRole (s : State) (role : TwinRole) : TwinStands (s.modTwin fun w => { w with role := role }) (s.setRole role) :=
  record (refl _) ..

theorem modTwin {f : TwinState → TwinState} (h : TwinStands s t)
    (hf : ∀ w : TwinState, { f w with outbox := [] } = { f { w with outbox := [] } with outbox := [] }) :
    TwinStands (s.modTwin f) (t.modTwin f) := by
  show { f t.twin with outbox := [] } = { f s.twin with outbox := [] }
  rw [hf t.twin, hf s.twin, h]

theorem endArm (s : State) : TwinStands (s.modTwin fun w => { w with armSlot := none }) s.endArm := by
  unfold State.endArm
  split
  · exact refl _
  next h => rw [TwinStands, State.modTwin, ← h]

theorem abortHandover (s : State) : TwinStands (s.modTwin fun w => { w with pendingHo := none }) s.abortHandover := by
  unfold State.abortHandover
  split
  · exact refl _
  next h => rw [TwinStands, State.modTwin, ← h]

end TwinStands

/-- The twin's state once a device is not armed for a reason (12 R254). -/
def TwinState.unarmed (w : TwinState) (why : Unarm) : TwinState :=
  { w with armed := false, unarm := why, resyncing := false, armSlot := none, pendingHo := none }

open TwinStands in
/-- What unarming leaves of the twin: its reason, and neither an arming nor a handover that waits. -/
theorem TwinStands.unarmFor (s : State) (why : Unarm) : TwinStands (s.modTwin (·.unarmed why)) (s.unarmFor why) := by
  unfold State.unarmFor
  extract_lets was freed told
  have htold : TwinStands freed told := ite (record (s := freed) (x := freed.count ..) rfl ..) (refl freed)
  have hended : TwinStands (freed.modTwin fun w => { w with armSlot := none }) told.endArm :=
    (htold.modTwin fun _ => rfl).trans (endArm told)
  exact (hended.modTwin (f := fun w => { w with pendingHo := none }) fun _ => rfl).trans (abortHandover told.endArm)

theorem twinLinkUp_holds {major minor digest : Nat} {seat : Bool} (hrole : s.twin.role ≠ .solo) (hlink : s.linkSilent = false)
    (hrun : s.framesRun = true) : Completes (.twinLinkUp major minor digest seat) s fun t =>
      t.twin.holdoffEnd = some (s.now + 2000000 * (s.obj Ob.clsTwin 0 Ob.Twin.rejoinS).toNat) ∧
        (major = 2 → s.twin.role = .standby → t.twin.role = .standby) := by
  refine ⟨_, exec_twinLinkUp hrole hlink hrun, ?_⟩
  have hheld : (s.linked major minor digest seat).twin.holdoffEnd =
      some (s.now + 2000000 * (s.obj Ob.clsTwin 0 Ob.Twin.rejoinS).toNat) := rfl
  have hlinked : (s.linked major minor digest seat).twin.role = s.twin.role := rfl
  generalize s.linked major minor digest seat = x at *
  have hmonitor := TwinStands.unarmFor x .version |>.modTwin (f := fun w => { w with role := .monitor }) (fun _ => rfl) |>.trans
    (TwinStands.setRole ..)
  cases hr : s.twin.role with
  | solo => exact absurd hr hrole
  | active => exact ⟨hheld, fun _ h => nomatch h⟩
  | listen =>
    refine ⟨?_, fun _ h => nomatch h⟩
    exact (TwinStands.ite (.record (.refl x) ..) (.refl x)).field TwinState.holdoffEnd |>.trans hheld
  | standby =>
    by_cases hmajor : major = 2
    · exact ⟨(if_pos hmajor).symm ▸ hheld, fun _ _ => (if_pos hmajor).symm ▸ hlinked.trans hr⟩
    · exact ⟨(if_neg hmajor).symm ▸ (hmonitor.field TwinState.holdoffEnd).trans hheld, fun h => absurd h hmajor⟩
  | monitor =>
    refine ⟨?_, fun _ h => nomatch h⟩
    show (if major = 2 then x.setRole .standby else x).twin.holdoffEnd = _
    split
    · exact ((TwinStands.setRole x .standby).field TwinState.holdoffEnd).trans hheld
    · exact hheld

/-- STAT shows the hold-off in its bit 9 (12 R262). -/
theorem testBit_viewTwin {w : Nat} (hheld : s.twin.holdoffEnd ≠ none) (hw : s.viewTwin Ob.Twin.stat = some w) :
    Nat.testBit w 9 = true := by
  have hflag : ∀ (b : Bool) (k : Nat), flag b k = 0 ∨ flag b k = 2 ^ k := fun b k => by
    cases b with
    | false => exact .inl rfl
    | true => exact .inr rfl
  have hcode : s.twin.role.code ≤ 4 := by cases s.twin.role with | _ => decide
  have hholdoff : flag s.twin.holdoffEnd.isSome 9 = 512 := by rw [Option.isSome_iff_ne_none.mpr hheld]; rfl
  simp only [State.viewTwin, if_true, Option.some.injEq] at hw
  have h5 := hflag s.twin.seatB 5
  have h6 := hflag s.twin.armed 6
  have h7 := hflag s.twin.partner 7
  have h8 := hflag s.twin.split 8
  have h10 := hflag s.twin.fsLock 10
  have h11 := hflag s.twin.actN 11
  rw [Nat.testBit_eq_decide_div_mod_eq, decide_eq_true_eq]
  split at hw
  · omega
  · omega

theorem rejoinHoldoffEnd_ends {e : Nat} (he : s.twin.holdoffEnd = some e) (hdue : e ≤ s.now) :
    Completes .rejoinHoldoffEnd s fun t => t.twin = { s.twin with
      holdoffEnd := none
      unarm := if s.twin.unarm = .holdoff then .notRequested else s.twin.unarm } ∧ SameBut [.twin] s t := by
  have hexec : exec .rejoinHoldoffEnd s = execRejoinHoldoffEnd s := rfl
  rw [execRejoinHoldoffEnd, he] at hexec
  refine ⟨_, hexec.trans (congrArg Host.Outcome.next (if_pos hdue)), ?_, State.modTwin_same ..⟩
  simp only [State.modTwin, beq_iff_eq]

theorem rejoinHoldoffEnd_waits {e : Nat} (he : s.twin.holdoffEnd = some e) (hdue : s.now < e) :
    Completes .rejoinHoldoffEnd s fun t => t = s := by
  have hexec : exec .rejoinHoldoffEnd s = execRejoinHoldoffEnd s := rfl
  rw [execRejoinHoldoffEnd, he] at hexec
  exact ⟨s, hexec.trans (congrArg Host.Outcome.next (if_neg (Nat.not_le.mpr hdue))), rfl⟩

/-- The state of a pair whose link went down. -/
def State.unlinked (s : State) : State :=
  s.modTwin fun w => { w with linkUp := false, sameSeat := false, holdoffEnd := none, align := none }

theorem exec_twinLinkDown (hup : s.twin.linkUp = true) :
    exec .twinLinkDown s = .next (if s.follows then s.unlinked.unarmFor .link else s.unlinked) := by
  show execTwinLinkDown s = _
  rw [execTwinLinkDown, if_neg (by simp [hup])]
  rfl

theorem twinLinkDown_ends (hup : s.twin.linkUp = true) : Completes .twinLinkDown s fun t =>
    t.twin.holdoffEnd = none ∧ t.twin.linkUp = false ∧ t.twin.role = s.twin.role := by
  refine ⟨_, exec_twinLinkDown hup, ?_⟩
  have hunarmed := TwinStands.unarmFor s.unlinked .link
  split
  · exact ⟨hunarmed.field TwinState.holdoffEnd, hunarmed.field TwinState.linkUp, hunarmed.field TwinState.role⟩
  · exact ⟨rfl, rfl, rfl⟩

/-- Settles O60: no command arms a standby on hold (`exec_endsOnHold`). -/
theorem holdOffDelaysArming : Obligations.HoldOffDelaysArming := fun s =>
  ⟨fun _ _ _ _ => twinLinkUp_holds, fun hheld _ => testBit_viewTwin hheld,
   fun c t hc hrole hu hheld _ _ => by
    obtain ⟨t', hc', -, harms⟩ := exec_endsOnHold c s
    cases hc.symm.trans hc'
    exact harms ⟨hrole, hheld⟩ hu,
   fun _ he => ⟨rejoinHoldoffEnd_ends he, rejoinHoldoffEnd_waits he⟩, twinLinkDown_ends⟩

end Sys2Proof.Machine
end

section
/-! DEFER_ARMED (16 R338), and what the acts on rails and domains leave of MRAM. -/

namespace Sys2Proof.Machine

-- One proof at a time: proofs that wait for one another each hold a thread's stack.
set_option Elab.async false

variable {s t u x : State}

/-! MRAM while rails latch and domains go down -/

namespace NvmStands

theorem forEach {α : Type} {l : List α} {f : State → α → State} (hf : ∀ s a, NvmStands s (f s a)) (s : State) :
    NvmStands s (forEach l f s) := rel_forEach refl trans (fun a _ s => hf s a) s

/-- An update of other areas only. -/
theorem still (h : t.nvm = s.nvm := by rfl) : NvmStands s t := by rw [NvmStands, h]

theorem event (s : State) (e : Ev) : NvmStands s (s.event e) := by
  unfold State.event
  split
  · exact quiet (State.modRec_same ..)
  · exact emit ..

theorem downEnd (s : State) (d : DomainIx) : NvmStands s (s.downEnd d) := by
  unfold State.downEnd
  extract_lets x idle latch counted latched retried waiting ended
  have hlatch : NvmStands s latch := by
    unfold latch
    split
    · exact ite still still
    · exact still
  clear_value latch
  have hlatched : NvmStands s latched := 
    ((hlatch.trans (still (t := counted))).trans (quiet (counted.setDom_same d .latched))).trans still
  have hwaiting : NvmStands s waiting := (trans (t := retried) still (quiet (retried.setDom_same d .retryWait))).trans still
  have hended : NvmStands s ended := ite (hlatched.trans (record ..)) <| ite (hwaiting.trans (record ..)) <|
    ite (trans (t := idle) still (quiet (idle.enterUp_same d true)))
      ((trans (t := idle) still (quiet (idle.setDom_same d .off))).trans (record ..))
  exact (hended.trans (quiet ended.settleDev_same)).trans (quiet (State.refreshFlt_same _))

theorem nextDown (s : State) (d : DomainIx) : NvmStands s (s.nextDown d) := by
  unfold State.nextDown
  split
  · exact downEnd s d
  · exact still

theorem enterDown (s : State) (d : DomainIx) : NvmStands s (s.enterDown d) :=
  trans (trans (forEach (fun _ _ => still) s) (quiet (State.setDom_same ..))) (nextDown ..)

theorem railWentOff (s : State) (r : RailIx) : NvmStands s (s.railWentOff r) := by
  unfold State.railWentOff
  split
  · exact refl s
  · exact ite (ite still (nextDown ..)) still

theorem reportLatch (s : State) (r : RailIx) (cause : Latch) (was : Bool) : NvmStands s (s.reportLatch r cause was) := by
  unfold State.reportLatch
  split
  · exact refl s
  · extract_lets x iso setLatch
    have hset : NvmStands s (setLatch s) := still
    split
    · exact hset.trans (enterDown ..)
    · exact ite still (hset.trans (enterDown ..))
    · exact ite still (ite (railWentOff ..) (hset.trans (railWentOff ..)))
    · exact refl s

theorem uvFaultReport (s : State) (r : RailIx) : NvmStands s (s.uvFaultReport r) :=
  (quiet (s.abortTuneOn_same r 4)).trans (record ..)

theorem recordLower (s : State) (r : RailIx) : NvmStands s (s.recordLower r) := by
  unfold State.recordLower
  extract_lets causes reported
  have hreported : NvmStands s reported := ite (uvFaultReport ..) still
  exact ite still (trans (ite hreported (hreported.trans (record ..))) (quiet (State.clearHic_same ..)))

theorem afterLatch (s : State) (r : RailIx) (cause : Latch) : NvmStands s (s.afterLatch r cause) :=
  trans (trans (trans (recordLower s r) (ite (quiet (State.leaveRegulation_same ..)) still)) (reportLatch ..))
    (quiet (State.refreshFlt_same _))

theorem latchRails (s : State) (rs : List RailIx) (cause : Latch) (code cls inst sub : Nat) (data : List Byte) :
    NvmStands s (s.latchRails rs cause code cls inst sub data) :=
  trans (trans (forEach (fun _ _ => still) s) (event ..)) (forEach (fun _ _ => afterLatch ..) _)

theorem powerDownAll (s : State) : NvmStands s s.powerDownAll := forEach (fun s d => by
  split
  · exact enterDown s d
  · exact enterDown s d
  · exact refl s) s

/-- A fault of a sensor acts on rails, domains and the recorder, and leaves the window (10 R229). -/
theorem tempAct (s : State) (i : TempIx) (sub : Nat) : NvmStands s (s.tempAct i sub) := by
  have hrecorded : NvmStands s (s.faultRecorded i sub) := record ..
  refine State.rel_tempAct ?_ (latchRails ..) ?_ hrecorded
  · exact hrecorded.trans (trans (t := State.modTemp _ i _) still
      (forEach (fun s r => (quiet (s.disablePhases_same r)).trans still) _))
  · exact hrecorded.trans (trans (t := State.modTemp _ i _) still ((powerDownAll _).trans (quiet (State.refreshFlt_same _))))

theorem tempLevels (s : State) (i : TempIx) : NvmStands s (s.tempLevels i) := by
  unfold State.tempLevels
  extract_lets x lv back failAct lim fast low level warn fault judged counted
  have hcounted : NvmStands s counted := trans (t := judged) still (quiet (State.countIf_same ..))
  exact hcounted.trans (ite ((quiet (State.count_same ..)).trans (tempAct ..)) (refl counted))

end NvmStands

/-! The window of the die sensors -/

/-- Every die sensor reads within this window. -/
def State.dieWithin (s : State) (lo hi : Int) : Bool :=
  ((s.temps.toList.take 8).map (·.value)).all fun v => decide (lo ≤ v) && decide (v ≤ hi)

theorem State.dieWithin_iff {lo hi : Int} :
    s.dieWithin lo hi = true ↔ ∀ j : TempIx, j.val < 8 → lo ≤ (s.temp j).value ∧ (s.temp j).value ≤ hi := by
  simp only [State.dieWithin, List.all_map, List.all_eq_true, List.mem_take_iff_getElem, Function.comp_apply, Bool.and_eq_true,
    decide_eq_true_eq, Vector.length_toList]
  constructor
  · exact fun h j hj => h _ ⟨j.val, by omega, Vector.getElem_toList ..⟩
  · rintro h x ⟨k, hk, rfl⟩
    rw [Vector.getElem_toList]
    have hfew := Nat.lt_of_lt_of_le hk (Nat.min_le_left ..)
    exact h ⟨k, by omega⟩ hfew

/-- What the window of the die sensors leaves of the arming of the deferral (16 R338). -/
theorem State.armed_dieWindow (s : State) :
    s.dieWindow.nvm.armGood = (if s.dieWithin (-2200) 11200 then some (s.nvm.armGood.getD s.now) else none) ∧
      s.dieWindow.nvm.deferArmed = (s.nvm.deferArmed || (s.nvm.window && !s.dieWithin (-2200) 11200)) := ⟨rfl, rfl⟩

/-- The state of a valid reading of a die sensor, before the window is looked at. -/
def State.dieRead (s : State) (i : TempIx) (q : Int) : State :=
  let read := s.modTemp i fun x => { x with value := s.tempValue i q, fail := false }
  (read.tempMean i (read.temp i).value).tempLevels i

theorem exec_tempUpdate_die {i : TempIx} {q : Int} (hrun : s.framesRun = true) (hi : i.val < 8) (hstale : s.teleStale = false)
    (hen : bit (s.obj Ob.clsTemp i.val Ob.Temp.ctrl) 0 = true) :
    exec (.tempUpdate i (some q)) s = .next (s.dieRead i q).dieWindow := by
  show execTempUpdate i (some q) s = _
  simp only [execTempUpdate, hrun, hstale, hen, hi, Bool.not_true, Bool.or_false, Bool.false_eq_true, if_false, if_true]
  rfl

/-- A reading reaches its die sensor, no other sensor changes, and MRAM's window stands. -/
theorem State.dieRead_reads (s : State) {i : TempIx} (q : Int) (hi : i.val < 8) : ((s.dieRead i q).temp i).value = q ∧
    TempsBut i s (s.dieRead i q) ∧ (s.dieRead i q).now = s.now ∧ NvmStands s (s.dieRead i q) := by
  unfold State.dieRead
  extract_lets read
  have hvalue : (read.temp i).value = q := by rw [State.temp_modTemp_self, State.tempValue, if_pos hi]
  have hothers : TempsBut i s read := s.tempsBut_modTemp i _
  have hstands : NvmStands s read := .still
  have hnow : read.now = s.now := rfl
  clear_value read
  have hmean := ReadingStands.tempMean (i := i) read (read.temp i).value
  have hmeanSame := State.tempMean_same read i (read.temp i).value
  generalize read.tempMean i (read.temp i).value = y at *
  obtain ⟨hbut, hlevel, -⟩ := State.tempLevels_reading y i
  have hmeanNow : y.now = read.now := hmeanSame.same .now (by decide)
  have hlevelNow : (y.tempLevels i).now = y.now := (State.tempLevels_same y i).same .now (by decide)
  refine ⟨(hlevel.trans hmean.value).trans hvalue, fun j hj => ?_, (hlevelNow.trans hmeanNow).trans hnow,
    (hstands.trans (.quiet hmeanSame)).trans (.tempLevels y i)⟩
  rw [hbut j hj, hmean.others j hj, hothers j hj]

theorem tempUpdate_arms {i : TempIx} {q : Int} (hrun : s.framesRun = true) (hi : i.val < 8) (hstale : s.teleStale = false)
    (hen : bit (s.obj Ob.clsTemp i.val Ob.Temp.ctrl) 0 = true) (hq : q < -2200 ∨ 11200 < q) :
    Completes (.tempUpdate i (some q)) s fun t => (s.nvm.window = true → t.nvm.deferArmed = true) ∧ t.nvm.armGood = none := by
  refine ⟨_, exec_tempUpdate_die hrun hi hstale hen, ?_⟩
  obtain ⟨hread, -, -, hstands⟩ := s.dieRead_reads q hi
  obtain ⟨hgood, harmed⟩ := State.armed_dieWindow (s.dieRead i q)
  have hbeyond : (s.dieRead i q).dieWithin (-2200) 11200 = false := by
    rw [← Bool.not_eq_true, State.dieWithin_iff]
    intro h
    have hwithin := h i hi
    omega
  rw [hgood, harmed, hbeyond, hstands.field NvmState.window]
  exact ⟨fun hw => by simp [hw], rfl⟩

theorem tempUpdate_within {i : TempIx} {q : Int} (hrun : s.framesRun = true) (hi : i.val < 8) (hstale : s.teleStale = false)
    (hen : bit (s.obj Ob.clsTemp i.val Ob.Temp.ctrl) 0 = true) (hlo : -2200 ≤ q) (hhi : q ≤ 11200)
    (hothers : ∀ j : TempIx, j.val < 8 → j ≠ i → -2200 ≤ (s.temp j).value ∧ (s.temp j).value ≤ 11200) :
    Completes (.tempUpdate i (some q)) s fun t => t.nvm.deferArmed = s.nvm.deferArmed ∧
      t.nvm.armGood = some (s.nvm.armGood.getD s.now) := by
  refine ⟨_, exec_tempUpdate_die hrun hi hstale hen, ?_⟩
  obtain ⟨hread, hbut, hnow, hstands⟩ := s.dieRead_reads q hi
  obtain ⟨hgood, harmed⟩ := State.armed_dieWindow (s.dieRead i q)
  have hwithin : (s.dieRead i q).dieWithin (-2200) 11200 = true := by
    refine State.dieWithin_iff.mpr fun j hj => ?_
    by_cases hji : j = i
    · rw [hji, hread]
      exact ⟨hlo, hhi⟩
    · rw [hbut j hji]
      exact hothers j hj hji
  rw [hgood, harmed, hwithin, hnow, hstands.field NvmState.armGood, hstands.field NvmState.deferArmed]
  simp

/-! The end of DEFER_ARMED -/

theorem exec_deferArmedClear {g : Nat} (hg : s.nvm.armGood = some g) : exec .deferArmedClear s =
    .next (if elapsed s.now g (sFrames 10) && s.nvm.queue.isEmpty then s.modNvm fun x => { x with deferArmed := false }
      else s) := by
  show execDeferArmedClear s = _
  rw [execDeferArmedClear, hg]

theorem deferArmedClear_clears {g : Nat} (hg : s.nvm.armGood = some g) (hdue : g + 20000000 ≤ s.now) (hqueue : s.nvm.queue = []) :
    Completes .deferArmedClear s fun t => t.nvm = { s.nvm with deferArmed := false } ∧ SameBut [.nvm] s t := by
  refine ⟨_, (exec_deferArmedClear hg).trans (congrArg Host.Outcome.next (if_pos ?_)), rfl, State.modNvm_same ..⟩
  simp [hqueue, elapsed, sFrames, hdue]

theorem deferArmedClear_waits (hwait : s.nvm.queue ≠ [] ∨ ∀ g, s.nvm.armGood = some g → s.now < g + 20000000) :
    Completes .deferArmedClear s fun t => t.nvm.deferArmed = s.nvm.deferArmed := by
  cases hg : s.nvm.armGood with
  | none =>
    have hexec : exec .deferArmedClear s = execDeferArmedClear s := rfl
    rw [execDeferArmedClear, hg] at hexec
    exact ⟨s, hexec, rfl⟩
  | some g =>
    refine ⟨_, (exec_deferArmedClear hg).trans (congrArg Host.Outcome.next (if_neg ?_)), rfl⟩
    rw [Bool.and_eq_true, List.isEmpty_iff]
    rintro ⟨hdue, hqueue⟩
    have hlate := hwait.resolve_left (not_not.mpr hqueue) g hg
    rw [elapsed, sFrames, decide_eq_true_eq] at hdue
    omega

/-- Settles O59: the reading arms or not by the window of all die sensors, and the clearing by its two conditions. -/
theorem deferArmedFollowsTheSensors : Obligations.DeferArmedFollowsTheSensors := fun _ hrun =>
  ⟨fun _ _ hi hstale hen => ⟨tempUpdate_arms hrun hi hstale hen, tempUpdate_within hrun hi hstale hen⟩,
   fun _ => deferArmedClear_clears, deferArmedClear_waits⟩

end Sys2Proof.Machine
end

section
/-! What the pair's link brings (12 R252 to R258, R262, R263, 14 R293). -/

namespace Sys2Proof.Machine

-- One proof at a time: proofs that wait for one another each hold a thread's stack.
set_option Elab.async false

variable {s t u x : State}

/-! What unarming reports (12 R254) -/

/-- From s to t the device is not armed for this reason, and a device that was armed has told so. -/
def Unarmed (s t : State) (why : Unarm) : Prop := t.twin.armed = false ∧ t.twin.unarm = why ∧
  (s.twin.armed = true → Counts s t Ob.clsTwin 0 Ob.Twin.unarms ∧ Logs s t Code.twinUnarmed Ob.clsTwin 0 why.code [] ∧
    bit t.mb.istat Irq.twin.val = true) ∧
  (s.twin.armed = false → t.recd = s.recd)

theorem State.istat_endArm (s : State) : s.endArm.mb.istat = s.mb.istat := by
  unfold State.endArm
  split
  · rfl
  · rfl

theorem State.istat_abortHandover (s : State) : s.abortHandover.mb.istat = s.mb.istat := by
  unfold State.abortHandover
  split
  · rfl
  · rfl

/-- The end of an arming and of a handover answers their slots and leaves records and objects. -/
theorem State.endArm_abortHandover (s : State) : s.endArm.abortHandover.objs = s.objs ∧ s.endArm.abortHandover.recd = s.recd ∧
    s.endArm.abortHandover.mb.istat = s.mb.istat := by
  have hsame : SameBut [.twin, .mb] s s.endArm.abortHandover :=
    same_step (State.endArm_same s) (State.abortHandover_same _) (by decide)
  exact ⟨hsame.same .objs (by decide), hsame.same .recd (by decide), by rw [State.istat_abortHandover, State.istat_endArm]⟩

/-- Unarming, on a state that differs from s in the twin and nothing that is reported. -/
theorem unarmed_unarmFor (hs : StoreOk s.objs) (hobjs : x.objs = s.objs) (hrecd : x.recd = s.recd) (hnvm : x.nvm = s.nvm)
    (harmed : x.twin.armed = s.twin.armed) (why : Unarm) : Unarmed s (x.unarmFor why) why := by
  have htwin := TwinStands.unarmFor x why
  refine ⟨htwin.field TwinState.armed, htwin.field TwinState.unarm, ?_⟩
  unfold State.unarmFor
  extract_lets was freed told
  obtain ⟨hstore, hrec, histat⟩ := State.endArm_abortHandover told
  have hok : StoreOk freed.objs := by rw [show freed.objs = s.objs from hobjs]; exact hs
  have hobj : freed.obj Ob.clsTwin 0 Ob.Twin.unarms = s.obj Ob.clsTwin 0 Ob.Twin.unarms := State.obj_of_objs hobjs ..
  have hkept : freed.recd = s.recd := hrecd
  have hsaved : freed.nvm = s.nvm := hnvm
  have hwas : was = s.twin.armed := harmed
  clear_value freed was
  subst hwas
  constructor
  · intro hon
    have htold : told =
        ((freed.count Ob.clsTwin 0 Ob.Twin.unarms).record Code.twinUnarmed Ob.clsTwin 0 why.code []).irq Irq.twin := if_pos hon
    have hcounted : Counts s ((freed.count Ob.clsTwin 0 Ob.Twin.unarms).record Code.twinUnarmed Ob.clsTwin 0 why.code [])
        Ob.clsTwin 0 Ob.Twin.unarms := counts_record hok hobj (recKeys_ne (by decide) (by decide) (by decide)) ..
    clear_value told
    refine ⟨?_, ⟨freed.count Ob.clsTwin 0 Ob.Twin.unarms, hkept, hsaved, hrec.trans (htold ▸ rfl)⟩, ?_⟩
    · rw [Counts, State.obj_of_objs hstore, htold]
      exact hcounted
    · rw [histat, htold]
      exact State.bit_istat_irq _ Irq.twin
  · intro hoff
    have htold : told = freed := if_neg (by simp [hoff])
    exact hrec.trans (htold ▸ hkept)

/-! Heartbeats -/

theorem twinHeartbeat_errs {h : Heartbeat} (hs : StoreOk s.objs) (hrun : s.framesRun = true) (hlink : s.linkSilent = false)
    (hrole : s.twin.role ≠ .solo) (hbad : h.valid = false) : Completes (.twinHeartbeat h) s fun t =>
      Counts s t Ob.clsTwin 0 Ob.Twin.linkErrors ∧ ObjsBut [(Ob.clsTwin, 0, Ob.Twin.linkErrors)] s t ∧ SameBut [.objs] s t := by
  have hexec : exec (.twinHeartbeat h) s = .next (s.count Ob.clsTwin 0 Ob.Twin.linkErrors) := by
    show execTwinHeartbeat h s = _
    rw [execTwinHeartbeat, if_neg (by simp [hrole, hlink, hrun]), if_pos (by simp [hbad])]
  exact ⟨_, hexec, State.obj_setObj_self hs .., State.objsBut_setObj hs _ _ _ _, State.count_same ..⟩

/-- The state of a device that heard its partner. -/
def State.heardFrom (s : State) (h : Heartbeat) : State :=
  let followed := if s.follows then s.followStarted h.started else s
  (followed.modTwin fun w => { w with
    partner := true, partnerHo := h.handoverEdge, split := false
    unarm := if followed.twin.split then .notRequested else w.unarm
    resyncing := w.resyncing || followed.twin.split
    resyncOnly := if followed.twin.split then !bit (followed.obj Ob.clsTwin 0 Ob.Twin.ctrl) 1 else w.resyncOnly }).irqIf
      followed.twin.split Irq.twin

theorem exec_twinHeartbeat {h : Heartbeat} (hrun : s.framesRun = true) (hlink : s.linkSilent = false)
    (hrole : s.twin.role ≠ .solo) (hgood : h.valid = true) : exec (.twinHeartbeat h) s =
      .next (if (s.heardFrom h).twin.role == .active && (s.heardFrom h).twin.armed != h.armed then
        (if h.armed then ((s.heardFrom h).modTwin fun w => { w with armed := true, unarm := .none }).irq Irq.twin
         else (((s.heardFrom h).modTwin fun w => { w with armed := false }).irq Irq.twin).abortHandover)
      else s.heardFrom h) := by
  show execTwinHeartbeat h s = _
  rw [execTwinHeartbeat, if_neg (by simp [hrole, hlink, hrun]), if_neg (by simp [hgood])]
  rfl

theorem State.twin_followStarted (s : State) (started : List Nat) :
    (s.followStarted started).twin = { s.twin with partnerStarted := started } := by
  unfold State.followStarted
  extract_lets old dropped
  have hdropped : dropped.twin = s.twin := twin_same (same_forEach (same_refl [.ports] s) fun _ _ => State.modPort_same ..)
  clear_value dropped
  rw [State.modTwin, hdropped]

theorem State.heardFrom_hears (s : State) (h : Heartbeat) : (s.heardFrom h).twin.partner = true ∧
    (s.heardFrom h).twin.split = false ∧ (s.heardFrom h).twin.partnerHo = h.handoverEdge ∧
    (s.heardFrom h).twin.role = s.twin.role ∧ (s.heardFrom h).twin.armed = s.twin.armed ∧
    SameBut [.ports, .twin, .mb] s (s.heardFrom h) := by
  unfold State.heardFrom
  extract_lets followed
  have hfollowed : followed.twin.role = s.twin.role ∧ followed.twin.armed = s.twin.armed ∧
      SameBut [.ports, .twin] s followed := by
    unfold followed
    split
    · rw [State.twin_followStarted]
      exact ⟨rfl, rfl, State.followStarted_same ..⟩
    · exact ⟨rfl, rfl, same_refl ..⟩
  obtain ⟨hrole, harmed, hsame⟩ := hfollowed
  clear_value followed
  generalize hheard : followed.modTwin _ = y
  have hbody : SameBut [.twin] followed y := hheard ▸ State.modTwin_same ..
  rw [twin_same (State.irqIf_same y followed.twin.split Irq.twin)]
  subst hheard
  exact ⟨rfl, rfl, rfl, hrole, harmed,
    same_step (same_step (same_mono hsame (by decide)) hbody (by decide)) (State.irqIf_same ..) (by decide)⟩

theorem twinHeartbeat_tells {h : Heartbeat} (hrun : s.framesRun = true) (hlink : s.linkSilent = false)
    (hrole : s.twin.role ≠ .solo) (hgood : h.valid = true) : Completes (.twinHeartbeat h) s fun t =>
      t.twin.partner = true ∧ t.twin.split = false ∧ t.twin.partnerHo = h.handoverEdge ∧ t.twin.role = s.twin.role ∧
        t.twin.armed = (if s.twin.role = .active then h.armed else s.twin.armed) ∧ SameBut [.objs, .ports, .twin, .mb] s t := by
  refine ⟨_, exec_twinHeartbeat hrun hlink hrole hgood, ?_⟩
  obtain ⟨hpartner, hsplit, hho, hheard, harmed, hsame⟩ := s.heardFrom_hears h
  generalize s.heardFrom h = x at *
  have hsame' : SameBut [.objs, .ports, .twin, .mb] s x := same_mono hsame (by decide)
  split
  next hnews =>
    obtain ⟨hactive, -⟩ := by simpa using hnews
    have hif : s.twin.role = .active := hheard.symm.trans hactive
    rw [if_pos hif]
    split
    next hon =>
      exact ⟨hpartner, hsplit, hho, hheard, hon.symm,
        same_step (same_step hsame' (State.modTwin_same ..) (by decide)) (State.irq_same ..) (by decide)⟩
    next hoff =>
      have hfreed := TwinStands.abortHandover ((x.modTwin fun w => { w with armed := false }).irq Irq.twin)
      refine ⟨(hfreed.field TwinState.partner).trans hpartner, (hfreed.field TwinState.split).trans hsplit,
        (hfreed.field TwinState.partnerHo).trans hho, (hfreed.field TwinState.role).trans hheard,
        (hfreed.field TwinState.armed).trans (Bool.eq_false_iff.mpr hoff).symm, ?_⟩
      exact same_step (same_step (same_step hsame' (State.modTwin_same ..) (by decide)) (State.irq_same ..) (by decide))
        (State.abortHandover_same _) (by decide)
  next hold =>
    refine ⟨hpartner, hsplit, hho, hheard, ?_, hsame'⟩
    by_cases hif : s.twin.role = .active
    · rw [if_pos hif]
      simpa [hheard.trans hif] using hold
    · rw [if_neg hif]
      exact harmed

/-! The link comes up and goes down -/

theorem twinLinkUp_versions {major minor digest : Nat} {seat : Bool} (hrun : s.framesRun = true) (hlink : s.linkSilent = false)
    (hrole : s.twin.role ≠ .solo) : Completes (.twinLinkUp major minor digest seat) s fun t => t.twin.linkUp = true ∧
      t.twin.ver = (if major = 2 then 512 + min minor 1 else 0) ∧
      t.twin.holdoffEnd = some (s.now + sFrames (s.obj Ob.clsTwin 0 Ob.Twin.rejoinS).toNat) ∧
      (s.twin.role = .standby → t.twin.role = (if major = 2 then .standby else .monitor) ∧
        (major ≠ 2 → t.twin.armed = false)) ∧
      (s.twin.role = .monitor → t.twin.role = if major = 2 then .standby else .monitor) ∧
      (s.twin.role = .listen → t.twin.role = .listen ∧
        (seat = true → Logs s t Code.twinSeatConflict Ob.clsTwin 0 0 (leBytes 6 s.clk.frame))) ∧
      SameBut [.objs, .rails, .twin, .recd, .mb, .nvm] s t := by
  refine ⟨_, exec_twinLinkUp hrole hlink hrun, ?_⟩
  obtain ⟨hup, hver, hheld, hlinked, hsame⟩ : (s.linked major minor digest seat).twin.linkUp = true ∧
      (s.linked major minor digest seat).twin.ver = (if major = 2 then 512 + min minor 1 else 0) ∧
      (s.linked major minor digest seat).twin.holdoffEnd = some (s.now + sFrames (s.obj Ob.clsTwin 0 Ob.Twin.rejoinS).toNat) ∧
      (s.linked major minor digest seat).twin.role = s.twin.role ∧
      SameBut [.objs, .rails, .twin, .recd, .mb, .nvm] s (s.linked major minor digest seat) :=
    ⟨rfl, rfl, rfl, rfl, same_mono (State.modTwin_same s _) (by decide)⟩
  have hlogs : Logs s ((s.linked major minor digest seat).record Code.twinSeatConflict Ob.clsTwin 0 0 (leBytes 6 s.clk.frame))
      Code.twinSeatConflict Ob.clsTwin 0 0 (leBytes 6 s.clk.frame) := logs_record (s.linked major minor digest seat) rfl rfl ..
  generalize s.linked major minor digest seat = x at *
  cases hr : s.twin.role with
  | solo => exact absurd hr hrole
  | active => exact ⟨hup, hver, hheld, (nomatch ·), (nomatch ·), (nomatch ·), hsame⟩
  | listen =>
    have htwin : TwinStands x (if seat then x.record Code.twinSeatConflict Ob.clsTwin 0 0 (leBytes 6 s.clk.frame) else x) :=
      .ite (.record (.refl x) ..) (.refl x)
    refine ⟨(htwin.field TwinState.linkUp).trans hup, (htwin.field TwinState.ver).trans hver,
      (htwin.field TwinState.holdoffEnd).trans hheld, (nomatch ·), (nomatch ·),
      fun _ => ⟨(htwin.field TwinState.role).trans (hlinked.trans hr), fun hseat => (if_pos hseat).symm ▸ hlogs⟩, ?_⟩
    exact rel_ite (same_step hsame (State.record_same ..) (by decide)) hsame
  | standby =>
    by_cases hmajor : major = 2
    · simp only [if_pos hmajor] at hver ⊢
      exact ⟨hup, hver, hheld, fun _ => ⟨hlinked.trans hr, fun h => absurd hmajor h⟩, (nomatch ·), (nomatch ·), hsame⟩
    · simp only [if_neg hmajor] at hver ⊢
      have htwin := ((TwinStands.unarmFor x .version).modTwin (f := fun w => { w with role := .monitor }) fun _ => rfl).trans
        (.setRole ..)
      exact ⟨(htwin.field TwinState.linkUp).trans hup, (htwin.field TwinState.ver).trans hver,
        (htwin.field TwinState.holdoffEnd).trans hheld,
        fun _ => ⟨htwin.field TwinState.role, fun _ => htwin.field TwinState.armed⟩, (nomatch ·), (nomatch ·),
        same_step (same_step hsame (State.unarmFor_same ..) (by decide)) (State.setRole_same ..) (by decide)⟩
  | monitor =>
    by_cases hmajor : major = 2
    · simp only [if_pos hmajor] at hver ⊢
      have htwin := TwinStands.setRole x .standby
      exact ⟨(htwin.field TwinState.linkUp).trans hup, (htwin.field TwinState.ver).trans hver,
        (htwin.field TwinState.holdoffEnd).trans hheld, (nomatch ·), fun _ => htwin.field TwinState.role, (nomatch ·),
        same_step hsame (State.setRole_same ..) (by decide)⟩
    · simp only [if_neg hmajor] at hver ⊢
      exact ⟨hup, hver, hheld, (nomatch ·), fun _ => hlinked.trans hr, (nomatch ·), hsame⟩

theorem twinLinkDown_unarms (hs : StoreOk s.objs) (hfollows : s.follows = true) (hup : s.twin.linkUp = true) :
    Completes .twinLinkDown s fun t => Unarmed s t .link ∧ t.twin.linkUp = false ∧ t.twin.holdoffEnd = none ∧
      t.twin.role = s.twin.role ∧ SameBut [.objs, .rails, .twin, .recd, .mb, .nvm] s t := by
  have htwin := TwinStands.unarmFor s.unlinked .link
  refine ⟨_, (exec_twinLinkDown hup).trans (congrArg Host.Outcome.next (if_pos hfollows)),
    unarmed_unarmFor (x := s.unlinked) hs rfl rfl rfl rfl .link, htwin.field TwinState.linkUp, htwin.field TwinState.holdoffEnd,
    htwin.field TwinState.role, ?_⟩
  exact same_step (same_mono (State.modTwin_same s _ : SameBut [.twin] s s.unlinked) (by decide)) (State.unarmFor_same ..)
    (by decide)

theorem twinFrameSyncLoss_unarms (hs : StoreOk s.objs) (hfollows : s.follows = true) (hlock : s.twin.fsLock = true)
    (hmiss : 3 ≤ s.twin.fsMiss) : Completes .twinFrameSyncLoss s fun t => Unarmed s t .frameSync ∧ t.twin.fsLock = false ∧
      t.twin.role = s.twin.role ∧ SameBut [.objs, .rails, .twin, .recd, .mb, .nvm] s t := by
  have htwin := TwinStands.unarmFor (s.modTwin fun w => { w with fsLock := false }) .frameSync
  refine completes_when (b := s.follows && s.twin.fsLock && decide (3 ≤ s.twin.fsMiss)) (by simp [hfollows, hlock, hmiss]) rfl
    ⟨unarmed_unarmFor (x := s.modTwin _) hs rfl rfl rfl rfl .frameSync, htwin.field TwinState.fsLock,
      htwin.field TwinState.role, ?_⟩
  exact same_step (same_mono (State.modTwin_same s _) (by decide)) (State.unarmFor_same ..) (by decide)

/-! What the active sends -/

theorem twinAlignmentRecord_waits {ar : AlignRec} (hrun : s.framesRun = true) (hlink : s.linkSilent = false)
    (hfollows : s.follows = true) : Completes (.twinAlignmentRecord ar) s fun t =>
      t.twin = { s.twin with align := some ar } ∧ SameBut [.twin] s t :=
  completes_when (b := s.follows && !s.linkSilent && s.framesRun) (by simp [hfollows, hlink, hrun]) rfl
    ⟨rfl, State.modTwin_same ..⟩

theorem exec_twinReplicatedCommand {edge : Nat} {act : EdgeAction} (hlink : s.linkSilent = false) (hfollows : s.follows = true) :
    exec (.twinReplicatedCommand edge act) s = if s.clk.frame < edge && s.replOk act then
        .next (s.modTwin fun w => { w with repl := w.repl ++ [(edge, act)] })
      else .next (if s.twin.armed then (s.unarmFor .replication).resync else s) := by
  show execTwinReplicatedCommand edge act s = _
  rw [execTwinReplicatedCommand, if_neg (by simp [hfollows, hlink])]

theorem twinReplicatedCommand_waits {edge : Nat} {act : EdgeAction} (hlink : s.linkSilent = false) (hfollows : s.follows = true)
    (hedge : s.clk.frame < edge) (hok : s.replOk act = true) : Completes (.twinReplicatedCommand edge act) s fun t =>
      t.twin = { s.twin with repl := s.twin.repl ++ [(edge, act)] } ∧ SameBut [.twin] s t :=
  ⟨_, (exec_twinReplicatedCommand hlink hfollows).trans (if_pos (by simp [hedge, hok])), rfl, State.modTwin_same ..⟩

theorem twinReplicatedCommand_unarms {edge : Nat} {act : EdgeAction} (hs : StoreOk s.objs) (hlink : s.linkSilent = false)
    (hfollows : s.follows = true) (hbad : edge ≤ s.clk.frame ∨ s.replOk act = false) (harmed : s.twin.armed = true) :
    Completes (.twinReplicatedCommand edge act) s fun t => Unarmed s t .replication ∧ t.twin.resyncing = true ∧
      t.twin.repl = s.twin.repl ∧ SameBut [.objs, .rails, .twin, .recd, .mb, .nvm] s t := by
  have hexec : exec (.twinReplicatedCommand edge act) s = .next (s.unarmFor .replication).resync := by
    refine (exec_twinReplicatedCommand hlink hfollows).trans ((if_neg ?_).trans (congrArg Host.Outcome.next (if_pos harmed)))
    rw [Bool.and_eq_true, decide_eq_true_eq]
    rintro ⟨hedge, hok⟩
    exact hbad.elim (Nat.not_le.mpr hedge) fun h => by simp [hok] at h
  have hunarmed := unarmed_unarmFor (x := s) hs rfl rfl rfl rfl .replication
  exact ⟨_, hexec, hunarmed, rfl, (TwinStands.unarmFor s .replication).field TwinState.repl,
    same_step (State.unarmFor_same ..) (State.resync_same _) (by decide)⟩

/-! The partner's records (14 R293) -/

/-- An event of the partner takes its number at once and stands at the ring's end. -/
theorem State.event_partner {e : Ev} (hpartner : e.partner = true) (hsnaps : e.snaps = []) (hbatch : s.recd.batch = none)
    (hreserved : s.recd.reserveFail = false) (hroom : s.recd.next + 1 < s.reserve) (hkept : s.recd.keptReserve = none)
    (hfrozen : s.recd.frozen = false) (hwrite : s.canWrite = true) (hok : s.recd.ringOk = true) (hram : s.recd.ram = []) :
    s.event e = (s.modRec fun x => { x with next := s.recd.next + 1 }).pushRing
      ⟨s.recd.next, e.code, e.srcClass, e.srcInst, e.sub, RecFlag.partner, e.data⟩ := by
  have hraised : s.raiseReserve = s := if_pos hroom
  have hwritten : s.writeKeptReserve = s := by rw [State.writeKeptReserve, hkept]
  rw [State.event, hbatch]
  dsimp only
  rw [State.emit, hraised, if_neg (by simp [hreserved])]
  simp only [hwritten, hpartner, hsnaps, Bool.not_true, Bool.and_false, Bool.false_eq_true, if_false, if_true, forEach,
    List.foldl_nil]
  rw [if_neg (by simp [State.holdFull, hfrozen])]
  exact State.place_ring hfrozen hwrite hok hram

theorem partnerRecord_rings {rr : RelayRec} (hlink : s.linkSilent = false) (hrole : s.twin.role ≠ .solo) :
    Completes (.partnerRecord rr) s fun t => SameBut [.objs, .rails, .twin, .recd, .nvm] s t ∧
      (s.recd.batch = none → s.recd.reserveFail = false → s.recd.next + 1 < s.reserve → s.recd.keptReserve = none →
        s.recd.frozen = false → s.canWrite = true → s.recd.ringOk = true → s.recd.ram = [] → s.recd.ring.length < 16384 →
          t.recd.next = s.recd.next + 1 ∧ ∃ d, t.recd.ring = s.recd.ring ++
            [⟨s.recd.next, if rr.code = Code.logMediaFault then Code.nvmDegraded else rr.code, Ob.clsTwin, 1, rr.sub,
              RecFlag.partner, leBytes 1 rr.srcClass ++ leBytes 1 rr.srcInst ++ leBytes 6 rr.seq ++ d⟩]) := by
  have hexec : exec (.partnerRecord rr) s = .next (s.event
      ⟨if rr.code = Code.logMediaFault then Code.nvmDegraded else rr.code, Ob.clsTwin, 1, rr.sub,
        leBytes 1 rr.srcClass ++ leBytes 1 rr.srcInst ++ leBytes 6 rr.seq ++ padTo 8 rr.data, [], true⟩) := by
    show execPartnerRecord rr s = _
    rw [execPartnerRecord, if_neg (by simp [hrole, hlink])]
  refine ⟨_, hexec, State.event_same .., fun hbatch hreserved hroom hkept hfrozen hwrite hok hram hlength => ?_⟩
  rw [State.event_partner rfl rfl hbatch hreserved hroom hkept hfrozen hwrite hok hram]
  exact ⟨rfl, _, (State.ring_pushRing ..).trans (congrArg (· ++ _) (if_pos hlength))⟩

theorem actLineFault_logs (hrole : s.twin.role = .active) (hdrive : s.twin.driveActN = true) (hact : s.twin.actN = true) :
    Completes .actLineFault s fun t => Logs s t Code.actLineFault Ob.clsTwin 0 0 (leBytes 6 s.clk.frame) ∧
      SameBut [.objs, .rails, .twin, .recd, .nvm] s t :=
  completes_when (b := s.twin.role == .active && s.twin.driveActN && s.twin.actN) (by simp [hrole, hdrive, hact]) rfl
    ⟨logs_record s rfl rfl .., State.record_same ..⟩

/-! A lone device -/

theorem solo_idles (hrole : s.twin.role = .solo) (h : Heartbeat) (major minor digest : Nat) (seat : Bool) (rr : RelayRec) :
    Completes (.twinHeartbeat h) s (fun t => t = s) ∧ Completes (.twinLinkUp major minor digest seat) s (fun t => t = s) ∧
      Completes (.partnerRecord rr) s (fun t => t = s) :=
  ⟨⟨s, if_pos (by simp [hrole]), rfl⟩, ⟨s, if_pos (by simp [hrole]), rfl⟩, ⟨s, if_pos (by simp [hrole]), rfl⟩⟩

/-- Settles O53: one lemma per thing that the link brings, and per loss. -/
theorem twinLinkEvents : Obligations.TwinLinkEvents := fun _ hs hrun hlink =>
  ⟨solo_idles,
   fun hrole => ⟨fun _ => twinHeartbeat_errs hs.store hrun hlink hrole, fun _ => twinHeartbeat_tells hrun hlink hrole,
     fun _ _ _ _ => twinLinkUp_versions hrun hlink hrole, fun _ => partnerRecord_rings hlink hrole⟩,
   fun hfollows => ⟨fun _ => twinAlignmentRecord_waits hrun hlink hfollows,
     fun _ _ => twinReplicatedCommand_waits hlink hfollows, fun _ _ => twinReplicatedCommand_unarms hs.store hlink hfollows,
     twinFrameSyncLoss_unarms hs.store hfollows, twinLinkDown_unarms hs.store hfollows⟩,
   actLineFault_logs⟩

end Sys2Proof.Machine
end

section
/-! A domain's sequencer acts on its own domain only (11 R236 to R246). -/

namespace Sys2Proof.Machine

-- One proof at a time: proofs that wait for one another each hold a thread's stack.
set_option Elab.async false

variable {s t u x : State}

/-- From s to t no domain but this one changes. -/
structure OnDomain (d : DomainIx) (s t : State) : Prop where
  others : DomainsBut d s t

namespace OnDomain

variable {d : DomainIx}

theorem refl (s : State) : OnDomain d s s := ⟨fun _ _ => rfl⟩

theorem trans (h : OnDomain d s t) (h' : OnDomain d t u) : OnDomain d s u :=
  ⟨fun e he => (h'.others e he).trans (h.others e he)⟩

theorem of_same {ps : List Area} (h : SameBut ps s t) (hps : Area.domains ∉ ps := by decide) : OnDomain d s t :=
  ⟨fun e _ => congrArg (fun v : Vector DomainState 8 => v.get e) (h.same .domains hps)⟩

/-- An update of other areas only. -/
theorem still (h : t.domains = s.domains := by rfl) : OnDomain d s t :=
  ⟨fun e _ => congrArg (fun v : Vector DomainState 8 => v.get e) h⟩

theorem modDomain (s : State) (f : DomainState → DomainState) : OnDomain d s (s.modDomain d f) :=
  ⟨fun _ he => (State.domain_modDomain ..).trans (if_neg he)⟩

theorem setDom (s : State) (st : DomSt) : OnDomain d s (s.setDom d st) :=
  rel_ite (refl s) ((modDomain s fun x => { x with dstate := st }).trans still)

theorem schedUp (s : State) (r : RailIx) : OnDomain d s (s.schedUp d r) :=
  trans (t := s.modRail r fun x => { x with upDue := some (s.now + usFrames (s.railN r.val Ob.Rail.stepUs)) }) still
    (modDomain ..)

theorem enterUp (s : State) (fresh : Bool) : OnDomain d s (s.enterUp d fresh) := by
  unfold State.enterUp
  extract_lets counted up sched
  have hup : OnDomain d s up := (trans (t := counted) still (setDom ..)).trans (modDomain ..)
  have hsched : OnDomain d up sched := by
    unfold sched
    split
    · exact schedUp ..
    · exact refl up
  exact (hup.trans hsched).trans (of_same (State.settleDev_same _))

theorem tryStart (s : State) : OnDomain d s (s.tryStart d) := rel_ite (enterUp ..) (refl s)

theorem downEnd (s : State) : OnDomain d s (s.downEnd d) := by
  unfold State.downEnd
  extract_lets x idle latch counted latched retried waiting ended
  have hidle : OnDomain d s idle := modDomain ..
  have hlatch : OnDomain d idle latch := by
    unfold latch
    split
    · exact rel_ite still (refl _)
    · exact refl _
  have hlatched : OnDomain d idle latched := ((hlatch.trans (u := counted) still).trans (setDom ..)).trans (modDomain ..)
  have hwaiting : OnDomain d idle waiting := (trans (t := retried) still (setDom ..)).trans (modDomain ..)
  have hended : OnDomain d idle ended :=
    rel_ite (hlatched.trans (of_same (State.record_same ..))) <| rel_ite (hwaiting.trans (of_same (State.record_same ..))) <|
      rel_ite (enterUp ..) ((setDom ..).trans (of_same (State.record_same ..)))
  exact ((hidle.trans hended).trans (of_same (State.settleDev_same _))).trans (of_same (State.refreshFlt_same _))

theorem nextDown (s : State) : OnDomain d s (s.nextDown d) := by
  unfold State.nextDown
  split
  · exact downEnd s
  next r _ =>
    exact trans (t := s.modRail r fun x => { x with dnDue := some (s.now + usFrames (s.railN r.val Ob.Rail.dnStepUs)) }) still
      (modDomain ..)

theorem enterDown (s : State) : OnDomain d s (s.enterDown d) := by
  unfold State.enterDown
  extract_lets cancelled
  have hcancelled : OnDomain d s cancelled := rel_forEach refl trans (fun _ _ _ => still) s
  exact (hcancelled.trans (setDom ..)).trans (nextDown ..)

theorem setReq (s : State) (on : Bool) : OnDomain d s (s.setReq d on) := by
  unfold State.setReq
  extract_lets x set
  have hset : OnDomain d s set := modDomain ..
  refine rel_ite (refl s) (hset.trans (rel_ite (tryStart set) ?_))
  split
  · exact enterDown set
  · exact enterDown set
  · exact modDomain ..
  · exact (setDom ..).trans (of_same (State.settleDev_same _))
  · exact refl set

theorem pinRequest (s : State) : OnDomain d s (s.pinRequest d) := by
  unfold State.pinRequest
  refine rel_ite ?_ (refl s)
  split
  · exact setReq ..
  · exact setReq ..

end OnDomain

/-- A domain's state becomes the one set (11 R234). -/
theorem State.dstate_setDom (s : State) (d : DomainIx) (st : DomSt) : ((s.setDom d st).domain d).dstate = st := by
  unfold State.setDom
  split
  next h => exact beq_iff_eq.mp h
  · exact congrArg DomainState.dstate (State.domain_modDomain_self s d _)

end Sys2Proof.Machine
end

section
/-! The roles of the pair (12 R255, R256, R259 to R261). -/

namespace Sys2Proof.Machine

-- One proof at a time: proofs that wait for one another each hold a thread's stack.
set_option Elab.async false

variable {s t u x : State}

/-- A loop that changes each of its members once comes to a member that is as it was, and leaves what it makes of it. -/
theorem forEach_turn {α β : Type} (view : State → β) {R : State → State → Prop} (hrefl : ∀ s, R s s)
    (htrans : ∀ {a b c}, R a b → R b c → R a c) {f : State → α → State} {l : List α} {a : α} (hl : l.Nodup) (ha : a ∈ l)
    (hf : ∀ b s, R s (f s b)) (hview : ∀ b, b ≠ a → ∀ s, view (f s b) = view s) (s : State) :
    ∃ m, R s m ∧ view m = view s ∧ view (forEach l f s) = view (f m a) := by
  obtain ⟨before, after, rfl⟩ := List.append_of_mem ha
  obtain ⟨hbefore, hafter⟩ : a ∉ before ∧ a ∉ after := by
    simpa using (List.nodup_cons.mp (List.nodup_middle.mp hl)).1
  have hstands {k : List α} (hk : a ∉ k) (x : State) : view (forEach k f x) = view x :=
    rel_forEach (R := fun x y => view y = view x) (fun _ => rfl) (fun h h' => h'.trans h)
      (fun b hb y => hview b (fun heq => hk (heq ▸ hb)) y) x
  refine ⟨forEach before f s, rel_forEach hrefl htrans (fun b _ => hf b) s, hstands hbefore s, ?_⟩
  have hsplit : forEach (before ++ a :: after) f s = forEach after f (f (forEach before f s) a) := by
    simp [forEach]
  rw [hsplit, hstands hafter]

/-! A role that is told (R251) -/

/-- From s the role becomes this one at u, and t shows it. -/
def TellsRole (s u t : State) (role : TwinRole) : Prop := t.twin.role = role ∧ bit t.mb.istat Irq.twin.val = true ∧
  Logs s u Code.twinRole Ob.clsTwin 0 role.code (leBytes 1 s.twin.role.code)

/-- A new role, told on a state that differs from s in the twin alone. -/
structure RoleTold (s u : State) (twin : TwinState) (role : TwinRole) : Prop where
  same : SameBut [.objs, .rails, .twin, .recd, .mb, .nvm] s u
  writes : WritesOnly recKeys s u
  twin : TwinStands { s with twin := { twin with role := role } } u
  shows : bit u.mb.istat Irq.twin.val = true
  logs : Logs s u Code.twinRole Ob.clsTwin 0 role.code (leBytes 1 s.twin.role.code)

theorem roleTold_setRole (s : State) {f : TwinState → TwinState} (hf : (f s.twin).role = s.twin.role) (role : TwinRole) :
    RoleTold s ((s.modTwin f).setRole role) (f s.twin) role := by
  have htold := State.record_writes ((s.modTwin f).modTwin fun w => { w with role := role }) Code.twinRole Ob.clsTwin 0 role.code
    (leBytes 1 (f s.twin).role.code)
  refine ⟨same_step (same_mono (State.modTwin_same s f) (by decide)) (State.setRole_same ..) (by decide), ⟨htold.ok, htold.but⟩,
    TwinStands.setRole .., State.bit_istat_irq _ Irq.twin, ?_⟩
  rw [← hf]
  exact ⟨(s.modTwin f).modTwin fun w => { w with role := role }, rfl, rfl, rfl⟩

namespace RoleTold

variable {twin : TwinState} {role : TwinRole}

theorem field {α : Type} (h : RoleTold s u twin role) (f : TwinState → α)
    (hf : ∀ w : TwinState, f { w with outbox := [] } = f w := by intro _; rfl) : f u.twin = f { twin with role := role } :=
  h.twin.field f hf

/-- What follows may leave the role and the mailbox. -/
theorem tells (h : RoleTold s u twin role) (htwin : t.twin.role = u.twin.role := by rfl) (hmb : t.mb = u.mb := by rfl) :
    TellsRole s u t role := ⟨htwin.trans (h.field TwinState.role), hmb ▸ h.shows, h.logs⟩

end RoleTold

/-- A count of the twin stands through the events that come with it. -/
theorem counts_twin {item : Nat} (hitem : item < 256) (hs : StoreOk s.objs) (hbefore : WritesOnly recKeys s u)
    (hafter : WritesOnly recKeys (u.count Ob.clsTwin 0 item) t) : Counts s t Ob.clsTwin 0 item :=
  counts_of_writesOnly (hbefore.ok hs) (hbefore.obj_eq hs (recKeys_ne (by decide) (by decide) hitem)) hafter
    (recKeys_ne (by decide) (by decide) hitem)

/-! Driving (R256) -/

/-- The phase of a device that begins to drive: it waits for its next period (R256). -/
def State.rest (s : State) (n : PhaseIx) : State := (s.nextOnSchedule n).modGen n fun g =>
  { g with switching := false, rise := none, fall := none, te := 0, midDue := false }

theorem State.phase_rest_self (s : State) (n : PhaseIx) : ((s.rest n).phase n).gen.switching = false ∧
    ((s.rest n).phase n).gen.te = 0 := by
  unfold State.rest
  rw [State.phase_modGen_self]
  exact ⟨rfl, rfl⟩

theorem State.phase_rest_ne (s : State) {m n : PhaseIx} (h : m ≠ n) : (s.rest m).phase n = s.phase n := by
  simp [State.rest, State.nextOnSchedule, State.phase_modPhase, h.symm]

theorem State.drive_eq (s : State) :
    s.drive = forEach allPhases State.rest (s.modTwin fun w => { w with driving := true, driveAt := none }) := rfl

theorem State.drive_rests (s : State) (n : PhaseIx) : (s.drive.phase n).gen.switching = false ∧ (s.drive.phase n).gen.te = 0 := by
  rw [State.drive_eq]
  generalize s.modTwin _ = x
  obtain ⟨m, -, -, hm⟩ := forEach_turn (R := fun _ _ => True) (fun y => y.phase n) (fun _ => trivial) (fun _ _ => trivial)
    (f := State.rest) (l := allPhases) (List.nodup_finRange 48) (List.mem_finRange n) (fun _ _ => trivial)
    (fun _ hb y => y.phase_rest_ne hb) x
  rw [hm]
  exact m.phase_rest_self n

theorem State.twin_drive (s : State) : s.drive.twin = { s.twin with driving := true, driveAt := none } := by
  have hsame : SameBut [.phases] (s.modTwin fun w => { w with driving := true, driveAt := none }) s.drive :=
    same_forEach (same_refl ..) fun x n => same_step (State.nextOnSchedule_same x n) (State.modGen_same ..) (by decide)
  exact hsame.same .twin (by decide)

/-! Repeating (R255) -/

theorem nextTx_mem {q : List TxMsg} {m : TxMsg} (h : nextTx q = some m) : m ∈ q := by
  have hfold : ∀ (l : List TxMsg) (acc : Option TxMsg), l.foldl (fun acc m => match acc with
      | none => some m
      | some a => if m.rank < a.rank then some m else acc) acc = some m → acc = some m ∨ m ∈ l := fun l => by
    induction l with
    | nil => exact fun _ => .inl
    | cons a l ih =>
      intro acc hacc
      obtain hstep | hmem := ih _ hacc
      · cases acc with
        | none => exact .inr (List.mem_cons.mpr (.inl (Option.some.inj hstep).symm))
        | some b =>
          dsimp only at hstep
          split at hstep
          · exact .inr (List.mem_cons.mpr (.inl (Option.some.inj hstep).symm))
          · exact .inl hstep
      · exact .inr (List.mem_cons_of_mem _ hmem)
  exact (hfold q none h).resolve_left (by simp)

/-- A port whose oldest acknowledgement is marked as a duplicate. -/
def PortState.marked (x : PortState) : PortState :=
  match nextTx x.queue with
  | some m => { x with queue := x.queue.map fun y => if y == m then (match y with
      | .vackStart tag c _ f mv => .vackStart tag c true f mv
      | .vackDone tag c _ mv => .vackDone tag c true mv
      | z => z) else y }
  | none => x

theorem State.markDuplicate_eq (s : State) : s.markDuplicate = forEach allPorts (fun s p => s.modPort p PortState.marked) s := rfl

/-- The acknowledgement that a port would send next is repeated as a duplicate. -/
theorem State.markDuplicate_marks (s : State) (p : PortIx) {tag v : Nat} {c i : Bool}
    (hnext : nextTx (s.port p).queue = some (.vackStart tag c false i v)) :
    .vackStart tag c true i v ∈ (s.markDuplicate.port p).queue := by
  obtain ⟨m, -, hm, hturn⟩ := forEach_turn (R := fun _ _ => True) (fun y => y.port p) (fun _ => trivial) (fun _ _ => trivial)
    (f := fun s p => s.modPort p PortState.marked) (l := allPorts) (List.nodup_finRange 32) (List.mem_finRange p)
    (fun _ _ => trivial) (fun _ hb _ => (State.port_modPort ..).trans (if_neg hb.symm)) s
  rw [State.markDuplicate_eq, hturn, State.port_modPort_self, hm, PortState.marked, hnext]
  exact List.mem_map.mpr ⟨_, nextTx_mem hnext, if_pos (beq_self_eq_true _)⟩

/-! Takeover and split -/

/-- The twin's state of a standby that takes over. -/
def TwinState.takingOver (w : TwinState) : TwinState :=
  { w with driveActN := true, armed := false, partner := false, unarm := .notRequested, resyncing := false }

theorem exec_twinTakeover (hrole : s.twin.role = .standby) (hmiss : 4 ≤ s.twin.hbMiss) (harmed : s.twin.armed = true)
    (hact : s.twin.actN = true) : ∃ u, u = (s.modTwin TwinState.takingOver).setRole .active ∧ exec .twinTakeover s =
      .next (((u.count Ob.clsTwin 0 Ob.Twin.takeovers).record Code.twinTakeover Ob.clsTwin 0 0
        (leBytes 6 u.clk.frame)).markDuplicate.drive) := by
  refine ⟨_, rfl, ?_⟩
  show execTwinTakeover s = _
  rw [execTwinTakeover]
  exact if_pos (by simp [hrole, hmiss, harmed, hact])

theorem twinTakeover_takes (hs : StoreOk s.objs) (hrole : s.twin.role = .standby) (hmiss : 4 ≤ s.twin.hbMiss)
    (harmed : s.twin.armed = true) (hact : s.twin.actN = true) : Completes .twinTakeover s fun t =>
      ∃ u, TellsRole s u t .active ∧ Logs u t Code.twinTakeover Ob.clsTwin 0 0 (leBytes 6 s.clk.frame) ∧ t.twin.driving = true ∧
        t.twin.driveActN = true ∧ t.twin.armed = false ∧ Counts s t Ob.clsTwin 0 Ob.Twin.takeovers ∧
        (∀ n, (t.phase n).gen.switching = false ∧ (t.phase n).gen.te = 0) ∧
        (∀ p tag c i v, nextTx (s.port p).queue = some (.vackStart tag c false i v) →
          .vackStart tag c true i v ∈ (t.port p).queue) ∧
        SameBut [.objs, .phases, .rails, .ports, .twin, .recd, .mb, .nvm] s t := by
  obtain ⟨u, hu, hexec⟩ := exec_twinTakeover hrole hmiss harmed hact
  have htold : RoleTold s u s.twin.takingOver .active := hu ▸ roleTold_setRole s rfl .active
  clear hu
  have hframe : u.clk.frame = s.clk.frame := congrArg ClkState.frame (htold.same.same .clk (by decide))
  rw [hframe] at hexec
  refine ⟨_, hexec, u, ?_⟩
  have hrecorded := State.record_same (u.count Ob.clsTwin 0 Ob.Twin.takeovers) Code.twinTakeover Ob.clsTwin 0 0
    (leBytes 6 s.clk.frame)
  have hwrites := State.record_writes (u.count Ob.clsTwin 0 Ob.Twin.takeovers) Code.twinTakeover Ob.clsTwin 0 0
    (leBytes 6 s.clk.frame)
  have hlogs := logs_record (s := u) (u.count Ob.clsTwin 0 Ob.Twin.takeovers) rfl rfl Code.twinTakeover Ob.clsTwin 0 0
    (leBytes 6 s.clk.frame)
  have htwin : TwinStands u ((u.count Ob.clsTwin 0 Ob.Twin.takeovers).record Code.twinTakeover Ob.clsTwin 0 0
    (leBytes 6 s.clk.frame)) := .record rfl ..
  generalize (u.count Ob.clsTwin 0 Ob.Twin.takeovers).record Code.twinTakeover Ob.clsTwin 0 0 (leBytes 6 s.clk.frame) = z at *
  have hdriven : SameBut [.phases, .ports, .twin] z z.markDuplicate.drive :=
    same_step (same_mono (State.markDuplicate_same z) (by decide)) (State.drive_same _) (by decide)
  have hmarked : z.markDuplicate.drive.twin = { z.twin with driving := true, driveAt := none } := by
    rw [State.twin_drive, twin_same (State.markDuplicate_same z)]
  have hz' : SameBut [.objs, .rails, .twin, .recd, .nvm] u z :=
    same_step (same_mono (State.count_same u ..) (by decide)) hrecorded (by decide)
  have hsame : SameBut [.objs, .phases, .rails, .ports, .twin, .recd, .mb, .nvm] s z.markDuplicate.drive :=
    same_step (same_step (same_mono htold.same (by decide)) hz' (by decide)) hdriven (by decide)
  refine ⟨htold.tells ?_ ?_, ?_, ?_, ?_, ?_, ?_, State.drive_rests _, fun p tag c i v hnext => ?_, hsame⟩
  · rw [hmarked]
    exact htwin.field TwinState.role
  · exact (hdriven.same .mb (by decide)).trans (hz'.same .mb (by decide))
  · obtain ⟨v, hv, hv', hrec⟩ := hlogs
    exact ⟨v, hv, hv', (hdriven.same .recd (by decide)).trans hrec⟩
  · rw [hmarked]
  · rw [hmarked]
    exact (htwin.field TwinState.driveActN).trans (htold.field TwinState.driveActN)
  · rw [hmarked]
    exact (htwin.field TwinState.armed).trans (htold.field TwinState.armed)
  · exact counts_twin (by decide) hs htold.writes (hwrites.trans (.of_objs (hdriven.same .objs (by decide))))
  · have hports : z.port p = s.port p :=
      congrArg (Vector.get · p) ((hz'.same .ports (by decide)).trans (htold.same.same .ports (by decide)))
    have hkept : z.markDuplicate.drive.port p = z.markDuplicate.port p :=
      congrArg (Vector.get · p) ((State.drive_same z.markDuplicate).same .ports (by decide))
    rw [hkept]
    exact State.markDuplicate_marks z p (hports ▸ hnext)

end Sys2Proof.Machine
end

section
/-! Split, join, claim, loss, resynchronisation and handover (12 R255, R256, R259 to R261). -/

namespace Sys2Proof.Machine

-- One proof at a time: proofs that wait for one another each hold a thread's stack.
set_option Elab.async false

variable {s t u x : State}

/-! Split -/

theorem exec_twinSplit (hrole : s.twin.role = .standby) (hmiss : 4 ≤ s.twin.hbMiss) (hact : s.twin.actN = false)
    (hsplit : s.twin.split = false) : ∃ u, u = (s.modTwin fun w => { w with split := true }).unarmFor .split ∧
      exec .twinSplit s = .next (((u.count Ob.clsTwin 0 Ob.Twin.splits).record Code.twinSplit Ob.clsTwin 0 0
        (leBytes 6 u.clk.frame)).irq Irq.twin) := by
  refine ⟨_, rfl, ?_⟩
  show execTwinSplit s = _
  rw [execTwinSplit]
  exact if_pos (by simp [hrole, hmiss, hact, hsplit])

theorem State.unarmFor_writes (s : State) (why : Unarm) :
    WritesOnly ((Ob.clsTwin, 0, Ob.Twin.unarms) :: recKeys) s (s.unarmFor why) := by
  unfold State.unarmFor
  extract_lets was freed told
  have htold : WritesOnly ((Ob.clsTwin, 0, Ob.Twin.unarms) :: recKeys) s told := by
    refine rel_ite ?_ (.of_objs rfl)
    have hcounted : WritesOnly ((Ob.clsTwin, 0, Ob.Twin.unarms) :: recKeys) freed (freed.count Ob.clsTwin 0 Ob.Twin.unarms) :=
      .setObj (List.mem_cons_self ..) ..
    have hrecorded := (State.record_writes (freed.count Ob.clsTwin 0 Ob.Twin.unarms) Code.twinUnarmed Ob.clsTwin 0 why.code
      []).mono (os := (Ob.clsTwin, 0, Ob.Twin.unarms) :: recKeys) fun _ => List.mem_cons_of_mem _
    have hboth := hcounted.trans hrecorded
    exact ⟨hboth.ok, hboth.but⟩
  exact htold.trans (.of_objs (State.endArm_abortHandover told).1)

theorem State.unarmFor_idle (s : State) (why : Unarm) (h : s.twin.armed = false) : SameBut [.twin, .mb] s (s.unarmFor why) := by
  unfold State.unarmFor
  extract_lets was freed told
  have hfreed : SameBut [.twin] s freed := State.modTwin_same ..
  have htold : told = freed := if_neg (by simp [was, h])
  rw [htold]
  exact same_step (same_step (same_mono hfreed (by decide)) (State.endArm_same _) (by decide)) (State.abortHandover_same _)
    (by decide)

/-- What a standby does that finds the partner's ACT line driven: it is not armed, and then it is split. -/
theorem twinSplit_splits (hs : StoreOk s.objs) (hrole : s.twin.role = .standby) (hmiss : 4 ≤ s.twin.hbMiss)
    (hact : s.twin.actN = false) (hsplit : s.twin.split = false) : Completes .twinSplit s fun t => ∃ u : State,
      Unarmed s u .split ∧ (s.twin.armed = false → u.nvm = s.nvm) ∧
        Logs u t Code.twinSplit Ob.clsTwin 0 0 (leBytes 6 s.clk.frame) ∧ t.twin.role = .standby ∧ t.twin.split = true ∧
        t.twin.armed = false ∧ t.twin.unarm = .split ∧ t.twin.driving = s.twin.driving ∧ Counts s t Ob.clsTwin 0 Ob.Twin.splits ∧
        (s.twin.armed = true → Counts s t Ob.clsTwin 0 Ob.Twin.unarms) ∧
        SameBut [.objs, .rails, .twin, .recd, .mb, .nvm] s t := by
  obtain ⟨u, hu, hexec⟩ := exec_twinSplit hrole hmiss hact hsplit
  obtain ⟨hunarmed, hidle, hkept, hwrites, hsame⟩ : Unarmed s u .split ∧ (s.twin.armed = false → u.nvm = s.nvm) ∧
      TwinStands (s.modTwin fun w => TwinState.unarmed { w with split := true } .split) u ∧
      WritesOnly ((Ob.clsTwin, 0, Ob.Twin.unarms) :: recKeys) s u ∧ SameBut [.objs, .rails, .twin, .recd, .mb, .nvm] s u := by
    subst hu
    have hwrites := State.unarmFor_writes (s.modTwin fun w => { w with split := true }) .split
    exact ⟨unarmed_unarmFor (x := s.modTwin _) hs rfl rfl rfl rfl .split,
      fun h => (State.unarmFor_idle (s.modTwin fun w => { w with split := true }) .split h).same .nvm (by decide),
      .unarmFor .., ⟨hwrites.ok, hwrites.but⟩,
      same_step (same_mono (State.modTwin_same s _) (by decide)) (State.unarmFor_same ..) (by decide)⟩
  clear hu
  have hframe : u.clk.frame = s.clk.frame := congrArg ClkState.frame (hsame.same .clk (by decide))
  rw [hframe] at hexec
  have hlogs := logs_record (s := u) (u.count Ob.clsTwin 0 Ob.Twin.splits) rfl rfl Code.twinSplit Ob.clsTwin 0 0
    (leBytes 6 s.clk.frame)
  have htwin : TwinStands u ((u.count Ob.clsTwin 0 Ob.Twin.splits).record Code.twinSplit Ob.clsTwin 0 0
    (leBytes 6 s.clk.frame)) := .record rfl ..
  have hrecorded := State.record_same (u.count Ob.clsTwin 0 Ob.Twin.splits) Code.twinSplit Ob.clsTwin 0 0
    (leBytes 6 s.clk.frame)
  have hlater := State.record_writes (u.count Ob.clsTwin 0 Ob.Twin.splits) Code.twinSplit Ob.clsTwin 0 0
    (leBytes 6 s.clk.frame)
  have hcounted : WritesOnly [(Ob.clsTwin, 0, Ob.Twin.splits)] u (u.count Ob.clsTwin 0 Ob.Twin.splits) :=
    .setObj (List.mem_singleton.mpr rfl) ..
  have hkeys : ∀ o ∈ (Ob.clsTwin, 0, Ob.Twin.unarms) :: recKeys,
      objKey Ob.clsTwin 0 Ob.Twin.splits ≠ objKey o.1 o.2.1 o.2.2 := by decide
  have hsplits : Counts s ((u.count Ob.clsTwin 0 Ob.Twin.splits).record Code.twinSplit Ob.clsTwin 0 0
      (leBytes 6 s.clk.frame)) Ob.clsTwin 0 Ob.Twin.splits :=
    counts_of_writesOnly (hwrites.ok hs) (hwrites.obj_eq hs hkeys) hlater (recKeys_ne (by decide) (by decide) (by decide))
  generalize hz : (u.count Ob.clsTwin 0 Ob.Twin.splits).record Code.twinSplit Ob.clsTwin 0 0 (leBytes 6 s.clk.frame) = z at *
  have hcuts : SameBut [.objs, .rails, .twin, .recd, .mb, .nvm] u (z.irq Irq.twin) :=
    same_step (same_step (same_mono (State.count_same u ..) (by decide)) hrecorded (by decide)) (State.irq_same ..) (by decide)
  refine ⟨_, hexec, u, hunarmed, hidle, hlogs, (htwin.field TwinState.role).trans ((hkept.field TwinState.role).trans hrole),
    (htwin.field TwinState.split).trans (hkept.field TwinState.split),
    (htwin.field TwinState.armed).trans (hkept.field TwinState.armed),
    (htwin.field TwinState.unarm).trans (hkept.field TwinState.unarm),
    (htwin.field TwinState.driving).trans (hkept.field TwinState.driving), hsplits, fun harmed => ?_,
    same_step hsame hcuts (by decide)⟩
  have hunarms := (hunarmed.2.2.1 harmed).1
  have hstands : z.obj Ob.clsTwin 0 Ob.Twin.unarms = u.obj Ob.clsTwin 0 Ob.Twin.unarms := by
    rw [hlater.obj_eq (hcounted.ok (hwrites.ok hs)) (by decide), hcounted.obj_eq (hwrites.ok hs) (by decide)]
  exact Eq.trans hstands hunarms

/-! A listener -/

theorem listenJoin_joins (hrole : s.twin.role = .listen) (hlow : 20 ≤ s.twin.actLowRun) : Completes .listenJoin s fun t =>
    TellsRole s t t .standby ∧ t.twin.armed = false ∧ t.twin.driving = s.twin.driving ∧
      SameBut [.objs, .rails, .twin, .recd, .mb, .nvm] s t := by
  have htold := roleTold_setRole s (f := fun w => { w with armed := false, unarm := .notRequested, fsLock := false, fsRun := 0 })
    rfl .standby
  exact completes_when (b := s.twin.role == .listen && decide (20 ≤ s.twin.actLowRun)) (by simp [hrole, hlow]) rfl
    ⟨htold.tells, htold.field TwinState.armed, htold.field TwinState.driving, htold.same⟩

/-- A domain that is not OFF with its request standing is left by every start (11 R237). -/
theorem State.domain_tryStart (s : State) (d e : DomainIx) (h : ¬((s.domain d).dstate = .off ∧ (s.domain d).req = true)) :
    (s.tryStart e).domain d = s.domain d := by
  by_cases he : d = e
  · subst he
    unfold State.tryStart
    rw [if_neg fun hstart => h (by simp_all)]
  · exact (OnDomain.tryStart s).others d he

theorem State.domain_startStanding (s : State) (d : DomainIx) (h : ¬((s.domain d).dstate = .off ∧ (s.domain d).req = true)) :
    s.startStanding.domain d = s.domain d :=
  rel_forEach (R := fun a b => ¬((a.domain d).dstate = .off ∧ (a.domain d).req = true) → b.domain d = a.domain d)
    (fun _ _ => rfl) (fun hab hbc ha => (hbc (hab ha ▸ ha)).trans (hab ha)) (fun e _ y => y.domain_tryStart d e) s h

/-- A cold start leaves latched domains, and takes every other one down (R259, log entry 27). -/
def State.coldDomain (s : State) (d : DomainIx) : State :=
  if (s.domain d).dstate == .latched then s
  else (s.setDom d .off).modDomain d fun x => { x with retryFlag := false, latchFlag := false, stepRail := 255 }

theorem State.onDomain_cold (s : State) (d : DomainIx) : OnDomain d s (s.coldDomain d) :=
  rel_ite (.refl s) ((OnDomain.setDom ..).trans (.modDomain ..))

theorem State.coldStart_domains (s : State) : ∃ x : State, x.domains = s.domains ∧
    s.coldStart = (forEach allDomains State.coldDomain x).settleDev.startStanding := by
  refine ⟨_, ?_, rfl⟩
  have hsame : SameBut [.objs, .phases, .rails, .tune, .mb] s _ := same_forEach (l := allRails)
    (f := fun s r => if s.regulating r then (s.disablePhases r).leaveRegulation r false
      else s.modRail r fun x => { x with upDue := none }) (same_refl ..) fun y r => same_ite
        (same_step (same_mono (State.disablePhases_same ..) (by decide)) (State.leaveRegulation_same ..) (by decide))
        (same_mono (State.modRail_same ..) (by decide))
  exact hsame.same .domains (by decide)

theorem State.coldStart_domain (s : State) (d : DomainIx) :
    ((s.domain d).dstate = .latched → (s.coldStart.domain d).dstate = .latched) ∧
      ((s.domain d).dstate ≠ .latched → (s.domain d).req = false → (s.coldStart.domain d).dstate = .off) := by
  obtain ⟨x, hdomains, hcold⟩ := s.coldStart_domains
  obtain ⟨m, -, hm, hturn⟩ := forEach_turn (R := fun _ _ => True) (fun y => y.domain d) (fun _ => trivial) (fun _ _ => trivial)
    (f := State.coldDomain) (l := allDomains) (List.nodup_finRange 8) (List.mem_finRange d) (fun _ _ => trivial)
    (fun b hb y => (y.onDomain_cold b).others d hb.symm) x
  have hkept : m.domain d = s.domain d := hm.trans (congrArg (Vector.get · d) hdomains)
  generalize forEach allDomains State.coldDomain x = y at *
  have hsettled : y.settleDev.domain d = y.domain d :=
    congrArg (Vector.get · d) ((State.settleDev_same y).same .domains (by decide))
  rw [hcold]
  constructor
  · intro hlatched
    have hstays : y.domain d = s.domain d := by
      rw [hturn, State.coldDomain, if_pos (by rw [hkept, hlatched]; rfl), hkept]
    rw [State.domain_startStanding _ d (by simp [hsettled, hstays, hlatched]), hsettled, hstays, hlatched]
  · intro hfree hreq
    have hdown : (y.domain d).dstate = .off ∧ (y.domain d).req = false := by
      rw [hturn, State.coldDomain, if_neg (by rw [hkept]; simpa using hfree), State.domain_modDomain_self]
      refine ⟨m.dstate_setDom d .off, ?_⟩
      have hstands : ReqStands d m (m.setDom d .off) := .setDom ..
      exact Eq.trans hstands (hkept ▸ hreq)
    rw [State.domain_startStanding _ d (by simp [hsettled, hdown]), hsettled]
    exact hdown.1

theorem listenClaim_claims (hrole : s.twin.role = .listen) (hhigh : (if s.twin.seatB then 4000 else 2000) ≤ s.twin.actHighRun)
    (hseat : s.twin.linkUp = false ∨ s.twin.sameSeat = false) : Completes .listenClaim s fun t => TellsRole s t t .active ∧
      t.twin.driving = true ∧ t.twin.driveActN = true ∧ (∀ d, (s.domain d).dstate = .latched → (t.domain d).dstate = .latched) ∧
      (∀ d, (s.domain d).dstate ≠ .latched → (s.domain d).req = false → (t.domain d).dstate = .off) ∧
      SameBut [.objs, .phases, .rails, .domains, .tune, .twin, .recd, .mb, .nvm, .dev] s t := by
  have hcold := State.coldStart_same s
  have hdomains := State.coldStart_domain s
  have hexec : exec .listenClaim s =
      .next ((s.coldStart.modTwin fun w => { w with driveActN := true }).setRole .active).drive := by
    have hidle : exec .listenClaim s = .next (if s.twin.role == .listen &&
        decide ((if s.twin.seatB then 4000 else 2000) ≤ s.twin.actHighRun) && !(s.twin.linkUp && s.twin.sameSeat) then
      ((s.coldStart.modTwin fun w => { w with driveActN := true }).setRole .active).drive else s) := rfl
    have hready : (s.twin.linkUp && s.twin.sameSeat) = false := by
      obtain h | h := hseat
      · rw [h, Bool.false_and]
      · rw [h, Bool.and_false]
    rw [hidle, if_pos (by simp [hrole, hhigh, hready])]
  generalize s.coldStart = x at *
  have htold := roleTold_setRole x (f := fun w => { w with driveActN := true }) rfl .active
  generalize (x.modTwin fun w => { w with driveActN := true }).setRole .active = u at *
  have hdriven := State.drive_same u
  have htwin : x.twin = s.twin := twin_same hcold
  have hmb : u.drive.mb = u.mb := hdriven.same .mb (by decide)
  obtain ⟨v, hv, hv', hrec⟩ := htold.logs
  have hrolled : u.drive.twin.role = .active := by
    rw [State.twin_drive]
    exact htold.field TwinState.role
  have hacts : u.drive.twin.driveActN = true := by
    rw [State.twin_drive]
    exact htold.field TwinState.driveActN
  have hdom : ∀ d, u.drive.domain d = x.domain d := fun d =>
    congrArg (Vector.get · d) ((hdriven.same .domains (by decide)).trans (htold.same.same .domains (by decide)))
  have hshows : bit u.drive.mb.istat Irq.twin.val = true := by
    rw [hmb]
    exact htold.shows
  have hlogs : Logs s u.drive Code.twinRole Ob.clsTwin 0 TwinRole.active.code (leBytes 1 s.twin.role.code) := by
    rw [← htwin]
    exact ⟨v, hv.trans (hcold.same .recd (by decide)), hv'.trans (hcold.same .nvm (by decide)),
      (hdriven.same .recd (by decide)).trans hrec⟩
  refine ⟨_, hexec, ⟨hrolled, hshows, hlogs⟩, by rw [State.twin_drive], hacts, fun d h => ?_, fun d h h' => ?_, ?_⟩
  · rw [hdom]
    exact (hdomains d).1 h
  · rw [hdom]
    exact (hdomains d).2 h h'
  · exact same_step (same_step (same_mono hcold (by decide)) htold.same (by decide)) hdriven (by decide)

/-! A lost partner -/

theorem twinPartnerLost_listens (hfollows : s.follows = true) (harmed : s.twin.armed = false) (hact : s.twin.actN = true)
    (hrun : 20000 ≤ s.twin.noHbRun) : Completes .twinPartnerLost s fun t => t.twin.role = .listen ∧ t.twin.partner = false ∧
      t.twin.actHighRun = 0 ∧ ∃ u, Logs s u Code.twinPartnerLost Ob.clsTwin 0 0 (leBytes 6 s.clk.frame) ∧
        Logs u t Code.twinRole Ob.clsTwin 0 TwinRole.listen.code (leBytes 1 s.twin.role.code) := by
  have hlogs := logs_record s rfl rfl Code.twinPartnerLost Ob.clsTwin 0 0 (leBytes 6 s.clk.frame)
  have htwin : TwinStands s (s.record Code.twinPartnerLost Ob.clsTwin 0 0 (leBytes 6 s.clk.frame)) := .record (.refl s) ..
  have hexec : exec .twinPartnerLost s = .next
      (((s.record Code.twinPartnerLost Ob.clsTwin 0 0 (leBytes 6 s.clk.frame)).modTwin fun w =>
        { w with partner := false, split := false, actHighRun := 0, actLowRun := 0 }).setRole .listen) := by
    show execTwinPartnerLost s = _
    rw [execTwinPartnerLost]
    exact if_pos (by simp [hfollows, harmed, hact, hrun])
  generalize s.record Code.twinPartnerLost Ob.clsTwin 0 0 (leBytes 6 s.clk.frame) = u at *
  have htold := roleTold_setRole u (f := fun w => { w with partner := false, split := false, actHighRun := 0, actLowRun := 0 })
    rfl .listen
  have hrole : u.twin.role = s.twin.role := htwin.field TwinState.role
  exact ⟨_, hexec, htold.field TwinState.role, htold.field TwinState.partner, htold.field TwinState.actHighRun, u, hlogs,
    hrole ▸ htold.logs⟩

theorem twinPartnerLost_unarms (hrole : s.twin.role = .active) (hpartner : s.twin.partner = true) (hmiss : 4 ≤ s.twin.hbMiss) :
    Completes .twinPartnerLost s fun t => t.twin.role = .active ∧ t.twin.partner = false ∧ t.twin.armed = false ∧
      t.twin.pendingHo = none ∧ t.twin.driving = s.twin.driving ∧
      Logs s t Code.twinPartnerLost Ob.clsTwin 0 0 (leBytes 6 s.clk.frame) := by
  obtain ⟨v, hv, hv', hrec⟩ := logs_record s rfl rfl Code.twinPartnerLost Ob.clsTwin 0 0 (leBytes 6 s.clk.frame)
  have htwin : TwinStands s (s.record Code.twinPartnerLost Ob.clsTwin 0 0 (leBytes 6 s.clk.frame)) := .record (.refl s) ..
  have hexec : ∃ u, u = s.record Code.twinPartnerLost Ob.clsTwin 0 0 (leBytes 6 s.clk.frame) ∧ exec .twinPartnerLost s = .next
      (((u.modTwin fun w => { w with partner := false, armed := false }).irqIf u.twin.armed Irq.twin).abortHandover) := by
    refine ⟨_, rfl, ?_⟩
    show execTwinPartnerLost s = _
    rw [execTwinPartnerLost]
    exact (if_neg (by simp [State.follows, hrole])).trans (if_pos (by simp [hrole, hpartner, hmiss]))
  obtain ⟨u, hu, hexec⟩ := hexec
  rw [← hu] at hrec htwin
  clear hu
  have htold := State.irqIf_same (u.modTwin fun w => { w with partner := false, armed := false }) u.twin.armed Irq.twin
  have hfreed := TwinStands.abortHandover ((u.modTwin fun w => { w with partner := false, armed := false }).irqIf u.twin.armed
    Irq.twin)
  have hsame : SameBut [.twin, .mb] u _ :=
    same_step (same_step (same_mono (State.modTwin_same u _) (by decide)) htold (by decide)) (State.abortHandover_same _)
      (by decide)
  have hkept := twin_same htold
  refine ⟨_, hexec, ?_, ?_, ?_, ?_, ?_, v, hv, hv', (hsame.same .recd (by decide)).trans hrec⟩
  · exact (hfreed.field TwinState.role).trans ((congrArg TwinState.role hkept).trans ((htwin.field TwinState.role).trans hrole))
  · exact (hfreed.field TwinState.partner).trans (congrArg TwinState.partner hkept)
  · exact (hfreed.field TwinState.armed).trans (congrArg TwinState.armed hkept)
  · exact hfreed.field TwinState.pendingHo
  · exact (hfreed.field TwinState.driving).trans ((congrArg TwinState.driving hkept).trans (htwin.field TwinState.driving))

/-! Handover -/

theorem handoverEdge_leaves {k : SlotIx} {e : Nat} (hs : StoreOk s.objs) (hrole : s.twin.role = .active)
    (hpending : s.twin.pendingHo = some (k, e)) (hdue : e ≤ s.clk.frame) : Completes .handoverEdge s fun t =>
      TellsRole s t t .standby ∧ t.twin.driving = false ∧ t.twin.driveActN = false ∧ t.twin.armed = true ∧
        Counts s t Ob.clsTwin 0 Ob.Twin.handovers := by
  have htold := roleTold_setRole s (f := fun w => { w with driving := false, driveActN := false, armed := true, unarm := .none })
    rfl .standby
  have hexec : exec .handoverEdge s = execHandoverEdge s := rfl
  rw [execHandoverEdge, hrole, hpending] at hexec
  refine ⟨_, hexec.trans (if_neg (Nat.not_lt.mpr hdue)), ?_⟩
  generalize State.setRole _ _ = u at *
  exact ⟨⟨htold.field TwinState.role, htold.shows, htold.logs⟩, htold.field TwinState.driving, htold.field TwinState.driveActN,
    htold.field TwinState.armed, counts_twin (by decide) hs htold.writes (.of_objs rfl)⟩

theorem handoverEdge_takes {e : Nat} (hs : StoreOk s.objs) (hrole : s.twin.role = .standby) (hpartner : s.twin.partnerHo = some e)
    (hdue : e ≤ s.clk.frame) (harmed : s.twin.armed = true) : Completes .handoverEdge s fun t => TellsRole s t t .active ∧
      t.twin.driveActN = true ∧ t.twin.hoEdge = e ∧ t.twin.partnerHo = none ∧ t.twin.driveAt = some (s.now + 1) ∧
      Counts s t Ob.clsTwin 0 Ob.Twin.handovers := by
  have htold := roleTold_setRole s (f := fun w => { w with
    driveActN := true, hoEdge := e, partnerHo := none, driveAt := some (s.now + 1) }) rfl .active
  have hexec : exec .handoverEdge s = execHandoverEdge s := rfl
  rw [execHandoverEdge, hrole, hpartner] at hexec
  refine ⟨_, hexec.trans (if_neg (by simp [harmed, hdue])), ?_⟩
  generalize State.setRole _ _ = u at *
  exact ⟨⟨htold.field TwinState.role, htold.shows, htold.logs⟩, htold.field TwinState.driveActN, htold.field TwinState.hoEdge,
    htold.field TwinState.partnerHo, htold.field TwinState.driveAt, counts_twin (by decide) hs htold.writes (.of_objs rfl)⟩

end Sys2Proof.Machine
end

section
/-! A resynchronised standby (12 R259, R260, R263). -/

namespace Sys2Proof.Machine

-- One proof at a time: proofs that wait for one another each hold a thread's stack.
set_option Elab.async false

variable {s t u x : State}

/-! What an alignment record brings (R263) -/

/-- A rail of the record, or the rail as it is. -/
def State.adoptListed (ar : AlignRec) (s : State) (r : RailIx) : State :=
  match ar.rails[r.val]? with
  | some a => s.adoptRail r a
  | none => s

/-- What an alignment record tells of a rail (12 R263). -/
def Adopted (a : RailAlign) (y : RailState) : Prop :=
  y.law.sV = duty32 a.sV ∧ y.prof.reqMv = a.reqMv ∧ y.fuse.retry = a.fuseRetry

theorem State.rail_adoptRail_self (s : State) (r : RailIx) (a : RailAlign) : Adopted a ((s.adoptRail r a).rail r) := by
  unfold State.adoptRail
  rw [State.rail_modRail_self]
  exact ⟨rfl, rfl, rfl⟩

theorem State.rail_adoptListed_ne (s : State) (ar : AlignRec) {q r : RailIx} (h : q ≠ r) :
    (s.adoptListed ar q).rail r = s.rail r := by
  unfold State.adoptListed
  split
  · exact State.railsBut_modRail s q _ r h.symm
  · rfl

theorem State.adopt_rails (s : State) (ar : AlignRec) : (s.adopt ar).rails = (forEach allRails (State.adoptListed ar) s).rails ∧
    (s.adopt ar).feeds.episode = ar.episode := by
  unfold State.adopt
  extract_lets railed phased src selected
  have hphased : SameBut [.phases] railed phased := same_forEach (same_refl ..) fun y n => by
    split
    · exact State.adoptPhase_same ..
    · exact same_refl ..
  have hdomains : SameBut [.domains] selected (forEach allDomains (fun s d => match ar.domains[d.val]? with
      | some c => s.modDomain d fun x => { x with dstate := DomSt.ofCode c }
      | none => s) selected) := same_forEach (same_refl ..) fun y d => by
    split
    · exact State.modDomain_same ..
    · exact same_refl ..
  have hselected : selected.rails = railed.rails := hphased.same .rails (by decide)
  exact ⟨(hdomains.same .rails (by decide)).trans hselected,
    congrArg FeedState.episode (hdomains.same .feeds (by decide) : _ = selected.feeds)⟩

theorem State.rail_adopt (s : State) {ar : AlignRec} {r : RailIx} {a : RailAlign} (ha : ar.rails[r.val]? = some a) :
    Adopted a ((s.adopt ar).rail r) := by
  obtain ⟨m, -, -, hm⟩ := forEach_turn (R := fun _ _ => True) (fun y => y.rail r) (fun _ => trivial) (fun _ _ => trivial)
    (f := State.adoptListed ar) (l := allRails) (List.nodup_finRange 16) (List.mem_finRange r) (fun _ _ => trivial)
    (fun _ hb y => y.rail_adoptListed_ne ar hb) s
  have hrail : (s.adopt ar).rail r = (forEach allRails (State.adoptListed ar) s).rail r :=
    congrArg (Vector.get · r) (s.adopt_rails ar).1
  have hlisted : m.adoptListed ar r = m.adoptRail r a := by rw [State.adoptListed, ha]
  rw [hrail, hm, hlisted]
  exact m.rail_adoptRail_self r a

/-! Arming (R256) -/

/-- The digest is that of objects of phases, rails and the clock, which no event writes. -/
theorem State.cfgDigest_congr (h : ∀ c i k, c ≠ Ob.clsRec → i < 256 → k < 256 → t.obj c i k = s.obj c i k) :
    t.cfgDigest = s.cfgDigest := by
  have hphase : ∀ n ∈ List.range 48, (t.obj Ob.clsPhase n Ob.Phase.rail).toNat = (s.obj Ob.clsPhase n Ob.Phase.rail).toNat :=
    fun n hn => by rw [h _ n _ (by decide) ((List.mem_range.mp hn).trans (by decide)) (by decide)]
  have hrail : ∀ r ∈ List.range 16, ∀ k, k < 256 → t.obj Ob.clsRail r k = s.obj Ob.clsRail r k :=
    fun r hr k hk => h _ r k (by decide) ((List.mem_range.mp hr).trans (by decide)) hk
  have hssc : ∀ r, t.objs.sscOn r = s.objs.sscOn r := fun r => by
    have hctrl : t.objs.val Ob.clsClk 0 Ob.Clk.sscCtrl = s.objs.val Ob.clsClk 0 Ob.Clk.sscCtrl :=
      h _ _ _ (by decide) (by decide) (by decide)
    have hmask : t.objs.val Ob.clsClk 0 Ob.Clk.sscRails = s.objs.val Ob.clsClk 0 Ob.Clk.sscRails :=
      h _ _ _ (by decide) (by decide) (by decide)
    rw [Store.sscOn, Store.sscOn, hctrl, hmask]
  have hen : ∀ r ∈ List.range 16, t.railEn r = s.railEn r := fun r hr =>
    congrArg (bit · 0) (hrail r hr Ob.Rail.cfg (by decide))
  unfold State.cfgDigest
  rw [List.map_congr_left hphase, List.flatMap_congr]
  intro r hr
  simp only [State.railN, hrail r hr Ob.Rail.domain (by decide), hrail r hr Ob.Rail.engine (by decide),
    hrail r hr Ob.Rail.tuneCtrl (by decide), hrail r hr Ob.Rail.plcCtrl (by decide), hrail r hr Ob.Rail.ffCtrl (by decide),
    hen r hr, hssc]

/-- The reason against arming stands while the twin and the digest stand. -/
theorem State.armReason_congr (htwin : TwinStands s t) (hdigest : t.cfgDigest = s.cfgDigest) : t.armReason = s.armReason := by
  unfold State.armReason
  rw [hdigest]
  extract_lets w w'
  have hup : w.linkUp = w'.linkUp := htwin.field TwinState.linkUp
  have hlock : w.fsLock = w'.fsLock := htwin.field TwinState.fsLock
  have hver : w.peerVer = w'.peerVer := htwin.field TwinState.peerVer
  have hpeer : w.peerDigest = w'.peerDigest := htwin.field TwinState.peerDigest
  have hheld : w.holdoffEnd = w'.holdoffEnd := htwin.field TwinState.holdoffEnd
  rw [hup, hlock, hver, hpeer, hheld]

theorem State.answers_endArm {k : SlotIx} (h : s.twin.armSlot = some k) :
    Answers s.endArm k St.ok (leBytes 1 s.twin.unarm.code) := by
  rw [State.endArm, h]
  exact answers_finish ..

/-- Arming: armed without a reason against it, and a waiting TWIN_ARM is answered with 0. -/
theorem State.arm_arms (s : State) : s.arm.twin.armed = true ∧ s.arm.twin.unarm = .none ∧ s.arm.twin.resyncing = false ∧
    (∀ k, s.twin.armSlot = some k → Answers s.arm k St.ok [0]) ∧ SameBut [.objs, .twin, .recd, .mb, .nvm] s s.arm := by
  unfold State.arm
  have hrecorded := State.record_frame (s.modTwin fun w => { w with armed := true, unarm := .none, resyncing := false })
    Code.twinArmed Ob.clsTwin 0 0 []
  have htwin : TwinStands (s.modTwin fun w => { w with armed := true, unarm := .none, resyncing := false })
      ((s.modTwin fun w => { w with armed := true, unarm := .none, resyncing := false }).record Code.twinArmed Ob.clsTwin 0 0
        []) := .record (.refl _) ..
  generalize (s.modTwin fun w => { w with armed := true, unarm := .none, resyncing := false }).record Code.twinArmed Ob.clsTwin
    0 0 [] = x at *
  have hended := TwinStands.endArm (x.irq Irq.twin)
  refine ⟨(hended.field TwinState.armed).trans (htwin.field TwinState.armed),
    (hended.field TwinState.unarm).trans (htwin.field TwinState.unarm),
    (hended.field TwinState.resyncing).trans (htwin.field TwinState.resyncing), fun k hk => ?_, ?_⟩
  · have hslot : (x.irq Irq.twin).twin.armSlot = some k := (htwin.field TwinState.armSlot).trans hk
    have hwhy : (x.irq Irq.twin).twin.unarm = .none := htwin.field TwinState.unarm
    have hanswers := State.answers_endArm hslot
    rw [hwhy] at hanswers
    exact hanswers
  · exact same_step (same_step (same_step (same_mono (State.modTwin_same s _) (by decide)) hrecorded (by decide))
      (State.irq_same x _) (by decide)) (State.endArm_same _) (by decide)

/-! The end of the resynchronisation (R263) -/

theorem twinResyncComplete_resyncs {frame : Nat} {ar : AlignRec} (hrole : s.twin.role = .standby)
    (hsync : s.twin.resyncing = true) (honly : s.twin.resyncOnly = true) : Completes (.twinResyncComplete frame ar) s fun t =>
      t.twin.armed = s.twin.armed ∧ t.twin.resyncing = false ∧ t.clk = s.clk ∧ t.feeds.episode = ar.episode := by
  have hsame := State.adopt_same s ar
  have hepisode := (s.adopt_rails ar).2
  have hexec : exec (.twinResyncComplete frame ar) s = execTwinResyncComplete frame ar s := rfl
  rw [execTwinResyncComplete, if_pos (by simp [hrole, hsync])] at hexec
  generalize s.adopt ar = x at *
  have htwin : x.twin = s.twin := twin_same hsame
  refine ⟨_, hexec.trans (if_pos (by rw [htwin, honly])), ?_, rfl, hsame.same .clk (by decide), hepisode⟩
  have harmed : x.twin.armed = s.twin.armed := congrArg TwinState.armed htwin
  exact harmed

/-- The anchor of a new frame index changes neither the twin nor the digest nor the clock. -/
theorem State.anchor_stands (hs : StoreOk s.objs) (sub : Nat) : TwinStands s (s.anchor sub) ∧
    (s.anchor sub).cfgDigest = s.cfgDigest ∧ SameBut [.objs, .time, .twin, .recd, .nvm] s (s.anchor sub) := by
  have hwrites := State.record_writes s Code.timeAnchor Ob.clsTime 0 sub
    (leBytes 6 s.time.sec ++ leBytes 4 s.time.ns.floor.toNat ++ leBytes 6 s.clk.frame)
  have hrecorded := State.record_frame s Code.timeAnchor Ob.clsTime 0 sub
    (leBytes 6 s.time.sec ++ leBytes 4 s.time.ns.floor.toNat ++ leBytes 6 s.clk.frame)
  refine ⟨.anchor .., State.cfgDigest_congr fun c i k hc hi hk => hwrites.obj_eq hs (recKeys_ne hc hi hk), ?_⟩
  refine same_lit _ (same_mono hrecorded (by decide)) fun p hp => ?_
  cases p with
  | time => exact absurd (by decide) hp
  | _ => rfl

/-- The state with another frame index, anchored in the log if it is a new one. -/
def State.redated (s : State) (f : Nat) : State :=
  let dated := s.modClk fun c => { c with frame := f, superframe := f % 64 }
  if s.clk.frame != f then dated.anchor 4 else dated

theorem State.redated_stands (hs : StoreOk s.objs) (f : Nat) : TwinStands s (s.redated f) ∧
    (s.redated f).cfgDigest = s.cfgDigest ∧ (s.redated f).clk.frame = f ∧
    SameBut [.objs, .clk, .time, .twin, .recd, .nvm] s (s.redated f) := by
  unfold State.redated
  extract_lets dated
  have hdated : SameBut [.clk] s dated := State.modClk_same ..
  obtain ⟨htwin, hdigest, hsame⟩ := State.anchor_stands (s := dated) hs 4
  have hframe : (dated.anchor 4).clk.frame = f := congrArg ClkState.frame (hsame.same .clk (by decide))
  split
  · exact ⟨htwin, hdigest, hframe, same_step (same_mono hdated (by decide)) hsame (by decide)⟩
  · exact ⟨.refl s, rfl, rfl, same_mono hdated (by decide)⟩

theorem twinResyncComplete_arms {frame : Nat} {ar : AlignRec} (hs : StoreOk s.objs) (hrole : s.twin.role = .standby)
    (hsync : s.twin.resyncing = true) (honly : s.twin.resyncOnly = false) (hwhy : s.armReason = .none) :
    Completes (.twinResyncComplete frame ar) s fun t => t.twin.armed = true ∧ t.twin.unarm = .none ∧
      t.twin.resyncing = false ∧ t.clk.frame = frame % 281474976710656 ∧ t.feeds.episode = ar.episode ∧
      (∀ k, s.twin.armSlot = some k → Answers t k St.ok [0]) ∧
      (∀ (r : RailIx) a, ar.rails[r.val]? = some a → Adopted a (t.rail r)) := by
  have hsame := State.adopt_same s ar
  have hepisode := (s.adopt_rails ar).2
  have hadopted (r : RailIx) (a) (ha : ar.rails[r.val]? = some a) := s.rail_adopt ha
  have hexec : exec (.twinResyncComplete frame ar) s = execTwinResyncComplete frame ar s := rfl
  rw [execTwinResyncComplete, if_pos (by simp [hrole, hsync])] at hexec
  generalize s.adopt ar = x at *
  have htwin : x.twin = s.twin := twin_same hsame
  have hobjs : x.objs = s.objs := hsame.same .objs (by decide)
  have hdated : exec (.twinResyncComplete frame ar) s = .next (if (x.redated (frame % 281474976710656)).armReason == .none
      then (x.redated (frame % 281474976710656)).arm else (x.redated (frame % 281474976710656)).unarmFor .resync) :=
    hexec.trans (if_neg (by rw [htwin, honly]; decide))
  obtain ⟨hstands, hdigest, hframe, hkept⟩ := State.redated_stands (hobjs ▸ hs : StoreOk x.objs) (frame % 281474976710656)
  generalize x.redated (frame % 281474976710656) = y at *
  have hnone : y.armReason = .none := by
    rw [State.armReason_congr hstands hdigest, State.armReason_congr (s := s) (.of_twin htwin)
      (State.cfgDigest_congr fun _ _ _ _ _ _ => State.obj_of_objs hobjs ..)]
    exact hwhy
  rw [if_pos (by rw [hnone]; rfl)] at hdated
  obtain ⟨harmed, hunarm, hsynced, hanswers, hlast⟩ := y.arm_arms
  refine ⟨_, hdated, harmed, hunarm, hsynced, ?_, ?_, fun k hk => hanswers k ?_, fun r a ha => ?_⟩
  · exact (congrArg ClkState.frame (hlast.same .clk (by decide))).trans hframe
  · exact (congrArg FeedState.episode ((hlast.same .feeds (by decide)).trans (hkept.same .feeds (by decide)))).trans hepisode
  · rw [hstands.field TwinState.armSlot, htwin]
    exact hk
  · have hrails : y.arm.rails = x.rails := (hlast.same .rails (by decide)).trans (hkept.same .rails (by decide))
    rw [State.rail, hrails]
    exact hadopted r a ha

/-- Settles O54: one lemma per change of role; each leaves the role told (`RoleTold`). -/
theorem twinRolesChange : Obligations.TwinRolesChange := by
  intro s hs
  refine ⟨fun hrole hmiss => ⟨twinTakeover_takes hs.store hrole hmiss, fun hact hsplit harmed => ?_,
      fun hact hsplit harmed => ?_⟩,
    fun hrole => ⟨listenJoin_joins hrole, listenClaim_claims hrole⟩, twinPartnerLost_listens, twinPartnerLost_unarms,
    fun _ _ => twinResyncComplete_resyncs, fun _ _ => twinResyncComplete_arms hs.store, fun _ _ => handoverEdge_leaves hs.store,
    fun _ => handoverEdge_takes hs.store⟩
  · refine completes_mono (twinSplit_splits hs.store hrole hmiss hact hsplit) ?_
    rintro t ⟨u, hunarmed, hnvm, ⟨v, hv, hv', hrec⟩, hrole', hsplit', harmed', hwhy, hdriving, hcounts, -, hsame⟩
    exact ⟨hrole', hsplit', harmed', hwhy, hdriving, hcounts,
      ⟨v, hv.trans (hunarmed.2.2.2 harmed), hv'.trans (hnvm harmed), hrec⟩, hsame⟩
  · refine completes_mono (twinSplit_splits hs.store hrole hmiss hact hsplit) ?_
    rintro t ⟨u, hunarmed, -, hlogs, -, hsplit', harmed', -, -, -, hcounts, -⟩
    exact ⟨u, (hunarmed.2.2.1 harmed).2.1, hlogs, hsplit', harmed', hcounts harmed⟩

end Sys2Proof.Machine
end

section
/-! Requests and starts of domains (11 R236 to R241, R245). -/

namespace Sys2Proof.Machine

-- One proof at a time: proofs that wait for one another each hold a thread's stack.
set_option Elab.async false

variable {s t u x : State}

/-! What the sequencer leaves of the device's state -/

/-- From s to t nothing of the device changes but its power state. -/
def DevSettles (s t : State) : Prop := ∃ st, t.dev = { s.dev with dstate := st }

namespace DevSettles

theorem refl (s : State) : DevSettles s s := ⟨s.dev.dstate, rfl⟩

theorem trans (h : DevSettles s t) (h' : DevSettles t u) : DevSettles s u := by
  obtain ⟨st, hst⟩ := h
  obtain ⟨st', hst'⟩ := h'
  exact ⟨st', by rw [hst', hst]⟩

theorem of_same {ps : List Area} (h : SameBut ps s t) (hps : Area.dev ∉ ps := by decide) : DevSettles s t :=
  ⟨s.dev.dstate, h.same .dev hps⟩

/-- An update of other areas only. -/
theorem still (h : t.dev = s.dev := by rfl) : DevSettles s t := ⟨s.dev.dstate, h⟩

theorem settleDev (s : State) : DevSettles s s.settleDev := by
  unfold State.settleDev
  refine rel_ite ?_ (refl s)
  exact ⟨_, rfl⟩

theorem enterUp (s : State) (d : DomainIx) (fresh : Bool) : DevSettles s (s.enterUp d fresh) := by
  unfold State.enterUp
  extract_lets counted up sched
  have hup : DevSettles s up := (of_same (State.setDom_same counted d .up)).trans still
  have hsched : DevSettles up sched := by
    unfold sched
    split
    · exact of_same (State.schedUp_same ..)
    · exact refl up
  exact (hup.trans hsched).trans (settleDev _)

theorem downEnd (s : State) (d : DomainIx) : DevSettles s (s.downEnd d) := by
  unfold State.downEnd
  extract_lets x idle latch counted latched retried waiting ended
  have hlatch : DevSettles idle latch := by
    unfold latch
    split
    · exact rel_ite still (refl _)
    · exact refl _
  have hlatched : DevSettles idle latched :=
    ((hlatch.trans (u := counted) still).trans (of_same (counted.setDom_same d .latched))).trans still
  have hwaiting : DevSettles idle waiting := (of_same (retried.setDom_same d .retryWait)).trans still
  have hended : DevSettles idle ended :=
    rel_ite (hlatched.trans (of_same (State.record_same ..))) <| rel_ite (hwaiting.trans (of_same (State.record_same ..))) <|
      rel_ite (enterUp ..) ((of_same (State.setDom_same ..)).trans (of_same (State.record_same ..)))
  exact ((trans (t := idle) still hended).trans (settleDev _)).trans (of_same (State.refreshFlt_same _))

theorem nextDown (s : State) (d : DomainIx) : DevSettles s (s.nextDown d) := by
  unfold State.nextDown
  split
  · exact downEnd s d
  · exact still

theorem enterDown (s : State) (d : DomainIx) : DevSettles s (s.enterDown d) :=
  trans (trans (rel_forEach refl trans (fun _ _ _ => still) s) (of_same (State.setDom_same ..))) (nextDown ..)

theorem setReq (s : State) (d : DomainIx) (on : Bool) : DevSettles s (s.setReq d on) := by
  unfold State.setReq
  extract_lets x set
  have hset : DevSettles s set := still
  refine rel_ite (refl s) (hset.trans (rel_ite (rel_ite (enterUp ..) (refl set)) ?_))
  split
  · exact enterDown ..
  · exact enterDown ..
  · exact still
  · exact (of_same (State.setDom_same ..)).trans (settleDev _)
  · exact refl set

theorem pinRequest (s : State) (d : DomainIx) : DevSettles s (s.pinRequest d) := by
  unfold State.pinRequest
  refine rel_ite ?_ (refl s)
  split
  · exact setReq ..
  · exact setReq ..

end DevSettles

/-! What the sequencer leaves of the objects -/

namespace Follows

theorem setReq (s : State) (d : DomainIx) (on : Bool) : Follows s (s.setReq d on) := by
  unfold State.setReq
  extract_lets x set
  have hset : Follows s set := modDomain ..
  refine rel_ite (refl s) (hset.trans (rel_ite (rel_ite (enterUp ..) (refl set)) ?_))
  split
  · exact enterDown ..
  · exact enterDown ..
  · exact modDomain ..
  · exact (setDom ..).trans (settleDev _)
  · exact refl set

theorem pinRequest (s : State) (d : DomainIx) : Follows s (s.pinRequest d) := by
  unfold State.pinRequest
  refine rel_ite ?_ (refl s)
  split
  · exact setReq ..
  · exact setReq ..

end Follows

/-! A pin (R236) -/

/-- The domains of a pin take its level. -/
def State.pinTurn (pin : Fin 4) (s : State) (d : DomainIx) : State :=
  if s.srcPin d && s.enPinOf d == some pin then (s.modDomain d fun x => { x with pinArmed := true }).pinRequest d else s

theorem State.pinTurn_stands (pin : Fin 4) (s : State) (d : DomainIx) : Follows s (s.pinTurn pin d) ∧
    DevSettles s (s.pinTurn pin d) ∧ OnDomain d s (s.pinTurn pin d) ∧
    SameBut [.objs, .rails, .domains, .twin, .recd, .mb, .nvm, .dev] s (s.pinTurn pin d) := by
  unfold State.pinTurn
  refine ⟨rel_ite ((Follows.modDomain ..).trans (.pinRequest ..)) (.refl s), rel_ite ?_ (.refl s),
    rel_ite ((OnDomain.modDomain ..).trans (.pinRequest _)) (.refl s),
    rel_ite (same_step (same_mono (State.modDomain_same ..) (by decide)) (State.pinRequest_same ..) (by decide)) (same_refl ..)⟩
  exact DevSettles.trans (t := s.modDomain d fun x => { x with pinArmed := true }) .still (.pinRequest ..)

theorem exec_enPinChange {pin : Fin 4} (hrun : s.framesRun = true) (hheld : 40 ≤ s.dev.enRun.get pin) :
    ∃ u : State, u = { s with dev := { s.dev with
      enLevel := s.dev.enLevel ^^^ BitVec.ofNat 4 (2 ^ pin.val), enRun := vset s.dev.enRun pin 0 } } ∧
      exec (.enPinChange pin) s = .next (forEach allDomains (State.pinTurn pin) u) := by
  refine ⟨_, rfl, ?_⟩
  exact congrArg Host.Outcome.next (if_pos (by simp [hrun, hheld]))

/-- The request of a domain is the level of its pin, or stands. -/
theorem State.req_pinTurn (pin : Fin 4) (s : State) (d : DomainIx) :
    (s.srcPin d = true ∧ s.enPinOf d = some pin → ((s.pinTurn pin d).domain d).req = s.dev.enLevel.getLsbD pin.val) ∧
      (¬(s.srcPin d = true ∧ s.enPinOf d = some pin) → s.pinTurn pin d = s) := by
  unfold State.pinTurn
  constructor
  · rintro ⟨hsrc, hpin⟩
    rw [if_pos (by simp [hsrc, hpin])]
    have hsrc' : (s.modDomain d fun x => { x with pinArmed := true }).srcPin d = true := hsrc
    have hpin' : (s.modDomain d fun x => { x with pinArmed := true }).enPinOf d = some pin := hpin
    have harmed : ((s.modDomain d fun x => { x with pinArmed := true }).domain d).pinArmed = true :=
      congrArg DomainState.pinArmed (State.domain_modDomain_self s d _)
    rw [State.pinRequest, if_pos hsrc', hpin']
    dsimp only
    rw [State.req_setReq, harmed, Bool.and_true]
    rfl
  · intro hnot
    exact if_neg (by simpa using hnot)

theorem getLsbD_toggled (v : BitVec 4) (pin : Fin 4) : (v ^^^ BitVec.ofNat 4 (2 ^ pin.val)).getLsbD pin.val =
    !v.getLsbD pin.val := by
  have hone : ∀ p : Fin 4, (BitVec.ofNat 4 (2 ^ p.val)).getLsbD p.val = true := by decide
  rw [BitVec.getLsbD_xor, hone, Bool.xor_true]

theorem enPinChange_requests {pin : Fin 4} (hs : StoreOk s.objs) (hrun : s.framesRun = true) (hheld : 40 ≤ s.dev.enRun.get pin) :
    Completes (.enPinChange pin) s fun t => t.dev.enLevel = s.dev.enLevel ^^^ BitVec.ofNat 4 (2 ^ pin.val) ∧
      (∀ d, s.srcPin d = true → s.enPinOf d = some pin → (t.domain d).req = !s.dev.enLevel.getLsbD pin.val) ∧
      (∀ d, ¬(s.srcPin d = true ∧ s.enPinOf d = some pin) → (t.domain d).req = (s.domain d).req) ∧
      SameBut [.objs, .rails, .domains, .twin, .recd, .mb, .nvm, .dev] s t := by
  obtain ⟨u, hu, hexec⟩ := exec_enPinChange hrun hheld
  have hlevel : u.dev.enLevel = s.dev.enLevel ^^^ BitVec.ofNat 4 (2 ^ pin.val) := hu ▸ rfl
  have hsame : SameBut [.dev] s u := hu ▸ sameBut_dev s _
  clear hu
  have hturn (d : DomainIx) := forEach_turn (R := fun a b => Follows a b ∧ DevSettles a b) (fun y => y.domain d)
    (fun y => ⟨.refl y, .refl y⟩) (fun h h' => ⟨h.1.trans h'.1, h.2.trans h'.2⟩) (f := State.pinTurn pin) (l := allDomains)
    (List.nodup_finRange 8) (List.mem_finRange d) (fun e y => ⟨(y.pinTurn_stands pin e).1, (y.pinTurn_stands pin e).2.1⟩)
    (fun e he y => (y.pinTurn_stands pin e).2.2.1.others d he.symm) u
  have hdomains : u.domains = s.domains := hsame.same .domains (by decide)
  have hobjs : u.objs = s.objs := hsame.same .objs (by decide)
  have hwhose (m : State) (hm : Follows u m) (d : DomainIx) : m.srcPin d = s.srcPin d ∧ m.enPinOf d = s.enPinOf d := by
    have hobj (c i k : Nat) (hi : i < 256) (hk : k < 256) (hside : (c, k) ∉ sideItems) : m.obj c i k = s.obj c i k :=
      (hm.obj (hobjs ▸ hs) c i k hi hk hside).trans (State.obj_of_objs hobjs ..)
    constructor
    · rw [State.srcPin, State.srcPin, hobj _ _ _ (by omega) (by decide) (by decide)]
    · simp only [State.enPinOf, hobj Ob.clsPin 0 Ob.Pin.enMap (by decide) (by decide) (by decide)]
  refine ⟨_, hexec, ?_, fun d hsrc hpin => ?_, fun d hnot => ?_, ?_⟩
  · obtain ⟨st, hdev⟩ := rel_forEach (R := DevSettles) .refl .trans (l := allDomains)
      (fun e _ y => (y.pinTurn_stands pin e).2.1) u
    rw [hdev]
    exact hlevel
  · obtain ⟨m, ⟨hfollows, st, hdev⟩, -, hlast⟩ := hturn d
    obtain ⟨hsrc', hpin'⟩ := hwhose m hfollows d
    rw [hlast, (m.req_pinTurn pin d).1 ⟨hsrc'.trans hsrc, hpin'.trans hpin⟩, hdev]
    show u.dev.enLevel.getLsbD pin.val = _
    rw [hlevel, getLsbD_toggled]
  · obtain ⟨m, ⟨hfollows, -⟩, hkept, hlast⟩ := hturn d
    obtain ⟨hsrc', hpin'⟩ := hwhose m hfollows d
    have hdomain : u.domain d = s.domain d := congrArg (Vector.get · d) hdomains
    rw [hlast, (m.req_pinTurn pin d).2 (by rwa [hsrc', hpin']), hkept, hdomain]
  · exact same_step (same_mono hsame (by decide)) (same_forEach (same_refl ..) fun y d => (y.pinTurn_stands pin d).2.2.2)
      (by decide)

/-! A domain starts (R237, R240) -/

/-- The rails of a domain and their order are those of objects. -/
theorem State.upOrder_congr (h : ∀ (r : RailIx) k, k < 256 → (Ob.clsRail, k) ∉ sideItems →
    t.obj Ob.clsRail r.val k = s.obj Ob.clsRail r.val k) (d : DomainIx) : t.upOrder d = s.upOrder d := by
  have hrails : t.railsOf d.val = s.railsOf d.val := by
    unfold State.railsOf Store.railsOf
    refine List.filter_congr fun r _ => ?_
    have hcfg : t.objs.val Ob.clsRail r.val Ob.Rail.cfg = s.objs.val Ob.clsRail r.val Ob.Rail.cfg := h r _ (by decide) (by decide)
    have hdom : t.objs.val Ob.clsRail r.val Ob.Rail.domain = s.objs.val Ob.clsRail r.val Ob.Rail.domain :=
      h r _ (by decide) (by decide)
    rw [Store.railEn, Store.railEn, hcfg, hdom]
  have hkey : (fun r : RailIx => t.railN r.val Ob.Rail.upRank) = fun r : RailIx => s.railN r.val Ob.Rail.upRank :=
    funext fun r => congrArg BitVec.toNat (h r _ (by decide) (by decide))
  rw [State.upOrder, State.upOrder, hrails, hkey]

/-- A domain that is up keeps the device in RUN. -/
theorem State.run_settleDev {d : DomainIx} (hrun : s.framesRun = true) (hup : (s.domain d).dstate = .up) :
    s.settleDev.dev.dstate = .run := by
  have hbusy : (s.domains.toList.all fun y => y.dstate == .off || y.dstate == .latched) = false := by
    refine List.all_eq_false.mpr ⟨s.domain d, ?_, by rw [hup]; decide⟩
    exact Vector.mem_toList_iff.mpr (Vector.getElem_mem d.isLt)
  unfold State.settleDev
  unfold State.framesRun at hrun
  rw [if_pos hrun, hbusy]
  rfl

/-- What the start of a domain makes of the state (R240). -/
structure Starts (d : DomainIx) (left : Nat) (s t : State) : Prop where
  dstate : (t.domain d).dstate = .up
  since : (t.domain d).upStart = s.now
  retries : (t.domain d).retryLeft = left
  device : t.dev.dstate = .run
  counts : Counts s t Ob.clsDomain d.val Ob.Domain.starts
  others : DomainsBut d s t
  shows : bit t.mb.istat Irq.domain.val = true
  first : ∀ r, (s.upOrder d).head? = some r →
    (t.rail r).upDue = some (s.now + usFrames (s.railN r.val Ob.Rail.stepUs)) ∧ RailsBut r s t
  same : SameBut [.objs, .rails, .domains, .mb, .dev] s t

/-- The state of a domain that starts, before its first rail is due. -/
def State.begun (s : State) (d : DomainIx) (fresh : Bool) : State :=
  ((s.count Ob.clsDomain d.val Ob.Domain.starts).setDom d .up).modDomain d fun y => { y with
    retryLeft := if fresh then (s.count Ob.clsDomain d.val Ob.Domain.starts).domN d.val Ob.Domain.retries else y.retryLeft
    retryFlag := false, latchFlag := false, upStart := s.now, latchRail := 255 }

/-- The state of a domain whose first rail is due after its STEP_US. -/
def State.firstDue (s : State) (d : DomainIx) : State :=
  match (s.upOrder d).head? with
  | some r => s.schedUp d r
  | none => s

theorem State.enterUp_eq (s : State) (d : DomainIx) (fresh : Bool) :
    s.enterUp d fresh = ((s.begun d fresh).firstDue d).settleDev := rfl

/-- Scheduling a rail marks its domain's step only, and makes the rail due. -/
theorem State.schedUp_schedules (s : State) (d : DomainIx) (r : RailIx) :
    (s.schedUp d r).domain d = { s.domain d with stepRail := r.val } ∧
      ((s.schedUp d r).rail r).upDue = some (s.now + usFrames (s.railN r.val Ob.Rail.stepUs)) ∧ RailsBut r s (s.schedUp d r) := by
  refine ⟨?_, ?_, ?_⟩
  · exact State.domain_modDomain_self ..
  · exact congrArg RailState.upDue (State.rail_modRail_self s r _)
  · exact State.railsBut_modRail s r _

theorem State.firstDue_keeps (s : State) (d : DomainIx) : ∃ k, (s.firstDue d).domain d = { s.domain d with stepRail := k } := by
  unfold State.firstDue
  split
  next r _ => exact ⟨_, (s.schedUp_schedules d r).1⟩
  · exact ⟨_, rfl⟩

theorem State.firstDue_same (s : State) (d : DomainIx) : SameBut [.rails, .domains] s (s.firstDue d) := by
  unfold State.firstDue
  split
  · exact State.schedUp_same ..
  · exact same_refl ..

/-- The domain that starts, its count and its interrupt. -/
theorem State.begun_begins (hs : StoreOk s.objs) {d : DomainIx} (hst : (s.domain d).dstate ≠ .up) (fresh : Bool) :
    ((s.begun d fresh).domain d).dstate = .up ∧ ((s.begun d fresh).domain d).upStart = s.now ∧
      ((s.begun d fresh).domain d).retryLeft = (if fresh then s.domN d.val Ob.Domain.retries else (s.domain d).retryLeft) ∧
      Counts s (s.begun d fresh) Ob.clsDomain d.val Ob.Domain.starts ∧ bit (s.begun d fresh).mb.istat Irq.domain.val = true ∧
      Follows s (s.begun d fresh) ∧ SameBut [.objs, .domains, .mb] s (s.begun d fresh) := by
  unfold State.begun
  have hcounted : Follows s (s.count Ob.clsDomain d.val Ob.Domain.starts) := .count ⟨by omega, by decide⟩ (by decide) s
  have hretries : (s.count Ob.clsDomain d.val Ob.Domain.starts).domN d.val Ob.Domain.retries = s.domN d.val Ob.Domain.retries :=
    congrArg BitVec.toNat (hcounted.obj hs _ _ _ (by omega) (by decide) (by decide))
  have hset : ((s.count Ob.clsDomain d.val Ob.Domain.starts).setDom d .up) =
      ((s.count Ob.clsDomain d.val Ob.Domain.starts).modDomain d fun y => { y with dstate := .up }).irq Irq.domain :=
    if_neg (by simpa using hst)
  have hsame : SameBut [.objs, .domains, .mb] s ((s.count Ob.clsDomain d.val Ob.Domain.starts).setDom d .up) :=
    same_step (same_mono (State.count_same s ..) (by decide)) (State.setDom_same ..) (by decide)
  have hfollows := hcounted.trans (.setDom _ d .up)
  have hup := State.dstate_setDom (s.count Ob.clsDomain d.val Ob.Domain.starts) d .up
  have hleft : (((s.count Ob.clsDomain d.val Ob.Domain.starts).setDom d .up).domain d).retryLeft = (s.domain d).retryLeft := by
    rw [hset]
    have hmarked := congrArg DomainState.retryLeft
      (State.domain_modDomain_self (s.count Ob.clsDomain d.val Ob.Domain.starts) d fun y => { y with dstate := .up })
    exact hmarked
  have hshows : bit ((s.count Ob.clsDomain d.val Ob.Domain.starts).setDom d .up).mb.istat Irq.domain.val = true := by
    rw [hset]
    exact State.bit_istat_irq _ Irq.domain
  have hcounts : Counts s ((s.count Ob.clsDomain d.val Ob.Domain.starts).setDom d .up) Ob.clsDomain d.val Ob.Domain.starts := by
    rw [hset]
    exact State.obj_setObj_self hs ..
  generalize (s.count Ob.clsDomain d.val Ob.Domain.starts).setDom d .up = x at *
  rw [State.domain_modDomain_self, hretries, hleft]
  exact ⟨hup, rfl, rfl, hcounts, hshows, hfollows.trans (.modDomain ..), same_step hsame (State.modDomain_same ..) (by decide)⟩

theorem State.enterUp_starts (hs : StoreOk s.objs) (hrun : s.framesRun = true) {d : DomainIx} (hst : (s.domain d).dstate ≠ .up)
    (fresh : Bool) : Starts d (if fresh then s.domN d.val Ob.Domain.retries else (s.domain d).retryLeft) s
      (s.enterUp d fresh) := by
  have hothers : DomainsBut d s (s.enterUp d fresh) := (OnDomain.enterUp s fresh).others
  have hsame := State.enterUp_same s d fresh
  obtain ⟨hup, hsince, hleft, hcounts, hshows, hfollows, hbegun⟩ := State.begun_begins hs hst fresh
  rw [State.enterUp_eq] at hothers hsame ⊢
  generalize s.begun d fresh = x at *
  have horder : x.upOrder d = s.upOrder d :=
    State.upOrder_congr (fun r k hk hside => hfollows.obj hs _ _ _ (by omega) hk hside) d
  obtain ⟨k, hdomain⟩ := x.firstDue_keeps d
  have hdue := x.firstDue_same d
  have hsettled := State.settleDev_same (x.firstDue d)
  have hlast : SameBut [.rails, .domains, .dev] x (x.firstDue d).settleDev :=
    same_step (same_mono hdue (by decide)) hsettled (by decide)
  have hdom : (x.firstDue d).settleDev.domain d = { x.domain d with stepRail := k } :=
    (congrArg (Vector.get · d) (hsettled.same .domains (by decide))).trans hdomain
  have hrunning : (x.firstDue d).framesRun = true := by
    have hdev : (x.firstDue d).dev = s.dev := (hdue.same .dev (by decide)).trans (hbegun.same .dev (by decide))
    rw [State.framesRun, hdev]
    exact hrun
  refine ⟨by rw [hdom]; exact hup, by rw [hdom]; exact hsince, by rw [hdom]; exact hleft,
    State.run_settleDev hrunning (by rw [hdomain]; exact hup), ?_, hothers, ?_, fun r hr => ?_, hsame⟩
  · rw [Counts, State.obj_of_objs (hlast.same .objs (by decide))]
    exact hcounts
  · rw [show (x.firstDue d).settleDev.mb = x.mb from hlast.same .mb (by decide)]
    exact hshows
  · have hfirst : x.firstDue d = x.schedUp d r := by rw [State.firstDue, horder, hr]
    obtain ⟨-, hrail, hbut⟩ := x.schedUp_schedules d r
    have hrails (q : RailIx) : (x.firstDue d).settleDev.rail q = (x.schedUp d r).rail q := by
      rw [← hfirst]
      exact congrArg (Vector.get · q) (hsettled.same .rails (by decide))
    have hnow : x.now = s.now := hbegun.same .now (by decide)
    have hstep : x.railN r.val Ob.Rail.stepUs = s.railN r.val Ob.Rail.stepUs :=
      congrArg BitVec.toNat (hfollows.obj hs _ _ _ (by omega) (by decide) (by decide))
    refine ⟨by rw [hrails, hrail, hnow, hstep], fun q hq => ?_⟩
    rw [hrails, hbut q hq]
    exact congrArg (Vector.get · q) (hbegun.same .rails (by decide))

theorem domainUnblocked_starts (hs : StoreOk s.objs) (hrun : s.framesRun = true) {d : DomainIx} (hhold : s.deviceHold = false)
    (hfree : s.domBlocks d = false) (hoff : (s.domain d).dstate = .off) (hreq : (s.domain d).req = true)
    (hrails : s.railsOf d.val ≠ []) :
    Completes (.domainUnblocked d) s (Starts d (s.domN d.val Ob.Domain.retries) s) := by
  have hstart : s.tryStart d = s.enterUp d true := if_pos (by simp [hoff, hreq, hhold, hfree, hrails])
  exact completes_when hrun rfl (hstart ▸ State.enterUp_starts hs hrun (by simp [hoff]) true)

theorem domainRetry_starts (hs : StoreOk s.objs) (hrun : s.framesRun = true) {d : DomainIx} (hhold : s.deviceHold = false)
    (hfree : s.domBlocks d = false) (hwait : (s.domain d).dstate = .retryWait) (hend : (s.domain d).retryEnd ≤ s.now) :
    Completes (.domainRetry d) s (Starts d (s.domain d).retryLeft s) :=
  ⟨_, congrArg Host.Outcome.next (if_pos (by simp [hrun, hhold, hfree, hwait, hend])),
    State.enterUp_starts hs hrun (by simp [hwait]) false⟩

end Sys2Proof.Machine
end

section
/-! The steps of a rail up and down (11 R239, R241 to R246). -/

namespace Sys2Proof.Machine

-- One proof at a time: proofs that wait for one another each hold a thread's stack.
set_option Elab.async false

variable {s t u x : State} {r : RailIx} {d : DomainIx}

/-! A rail ramps (R241) -/

theorem State.upDue_startLaw (s : State) (r : RailIx) : ((s.startLaw r).rail r).upDue = (s.rail r).upDue := by
  unfold State.startLaw
  extract_lets y v fs p e q regime measured preloaded profiled fed placed started
  have hrail (l : List PhaseIx) : (forEach l (fun (u : State) n => (u.modSense n fun y => { y with shed := false }).modGen n
      fun g => { g with slamPark := false, wokeAt := if u.objs.comp n.val then g.wokeAt else some u.now }) started).rail r =
      started.rail r := congrArg (Vector.get · r) (State.rails_forEach_phases (fun u n => same_mono
        (same_step (State.modSense_same u n _) (State.modGen_same ..) (by decide)) (by decide)) started)
  rw [hrail]
  simp [started, placed, fed, profiled, preloaded, measured, regime, State.preload]

/-- From s to t a rail changes at most its fuse. -/
def FuseOnly (r : RailIx) (s t : State) : Prop := ∃ f, t.rail r = { s.rail r with fuse := f }

theorem FuseOnly.trans (h : FuseOnly r s t) (h' : FuseOnly r t u) : FuseOnly r s u := by
  obtain ⟨f, hf⟩ := h
  obtain ⟨g, hg⟩ := h'
  exact ⟨g, by rw [hg, hf]⟩

theorem FuseOnly.refl (s : State) : FuseOnly r s s := ⟨(s.rail r).fuse, rfl⟩

theorem State.fuseOnly_modFuse (s : State) (f : FuseState → FuseState) : FuseOnly r s (s.modFuse r f) :=
  ⟨f (s.rail r).fuse, State.rail_modRail_self ..⟩

theorem State.fuseOnly_ramp (s : State) (r : RailIx) : FuseOnly r s ((s.fuseStart r).fuseWaited r) := by
  have hstart : FuseOnly r s (s.fuseStart r) := rel_ite (s.fuseOnly_modFuse _) (.refl s)
  refine hstart.trans (rel_ite ?_ (.refl _))
  exact ⟨_, (State.rail_fuseAgain ..).trans (if_pos rfl)⟩

/-- What the entry into RAMP makes of a rail (R241). -/
theorem State.enterRamp_ramps (s : State) (r : RailIx) : ((s.enterRamp r).rail r).seq.rseq = .ramp ∧
    ((s.enterRamp r).rail r).upDue = none ∧ ((s.enterRamp r).rail r).prof.softStart = true ∧
    ((s.enterRamp r).rail r).seq.upEnd = s.now + msFrames (s.railN r.val Ob.Rail.upTmoMs) ∧
    ((s.enterRamp r).rail r).prot = (s.rail r).prot.started := by
  unfold State.enterRamp
  extract_lets marked
  have hmarked : marked.rail r = _ := State.rail_modRail_self ..
  obtain ⟨hprot, hseq, hsoft, -, -⟩ := marked.startLaw_rail r
  have hdue := marked.upDue_startLaw r
  obtain ⟨f, hf⟩ := (marked.startLaw r).fuseOnly_ramp r
  rw [hf]
  dsimp only
  rw [hseq, hprot, hsoft, hdue, hmarked]
  exact ⟨rfl, rfl, rfl, rfl, rfl⟩

/-- The rail that is due next is OFF, so a rail that is not stands. -/
theorem State.rail_schedAfter (hreg : s.regulating r = true) (q : RailIx) (b : Bool) :
    (s.schedAfter d q b).rail r = s.rail r := by
  unfold State.schedAfter
  split
  · rfl
  next n _ =>
    by_cases hdue : (s.waitPg n == b && (s.rail n).seq.rseq == .off && (s.rail n).upDue.isNone) = true
    · rw [if_pos hdue]
      refine (s.schedUp_schedules d n).2.2 r fun heq => ?_
      simp only [Bool.and_eq_true, beq_iff_eq] at hdue
      exact State.regulating_iff.mp hreg (heq ▸ hdue.1.2)
    · rw [if_neg hdue]

/-- Scheduling the next rail marks the domain's step only. -/
theorem State.schedAfter_schedules (s : State) (d : DomainIx) (q : RailIx) (b : Bool) :
    (∃ k, (s.schedAfter d q b).domain d = { s.domain d with stepRail := k }) ∧ OnDomain d s (s.schedAfter d q b) := by
  unfold State.schedAfter
  split
  · exact ⟨⟨_, rfl⟩, .refl s⟩
  next n _ =>
    split
    · exact ⟨⟨_, (s.schedUp_schedules d n).1⟩, .schedUp ..⟩
    · exact ⟨⟨_, rfl⟩, .refl s⟩

theorem exec_railUpStep {e : Nat} (hrd : s.railDomain r = some d) (hdue : (s.rail r).upDue = some e) : exec (.railUpStep r) s =
    .next (if s.framesRun && (s.domain d).dstate == .up && (s.rail r).seq.rseq == .off && decide (e ≤ s.now) &&
        decide ((s.rail r).seq.minOffEnd ≤ s.now) && !s.hsOnPhase r then (s.enterRamp r).schedAfter d r false else s) := by
  show execRailUpStep r s = _
  rw [execRailUpStep, hrd, hdue]

theorem railUpStep_ramps {e : Nat} (hrun : s.framesRun = true) (hrd : s.railDomain r = some d) (hdue : (s.rail r).upDue = some e)
    (hup : (s.domain d).dstate = .up) (hoff : (s.rail r).seq.rseq = .off) (he : e ≤ s.now)
    (hmin : (s.rail r).seq.minOffEnd ≤ s.now) (hhs : s.hsOnPhase r = false) : Completes (.railUpStep r) s fun t =>
      (t.rail r).seq.rseq = .ramp ∧ (t.rail r).upDue = none ∧ (t.rail r).prof.softStart = true ∧
        (t.rail r).seq.upEnd = s.now + msFrames (s.railN r.val Ob.Rail.upTmoMs) ∧ (s.heldOff r = false → t.lawRuns r = true) ∧
        (t.domain d).dstate = .up ∧ DomainsBut d s t ∧
        SameBut [.objs, .phases, .rails, .domains, .twin, .recd, .nvm] s t := by
  refine ⟨_, (exec_railUpStep hrd hdue).trans (congrArg Host.Outcome.next (if_pos ?_)), ?_⟩
  · simp [hrun, hup, hoff, he, hmin, hhs]
  obtain ⟨hramp, hnone, hsoft, hend, hprot⟩ := s.enterRamp_ramps r
  have hentered := State.enterRamp_same s r
  generalize s.enterRamp r = x at *
  have hrail : (x.schedAfter d r false).rail r = x.rail r :=
    State.rail_schedAfter (State.regulating_iff.mpr (by simp [hramp])) ..
  obtain ⟨⟨k, hdom⟩, hothers⟩ := x.schedAfter_schedules d r false
  have hdomain : ∀ e, x.domain e = s.domain e := fun e => congrArg (Vector.get · e) (hentered.same .domains (by decide))
  refine ⟨by rw [hrail, hramp], by rw [hrail, hnone], by rw [hrail, hsoft], by rw [hrail, hend], fun hheld => ?_, ?_,
    fun e he => (hothers.others e he).trans (hdomain e),
    same_step (same_mono hentered (by decide)) (State.schedAfter_same ..) (by decide)⟩
  · have hheld' : (x.schedAfter d r false).heldOff r = false :=
      (State.heldOff_congr (by rw [hrail, hprot]; rfl) (by rw [hrail, hprot]; rfl) (by rw [hrail, hprot]; rfl)).trans hheld
    have hfree : (x.schedAfter d r false).inHiccup r = false := by
      rw [State.inHiccup, hrail, hprot]
      rfl
    rw [State.lawRuns, hheld', hfree, hrail, hramp]
    rfl
  · rw [hdom]
    exact (congrArg DomainState.dstate (hdomain d)).trans hup

theorem railUpStep_waits {e : Nat} (hrd : s.railDomain r = some d) (hdue : (s.rail r).upDue = some e)
    (hwait : s.now < e ∨ s.now < (s.rail r).seq.minOffEnd ∨ s.hsOnPhase r = true) :
    Completes (.railUpStep r) s fun t => t = s := by
  refine ⟨s, (exec_railUpStep hrd hdue).trans (congrArg Host.Outcome.next (if_neg fun hgo => ?_)), rfl⟩
  simp only [Bool.and_eq_true, decide_eq_true_eq, Bool.not_eq_true'] at hgo
  obtain ⟨⟨⟨-, he⟩, hmin⟩, hhs⟩ := hgo
  obtain h | h | h := hwait
  · omega
  · omega
  · simp [hhs] at h

/-! A rail is qualified (R242) -/

/-- A rail that is qualified is ON, and its gate follows where its fuse starts behind it. -/
def State.turnedOn (s : State) (r : RailIx) : State :=
  let on := s.modSeq r fun x => { x with rseq := .on, qualStart := none }
  if bit (on.fuseCtrl r) 0 && bit (on.fuseCtrl r) 1 && (on.rail r).fuse.fstate == .off then on.fuseRamp r else on

theorem State.turnedOn_turns (s : State) (r : RailIx) : SameBut [.rails] s (s.turnedOn r) ∧
    ((s.turnedOn r).rail r).seq.rseq = .on ∧ RailsBut r s (s.turnedOn r) := by
  unfold State.turnedOn
  extract_lets on
  have hon : (on.rail r).seq.rseq = .on := congrArg (fun y : RailState => y.seq.rseq) (State.rail_modRail_self s r _)
  have hbut : RailsBut r s on := State.railsBut_modRail s r _
  have hsame : SameBut [.rails] s on := State.modSeq_same ..
  split
  · refine ⟨same_step hsame (State.fuseRamp_same ..) (by decide), ?_, fun q hq => ?_⟩
    · obtain ⟨f, hf⟩ : FuseOnly r on (on.fuseRamp r) := on.fuseOnly_modFuse _
      rw [hf]
      exact hon
    · exact (State.railsBut_modRail on r _ q hq).trans (hbut q hq)
  · exact ⟨hsame, hon, hbut⟩

/-- A domain whose last rail is ON (R242). -/
def State.domainUp (s : State) (d : DomainIx) (us : Nat) : State :=
  (s.setDom d .on).modDomain d fun y => { y with upTimeUs := us, stepRail := 255 }

theorem State.domainUp_turns (s : State) (d : DomainIx) (us : Nat) : SameBut [.domains, .mb] s (s.domainUp d us) ∧
    ((s.domainUp d us).domain d).dstate = .on ∧ OnDomain d s (s.domainUp d us) := by
  unfold State.domainUp
  rw [State.domain_modDomain_self]
  exact ⟨same_step (State.setDom_same ..) (State.modDomain_same ..) (by decide), s.dstate_setDom d .on,
    (OnDomain.setDom ..).trans (.modDomain ..)⟩

theorem exec_railQualified {g : Nat} (hrun : s.framesRun = true) (hrd : s.railDomain r = some d)
    (hstart : (s.rail r).seq.qualStart = some g) (hramp : (s.rail r).seq.rseq = .ramp)
    (hdue : elapsed s.now g (usFrames (s.railN r.val Ob.Rail.qualUs)) = true) : exec (.railQualified r) s =
      .next (if ((s.turnedOn r).domain d).dstate != .up then s.turnedOn r
        else if ((s.turnedOn r).railsOf d.val).all fun x => ((s.turnedOn r).rail x).seq.rseq == .on then
          ((s.turnedOn r).domainUp d
            (min (((s.turnedOn r).now - ((s.turnedOn r).domain d).upStart) / 2) maxWord)).record
              Code.domainOn Ob.clsDomain d.val 0
              (leBytes 4 (min (((s.turnedOn r).now - ((s.turnedOn r).domain d).upStart) / 2) maxWord))
        else (s.turnedOn r).schedAfter d r true) := by
  show execRailQualified r s = _
  rw [execRailQualified, hrd, hstart]
  exact congrArg Host.Outcome.next (if_pos (by simp [hrun, hramp, hdue]))

theorem railQualified_turnsOn {g : Nat} (hrun : s.framesRun = true) (hrd : s.railDomain r = some d)
    (hstart : (s.rail r).seq.qualStart = some g) (hramp : (s.rail r).seq.rseq = .ramp)
    (hdue : elapsed s.now g (usFrames (s.railN r.val Ob.Rail.qualUs)) = true) : Completes (.railQualified r) s fun t =>
      (t.rail r).seq.rseq = .on ∧ DomainsBut d s t ∧ t.phases = s.phases ∧
        ((s.domain d).dstate = .up → (∀ x ∈ s.railsOf d.val, x ≠ r → (s.rail x).seq.rseq = .on) →
          (t.domain d).dstate = .on ∧ Logs s t Code.domainOn Ob.clsDomain d.val 0
            (leBytes 4 (min ((s.now - (s.domain d).upStart) / 2) maxWord))) := by
  refine ⟨_, exec_railQualified hrun hrd hstart hramp hdue, ?_⟩
  obtain ⟨hsame, hon, hbut⟩ := s.turnedOn_turns r
  generalize s.turnedOn r = x at *
  have hdomain : ∀ e, x.domain e = s.domain e := fun e => congrArg (Vector.get · e) (hsame.same .domains (by decide))
  have hphases : x.phases = s.phases := hsame.same .phases (by decide)
  have hnow : x.now = s.now := hsame.same .now (by decide)
  have hrails : x.railsOf d.val = s.railsOf d.val := congrArg (Store.railsOf · d.val) (hsame.same .objs (by decide))
  rw [hnow, hdomain d, hrails]
  split
  next hidle =>
    exact ⟨hon, fun e _ => hdomain e, hphases, fun hup => absurd hup (by simpa using hidle)⟩
  next =>
    split
    next hall =>
      obtain ⟨hup, hdst, hothers⟩ := x.domainUp_turns d (min ((s.now - (s.domain d).upStart) / 2) maxWord)
      generalize x.domainUp d (min ((s.now - (s.domain d).upStart) / 2) maxWord) = y at *
      have hrecorded := State.record_frame y Code.domainOn Ob.clsDomain d.val 0
        (leBytes 4 (min ((s.now - (s.domain d).upStart) / 2) maxWord))
      have hlogs := logs_record (s := s) y ((hup.same .recd (by decide)).trans (hsame.same .recd (by decide)))
        ((hup.same .nvm (by decide)).trans (hsame.same .nvm (by decide))) Code.domainOn Ob.clsDomain d.val 0
        (leBytes 4 (min ((s.now - (s.domain d).upStart) / 2) maxWord))
      generalize y.record Code.domainOn Ob.clsDomain d.val 0 (leBytes 4 (min ((s.now - (s.domain d).upStart) / 2) maxWord)) = t
        at *
      have hdomains : ∀ e, t.domain e = y.domain e := fun e => congrArg (Vector.get · e) (hrecorded.same .domains (by decide))
      have hrail : t.rail r = x.rail r :=
        congrArg (Vector.get · r) ((hrecorded.same .rails (by decide)).trans (hup.same .rails (by decide)))
      refine ⟨by rw [hrail, hon], fun e he => ?_, ?_, fun _ _ => ⟨by rw [hdomains, hdst], hlogs⟩⟩
      · rw [hdomains, hothers.others e he, hdomain]
      · exact ((hrecorded.same .phases (by decide)).trans (hup.same .phases (by decide))).trans hphases
    next hwait =>
      obtain ⟨-, hother⟩ := x.schedAfter_schedules d r true
      refine ⟨by rw [State.rail_schedAfter (State.regulating_iff.mpr (by simp [hon])), hon],
        fun e he => (hother.others e he).trans (hdomain e),
        ((State.schedAfter_same x d r true).same .phases (by decide)).trans hphases, fun _ hothers => absurd ?_ hwait⟩
      refine List.all_eq_true.mpr fun q hq => beq_iff_eq.mpr ?_
      by_cases hqr : q = r
      · rw [hqr, hon]
      · rw [hbut q hqr]
        exact hothers q hq hqr

/-! The order of a domain's rails (R239) -/

theorem mem_insertBy {key : RailIx → Nat} {q : RailIx} {l : List RailIx} : r ∈ State.insertBy key q l ↔ r = q ∨ r ∈ l := by
  induction l with
  | nil => simp [State.insertBy]
  | cons a l ih =>
    unfold State.insertBy
    split
    · rw [List.mem_cons]
    · rw [List.mem_cons, ih, List.mem_cons]
      exact or_left_comm

theorem mem_sortBy {key : RailIx → Nat} {l : List RailIx} : r ∈ State.sortBy key l ↔ r ∈ l := by
  have hfold : ∀ acc : List RailIx, r ∈ l.foldl (fun acc q => State.insertBy key q acc) acc ↔ r ∈ acc ∨ r ∈ l := by
    induction l with
    | nil => simp
    | cons a l ih =>
      intro acc
      rw [List.foldl_cons, ih, mem_insertBy, List.mem_cons]
      tauto
  exact (hfold []).trans (by simp)

theorem State.mem_downOrder : r ∈ s.downOrder d ↔ r ∈ s.railsOf d.val := by
  unfold State.downOrder
  split
  · exact mem_sortBy
  · exact List.mem_reverse.trans mem_sortBy

theorem State.mem_railsOf : r ∈ s.railsOf d.val ↔ s.railEn r.val = true ∧ s.railDomain r = some d := by
  have hdomain : (if h : s.railN r.val Ob.Rail.domain < 8 then some (⟨_, h⟩ : DomainIx) else none) = some d ↔
      s.railN r.val Ob.Rail.domain = d.val := by
    split
    · rw [Option.some.injEq, Fin.ext_iff]
    · simp only [reduceCtorEq, false_iff]
      omega
  refine List.mem_filter.trans ?_
  rw [Bool.and_eq_true, beq_iff_eq]
  exact ⟨fun h => ⟨h.2.1, hdomain.mpr h.2.2⟩, fun h => ⟨List.mem_finRange r, h.1, hdomain.mp h.2⟩⟩

/-! A start that fails (R244) -/

theorem State.domain_setDom (s : State) (d : DomainIx) (st : DomSt) :
    (s.setDom d st).domain d = { s.domain d with dstate := st } := by
  unfold State.setDom
  split
  next h => rw [← beq_iff_eq.mp h]
  · exact State.domain_modDomain_self s d _

/-- A domain that goes down waits for the first of its rails that still regulates (R245). -/
theorem State.enterDown_waits (hmem : r ∈ s.railsOf d.val) (hreg : s.regulating r = true) :
    (∃ k, (s.enterDown d).domain d = { s.domain d with dstate := .down, stepRail := k }) ∧
      (s.enterDown d).recd = s.recd ∧ (s.enterDown d).objs = s.objs := by
  unfold State.enterDown
  extract_lets cancelled
  have hcancelled : SameBut [.rails] s cancelled := same_forEach (same_refl ..) fun _ _ => State.modRail_same ..
  have hset := State.setDom_same cancelled d .down
  have hboth : SameBut [.rails, .domains, .mb] s (cancelled.setDom d .down) :=
    same_step (same_mono hcancelled (by decide)) hset (by decide)
  have hunscheduled : LatchesStand s cancelled := by
    refine rel_forEach .refl .trans (fun q _ y => ?_) s
    exact .modRail y q (fun _ h => h) fun _ => rfl
  have hstands := hunscheduled.trans (.setDom cancelled d .down)
  have hdomain : (cancelled.setDom d .down).domain d = { s.domain d with dstate := .down } := by
    rw [State.domain_setDom, show cancelled.domain d = s.domain d from
      congrArg (Vector.get · d) (hcancelled.same .domains (by decide))]
  clear_value cancelled
  generalize cancelled.setDom d .down = x at *
  have hobjs : x.objs = s.objs := hboth.same .objs (by decide)
  have hrails : x.railsOf d.val = s.railsOf d.val := congrArg (Store.railsOf · d.val) hobjs
  have hmem' : r ∈ x.downOrder d := State.mem_downOrder.mpr (by rwa [hrails])
  have hreg' : x.regulating r = true := by
    rw [State.regulating, hstands.rseq]
    exact hreg
  unfold State.nextDown
  split
  next hnone => exact absurd hreg' (by simpa using List.find?_eq_none.mp hnone r hmem')
  next q _ =>
    refine ⟨⟨q.val, ?_⟩, hboth.same .recd (by decide), hobjs⟩
    refine (State.domain_modDomain_self ..).trans ?_
    rw [show (x.modRail q _).domain d = x.domain d from rfl, hdomain]

/-- The state of a domain with a rail whose start failed: the count, the rail, and what comes next. -/
def State.failed (s : State) (r : RailIx) (d : DomainIx) (f : DomainState → DomainState) : State :=
  ((s.count Ob.clsRail r.val Ob.Rail.startFail).modDomain d fun y => { y with failRail := r.val }).modDomain d f

theorem exec_startFail (hrun : s.framesRun = true) (hrd : s.railDomain r = some d) (hup : (s.domain d).dstate = .up)
    (hramp : (s.rail r).seq.rseq = .ramp) (hend : (s.rail r).seq.upEnd ≤ s.now) :
      exec (.startFail r) s = .next (if 0 < (s.domain d).retryLeft then
        ((s.failed r d fun y => { y with retryLeft := (s.domain d).retryLeft - 1, retryFlag := true }).record Code.startFail
          Ob.clsRail r.val 0 (leBytes 1 d.val ++ leBytes 1 ((s.domain d).retryLeft - 1))).enterDown d
      else
        ((s.failed r d fun y => { y with latchFlag := true, latchRail := r.val, latchCause := .startFail }).recordSnap
          Code.startFail Ob.clsRail r.val 0 (leBytes 1 d.val ++ leBytes 1 0) r Latch.startFail.code).enterDown d) := by
  show execStartFail r s = _
  rw [execStartFail, hrd]
  exact congrArg Host.Outcome.next (if_pos (by simp [hrun, hup, hramp, hend]))

/-- A state that the record of a failed start leaves: x differs from s where the record, the count and the domain do. -/
structure FailTold (s : State) (r : RailIx) (d : DomainIx) (f : DomainState → DomainState) (x : State) : Prop where
  follows : Follows (s.count Ob.clsRail r.val Ob.Rail.startFail) x
  latches : LatchesStand s x
  domain : x.domain d = f { s.domain d with failRail := r.val }
  others : OnDomain d s x
  same : SameBut [.objs, .rails, .domains, .twin, .recd, .nvm] s x

theorem failTold_event (f : DomainState → DomainState) (hfollows : Follows (s.failed r d f) x)
    (hlatches : LatchesStand (s.failed r d f) x) (hsame : SameBut [.objs, .rails, .twin, .recd, .nvm] (s.failed r d f) x) :
    FailTold s r d f x := by
  refine ⟨((Follows.modDomain ..).trans (.modDomain ..)).trans hfollows,
    LatchesStand.trans (b := s.failed r d f) (.of_rails rfl) hlatches, ?_, ?_, ?_⟩
  · have hfailed : (s.failed r d f).domain d = f { s.domain d with failRail := r.val } := by
      rw [State.failed, State.domain_modDomain_self, State.domain_modDomain_self]
      rfl
    exact (congrArg (Vector.get · d) (hsame.same .domains (by decide))).trans hfailed
  · exact ((OnDomain.trans (t := s.count Ob.clsRail r.val Ob.Rail.startFail) .still (.modDomain ..)).trans
      (.modDomain ..)).trans (.of_same hsame)
  · have hfailed : SameBut [.objs, .domains] s (s.failed r d f) := same_step (same_step
      (same_mono (State.count_same s ..) (by decide)) (State.modDomain_same ..) (by decide)) (State.modDomain_same ..) (by decide)
    exact same_step (same_mono hfailed (by decide)) hsame (by decide)

/-- The domain of a rail whose start failed waits for that rail, and the count stands. -/
theorem FailTold.goesDown {f : DomainState → DomainState} (h : FailTold s r d f x) (hs : StoreOk s.objs)
    (hrd : s.railDomain r = some d) (hen : s.railEn r.val = true) (hramp : (s.rail r).seq.rseq = .ramp) :
    (∃ k, (x.enterDown d).domain d = { f { s.domain d with failRail := r.val } with dstate := .down, stepRail := k }) ∧
      (x.enterDown d).recd = x.recd ∧ Counts s (x.enterDown d) Ob.clsRail r.val Ob.Rail.startFail ∧
      DomainsBut d s (x.enterDown d) ∧ (x.enterDown d).phases = s.phases := by
  have hok : StoreOk (s.count Ob.clsRail r.val Ob.Rail.startFail).objs := Store.setVal_ok hs ..
  have hobj (k : Nat) (hk : k < 256) (hside : (Ob.clsRail, k) ∉ sideItems) (hne : k ≠ Ob.Rail.startFail) :
      x.obj Ob.clsRail r.val k = s.obj Ob.clsRail r.val k :=
    (h.follows.obj hok _ _ _ (by omega) hk hside).trans
      (State.obj_setObj_ne hs _ _ _ _ _ _ _ (objKey_ne (by omega) hk (by omega) (by decide) (.inr hne)))
  have hen' : x.railEn r.val = true := (congrArg (bit · 0) (hobj Ob.Rail.cfg (by decide) (by decide) (by decide))).trans hen
  have hrd' : x.railDomain r = some d := by
    have hnumber : x.railN r.val Ob.Rail.domain = s.railN r.val Ob.Rail.domain :=
      congrArg BitVec.toNat (hobj Ob.Rail.domain (by decide) (by decide) (by decide))
    exact (congrArg (fun k => if h : k < 8 then some (⟨k, h⟩ : DomainIx) else none) hnumber).trans hrd
  have hreg : x.regulating r = true := State.regulating_iff.mpr (by simp [h.latches.rseq, hramp])
  obtain ⟨hdomain, hrecd, -⟩ := State.enterDown_waits (State.mem_railsOf.mpr ⟨hen', hrd'⟩) hreg
  rw [h.domain] at hdomain
  exact ⟨hdomain, hrecd, counts_of_follows hs ⟨by omega, by decide⟩ (by decide) (.refl s) (h.follows.trans (.enterDown x d)),
    (h.others.trans (.enterDown x)).others,
    ((State.enterDown_same x d).same .phases (by decide)).trans (h.same.same .phases (by decide))⟩

theorem startFail_fails (hs : StoreOk s.objs) (hrun : s.framesRun = true) (hrd : s.railDomain r = some d)
    (hen : s.railEn r.val = true) (hup : (s.domain d).dstate = .up) (hramp : (s.rail r).seq.rseq = .ramp)
    (hend : (s.rail r).seq.upEnd ≤ s.now) : Completes (.startFail r) s fun t => (t.domain d).dstate = .down ∧
      Counts s t Ob.clsRail r.val Ob.Rail.startFail ∧ DomainsBut d s t ∧ t.phases = s.phases ∧
      (0 < (s.domain d).retryLeft → (t.domain d).retryLeft = (s.domain d).retryLeft - 1 ∧ (t.domain d).retryFlag = true ∧
        Logs s t Code.startFail Ob.clsRail r.val 0 (leBytes 1 d.val ++ leBytes 1 ((s.domain d).retryLeft - 1))) ∧
      ((s.domain d).retryLeft = 0 → (t.domain d).latchFlag = true ∧ (t.domain d).latchRail = r.val ∧
        LogsSnap s t Code.startFail Ob.clsRail r.val 0 (leBytes 1 d.val ++ leBytes 1 0) r Latch.startFail) := by
  refine ⟨_, exec_startFail hrun hrd hup hramp hend, ?_⟩
  split
  next hleft =>
    have htold := failTold_event (s := s) (r := r) (d := d)
      (fun y => { y with retryLeft := (s.domain d).retryLeft - 1, retryFlag := true })
      (.record _ Code.startFail Ob.clsRail r.val 0 (leBytes 1 d.val ++ leBytes 1 ((s.domain d).retryLeft - 1))) (.record ..)
      (State.record_same ..)
    obtain ⟨⟨k, hdomain⟩, hrecd, hcounts, hothers, hphases⟩ := htold.goesDown hs hrd hen hramp
    refine ⟨by rw [hdomain], hcounts, hothers, hphases, fun _ => ⟨by rw [hdomain], by rw [hdomain], ?_⟩, fun h => by omega⟩
    exact ⟨s.failed r d _, rfl, rfl, hrecd⟩
  next hleft =>
    have htold := failTold_event (s := s) (r := r) (d := d)
      (fun y => { y with latchFlag := true, latchRail := r.val, latchCause := .startFail })
      (.recordSnap _ Code.startFail Ob.clsRail r.val 0 (leBytes 1 d.val ++ leBytes 1 0) r Latch.startFail.code) (.recordSnap ..)
      (State.recordSnap_same ..)
    obtain ⟨⟨k, hdomain⟩, hrecd, hcounts, hothers, hphases⟩ := htold.goesDown hs hrd hen hramp
    refine ⟨by rw [hdomain], hcounts, hothers, hphases, fun h => absurd h hleft, fun _ => ⟨by rw [hdomain], by rw [hdomain], ?_⟩⟩
    exact ⟨s.failed r d _, rfl, rfl, hrecd⟩

/-! A rail goes down (R245, R246) -/

/-- What the entry into DISCHARGE makes of a rail (R245). -/
theorem State.enterDischarge_discharges (hs : StoreOk s.objs) (r : RailIx) :
    ((s.enterDischarge r).rail r).seq.rseq = .discharge ∧ ((s.enterDischarge r).rail r).dnDue = none ∧
      ((s.enterDischarge r).rail r).seq.disEnd = s.now + msFrames (s.railN r.val Ob.Rail.disTmoMs) ∧
      RailsBut r s (s.enterDischarge r) := by
  unfold State.enterDischarge
  extract_lets faded tuned marked parked
  have hstruck : Follows s faded := (Follows.strokeMismatch s r).trans (.modRail _ r fun _ => rfl)
  have hfollows : Follows s tuned := ((hstruck.trans (.abortSkim faded r)).trans (.abortPassive _ r)).trans (.abortTuneOn _ r 2)
  have hfaded : SameBut [.rails] s faded := same_step (State.strokeMismatch_same s r) (State.modFf_same ..) (by decide)
  have hskimmed : SameBut [.objs, .rails] s ((faded.abortSkim r).abortPassive r) :=
    same_step (same_step (same_mono hfaded (by decide)) (State.abortSkim_same ..) (by decide)) (State.abortPassive_same ..)
      (by decide)
  have htuned : SameBut [.objs, .tune, .mb] ((faded.abortSkim r).abortPassive r) tuned := State.abortTuneOn_same ..
  have hnow : tuned.now = s.now := (htuned.same .now (by decide)).trans (hskimmed.same .now (by decide))
  have hlimit : tuned.railN r.val Ob.Rail.disTmoMs = s.railN r.val Ob.Rail.disTmoMs :=
    congrArg BitVec.toNat (hfollows.obj hs _ _ _ (by omega) (by decide) (by decide))
  have hmarked : marked.rail r = _ := State.rail_modRail_self ..
  have hparked : parked.rails = marked.rails := State.rails_forEach_phases (fun y n => same_mono
    (same_step (State.modSense_same y n _) (State.modGen_same ..) (by decide)) (by decide)) marked
  have hrail : parked.rail r = marked.rail r := congrArg (Vector.get · r) hparked
  have hlast : (parked.disStart r).rail r = _ := State.rail_modRail_self ..
  rw [hlast]
  dsimp only
  rw [hrail, hmarked]
  refine ⟨rfl, rfl, by rw [← hnow, ← hlimit], fun q hq => ?_⟩
  have hdisStart : (parked.disStart r).rail q = parked.rail q := State.railsBut_modRail parked r _ q hq
  have hkept : marked.rail q = tuned.rail q := State.railsBut_modRail tuned r _ q hq
  have htune : tuned.rail q = ((faded.abortSkim r).abortPassive r).rail q :=
    congrArg (Vector.get · q) (htuned.same .rails (by decide))
  have hfade : faded.rail q = (s.strokeMismatch r).rail q := State.railsBut_modRail (s.strokeMismatch r) r _ q hq
  rw [hdisStart, show parked.rail q = marked.rail q from congrArg (Vector.get · q) hparked, hkept, htune,
    (PeriodFrame.abortPassive (n := 0) (faded.abortSkim r)).rails q hq, (PeriodFrame.abortSkim (n := 0) faded).rails q hq, hfade,
    s.strokeMismatch_railsBut r q hq]

theorem railDownStep_discharges {e : Nat} (hs : StoreOk s.objs) (hrun : s.framesRun = true) (hdue : (s.rail r).dnDue = some e)
    (he : e ≤ s.now)
    (hon : (s.rail r).seq.rseq = .ramp ∨ (s.rail r).seq.rseq = .on) : Completes (.railDownStep r) s fun t =>
      (t.rail r).seq.rseq = .discharge ∧ (t.rail r).dnDue = none ∧
        (t.rail r).seq.disEnd = s.now + msFrames (s.railN r.val Ob.Rail.disTmoMs) ∧ t.lawRuns r = false ∧ RailsBut r s t ∧
        SameBut [.objs, .phases, .rails, .tune, .mb] s t := by
  have hexec : exec (.railDownStep r) s = .next (s.enterDischarge r) := by
    show execRailDownStep r s = _
    rw [execRailDownStep, hdue]
    refine congrArg Host.Outcome.next (if_pos ?_)
    obtain h | h := hon
    · simp [hrun, he, h]
    · simp [hrun, he, h]
  obtain ⟨hdis, hnone, hend, hbut⟩ := State.enterDischarge_discharges hs r
  refine ⟨_, hexec, hdis, hnone, hend, ?_, hbut, State.enterDischarge_same ..⟩
  rw [State.lawRuns, hdis]
  rfl

/-- The phases of a rail that leaves regulation stay disabled. -/
theorem State.genOff_leaveRegulation (s : State) (r : RailIx) (b : Bool) {n : PhaseIx} (h : GenOff s n) :
    GenOff (s.leaveRegulation r b) n := by
  unfold State.leaveRegulation
  extract_lets waited faded skimmed tuned shed off
  have htuned : SameBut [.objs, .rails, .tune, .mb] s tuned := by
    have hfaded : SameBut [.rails, .mb] s faded := same_step (same_step (State.endWait_same s r _) (State.strokeMismatch_same ..)
      (by decide)) (State.modFf_same ..) (by decide)
    exact same_step (same_step (same_step (same_mono hfaded (by decide)) (State.abortSkim_same ..) (by decide))
      (State.abortPassive_same ..) (by decide)) (State.abortTuneOn_same ..) (by decide)
  have hkept : GenOff tuned n := by
    rw [GenOff, show tuned.phase n = s.phase n from congrArg (Vector.get · n) (htuned.same .phases (by decide))]
    exact h
  have hshed : GenOff shed n := by
    refine rel_forEach (R := fun a b => GenOff a n → GenOff b n) (fun _ => id) (fun hab hbc => hbc ∘ hab) (fun m _ y hy => ?_)
      tuned hkept
    by_cases hnm : n = m
    · subst hnm
      simpa [GenOff, State.phase_dropCarry] using hy
    · simpa [GenOff, State.phase_dropCarry, hnm] using hy
  have hoff : SameBut [.rails] shed (if b then off else off.fuseOff r) :=
    same_ite (State.modRail_same ..) (same_step (State.modRail_same shed r _) (State.fuseOff_same ..) (by decide))
  rw [GenOff, show (State.phase _ n) = shed.phase n from congrArg (Vector.get · n) (hoff.same .phases (by decide))]
  exact hshed

theorem State.enterOff_ends (hs : StoreOk s.objs) (r : RailIx) : (s.enterOff r).regulating r = false ∧
    (∀ n, s.phaseRail n = some r → ((s.enterOff r).phase n).gen.switching = false) := by
  unfold State.enterOff
  constructor
  · have hoff := (State.leaveRegulation_off (s.disablePhases r) r false).2
    rw [State.regulating, (LatchesStand.railWentOff ((s.disablePhases r).leaveRegulation r false) r).rseq]
    exact hoff
  · intro n hn
    have hoff := State.genOff_leaveRegulation (s.disablePhases r) r false (State.disablePhases_off hs r hn)
    generalize (s.disablePhases r).leaveRegulation r false = x at *
    have hphase : (x.railWentOff r).phase n = x.phase n :=
      congrArg (Vector.get · n) ((State.railWentOff_same x r).same .phases (by decide))
    rw [hphase]
    exact hoff.1

theorem dischargeDone_turnsOff (hs : StoreOk s.objs) (hrun : s.framesRun = true) (hdis : (s.rail r).seq.rseq = .discharge)
    (hdone : 4 ≤ (s.rail r).seq.disRun) : Completes (.dischargeDone r) s fun t => t.regulating r = false ∧
      (∀ n, s.phaseRail n = some r → (t.phase n).gen.switching = false) :=
  completes_when (b := s.framesRun && (s.rail r).seq.rseq == .discharge && decide (4 ≤ (s.rail r).seq.disRun))
    (by simp [hrun, hdis, hdone]) rfl (State.enterOff_ends hs r)

theorem dischargeTimeout_turnsOff (hs : StoreOk s.objs) (hrun : s.framesRun = true) (hdis : (s.rail r).seq.rseq = .discharge)
    (hend : (s.rail r).seq.disEnd ≤ s.now) : Completes (.dischargeTimeout r) s fun t => t.regulating r = false ∧
      Counts s t Ob.clsRail r.val Ob.Rail.dischargeTimeout := by
  refine completes_when (b := s.framesRun && (s.rail r).seq.rseq == .discharge && decide ((s.rail r).seq.disEnd ≤ s.now))
    (by simp [hrun, hdis, hend]) rfl ?_
  have hrecorded := Follows.record (s.count Ob.clsRail r.val Ob.Rail.dischargeTimeout) Code.dischargeTimeout Ob.clsRail r.val 0
    (leBytes 4 (State.qWord (((s.count Ob.clsRail r.val Ob.Rail.dischargeTimeout).rail r).meas.vCoarse * 1000)))
  have hok : StoreOk (s.count Ob.clsRail r.val Ob.Rail.dischargeTimeout).objs := Store.setVal_ok hs ..
  refine ⟨(State.enterOff_ends (hrecorded.ok hok) r).1, counts_of_follows hs ⟨by omega, by decide⟩ (by decide) (.refl s) ?_⟩
  exact hrecorded.trans (((Follows.disablePhases _ r).trans (.leaveRegulation _ r false)).trans (.railWentOff _ r))

/-- Settles O52: one lemma per command of the sequencer. -/
theorem domainsSequence : Obligations.DomainsSequence := by
  intro s hs hrun
  refine ⟨fun _ => enPinChange_requests hs.store hrun, fun d hhold hfree => ⟨fun hoff hreq hrails => ?_, fun hwait hend => ?_⟩,
    fun r d hrd hen => ⟨fun e hdue hup hoff => ⟨railUpStep_ramps hrun hrd hdue hup hoff, railUpStep_waits hrd hdue⟩,
      fun g => railQualified_turnsOn hrun hrd, startFail_fails hs.store hrun hrd hen,
      fun e => railDownStep_discharges hs.store hrun,
      dischargeDone_turnsOff hs.store hrun, dischargeTimeout_turnsOff hs.store hrun⟩⟩
  · refine completes_mono (domainUnblocked_starts hs.store hrun hhold hfree hoff hreq hrails) fun t h => ?_
    exact ⟨h.dstate, h.since, h.retries, h.device, h.counts, h.others, h.shows, h.first, h.same⟩
  · refine completes_mono (domainRetry_starts hs.store hrun hhold hfree hwait hend) fun t h => ?_
    exact ⟨h.dstate, h.since, h.retries, h.device, h.counts, h.others, h.shows, h.first, h.same⟩

end Sys2Proof.Machine
end
